-- ==== Sys2Proof/Word.lean ====
section
/-!
DEFINITION. The word types of the GZV-512 model and their plainest conversions.
Every register is 32 bits (R392) and every multi-byte field is little-endian (R3).
-/
namespace Sys2Proof

/-- A register or engine word (R392, R176). -/
abbrev Word := BitVec 32
/-- One byte. -/
abbrev Byte := BitVec 8

/-- Tile number T000 to T511 (R10). -/
abbrev TileId := Fin 512
/-- Panel number P0 to P7 (R10). -/
abbrev PanelId := Fin 8
/-- Head number 0 to 7. -/
abbrev HeadId := Fin 8
/-- GPIO pin G000 to G127 (R361). -/
abbrev PinId := Fin 128

/-- Bits `[hi:lo]` of a register word, read as a number. -/
def Word.field (w : Word) (hi lo : Nat) : Nat := (w.extractLsb hi lo).toNat

/-- Bit `i` of a register word. -/
def Word.bit (w : Word) (i : Nat) : Bool := w.getLsbD i

/-- Words composed of fields: `x` placed with its least bit at `lo`. -/
def Word.put (x lo : Nat) : Word := BitVec.ofNat 32 (x <<< lo)

/-- 1 at bit `i` where `b` holds. -/
def Word.flag (b : Bool) (i : Nat) : Word := Word.put b.toNat i

/-- The bits of `v` under the mask, and the bits of `old` outside it. -/
def Word.merge (old v mask : Word) : Word := (old &&& ~~~mask) ||| (v &&& mask)

end Sys2Proof
end

