-- ==== Sys2Proof/Syntax.lean ====
section
/-!
DEFINITION. The commands of the GZV-512 (spec/opcode_table.json): one constructor per row, and the operand types they use.
A row is either something sent from outside or a step of one of the module's own units; what such a step meets outside
the module (a measured value, an answer, how a transfer goes) is its operand.
-/
namespace Sys2Proof

abbrev Reg4 := BitVec 4
abbrev Imm18 := BitVec 18
abbrev Off22 := BitVec 22

/-- What a command shows of the source of an analogue path (log 19): its value, and its values at the base clock edges since the
path was last looked at, oldest first. -/
structure Signal where
  now  : Int
  past : List Int := []
  deriving DecidableEq, Repr, Inhabited

/-- How an operation with exactly one retry goes (R321): the first attempt passes, the second passes (TRANSIENT),
or both fail (LASTING). -/
inductive Attempt where
  | clean | second | failed
  deriving DecidableEq, Repr, Inhabited

/-- A descriptor as fetched from a command queue (R278), less its opcode, which the constructor names.
`body` holds bytes 24 to 63: byte 24 + k at bits 8k + 7 to 8k (R3). `rd` and `wr` say how the host-memory reads and
writes of the command go (R280), `cw` how its completion write goes (R289). -/
structure Desc where
  queue  : Fin 16 := 0
  flags  : Byte := 0
  tag    : BitVec 16 := 0
  target : Word := 0
  buffer : BitVec 64 := 0
  length : Word := 0
  coat   : Word := 0
  body   : BitVec 320 := 0
  rd     : Attempt := .clean
  wr     : Attempt := .clean
  cw     : Attempt := .clean
  deriving DecidableEq, Repr, Inhabited

/-- The two comparators of a tile (R152). -/
inductive Cmp where
  | a | b
  deriving DecidableEq, Repr, Inhabited

/-- The converter rails of R275 and R324 (RAIL_START), in the order of ARG0. -/
inductive Rail where
  | pvh (p : PanelId) | vddCore | vdda | vio | v18 | hlv
  deriving DecidableEq, Repr, Inhabited

/-- A unit under the STUCK rule: a comparator (R167) or a pin (R369). -/
inductive StuckUnit where
  | cmp (t : TileId) (c : Cmp) | pin (p : PinId)
  deriving DecidableEq, Repr, Inhabited

/-- What causes a sync edge (R148): the scheduled sync with its place in the module's list, or a pin event on the sync
line of one group. -/
inductive SyncSource where
  | scheduled (k : Fin 4) | pin (g : Fin 16)
  deriving DecidableEq, Repr, Inhabited

/-- One fitted calibration entry: the entry of R346, the fitted value, the residual of the verifying measurement, whether
the scatter of f_r and the panel temperature stayed inside R350. -/
structure CalFit where
  code : Nat
  sub  : Nat
  unit : Nat
  value : Int
  residual : Nat
  steady : Bool
  deriving DecidableEq, Repr, Inhabited

/-- The configuration-space settings that change the module's behaviour (CONFIG_SPACE_WRITE). -/
inductive CfgItem where
  | aspmL1 | l12 | ptm | ecrc | msixFunctionMask
  deriving DecidableEq, Repr, Inhabited

/-- One constructor per row of spec/opcode_table.json, in its order. -/
inductive Instr where
  /-- NOP (R304): Descriptor that does nothing and completes OK, acting as a queue barrier when FENCE is set. -/
  | nop (d : Desc)
  /-- SET_POWER_STATE (R268): Checks and starts a change of module and panel power states through the steps of R269. -/
  | setPowerState (d : Desc)
  /-- GRANT_POWER (R259): Sets or reports the power grant against the adapter LIMIT and the present allocation. -/
  | grantPower (d : Desc)
  /-- QUERY_STATUS (R304): Returns SYSTIME and, with LENGTH 64, a status block sampled at one instant. -/
  | queryStatus (d : Desc)
  /-- LOAD_IMAGE (R336): Loads a full, partial or netlist image from the host buffer into the device or a store slot; `frames`: how the frame read-backs go (R333 step 3). -/
  | loadImage (d : Desc) (frames : Attempt)
  /-- LOAD_IMAGE_FROM_STORE (R336): Loads the image in a store slot into the device under the DEST 0 rules; `store`: how the store read goes (R319). -/
  | loadImageFromStore (d : Desc) (store frames : Attempt)
  /-- STORE_WRITE (R328): Writes the host buffer into the user area of the serial store. -/
  | storeWrite (d : Desc)
  /-- STORE_READ (R328): Reads a range of the serial store into the host buffer, subject to lifecycle. -/
  | storeRead (d : Desc) (store : Attempt)
  /-- DEFINE_CHAIN (R209): Defines a chain from stage and link records after checking them. -/
  | defineChain (d : Desc)
  /-- PLACE_CHAIN (R216): Places a chain with the on-device placer and stages it for a coat. -/
  | placeChain (d : Desc)
  /-- APPLY_PLACEMENT (R222): Checks a host placement record and applies it whole or refuses it. -/
  | applyPlacement (d : Desc)
  /-- RELEASE_CHAIN (R223): Stops a chain's engines, resets its registers and frees its resources. -/
  | releaseChain (d : Desc)
  /-- STAGE_COAT (R232): Opens a coat and writes register items into its shadow; `shadow`: how the shadow read-back goes (R232). -/
  | stageCoat (d : Desc) (shadow : Attempt)
  /-- COMMIT_COAT (R235): Names the commit point of the open coat, or discards it. -/
  | commitCoat (d : Desc)
  /-- FENCE_TILE (R244): Fences a tile and either re-places its stages or leaves its chains broken. -/
  | fenceTile (d : Desc)
  /-- READMIT_TILE (R245): Returns a fenced tile to service after a BIST pass. -/
  | readmitTile (d : Desc)
  /-- RESERVE_SPARES (R229): Sets the spare tiles by count per panel or by tile map. -/
  | reserveSpares (d : Desc)
  /-- LOAD_PROGRAM (R204): Loads an engine memory image into the program store or directly into a tile. -/
  | loadProgram (d : Desc)
  /-- START_ENGINE (R205): Starts or resumes the targeted engines on one ECK edge. -/
  | startEngine (d : Desc)
  /-- STOP_ENGINE (R206): Stops the targeted engines, optionally clearing their state. -/
  | stopEngine (d : Desc)
  /-- ENGINE_MESSAGE (R207): Delivers a host message to a tile engine's inbox. -/
  | engineMessage (d : Desc)
  /-- LOAD_WAVEFORM (R89): Writes a waveform index into the shadow copies of a tile or head and schedules it to go live; `shadow`: how the shadow read-back goes (R91). -/
  | loadWaveform (d : Desc) (shadow : Attempt)
  /-- DEFINE_HEAD (R26): Defines a head and its nozzle map after checking them. -/
  | defineHead (d : Desc)
  /-- DEFINE_JOB (R29): Defines a job from a job block in the print store. -/
  | defineJob (d : Desc)
  /-- LOAD_GLYPHS (R35): Loads glyphs into a glyph table, applied in one step after checking. -/
  | loadGlyphs (d : Desc)
  /-- SET_DATE_SLOTS (R39): Writes date slots and the warning lead. -/
  | setDateSlots (d : Desc)
  /-- ARM_JOB (R44): Arms a job on its head after the checks of the arming table. -/
  | armJob (d : Desc)
  /-- SWAP_JOB (R47): Schedules a replacement of the armed job at the head's next product boundary. -/
  | swapJob (d : Desc)
  /-- DISARM (R48): Disarms a job, letting products in flight finish or stopping them. -/
  | disarm (d : Desc)
  /-- SET_COUNTER (R38): Sets a job counter's value for the next accepted detect. -/
  | setCounter (d : Desc)
  /-- SPIT (R117): Fires a range of nozzles repeatedly, optionally listening after each nozzle. -/
  | spit (d : Desc)
  /-- SET_NOZZLE_STATUS (R112): Writes the status of a range of nozzles and clears their PENDING bits. -/
  | setNozzleStatus (d : Desc)
  /-- READ_NOZZLE_MAP (R113): Copies nozzle status map entries from one snapshot to the host. -/
  | readNozzleMap (d : Desc)
  /-- LISTEN_SWEEP (R116): Runs a spit-and-listen pass of every nozzle or a continuous-inkjet phase search. -/
  | listenSweep (d : Desc)
  /-- SET_COMPENSATION (R52): Sets a head's mapper, grey boost and coverage weights. -/
  | setCompensation (d : Desc)
  /-- CALIBRATE (R351): Measures one calibration quantity, or all tile quantities, into the pending set. -/
  | calibrate (d : Desc)
  /-- READ_CAL_SET (R360): Copies matching entries of a calibration set to the host. -/
  | readCalSet (d : Desc)
  /-- WRITE_CAL_SET (R360): Checks entries and merges them into a stored, skim or pending set. -/
  | writeCalSet (d : Desc)
  /-- APPLY_CAL (R356): Makes the pending set live, discards it, or clears override marks. -/
  | applyCal (d : Desc)
  /-- OPEN_STREAM (R290): Opens a stream ring or binds a further source to it. -/
  | openStream (d : Desc)
  /-- CLOSE_STREAM (R291): Flushes, closes and unbinds a stream ring. -/
  | closeStream (d : Desc)
  /-- SYNC_DECIMATORS (R150): Schedules a sync of decimator sync groups, optionally sending a tally SYNC frame. -/
  | syncDecimators (d : Desc)
  /-- RUN_BIST (R342): Runs logic BIST on a fenced tile in one of three modes. -/
  | runBist (d : Desc)
  /-- SCRUB_RANGE (R315): Runs one scrub pass over part of a memory region. -/
  | scrubRange (d : Desc)
  /-- READ_LEDGER (R325): Copies ledger entries from a sequence number onward to the host. -/
  | readLedger (d : Desc)
  /-- RETIRE_PAGE (R317): Retires one 1 KiB page of tile memory until module reset. -/
  | retirePage (d : Desc)
  /-- FIELD_REPAIR (R318): Blows one field repair entry for a memory bank; `fuse`: how the fuse blow goes (R318). -/
  | fieldRepair (d : Desc) (fuse : Attempt)
  /-- SET_FUNCTION_MODE (R303): Changes the hardware or host split of selected functions in FN_MODE. -/
  | setFunctionMode (d : Desc)
  /-- TALLY_CONFIG (R388): Sets the station, master, stitch ranges or readmission, or queries the tally state. -/
  | tallyConfig (d : Desc)
  /-- TALLY_SEND (R389): Sends one HOLD or STITCH frame on the tally bus. -/
  | tallySend (d : Desc)
  /-- BAD_OPCODE_DESCRIPTOR (R283): A descriptor whose opcode is not in the index completes with BAD_OPCODE. -/
  | badOpcodeDescriptor (opcode : Byte) (d : Desc)
  /-- DESCRIPTOR_FETCH (R286): The ring engine fetches the next descriptor from a command queue once room and rank allow; `fetch`: how the host-memory read goes (R289). -/
  | descriptorFetch (q : Fin 16) (fetch : Attempt)
  /-- ADD (R184): Engine instruction d := a + b. -/
  | add (t : TileId) (d a b : Reg4)
  /-- SUB (R184): Engine instruction d := a - b. -/
  | sub (t : TileId) (d a b : Reg4)
  /-- AND (R184): Engine instruction d := a and b. -/
  | and (t : TileId) (d a b : Reg4)
  /-- OR (R184): Engine instruction d := a or b. -/
  | or (t : TileId) (d a b : Reg4)
  /-- XOR (R184): Engine instruction d := a xor b. -/
  | xor (t : TileId) (d a b : Reg4)
  /-- SHL (R184): Engine left shift by register. -/
  | shl (t : TileId) (d a b : Reg4)
  /-- SHR (R184): Engine logical right shift by register. -/
  | shr (t : TileId) (d a b : Reg4)
  /-- SAR (R184): Engine arithmetic right shift by register. -/
  | sar (t : TileId) (d a b : Reg4)
  /-- CMP (R184): Engine compare setting flags of a - b. -/
  | cmp (t : TileId) (d a b : Reg4)
  /-- ADDI (R184): Engine add of a sign-extended immediate. -/
  | addi (t : TileId) (d a : Reg4) (imm : Imm18)
  /-- ANDI (R184): Engine and with a zero-extended immediate. -/
  | andi (t : TileId) (d a : Reg4) (imm : Imm18)
  /-- ORI (R184): Engine or with a zero-extended immediate. -/
  | ori (t : TileId) (d a : Reg4) (imm : Imm18)
  /-- SHLI (R184): Engine left shift by immediate. -/
  | shli (t : TileId) (d a : Reg4) (imm : Imm18)
  /-- SHRI (R184): Engine logical right shift by immediate. -/
  | shri (t : TileId) (d a : Reg4) (imm : Imm18)
  /-- SARI (R184): Engine arithmetic right shift by immediate. -/
  | sari (t : TileId) (d a : Reg4) (imm : Imm18)
  /-- CMPI (R184): Engine compare with a sign-extended immediate. -/
  | cmpi (t : TileId) (d a : Reg4) (imm : Imm18)
  /-- LUI (R184): Engine load of an immediate shifted left by 14. -/
  | lui (t : TileId) (d a : Reg4) (imm : Imm18)
  /-- MUL (R184): Engine multiply, low 32 bits. -/
  | mul (t : TileId) (d a b : Reg4)
  /-- MULH (R184): Engine signed multiply, high 32 bits. -/
  | mulh (t : TileId) (d a b : Reg4)
  /-- MAC (R185): Engine saturating multiply-accumulate of halfwords into acc; `h`: sub-function bits [9:8] (R185). -/
  | mac (t : TileId) (h : BitVec 2) (d a b : Reg4)
  /-- MSU (R185): Engine saturating multiply-subtract of halfwords from acc; `h`: sub-function bits [9:8] (R185). -/
  | msu (t : TileId) (h : BitVec 2) (d a b : Reg4)
  /-- WRACC (R184): Engine write of a sign-extended register into acc. -/
  | wracc (t : TileId) (d a b : Reg4)
  /-- RDACC (R185): Engine read of acc shifted and saturated to 32 bits. -/
  | rdacc (t : TileId) (d a : Reg4) (imm : Imm18)
  /-- LDW (R179): Engine word load. -/
  | ldw (t : TileId) (d a : Reg4) (imm : Imm18)
  /-- LDH (R179): Engine sign-extended halfword load. -/
  | ldh (t : TileId) (d a : Reg4) (imm : Imm18)
  /-- LDBU (R179): Engine zero-extended byte load. -/
  | ldbu (t : TileId) (d a : Reg4) (imm : Imm18)
  /-- STW (R179): Engine word store. -/
  | stw (t : TileId) (d a : Reg4) (imm : Imm18)
  /-- STH (R179): Engine halfword store. -/
  | sth (t : TileId) (d a : Reg4) (imm : Imm18)
  /-- STB (R179): Engine byte store. -/
  | stb (t : TileId) (d a : Reg4) (imm : Imm18)
  /-- B (R184): Engine conditional branch. -/
  | b (t : TileId) (cond : Reg4) (off : Off22)
  /-- BL (R184): Engine conditional branch with link in e15. -/
  | bl (t : TileId) (cond : Reg4) (off : Off22)
  /-- JALR (R184): Engine jump to register plus offset with link. -/
  | jalr (t : TileId) (d a : Reg4) (imm : Imm18)
  /-- LOOP (R189): Engine opens a loop level with a register count. -/
  | loop (t : TileId) (d a : Reg4) (imm : Imm18)
  /-- LOOPI (R189): Engine opens a loop level with an immediate count. -/
  | loopi (t : TileId) (d a : Reg4) (imm : Imm18)
  /-- WAIT (R192): Engine waits for masked EVM events, optionally with a timeout. -/
  | wait (t : TileId) (d a b : Reg4)
  /-- TRIG (R194): Engine drives its TRIG line high for one FCK cycle. -/
  | trig (t : TileId) (d a b : Reg4)
  /-- ARM (R195): Engine schedules one timed action, replacing or cancelling the pending one. -/
  | arm (t : TileId) (d a b : Reg4)
  /-- CAPT (R196): Engine pops the oldest capture FIFO entry. -/
  | capt (t : TileId) (d a b : Reg4)
  /-- ADCP (R197): Engine pops the oldest ADC FIFO word, blocking while empty. -/
  | adcp (t : TileId) (d a b : Reg4)
  /-- ADCPN (R197): Engine pops the oldest ADC FIFO word without blocking. -/
  | adcpn (t : TileId) (d a b : Reg4)
  /-- DACS (R198): Engine plays a waveform on its trowel as a fire, or is refused. -/
  | dacs (t : TileId) (d a b : Reg4)
  /-- CMPSET (R199): Engine writes a comparator threshold. -/
  | cmpset (t : TileId) (d a b : Reg4)
  /-- CMPCLR (R199): Engine clears comparator latches. -/
  | cmpclr (t : TileId) (d a b : Reg4)
  /-- SEND (R200): Engine places a message in its outbox, stalling while it is full. -/
  | send (t : TileId) (d a b : Reg4)
  /-- RECV (R201): Engine pops the oldest inbox message, blocking while empty. -/
  | recv (t : TileId) (d a b : Reg4)
  /-- RECVN (R201): Engine pops the oldest inbox message without blocking. -/
  | recvn (t : TileId) (d a b : Reg4)
  /-- SLEEP (R193): Engine stalls until an enabled interrupt is pending. -/
  | sleep (t : TileId) (d a b : Reg4)
  /-- HALT (R184): Engine enters HALTED after earlier stores and SENDs complete. -/
  | halt (t : TileId) (d a b : Reg4)
  /-- FENCE (R188): Engine stalls until earlier stores and SENDs have left it. -/
  | fence (t : TileId) (d a b : Reg4)
  /-- RETI (R193): Engine returns from an interrupt to EPC and sets IE. -/
  | reti (t : TileId) (d a b : Reg4)
  /-- MFS (R190): Engine reads a special register. -/
  | mfs (t : TileId) (d a : Reg4) (imm : Imm18)
  /-- MTS (R190): Engine writes a special register. -/
  | mts (t : TileId) (d a : Reg4) (imm : Imm18)
  /-- ENGINE_STALL_RESUME (R187): A stalled blocking instruction completes once its event, word, message, outbox room or drain arrives. -/
  | engineStallResume (t : TileId)
  /-- WAIT_TIMEOUT (R192): A WAIT gives up after b engine cycles and writes 0. -/
  | waitTimeout (t : TileId)
  /-- ENGINE_INTERRUPT (R193): The engine takes a pending enabled interrupt between instructions. -/
  | engineInterrupt (t : TileId)
  /-- ARM_ACTION (R195): The pending ARM action fires when SYSTIME reaches its time. -/
  | armAction (t : TileId)
  /-- MESSAGE_DELIVERY (R202): A message reaches its destination inbox or host ring, or is dropped; oldest message of the outbox of tile `t`; `flit`: spine parity (R319). -/
  | messageDelivery (t : TileId) (flit : Attempt)
  /-- INBOX_FULL_TIMEOUT (R202): A message whose destination inbox stays full for 4 µs is dropped. -/
  | inboxFullTimeout (t : TileId)
  /-- CQ_TAIL_DOORBELL (R285): Host write of a command queue tail index. -/
  | cqTailDoorbell (n : Fin 16) (v : Word) (size : Nat)
  /-- CP_HEAD_DOORBELL (R285): Host write of the consumed completion index. -/
  | cpHeadDoorbell (n : Fin 16) (v : Word) (size : Nat)
  /-- ST_CONSUMED_DOORBELL (R285): Host write of the consumed stream ring offset, which also re-arms its vector. -/
  | stConsumedDoorbell (n : Fin 32) (v : Word) (size : Nat)
  /-- PQ_TAIL_DOORBELL (R285): Host write of a print queue tail index. -/
  | pqTailDoorbell (n : Fin 8) (v : Word) (size : Nat)
  /-- CQ_ENABLE (R284): Writing CQn_CFG.EN 1 starts a queue pair at index 0 and phase 1. -/
  | cqEnable (n : Fin 16) (v : Word)
  /-- CQ_STOP (R289): Writing CQn_CFG.EN 0 stops fetching while descriptors in progress finish. -/
  | cqStop (n : Fin 16) (v : Word)
  /-- PQ_ENABLE (R297): Writing PQn_CFG.EN 1 starts a print queue bound to its head. -/
  | pqEnable (n : Fin 8) (v : Word)
  /-- PQ_STOP (R297): Writing PQn_CFG.EN 0 stops a print queue. -/
  | pqStop (n : Fin 8) (v : Word)
  /-- LEAVE_DORMANT (R271): Writing 1 to PWR_CTRL.LEAVE_DORMANT in DORMANT starts the return to STANDBY. -/
  | leaveDormant (v : Word)
  /-- SEC_LC_ADV_WRITE (R340): A write to SEC_LC_ADV that forms half of the two-write lifecycle advance; `fuse`: how the fuse blow goes (R340). -/
  | secLcAdvWrite (v : Word) (fuse : Attempt)
  /-- SEC_KEY_CMD_WRITE (R341): A write to SEC_KEY_CMD that programs a key slot in OPEN; `fuse`: how the fuse blow goes (R340). -/
  | secKeyCmdWrite (v : Word) (fuse : Attempt)
  /-- PIN_LOCK_WRITE (R372): A write to PIN_LOCK that forms half of the two-write pin lock sequence. -/
  | pinLockWrite (v : Word)
  /-- MEM_FLIP_ARM (R316): Setting MEM_FLIP_SEL.ARM makes the next write to the selected region flip masked bits. -/
  | memFlipArm (v : Word)
  /-- MEM_CODE_WRITE (R311): A write that changes MEM_CODE starts priming buffer regions 1 to 3 under the new codes. -/
  | memCodeWrite (v : Word)
  /-- TRIP_CLEAR (R96): Writing 1 to T_TRWL.TRIP schedules the trowel's re-enable. -/
  | tripClear (t : TileId) (v : Word)
  /-- COMPARATOR_STUCK_CLEAR (R167): Writing 1 to a comparator's STUCK lets its events resume. -/
  | comparatorStuckClear (t : TileId) (c : Cmp) (v : Word)
  /-- PIN_STUCK_CLEAR (R369): Writing 1 to a PIN_STUCK bit lets the pin's events resume. -/
  | pinStuckClear (k : Fin 4) (v : Word)
  /-- GPIO_OUT_WRITE (R365): Masked write of software pin values. -/
  | gpioOutWrite (k : Fin 8) (v : Word)
  /-- SYSTIME_LO_READ (R401): A read of SYSTIME_LO that latches SYSTIME[63:32] into SYSTIME_HI. -/
  | systimeLoRead
  /-- SCRUB_CTRL_WRITE (R314): A write to SCRUB_CTRL that goes to all three voted copies. -/
  | scrubCtrlWrite (v : Word)
  /-- ENC_COUNT_WRITE (R375): A host write that jumps an encoder channel's position. -/
  | encCountWrite (n : Fin 8) (v : Word)
  /-- ADC_ENABLE_WRITE (R132): Setting T_ADC.EN starts the SAR's conversion schedule, and clearing it stops the SAR. -/
  | adcEnableWrite (t : TileId) (v : Word)
  /-- ILV_WRITE (R138): Setting T_ADC.ILV joins the partner SAR, or is refused. -/
  | ilvWrite (t : TileId) (v : Word)
  /-- DEC_WRITE (R147): Writing T_FLT.DEC while running restarts the decimation chain. -/
  | decWrite (t : TileId) (v : Word)
  /-- REF_SELECT_WRITE (R136): A write that changes PNL_REF.SEL clears REFOK and changes the panel reference. -/
  | refSelectWrite (p : PanelId) (v : Word)
  /-- COMPARATOR_ENABLE_WRITE (R155): Setting a comparator's EN powers it up. -/
  | comparatorEnableWrite (t : TileId) (c : Cmp) (v : Word)
  /-- VSET_WRITE (R93): A write to PNL_PVH.VSET slews the rail to its new value. -/
  | vsetWrite (p : PanelId) (v : Word)
  /-- PVH_EN_WRITE (R275): A host-assisted write to PWR_RAILS that enables or disables rails. -/
  | pvhEnWrite (v : Word)
  /-- HLV_CTRL_WRITE (R261): A write to HLV_CTRL, checked against the grant, that sets the head logic supply. -/
  | hlvCtrlWrite (v : Word)
  /-- EV_ENABLE_WRITE (R300): A write to EV_ENABLE that sends a message when it enables an already set event. -/
  | evEnableWrite (v : Word)
  /-- REGISTER_WRITE (R394): A BAR0 write to a register with no row of its own, applied under the access codes and state rules; `size`: bytes written (R392). -/
  | registerWrite (off : BitVec 16) (v : Word) (size : Nat)
  /-- SHARED_MEMORY_ACCESS (R256): A host access to BAR4 that reaches shared memory in OPEN, or reads 0 elsewhere; a read of `len` bytes, or a write of `data`. -/
  | sharedMemoryAccess (off : BitVec 28) (len : Nat) (data : Option (List Byte))
  /-- MSIX_UNMASK (R301): Unmasking a vector sends the message pending in its PBA bit; a write of the vector control word; bit 0 clear unmasks. -/
  | msixUnmask (v : Fin 64) (control : Word)
  /-- D3HOT_ENTRY (R256): A PCI power-management change that stops endpoint memory decoding only; `enter` false: the return to D0. -/
  | d3hotEntry (enter : Bool)
  /-- LINK_DETECTION (R249): Detection voltage on the link is met by the 24.9 kΩ signature; `mv`: pad voltage in mV. -/
  | linkDetection (mv : Nat)
  /-- LINK_POWER_UP (R250): The pad voltage rises through 41 V and the module starts; `mv`: pad voltage in mV. -/
  | linkPowerUp (mv : Nat)
  /-- INRUSH_END (R250): The 20 ms inrush period ends and the default 15 W limit governs. -/
  | inrushEnd
  /-- LINK_POWER_LOSS (R250): The pad voltage falls below 36 V and the module stops, losing the AON state; `mv`: pad voltage in mV. -/
  | linkPowerLoss (mv : Nat)
  /-- MODULE_RESET (R254): Clears volatile state, runs the primer and the bursar BIST, and starts the boot image load; `cause`: code of RESET_CAUSE (R398); `bist`: the bursar BIST (R345). -/
  | moduleReset (cause : BitVec 2) (bist : Attempt)
  /-- BOOT_IMAGE_LOAD (R335): The boot slot image, or the fallback, loads after reset and the module ends in STANDBY; how the two store reads and the frame read-backs go. -/
  | bootImageLoad (boot fallback : Attempt) (frames : Attempt)
  /-- PERST (R254): A PCIe fundamental reset resets the endpoint, BARs, rings and MSI-X state only. -/
  | perst
  /-- HOT_RESET (R254): A PCIe hot reset acts on the endpoint and rings as PERST does. -/
  | hotReset
  /-- JSB_PERST (R253): An adapter frame that asserts or releases PCIe fundamental reset. -/
  | jsbPerst (v : BitVec 12)
  /-- JSB_LIMIT (R253): An adapter frame that sets the limit, possibly cutting the grant, and is answered with STATUS. -/
  | jsbLimit (v : BitVec 12)
  /-- JSB_WAKE (R271): An adapter frame that makes the module leave DORMANT. -/
  | jsbWake (v : BitVec 12)
  /-- JSB_MODULE_RESET (R254): An adapter frame with value 0xA5C that causes a module reset. -/
  | jsbModuleReset (v : BitVec 12)
  /-- JSB_POLL (R253): An adapter frame answered with a STATUS frame. -/
  | jsbPoll (v : BitVec 12)
  /-- JSB_NAK (R252): A received NAK makes the sender repeat its last frame once. -/
  | jsbNak (v : BitVec 12)
  /-- JSB_CRC_ERROR (R252): A received frame that fails its CRC is answered with NAK, or dropped after a failed repeat. -/
  | jsbCrcError
  /-- JSB_COLLISION_RETRY (R252): After a collision the module sends its frame again once the line has been idle for 8 bit times. -/
  | jsbCollisionRetry
  /-- LINK_L1_ENTRY (R257): After 10 µs of link idle the endpoint requests L1. -/
  | linkL1Entry
  /-- PTM_DIALOGUE (R258): A periodic PTM exchange that aligns or disciplines SYSTIME; host PTM time, and the rate correction it yields in 0.01 ppm. -/
  | ptmDialogue (host : BitVec 64) (rate : BitVec 16)
  /-- SCK_TICK (R16): An SCK tick advances SYSTIME, realigns interpolation and paces the scrubber and the votes. -/
  | sckTick
  /-- SCRUB_BURST (R313): Every 64 SCK ticks in ARMED with fast clocks stopped, a QCK-only scrub burst runs. -/
  | scrubBurst
  /-- SCRUB_STARVATION_GRANT (R313): After waiting 4,096 FCK cycles, the scrubber is granted one access at bursar rank. -/
  | scrubStarvationGrant
  /-- WAKE_TIMER_EXPIRY (R419): The timer reaches WAKE_TIME, clears TIMER_EN and wakes an ARMED module. -/
  | wakeTimerExpiry
  /-- SCHEDULED_WAKE (R277): Fast clocks start 20 µs before a pending ARM action, sync or commit point. -/
  | scheduledWake
  /-- QCK_USABLE (R13): QCK becomes usable 100 ns after the wake and clocked logic runs on it. -/
  | qckUsable
  /-- PLL_LOCK (R14): The PLL locks and changeover is scheduled. -/
  | pllLock
  /-- PLL_LOCK_TIMEOUT (R15): The PLL fails to lock within 50 µs and is restarted once, or left on QCK. -/
  | pllLockTimeout
  /-- CHANGEOVER (R84): At the next stroke boundary after lock, or within 64 QCK cycles, clocks change glitch-free from QCK to FCK. -/
  | changeover
  /-- FAST_CLOCK_STOP (R23): Fast clocks stop once no stroke, listen, engine, SAR or staged record holds them. -/
  | fastClockStop
  /-- HEARTBEAT_PROBE (R243): The bursar probes each placed tile every 32 SCK ticks. -/
  | heartbeatProbe (t : TileId)
  /-- HEARTBEAT_TIMEOUT (R243): A probe unanswered within 1 µs leads to a second probe or a fence. -/
  | heartbeatTimeout (t : TileId)
  /-- TILE_REPLACEMENT (R230): The module re-places a fenced tile's stages in a coat of its own. -/
  | tileReplacement (t : TileId)
  /-- PLACEMENT_READY_COMMIT (R217): An unbound placement commits at the first FCK edge after every affected tile is ready. -/
  | placementReadyCommit
  /-- COAT_COMMIT (R236): At the commit point every affected unit switches from shadow to live, or the coat aborts. -/
  | coatCommit
  /-- COAT_MAX_WAIT_EXPIRY (R235): A commit point not reached within MAX_WAIT aborts the coat. -/
  | coatMaxWaitExpiry
  /-- COAT_READBACK (R237): Within 256 FCK cycles of E_c each tile checks its configuration and re-applies it or is fenced. -/
  | coatReadback (t : TileId) (rb : Attempt)
  /-- DUST_SHEET_RELEASE (R239): Border ports stop holding their dust-sheet levels 2 FCK cycles after release. -/
  | dustSheetRelease
  /-- POWER_STEP_COMPLETE (R269): One step of a power state change finishes and the next starts, or the command completes. -/
  | powerStepComplete
  /-- DORMANT_POWER_DOWN (R269): The service domain powers down 1 ms after a DORMANT completion is posted. -/
  | dormantPowerDown
  /-- RAIL_GOOD (R275): A converter rail becomes good and the next rail in the sequence starts; `uF`: the reservoir measured on a PVH rail (R94). -/
  | railGood (r : Rail) (uF : Nat)
  /-- RAIL_START_TIMEOUT (R275): A rail not good within 5 ms is retried once, or the command completes LASTING. -/
  | railStartTimeout (r : Rail)
  /-- FAULT_HOLD_TRIP (R273): An overcurrent, overtemperature or input-voltage trip puts the module in FAULT_HOLD. -/
  | faultHoldTrip (cause : BitVec 3) (measured : Word)
  /-- FAULT_HOLD_CLEAR (R274): CLEAR sets once the clearing conditions have held for 64 SCK ticks. -/
  | faultHoldClear
  /-- POWER_WINDOW (R262): Each 1 ms measurement window updates PWR_MEAS and enforces the grant; averages of one 1 ms window: input power (10 mW), pad voltage (25 mV), RAIL_MEAS and PNL_PVHMEAS words. -/
  | powerWindow (pin vin : BitVec 16) (rails : List Word) (pvh : List Word)
  /-- HLV_LIMIT_TIMEOUT (R276): A load held at the HLV current limit for 10 ms sets OVER and raises POWER_OVER. -/
  | hlvLimitTimeout
  /-- HRST_RELEASE (R276): HRST releases 1 ms after HLV becomes good. -/
  | hrstRelease
  /-- REFOK_SETTLE (R136): The panel reference settles, REFOK sets and comparators may power up. -/
  | refokSettle (p : PanelId)
  /-- REF_MEASURE (R137): Every 64 SCK ticks VREFINp is measured against the bandgap. -/
  | refMeasure (p : PanelId) (mv : BitVec 12)
  /-- TEMP_INTERPOLATION (R359): Every 64 SCK ticks the panel sensor is read and calibration is interpolated on a 1 °C change; readings in 0.1 degC, signed. -/
  | tempInterpolation (p : PanelId) (sensor hottest core : BitVec 16)
  /-- DATE_LOW (R42): The latest date expiry comes within the warning lead, and DATE_LOW is ledgered and raised. -/
  | dateLow
  /-- DATE_SLOT_APPLY (R39): Written date slots take effect in one step between two accepted detects. -/
  | dateSlotApply
  /-- DETECT_ACCEPT (R45): A filtered trigger edge is accepted or suppressed as a product boundary, latching C0 and SYSTIME. -/
  | detectAccept (h : HeadId)
  /-- PRINT_QUEUE_ENTRY_ARRIVAL (R299): An entry posted after the detect is examined before column 0's stroke boundary. -/
  | printQueueEntryArrival (h : HeadId)
  /-- FIELD_RENDER_DONE (R43): The field merger finishes rendering a product's fields into the line buffers. -/
  | fieldRenderDone (h : HeadId) (seq : Word)
  /-- ENCODER_TRANSITION (R373): A held input transition is counted, checked for overspeed, and may resume a product; levels after the transition, and ns since the last counted one. -/
  | encoderTransition (n : Fin 8) (a b : Bool) (gapNs : Nat)
  /-- COLUMN_STROKE_BOUNDARY (R76): The stroke boundary of a column: mapping, checksum and the start of the FIRE frame. -/
  | columnStrokeBoundary (h : HeadId)
  /-- SELECT_FRAME_LATCH (R58): A select frame completes its shift and its LT pulse latches it after the echo check; `ec`: when the head changed EC, in vernier steps from the frame's first bit (R60). -/
  | selectFrameLatch (p : PanelId) (ec : List Nat)
  /-- FIRE (R79): At the vernier-placed instant a group's trowel starts its waveform, or the fire is withheld. -/
  | fire (t : TileId)
  /-- WAVEFORM_END (R90): The waveform's last segment ends and the group monitor compares the fire's charge; `q`: the charge the fire sourced, nC (R100). -/
  | waveformEnd (t : TileId) (q : Nat)
  /-- LISTEN_START (R103): GAP samples after the waveform, the trowel releases the pin and the listen window opens. -/
  | listenStart (t : TileId)
  /-- LISTEN_WINDOW_CLOSE (R103): The listen window closes and the trowel returns to idle; the SAR codes of the window. -/
  | listenWindowClose (t : TileId) (trace : List (BitVec 14))
  /-- CLASSIFY_RESULT (R109): 1 µs after window close, the class is ready and the retry rule updates nozzle status. -/
  | classifyResult (t : TileId)
  /-- SPIT_LISTEN_SLOT (R114): A slot of a spit-and-listen pass fires and listens to one nozzle per group in a product gap. -/
  | spitListenSlot (h : HeadId)
  /-- SPIT_FIRE (R117): A SPIT fire of one nozzle at PERIOD spacing. -/
  | spitFire (h : HeadId)
  /-- PHASE_TRACK_SEARCH (R123): A tracking phase search repeats every EVERY ms in product gaps; the search's next start, test drop or window end; a drop that begins fires `nozzles` at select code `code` (log 68). -/
  | phaseTrackSearch (h : HeadId) (nozzles : List Nat) (code : Nat)
  /-- CALIBRATION_MEASUREMENT (R349): A calibration stimulus and reading run for one unit, in a gap when a job is armed; the fits of one entry group: first and, where made, second (R350). -/
  | calibrationMeasurement (first again : List CalFit)
  /-- BIST_SLICE (R343): One BIST slice runs in a gap, with the scanned state saved and restored; `run`: MISR compared with its signature (R344). -/
  | bistSlice (t : TileId) (run : Attempt) (misr : BitVec 64)
  /-- VERDICT (R64): After the last listen window, the product verdict is decided and its record written. -/
  | verdict (h : HeadId)
  /-- REJECT_PULSE_START (R66): The encoder reaches the reject count and REJECT_PIN is driven high. -/
  | rejectPulseStart (h : HeadId) (seq : Word)
  /-- REJECT_PULSE_END (R66): After REJECT_WIDTH SCK ticks the reject pulse ends. -/
  | rejectPulseEnd (p : PinId)
  /-- TROWEL_TRIP (R96): Output current above ILIM for 50 ns trips the trowel. -/
  | trowelTrip (t : TileId)
  /-- TROWEL_IDLE_REACHED (R96): A re-enabled trowel reaches its idle level and may play its second attempt. -/
  | trowelIdleReached (t : TileId)
  /-- FOLD_BACK_ENTRY (R97): The tile diode exceeds 115 °C and the trowel enters fold-back; tile diode reading in degC. -/
  | foldBackEntry (t : TileId) (degC : Int)
  /-- FOLD_BACK_EXIT (R97): The tile diode falls below 105 °C and fold-back ends; tile diode reading in degC. -/
  | foldBackExit (t : TileId) (degC : Int)
  /-- BUDDY_TAKEOVER_START (R98): At the fire-period boundary the partner takes over a failed tile's TA pin. -/
  | buddyTakeoverStart (t : TileId)
  /-- BUDDY_TAKEOVER_END (R99): At the fire-period boundary after the failed tile returns, each trowel drives its own pin again. -/
  | buddyTakeoverEnd (t : TileId)
  /-- COMPARATOR_EDGE (R161): A filtered comparator edge sets LAT and goes to the crossbar, capture, interrupts and wake; `v`: the source of the comparator's input (R153, log 19). -/
  | comparatorEdge (t : TileId) (c : Cmp) (v : Signal)
  /-- COMPARATOR_MINW_ACCEPT (R165): A comparator change that holds for MINW reaches the routes. -/
  | comparatorMinwAccept (t : TileId) (c : Cmp)
  /-- COMPARATOR_MIN_GAP_END (R166): At the end of MIN_GAP the routed signal takes the current level. -/
  | comparatorMinGapEnd (t : TileId) (c : Cmp)
  /-- COMPARATOR_MAXACT_EXPIRY (R167): LVL active longer than MAXACT makes the comparator STUCK. -/
  | comparatorMaxactExpiry (t : TileId) (c : Cmp)
  /-- STUCK_RESUME_WINDOW_END (R167): 1,024 SCK ticks after events resume without a new STUCK, a transient entry is ledgered. -/
  | stuckResumeWindowEnd (u : StuckUnit)
  /-- PIN_EDGE (R367): A pin transition enters its filters, latching SYSTIME and encoder counts for a detect; the pad level driven from outside; none: not driven. -/
  | pinEdge (p : PinId) (level : Option Bool)
  /-- PIN_MINW_ACCEPT (R367): A pin change that holds for MINW becomes an event for interrupts, PE lines and wake. -/
  | pinMinwAccept (p : PinId)
  /-- PIN_MIN_GAP_END (R368): At the end of MIN_GAP the pin's filtered level takes the current level. -/
  | pinMinGapEnd (p : PinId)
  /-- PIN_MAXACT_EXPIRY (R369): A pin active longer than MAXACT becomes STUCK. -/
  | pinMaxactExpiry (p : PinId)
  /-- PIN_FUNCTION_HOLD_END (R364): After the 2-cycle idle hold, the pin's new function takes over. -/
  | pinFunctionHoldEnd (p : PinId)
  /-- TIMER_CHANNEL_EXPIRY (R366): A GPIO timer reaches its high time or period and changes its output. -/
  | timerChannelExpiry (k : Fin 16)
  /-- ADC_CONVERSION (R132): A SAR conversion completes and its word goes to the buffer, chain, ring or FIFO; `v`: the source of the selected input at the conversion's start (R130, log 19). -/
  | adcConversion (t : TileId) (v : Signal)
  /-- SYNC_EDGE (R148): At edge E, member chains clear and member SARs restart together. -/
  | syncEdge (src : SyncSource)
  /-- STREAM_RECORD_CLOSE (R143): A data record closes at 256 words or 100 µs and is written to its ring. -/
  | streamRecordClose (t : TileId)
  /-- MIRROR_WRITE (R294): The write index mirror is written within 1 µs of a closed record. -/
  | mirrorWrite (n : Fin 32)
  /-- STREAM_INTERRUPT_TIMEOUT (R296): TIMEOUT expires after the first unsignalled record and the ring's vector fires. -/
  | streamInterruptTimeout (n : Fin 32)
  /-- MSIX_GAP_END (R301): A vector's minimum gap ends and held causes send one message. -/
  | msixGapEnd (v : Fin 64)
  /-- MEM_CODE_PRIME_DONE (R311): Priming under the new MEM_CODE ends and BUSY clears. -/
  | memCodePrimeDone
  /-- PANEL_LINK_REPLAY (R319): A flit failing CRC is replayed once, or its lane is retired. -/
  | panelLinkReplay (p : PanelId) (lane : Fin 16) (replay : Attempt)
  /-- TALLY_ROLL_CALL (R382): The master sends a ROLL every PERIOD and judges missing stations; stations that answered; `sent` false: the roll failed twice (R382). -/
  | tallyRollCall (answers : List Nat) (sent : Attempt)
  /-- TALLY_NOMASTER_TIMEOUT (R382): No ROLL heard for 3 × PERIOD sets NOMASTER. -/
  | tallyNomasterTimeout
  /-- SYNC (R381): A received tally SYNC frame schedules a decimator sync or is ledgered late. -/
  | sync (station : BitVec 9) (at48 : BitVec 48) (groups : BitVec 16)
  /-- HOLD (R387): A received tally HOLD frame sets TALLY_STAT.HOLD and HOLD_FROM. -/
  | hold (station : BitVec 9) (reason head : Byte) (concerned : BitVec 16)
  /-- ABSENT (R383): A received ABSENT frame updates the absent list and may silence or readmit this station. -/
  | absent (station : BitVec 9) (entries : List (BitVec 16))
  /-- STITCH (R386): A received STITCH take or release is acknowledged and hands over a stitch range. -/
  | stitch (station : BitVec 9) (dest : BitVec 16) (action head : Byte)
  /-- ROLL (R382): A received ROLL is answered in the station's slot, and a lower-numbered master takes over; the other stations seen to answer. -/
  | roll (station : BitVec 9) (no period : BitVec 16) (answers : List Nat)
  /-- TALLY_FRAME_RETRY (R380): A failed tally frame contends again after the intermission, or is dropped. -/
  | tallyFrameRetry
  /-- CHOP_PERIOD_START (R92): In current-mode pulse, each chop period of (CHOP + 1) × 4 DAC samples switches the trowel on, restarts the comparator ramp, and ends an untripped period by switching off. -/
  | chopPeriodStart (t : TileId)
  /-- FABRIC_OUTPUT_EDGE (R168): A fabric slice output that feeds TEO or the partner changes on a flip-flop clock edge and launches an event into the crossbar. -/
  | fabricOutputEdge (t : TileId) (out : Fin 64) (level : Bool)
  /-- RASTER_READ_COMPLETION (R299): A background host read of a taken print-queue raster completes into ring staging, or fails and is retried once before the remaining columns go out as code 0. -/
  | rasterReadCompletion (h : HeadId) (read : Attempt)
  /-- ENGINE_MESSAGE_TIMEOUT (R207): An ENGINE_MESSAGE whose target inbox stays full for 1 ms completes with BUSY. -/
  | engineMessageTimeout (t : TileId)
  /-- TALLY_FRAME_ACK (R380): A frame the station sent ends with its ACK slot driven dominant, so TALLY_SEND completes OK and any queued frame can follow. -/
  | tallyFrameAck
  /-- TALLY_FRAME_ERROR (R380): A received tally frame with a stuff or CRC error makes the receiver drive six dominant bits, discard the frame and count CRC_ERR. -/
  | tallyFrameError
  /-- LINK_DOWN (R280): The PCIe link goes down without PERST: LINK_STAT.SPEED reads 0 and later host-memory writes count as failed. -/
  | linkDown
  /-- LINK_TRAINED (R399): The PCIe link finishes training: LINK_STAT reports speed and width, and L1_ENTRIES restarts. -/
  | linkTrained (speed : BitVec 4) (width : BitVec 4)
  /-- CONFIG_SPACE_WRITE (R257): A host configuration write that enables ASPM L1, L1.2, PTM, ECRC or MSI-X function masking and so changes the module's link and time behaviour. -/
  | configSpaceWrite (item : CfgItem) (on : Bool)
  deriving DecidableEq, Repr

end Sys2Proof
end

