-- ==== Sys2Proof/Decode.lean ====
section
/-!
DEFINITION. The block's commands have no bits in the opcode table, so a table word spells none of them. What the block
does decode is the tile engine's own 32-bit words (R182 to R186); their encoder stands after it.
-/
namespace Sys2Proof

/-- No row of spec/opcode_table.json gives bits. -/
def decodeTableWord (_nbits _w : Nat) : Option Instr := none

/-! ### Fields of an engine word (R182) -/

def engOp (w : Word) : Nat := Word.field w 31 26
def engD (w : Word) : Reg4 := w.extractLsb' 22 4
def engA (w : Word) : Reg4 := w.extractLsb' 18 4
def engB (w : Word) : Reg4 := w.extractLsb' 14 4
def engSub (w : Word) : Nat := Word.field w 13 0
def engImm (w : Word) : Imm18 := w.extractLsb' 0 18
def engOff (w : Word) : Off22 := w.extractLsb' 0 22

/-- RR operations of op 0x00. -/
def decodeAlu (t : TileId) (w : Word) : Option Instr :=
  match engSub w with
  | 0 => some (.add t (engD w) (engA w) (engB w))
  | 1 => some (.sub t (engD w) (engA w) (engB w))
  | 2 => some (.and t (engD w) (engA w) (engB w))
  | 3 => some (.or t (engD w) (engA w) (engB w))
  | 4 => some (.xor t (engD w) (engA w) (engB w))
  | 5 => some (.shl t (engD w) (engA w) (engB w))
  | 6 => some (.shr t (engD w) (engA w) (engB w))
  | 7 => some (.sar t (engD w) (engA w) (engB w))
  | 8 => some (.cmp t (engD w) (engA w) (engB w))
  | _ => none

/-- RR operations of op 0x10; bits 9 and 8 are the halfword selectors of MAC and MSU (R185). -/
def decodeMul (t : TileId) (w : Word) : Option Instr :=
  if Word.field w 13 10 ≠ 0 then none
  else
    let h : BitVec 2 := w.extractLsb' 8 2
    match Word.field w 7 0 with
    | 0 => if h = 0 then some (.mul t (engD w) (engA w) (engB w)) else none
    | 1 => if h = 0 then some (.mulh t (engD w) (engA w) (engB w)) else none
    | 2 => some (.mac t h (engD w) (engA w) (engB w))
    | 3 => some (.msu t h (engD w) (engA w) (engB w))
    | 4 => if h = 0 then some (.wracc t (engD w) (engA w) (engB w)) else none
    | _ => none

/-- RR operations of op 0x28, 0x2C, 0x30 and 0x38. -/
def decodeEvent (t : TileId) (w : Word) : Option Instr :=
  match engSub w with
  | 0 => some (.wait t (engD w) (engA w) (engB w))
  | 1 => some (.trig t (engD w) (engA w) (engB w))
  | 2 => some (.arm t (engD w) (engA w) (engB w))
  | 3 => some (.capt t (engD w) (engA w) (engB w))
  | _ => none

def decodeConv (t : TileId) (w : Word) : Option Instr :=
  match engSub w with
  | 0 => some (.adcp t (engD w) (engA w) (engB w))
  | 1 => some (.adcpn t (engD w) (engA w) (engB w))
  | 2 => some (.dacs t (engD w) (engA w) (engB w))
  | 3 => some (.cmpset t (engD w) (engA w) (engB w))
  | 4 => some (.cmpclr t (engD w) (engA w) (engB w))
  | _ => none

def decodeMsg (t : TileId) (w : Word) : Option Instr :=
  match engSub w with
  | 0 => some (.send t (engD w) (engA w) (engB w))
  | 1 => some (.recv t (engD w) (engA w) (engB w))
  | 2 => some (.recvn t (engD w) (engA w) (engB w))
  | _ => none

def decodeCtl (t : TileId) (w : Word) : Option Instr :=
  match engSub w with
  | 0 => some (.sleep t (engD w) (engA w) (engB w))
  | 1 => some (.halt t (engD w) (engA w) (engB w))
  | 2 => some (.fence t (engD w) (engA w) (engB w))
  | 3 => some (.reti t (engD w) (engA w) (engB w))
  | _ => none

/-- The instruction an engine word spells (R184); none is ILLEGAL (R183). Fields an instruction does not use are kept:
the instruction itself raises ILLEGAL when one is not 0. -/
def decodeEngine (t : TileId) (w : Word) : Option Instr :=
  match engOp w with
  | 0x00 => decodeAlu t w
  | 0x01 => some (.addi t (engD w) (engA w) (engImm w))
  | 0x02 => some (.andi t (engD w) (engA w) (engImm w))
  | 0x03 => some (.ori t (engD w) (engA w) (engImm w))
  | 0x05 => some (.shli t (engD w) (engA w) (engImm w))
  | 0x06 => some (.shri t (engD w) (engA w) (engImm w))
  | 0x07 => some (.sari t (engD w) (engA w) (engImm w))
  | 0x08 => some (.cmpi t (engD w) (engA w) (engImm w))
  | 0x09 => some (.lui t (engD w) (engA w) (engImm w))
  | 0x10 => decodeMul t w
  | 0x11 => some (.rdacc t (engD w) (engA w) (engImm w))
  | 0x18 => some (.ldw t (engD w) (engA w) (engImm w))
  | 0x19 => some (.ldh t (engD w) (engA w) (engImm w))
  | 0x1A => some (.ldbu t (engD w) (engA w) (engImm w))
  | 0x1C => some (.stw t (engD w) (engA w) (engImm w))
  | 0x1D => some (.sth t (engD w) (engA w) (engImm w))
  | 0x1E => some (.stb t (engD w) (engA w) (engImm w))
  | 0x20 => some (.b t (engD w) (engOff w))
  | 0x21 => some (.bl t (engD w) (engOff w))
  | 0x22 => some (.jalr t (engD w) (engA w) (engImm w))
  | 0x23 => some (.loop t (engD w) (engA w) (engImm w))
  | 0x24 => some (.loopi t (engD w) (engA w) (engImm w))
  | 0x28 => decodeEvent t w
  | 0x2C => decodeConv t w
  | 0x30 => decodeMsg t w
  | 0x38 => decodeCtl t w
  | 0x39 => some (.mfs t (engD w) (engA w) (engImm w))
  | 0x3A => some (.mts t (engD w) (engA w) (engImm w))
  | _ => none

/-! ### The encoder (R182, R184) -/

def encRR (op : Nat) (d a b : Reg4) (sub : Nat) : Word :=
  BitVec.ofNat 6 op ++ d ++ a ++ b ++ BitVec.ofNat 14 sub
def encRI (op : Nat) (d a : Reg4) (imm : Imm18) : Word := BitVec.ofNat 6 op ++ d ++ a ++ imm
def encBR (op : Nat) (c : Reg4) (off : Off22) : Word := BitVec.ofNat 6 op ++ c ++ off

/-- The tile and the word of an engine instruction; none for every other command. -/
def encodeEngine : Instr → Option (TileId × Word)
  | .add t d a b => some (t, encRR 0x00 d a b 0)
  | .sub t d a b => some (t, encRR 0x00 d a b 1)
  | .and t d a b => some (t, encRR 0x00 d a b 2)
  | .or t d a b => some (t, encRR 0x00 d a b 3)
  | .xor t d a b => some (t, encRR 0x00 d a b 4)
  | .shl t d a b => some (t, encRR 0x00 d a b 5)
  | .shr t d a b => some (t, encRR 0x00 d a b 6)
  | .sar t d a b => some (t, encRR 0x00 d a b 7)
  | .cmp t d a b => some (t, encRR 0x00 d a b 8)
  | .addi t d a imm => some (t, encRI 0x01 d a imm)
  | .andi t d a imm => some (t, encRI 0x02 d a imm)
  | .ori t d a imm => some (t, encRI 0x03 d a imm)
  | .shli t d a imm => some (t, encRI 0x05 d a imm)
  | .shri t d a imm => some (t, encRI 0x06 d a imm)
  | .sari t d a imm => some (t, encRI 0x07 d a imm)
  | .cmpi t d a imm => some (t, encRI 0x08 d a imm)
  | .lui t d a imm => some (t, encRI 0x09 d a imm)
  | .mul t d a b => some (t, encRR 0x10 d a b 0)
  | .mulh t d a b => some (t, encRR 0x10 d a b 1)
  | .mac t h d a b => some (t, encRR 0x10 d a b (2 + 256 * h.toNat))
  | .msu t h d a b => some (t, encRR 0x10 d a b (3 + 256 * h.toNat))
  | .wracc t d a b => some (t, encRR 0x10 d a b 4)
  | .rdacc t d a imm => some (t, encRI 0x11 d a imm)
  | .ldw t d a imm => some (t, encRI 0x18 d a imm)
  | .ldh t d a imm => some (t, encRI 0x19 d a imm)
  | .ldbu t d a imm => some (t, encRI 0x1A d a imm)
  | .stw t d a imm => some (t, encRI 0x1C d a imm)
  | .sth t d a imm => some (t, encRI 0x1D d a imm)
  | .stb t d a imm => some (t, encRI 0x1E d a imm)
  | .b t c off => some (t, encBR 0x20 c off)
  | .bl t c off => some (t, encBR 0x21 c off)
  | .jalr t d a imm => some (t, encRI 0x22 d a imm)
  | .loop t d a imm => some (t, encRI 0x23 d a imm)
  | .loopi t d a imm => some (t, encRI 0x24 d a imm)
  | .wait t d a b => some (t, encRR 0x28 d a b 0)
  | .trig t d a b => some (t, encRR 0x28 d a b 1)
  | .arm t d a b => some (t, encRR 0x28 d a b 2)
  | .capt t d a b => some (t, encRR 0x28 d a b 3)
  | .adcp t d a b => some (t, encRR 0x2C d a b 0)
  | .adcpn t d a b => some (t, encRR 0x2C d a b 1)
  | .dacs t d a b => some (t, encRR 0x2C d a b 2)
  | .cmpset t d a b => some (t, encRR 0x2C d a b 3)
  | .cmpclr t d a b => some (t, encRR 0x2C d a b 4)
  | .send t d a b => some (t, encRR 0x30 d a b 0)
  | .recv t d a b => some (t, encRR 0x30 d a b 1)
  | .recvn t d a b => some (t, encRR 0x30 d a b 2)
  | .sleep t d a b => some (t, encRR 0x38 d a b 0)
  | .halt t d a b => some (t, encRR 0x38 d a b 1)
  | .fence t d a b => some (t, encRR 0x38 d a b 2)
  | .reti t d a b => some (t, encRR 0x38 d a b 3)
  | .mfs t d a imm => some (t, encRI 0x39 d a imm)
  | .mts t d a imm => some (t, encRI 0x3A d a imm)
  | _ => none

end Sys2Proof
end

