-- ==== Sys2Proof/Config.lean ====
section
/-!
DEFINITION. What the manual leaves to the unit, the firmware or an outside standard: constants without a body, so nothing
can be proved of their values (log 6, log 10, log 17, log 18).
-/
namespace Sys2Proof.Config

/-- Fuse-backed identity registers (R398): "hold values that differ from unit to unit". -/
opaque revision : Word
opaque serialLo : Word
opaque serialHi : Word
/-- CAPS.GRADE (R398, R2): the ordering code fitted. -/
opaque gradeIE : Bool
/-- Spare rows and columns of a repair bank left by manufacture (R318). -/
opaque spareRows : Nat → Nat
opaque spareCols : Nat → Nat
/-- Free values (log 10): a bit, a word, a number, by the free-value counter. -/
opaque freeBit : Nat → Bool
opaque freeWord : Nat → BitVec 64
/-- Which of several allowed places the placer's routing takes (R219 fixes the tiles, not the nets). -/
opaque routePick : Nat → Nat
/-- AES-256-GCM (R332): the plaintext from key, nonce and ciphertext, and the tag from key, nonce, additional data and
ciphertext. The manual names the algorithm and leaves its definition to the standard (log 17). -/
opaque gcmPlain : BitVec 256 → List Byte → List Byte → List Byte
opaque gcmTag : BitVec 256 → List Byte → List Byte → List Byte → List Byte
/-- The FIR part of a decimation response, whose coefficients the manual does not give (R145): tap k of the first half of a
response, in units of 1 over firScale + 1. -/
opaque firTap : Nat → Nat → Int
opaque firScale : Nat → Nat
/-- The ADC offset and gain of the skim set are added to a code, or taken from it (R131, R346 give no sign). -/
opaque skimAdds : Bool
/-- Panel and pin event line that feed the spine sync line of a group, as 32 * panel + line (R171); the manual gives no way to
set them. -/
opaque syncSource : Nat → Nat
/-- The direction in which a sinc response rounds (R146). -/
opaque roundUp : Nat → List Int → Bool
/-- The check syndrome a decoder reports (R324 ARG2): the generator matrices are not given. -/
opaque syndrome : Nat → BitVec 80 → Word
/-- The placer's time in us (R216) and a captured scan state (R342). -/
opaque placerTime : Nat → Nat
opaque scanCapture : Nat → Byte
/-- Memory row and column of a word inside its bank (R324 ARG1). -/
opaque bankRowCol : Nat → Nat → Word
/-- Word of the configuration memory that holds the register at a BAR0 offset (R307 gives the sizes, no layout). -/
opaque cfgWord : Nat → Nat
/-- Calibrated peak current of a tile's group in mA (R98); R346 lists no entry for it. -/
opaque peakCurrent : Nat → Nat
/-- Word of the module services partition that holds the status of four nozzles of a head (R110 gives no layout). -/
opaque statWord : Nat → Nat → Nat
/-- VALUE bits that a sideband frame of the module does not use, by frame type (R253). -/
opaque jsbPad : Nat → BitVec 12
/-- The residual figures of PNL_CALQ (R359), whose rounding and grouping the manual leaves open. -/
opaque calQuality : Nat → Nat → Byte
/-- A slice flip-flop's synchronous reset needs its clock enable (R225 gives no order of the two). -/
opaque resetNeedsEnable : Bool
/-- What settles on the local lines of a slice whose line table closes a loop without a flip-flop (R226). -/
opaque loopLines : BitVec 256 → BitVec 64 → BitVec 64

end Sys2Proof.Config
end

