-- ==== Sys2Proof/Machine/State.lean ====
section
/-!
DEFINITION. The state of the GZV-512: plain data, one structure per unit of the module, and the state right after reset.
Registers whose every field software writes are kept as words; fields the module sets are typed. Reset values are those
of R396 ("the instant module reset ends"); a value the manual gives none for is zero, empty or off (log 5).
-/
namespace Sys2Proof.Machine

/-- Why a step stops: no command of the manual does, so there is no such reason. -/
inductive Fault where
  deriving DecidableEq, Repr

/-- Why a command is refused. -/
inductive Refusal where
  /-- Answered by an arm of exec whose command has no meaning yet. Safe: nothing can be proved of it. -/
  | notModelled (mnemonic : String)
  deriving DecidableEq, Repr

/-! ### Memories -/

/-- An addressed memory in canonical form: addresses strictly rising, no byte equal to zero, which is what an unlisted
address reads as (R312). -/
abbrev Memory := List Host.Cell

/-! ### Time, clocks, always-on domain -/

/-- One encoder channel (R373, R374, R71). -/
structure Encoder where
  cfg : Word := 0x02000100#32
  ovs : Bool := false
  ovsNow : Bool := false
  illegal : Byte := 0
  legalRun : Nat := 0
  scale : Word := 0
  count : Word := 0
  lvlA : Bool := false
  lvlB : Bool := false
  /-- The direction of the last counted transition: up (R211 ENCODER port 5). -/
  dir : Bool := false
  /-- The last four intervals between counts since fast clocks started, in FCK cycles, newest first (R74). -/
  intervals : List Nat := []
  lastAt : Option Nat := none
  /-- Counts in each of the last 64 SCK ticks, newest first (R74). -/
  tickCounts : List Nat := []
  deriving DecidableEq, Repr

/-- A reject pulse of a product (R66): `call` is none while the verdict is not known; `ends` is the SCK tick at which a
started pulse ends. -/
structure Reject where
  head : HeadId
  job : Fin 64
  seq : Word
  pin : PinId
  channel : Fin 8
  dueAt : Word
  width : Nat
  call : Option Bool := none
  ends : Option Nat := none
  deriving DecidableEq, Repr

/-- The AON domain (R16-R20, R66, R272, R277, R335, R373, R396, R399). -/
structure Aon where
  up : Bool := true
  sysBase : BitVec 64 := 0
  sysNow : BitVec 64 := 0
  /-- Fast-clock cycles since the last realignment, for the interpolation of R17. -/
  interp : Nat := 0
  /-- SYSTIME at which the interpolation started. -/
  interpFrom : BitVec 64 := 0
  ticks : Nat := 0
  /-- The model's elapsed time in FCK cycles (log 3), and the part of it in which fast clocks ran. -/
  fck : Nat := 0
  run : Nat := 0
  /-- Tick of the last PTM dialogue (R258). -/
  ptmAt : Option Nat := none
  ptmAligned : Bool := false
  ptmOffset : Word := 0
  ptmRate : BitVec 16 := 0
  ptmDialogues : BitVec 16 := 0
  slew : Int := 0
  sysHiLatch : Word := 0
  wakeCtrl : Word := 0x70000000#32
  wakeLast : BitVec 4 := 0
  wakeTime : Word := 0
  pwrCtrl : Word := 0
  /-- PWR_CTRL.LEAVE_DORMANT, set until the reset that it starts (R4, R271). -/
  leave : Bool := false
  secBoot : Word := 0x00000011#32
  limit : BitVec 16 := 150
  request : BitVec 16 := 0
  resetCause : BitVec 2 := 0
  /-- A module reset is due, with its cause (R254). -/
  resetDue : Option (BitVec 2) := none
  resetCount : BitVec 16 := 0
  enc : Vector Encoder 8 := Vector.replicate 8 {}
  rejects : List Reject := []
  deriving DecidableEq, Repr

inductive FastClk where
  | stopped | starting | qck | fck
  deriving DecidableEq, Repr

/-- The PLL (R14, R15): `locking again` after its one restart. -/
inductive Pll where
  | off | locking (again : Bool) | locked | failed
  deriving DecidableEq, Repr

structure Clocks where
  fast : FastClk := .stopped
  pll : Pll := .off
  changeoverDue : Bool := false
  /-- FCK counts at which QCK becomes usable, its edges following every four (R13), at which the PLL last started (R15), at
  which it locked (R14), and of changeover. -/
  qckAt : Nat := 0
  pllAt : Nat := 0
  lockAt : Nat := 0
  fckAt : Nat := 0
  /-- FCK and tick counts at which the clocks last stopped (R367). -/
  stopFck : Nat := 0
  stopTick : Nat := 0
  deriving DecidableEq, Repr

/-! ### Power, link, sideband -/

/-- Module states (R266, R272). TRANSITION is shown while a change runs. -/
inductive Mode where
  | dormant | standby | armed | active | faultHold | booting
  deriving DecidableEq, Repr

/-- Panel states (R267). -/
inductive PState where
  | off | retain | armed | active
  deriving DecidableEq, Repr

/-- The kinds of power step, in the order of R269. -/
inductive PowerStep where
  | activeToArmed | armedToStandby | standbyToDormant | dormantToStandby | standbyToArmed | armedToActive
  deriving DecidableEq, Repr

/-- A change of state that is running (R269). -/
structure Change where
  desc : Desc
  goal : Mode
  panels : Vector PState 8
  steps : List PowerStep
  /-- Some rail has needed its second attempt (R275, R282). -/
  again : Bool := false
  deriving DecidableEq, Repr

structure Power where
  mode : Mode := .booting
  change : Option Change := none
  fcause : BitVec 3 := 0
  fclear : Bool := false
  /-- Tick of the last trip (R274). -/
  tripAt : Nat := 0
  nfault : Bool := false
  /-- The bursar's BIST has failed twice: the module stays in reset (R345). -/
  bursarFail : Bool := false
  /-- A full load has failed: application I/O is disabled until one succeeds (R334). -/
  ioOff : Bool := false
  panels : Vector PState 8 := Vector.replicate 8 .off
  grant : BitVec 16 := 0x05DC#16
  /-- Host enables of PWR_RAILS (R275). -/
  pvhEn : Vector Bool 8 := Vector.replicate 8 false
  vddaEn : Bool := false
  vddaGood : Bool := false
  /-- Rails that have been tried once without success, and the FCK counts since which rails are starting (R275). -/
  railTried : List Rail := []
  railFrom : List (Rail × Nat) := []
  hlvCtrl : Word := 0x01003200#32
  hlvOk : Bool := false
  hlvOver : Bool := false
  /-- HRST still held for the 1 ms after HLV became good (R276). -/
  hrstHold : Bool := true
  /-- FCK count at which HLV became good (R276). -/
  hlvAt : Nat := 0
  pin : BitVec 16 := 0
  vin : BitVec 12 := 0
  overSeen : Bool := false
  overWindows : Nat := 0
  withhold : Bool := false
  pinMax : BitVec 16 := 0
  vinMin : BitVec 12 := 0xFFF#12
  railMeas : Vector Word 6 := Vector.replicate 6 0
  /-- The inrush period of R250 is running. -/
  inrush : Bool := false
  signature : Bool := false
  dormantDue : Bool := false
  /-- FCK count at which the completion of the step to DORMANT was posted (R269). -/
  dormantAt : Nat := 0
  /-- Panels that the loaded image writes (R254, R259). -/
  imagePanels : Vector Bool 8 := Vector.replicate 8 false
  coreTemp : BitVec 16 := 0
  peakTemp : BitVec 16 := 0
  deriving DecidableEq, Repr

/-- The PCIe endpoint (R255-R257, R399). -/
structure Link where
  speed : BitVec 4 := 0
  width : BitVec 4 := 0
  lastL1 : BitVec 2 := 0
  l1Entries : BitVec 16 := 0
  ptmEn : Bool := false
  ecrcEn : Bool := false
  aspmL1 : Bool := false
  l12En : Bool := false
  fnMask : Bool := false
  d3hot : Bool := false
  inL1 : Bool := false
  clkreq : Bool := true
  perst : Bool := false
  deriving DecidableEq, Repr

/-- A sideband frame: TYPE and VALUE (R252). -/
structure JsbFrame where
  ty : BitVec 4
  value : BitVec 12
  deriving DecidableEq, Repr

structure Jsb where
  sent : Byte := 0
  received : Byte := 0
  naks : Byte := 0
  dropped : Byte := 0
  /-- The last frame sent, and whether it has been repeated (R252). -/
  last : Option JsbFrame := none
  repeated : Bool := false
  /-- A NAK was sent for the frame before; a second CRC error drops it. -/
  nakSent : Bool := false
  deriving DecidableEq, Repr

/-! ### Rings, events, interrupts -/

/-- A fetched descriptor with its opcode (R286). -/
structure Fetched where
  opcode : Byte
  desc : Desc
  deriving DecidableEq, Repr

/-- A command queue with its completion queue (R284). -/
structure Cq where
  base : BitVec 64 := 0
  cpBase : BitVec 64 := 0
  en : Bool := false
  prio : Bool := false
  vector : Fin 64 := 0
  size : BitVec 4 := 0
  err : BitVec 2 := 0
  head : BitVec 16 := 0
  cpw : BitVec 16 := 0
  tail : BitVec 16 := 0
  cpHead : BitVec 16 := 0
  phase : Bool := true
  fetched : List Fetched := []
  /-- Descriptors executed whose completion is still to come (R287). -/
  waiting : List Desc := []
  /-- The descriptor with FENCE set that holds the queue (R287). -/
  fence : Option Desc := none
  /-- Turn at which the queue was served last (R286). -/
  served : Nat := 0
  deriving DecidableEq, Repr

/-- What a stream ring carries (R290). -/
inductive Source where
  | tile (t : TileId) | listen (h : HeadId) | verdict (h : HeadId) | message | status | ledger
  deriving DecidableEq, Repr

/-- The GAP record that is due (R293, R295). -/
structure Gap where
  lost : Word := 0
  firstTime : BitVec 48 := 0
  lastTime : BitVec 48 := 0
  types : BitVec 16 := 0
  deriving DecidableEq, Repr

structure Stream where
  base : BitVec 64 := 0
  mirror : BitVec 64 := 0
  isOpen : Bool := false
  size : BitVec 4 := 0
  vector : Fin 64 := 0
  timeout : Byte := 0
  thresh : BitVec 12 := 0
  write : BitVec 26 := 0
  lost : Word := 0
  rseq : Word := 0
  consumed : BitVec 26 := 0
  gap : Option Gap := none
  /-- A message has been sent and the consumed doorbell is awaited (R296). -/
  signalled : Bool := false
  /-- FCK count at the first record since the last message (R296). -/
  firstAt : Option Nat := none
  mirrorDue : Bool := false
  /-- FCK count of the last mirror write (R294). -/
  mirrorAt : Option Nat := none
  sources : List Source := []
  deriving DecidableEq, Repr

structure Pq where
  base : BitVec 64 := 0
  en : Bool := false
  headId : HeadId := 0
  size : BitVec 4 := 0
  err : BitVec 2 := 0
  tail : BitVec 16 := 0
  rdidx : BitVec 16 := 0
  late : Word := 0
  bad : Word := 0
  deriving DecidableEq, Repr

structure Events where
  status : BitVec 13 := 0
  enable : BitVec 13 := 0
  vector : Word := 0
  irqVec : Vector Word 2 := Vector.replicate 2 0
  gap : Vector Word 16 := Vector.replicate 16 0
  deriving DecidableEq, Repr

/-- One MSI-X vector (R301): mask and pending bits, the end of its gap, a cause held back by the gap. -/
structure Msix where
  masked : Bool := true
  pba : Bool := false
  gapUntil : Nat := 0
  held : Bool := false
  deriving DecidableEq, Repr

/-! ### Security, store, images -/

structure Slot where
  valid : Bool := false
  len : Nat := 0
  imageId : Word := 0
  deriving DecidableEq, Repr

/-- Lifecycle states BLANK, OPEN, SEALED, RETURNED (R339), in fuse order. -/
inductive Lifecycle where
  | blank | opened | closed | returned
  deriving DecidableEq, Repr

/-- One field repair entry (R318). -/
structure Repair where
  bank : Nat
  column : Bool
  address : BitVec 16
  good : Bool
  deriving DecidableEq, Repr

structure Sec where
  lifecycle : Lifecycle := .opened
  pendingLc : Lifecycle := .opened
  keys : Vector (Option (BitVec 256)) 2 := Vector.replicate 2 none
  keysOff : Bool := false
  keyData : Vector Word 8 := Vector.replicate 8 0
  lcFirst : Option (BitVec 2) := none
  fuseFail : Bool := false
  repairs : List Repair := []
  imgResult : BitVec 2 := 0
  imgSource : BitVec 3 := 0
  fallbackUsed : Bool := false
  imgCause : BitVec 4 := 0
  imageId : Word := 0
  imgVersion : Word := 0
  slots : Vector Slot 4 := Vector.replicate 4 {}
  store : Memory := []
  deriving DecidableEq, Repr

/-! ### Memory integrity and the ledger -/

/-- A word of a memory region (R307): region code, unit, word index. -/
structure Loc where
  region : Fin 16
  unit : Nat
  word : Nat
  deriving DecidableEq, Repr

/-- A word whose stored codeword is not clean: the codeword bits that are flipped, or the poison pattern (R310). -/
structure WordErr where
  loc : Loc
  flips : BitVec 80 := 0
  poison : Bool := false
  deriving DecidableEq, Repr

/-- One copy of the scrubber's state (R314). -/
structure ScrubCopy where
  rate : BitVec 13 := 64
  mode : BitVec 2 := 0
  ptr : Nat := 0
  deriving DecidableEq, Repr

structure Scrub where
  copies : Vector ScrubCopy 3 := Vector.replicate 3 {}
  voteErr : Bool := false
  /-- Tick of the last burst, and FCK count of the pass's last access (R313). -/
  burstAt : Nat := 0
  accAt : Nat := 0
  corrected : BitVec 16 := 0
  uncorr : BitVec 16 := 0
  passes : Word := 0
  deriving DecidableEq, Repr

structure Integrity where
  memCode : Word := 0
  memBusy : Bool := false
  flipLo : Word := 0
  flipHi : Word := 0
  flipSel : Word := 0
  flipArm : Bool := false
  errs : List WordErr := []
  /-- Words corrected, with the tick of the latest correction (R308). -/
  corrections : List (Loc × Nat) := []
  /-- Retired pages: region, tile, page (R317). -/
  retired : List (Fin 16 × TileId × Nat) := []
  deriving DecidableEq, Repr

/-- Ledger classes (R322). -/
inductive LClass where
  | info | transient | lasting | fatal
  deriving DecidableEq, Repr

/-- A ledger entry (R322). `count` is none for PTM_STEP, whose ARG1, ARG2 and COUNT bytes carry a time (R324). -/
structure Entry where
  time : BitVec 64
  tick : Nat
  source : BitVec 16
  cls : LClass
  kind : Byte
  seq : Word
  arg0 : Word
  arg1 : Word
  arg2 : Word
  count : Word
  deriving DecidableEq, Repr

structure Ledger where
  /-- Newest first, at most 4,096. -/
  entries : List Entry := []
  seq : Word := 0
  wraps : BitVec 16 := 0
  exportMin : BitVec 2 := 0
  deriving DecidableEq, Repr

/-! ### Tile engine -/

inductive EngState where
  | stopped | running | sleeping | halted | fault | held
  deriving DecidableEq, Repr

/-- One open loop level (R189): body's first instruction, address of its last, count left. -/
structure LoopLevel where
  first : Word
  last : Word
  left : Nat
  deriving DecidableEq, Repr

/-- What a sleeping engine waits for (R192, R193, R197, R201), with the engine clock cycles after which a WAIT gives up. -/
inductive Stall where
  | waitEv (mask : BitVec 16) (d : Reg4) (left : Option Nat)
  | sleep
  | adcp (d : Reg4)
  | recv (d a : Reg4)
  | outbox (a b : Reg4)
  /-- HALT or FENCE waiting for the outbox to empty (R184, R188). -/
  | drain (halt : Bool)
  deriving DecidableEq, Repr

/-- A message (R200, R201). `src` 1023 is the host. -/
structure Msg where
  src : BitVec 10
  dst : BitVec 10
  epoch : Byte
  tag : Byte
  words : List Word
  time : BitVec 48
  deriving DecidableEq, Repr

/-- A capture FIFO entry (R196). -/
structure Capture where
  src : BitVec 3
  prelock : Bool
  time : BitVec 48
  deriving DecidableEq, Repr

structure Engine where
  st : EngState := .stopped
  cause : BitVec 4 := 0
  hostEv : Bool := true
  prog : Byte := 0xFF#8
  entry : Word := 0
  regs : Vector Word 16 := Vector.replicate 16 0
  acc : BitVec 40 := 0
  z : Bool := false
  n : Bool := false
  c : Bool := false
  v : Bool := false
  av : Bool := false
  pc : Word := 0
  /-- Open loop levels, innermost first; at most two. -/
  loops : List LoopLevel := []
  status : BitVec 5 := 0
  /-- The edge bits of EVM; level bits are computed (R191). -/
  evm : BitVec 16 := 0
  ien : Word := 0
  ivec : Word := 0
  epc : Word := 0
  cycle : Word := 0
  sysh : Word := 0
  capx : Word := 0
  capen : BitVec 3 := 0
  fifoThr : Word := 0
  msgDrop : Word := 0
  adcFifo : List Word := []
  capFifo : List Capture := []
  inbox : List Msg := []
  outbox : List Msg := []
  arm : Option (Word × Word) := none
  /-- Bytes that instruction fetch still sees where stores since the last FENCE replaced them (R188). -/
  stale : List Host.Cell := []
  stall : Option Stall := none
  /-- Host messages waiting for room in the inbox, oldest first, and the FCK count since which the oldest waits (R207). -/
  hostMsgs : List (Desc × Msg) := []
  hostAt : Nat := 0
  /-- Counts of FCK cycles that ran: when the inbox became full, and when the oldest outbox message came to its front (R202). -/
  fullAt : Nat := 0
  outAt : Nat := 0
  deriving DecidableEq, Repr

/-! ### Tiles -/

/-- Waveform segment (R90). -/
structure Segment where
  level : Nat
  slope : Nat
  duration : Nat
  deriving DecidableEq, Repr

/-- A waveform index (R89): DOMAIN and segments; empty when it has none. -/
structure Waveform where
  domain : BitVec 2 := 0
  segs : List Segment := []
  deriving DecidableEq, Repr

/-- The stages of the STUCK rule (R167): suppressed after a first detection, watched after events resumed, lasting. -/
inductive StuckPhase where
  | none | first | watched (since : Nat) | lasting
  deriving DecidableEq, Repr

/-- One comparator (R152-R167). -/
structure Comparator where
  cfg : Word := 0
  powered : Bool := false
  raw : Bool := false
  lvl : Bool := false
  lat : Bool := false
  /-- FCK count at which a CMPSET has last set THR (R199). -/
  setAt : Option Nat := none
  unres : Bool := false
  stuck : Bool := false
  stuckPhase : StuckPhase := .none
  /-- The level that MIN_GAP lets through, the level that MINW has accepted last, a change waiting for MINW, and the FCK
  counts at which that wait and MIN_GAP end. -/
  filt : Bool := false
  acc : Bool := false
  cand : Option (Bool × Nat) := none
  gapUntil : Option Nat := none
  activeSince : Option Nat := none
  /-- The waiting change woke the module (R164). -/
  woke : Bool := false
  /-- Running FCK count at the last period start (R159), and FCK count of the last event (R162). -/
  rampAt : Option Nat := none
  evAt : Option Nat := none
  /-- What the command that brought the input last gave for its source (log 19). -/
  seen : Option Int := none
  deriving DecidableEq, Repr

/-- The SAR of a tile (R129-R143). -/
structure Sar where
  en : Bool := false
  paused : Bool := false
  ilv : Bool := false
  solo : Bool := false
  seq : Byte := 0
  total : Word := 0
  t0 : BitVec 64 := 0
  writeIdx : Word := 0
  /-- FCK counts at which the next conversion starts and at which the last one of the tile itself did (R132). -/
  nextAt : Option Nat := none
  lastStart : Option Nat := none
  /-- EN has been cleared, or the clocks stop, during a conversion, which is still to be delivered (R129, R133). -/
  finish : Bool := false
  /-- A conversion has been delivered since the start or sync. -/
  begun : Bool := false
  /-- The last odd conversion of a joined pair: its FCK count and the skew trim in 0.25 ps (R139). -/
  oddAt : Nat × Int := (0, 0)
  chgUntil : Nat := 0
  /-- T_PGA or MUX was written: the 200 ns of CHG run from the next conversion start (R126). -/
  chgPend : Bool := false
  missed : Bool := false
  oddNext : Bool := false
  noStream : Bool := false
  deriving DecidableEq, Repr

/-- The decimation chain (R145-R149): inputs since the start and their sample words, newest first; the words it has delivered
since then, and the SYSTIME of its first input's conversion start (R142, R147). -/
structure Decim where
  count : Nat := 0
  outs : Nat := 0
  hist : List Int := []
  mark : Bool := false
  flagHist : List (BitVec 32) := []
  total : Word := 0
  t0 : BitVec 64 := 0
  noStream : Bool := false
  deriving DecidableEq, Repr

/-- The biquad (R127, R128): its last two inputs and outputs about VCM in pV, the FCK count of the last base clock edge it has
seen, and the base clock edges since it restarted. -/
structure Biquad where
  x1 : Int := 0
  x2 : Int := 0
  y1 : Int := 0
  y2 : Int := 0
  at_ : Nat := 0
  edges : Nat := 0
  deriving DecidableEq, Repr

/-- The open stream record of a tile (R143). -/
structure OpenRec where
  time : BitVec 64
  openedAt : Nat
  decimated : Bool
  total : Word
  words : List Word
  deriving DecidableEq, Repr

/-- What a trowel is doing (R88, R92, R96, R103). -/
inductive Play where
  | idle | playing | listening
  deriving DecidableEq, Repr

/-- Who caused a fire. -/
inductive FireBy where
  | column | dacs | armDacs | spit | slot | stage
  /-- A test drop of a phase search (R123). -/
  | test
  deriving DecidableEq, Repr

/-- The trip stages of R96: after the first trip the trowel returns to its idle level, then the second attempt is awaited or
runs; `recovering` is the return after TRIP has been cleared. -/
inductive TripPhase where
  | none | returning | awaiting | second | recovering
  deriving DecidableEq, Repr

/-- One cell of a mapped column: the code sent, how many dots it carries and their weight (R50, R53). -/
structure Cell where
  code : Nat
  dots : Nat
  weight : Nat
  deriving DecidableEq, Repr

/-- A fire that a stroke or slot has scheduled on a group (R79). -/
structure DueFire where
  head : HeadId
  seq : Word
  col : Nat
  by_ : FireBy
  nFired : Nat
  latched : Bool
  listen : Option Nat
  /-- The firing nozzles with the cells they carry. -/
  cells : List (Nat × Cell) := []
  /-- Dots of the product that the fire carries, and their weight (R53). -/
  dots : Nat := 0
  weight : Nat := 0
  /-- Group trim over the firing nozzles, in vernier steps (R78). -/
  trim : Int := 0
  /-- Index of a DACS (R198); a group's fire plays T_TRWL.WAVE. -/
  wave : Option (Fin 16) := none
  /-- A column's encoder channel, its C0, its position in 16.16 counts with the remainder of the row (R73, R77), and the FCK
  count at which the generator took the column up (R75). -/
  chan : Fin 8 := 0
  c0 : Word := 0
  pos : Int := 0
  take : Nat := 0
  /-- The instant before trims, in vernier steps: eight to an FCK count (R75); none before count c has arrived. -/
  nominal : Option Int := none
  /-- FCK count before which the fire does not take place: its count, and LT's fall and T_LF (R75, R76). -/
  earliest : Nat := 0
  /-- The stroke began before changeover: the vernier is not used (R80, R83). -/
  onQck : Bool := false
  deriving DecidableEq, Repr

/-- A listen in progress on a tile's SAR (R103-R109). -/
structure Listen where
  head : HeadId
  seq : Word
  nozzle : Nat
  kind : BitVec 3
  retry : Bool
  start : BitVec 48
  window : Nat := 0
  /-- FCK count at listen start. -/
  opened : Nat := 0
  openNow : Bool := false
  trace : List (BitVec 14) := []
  closed : Bool := false
  /-- FCK count at window close; the class is ready 1,200 cycles later (R109). -/
  closedAt : Nat := 0
  deriving DecidableEq, Repr

structure Trowel where
  cfg : Word := 0x001F3000#32
  trip : Bool := false
  fold : Bool := false
  buddyAct : Bool := false
  taken : Bool := false
  play : Play := .idle
  phase : TripPhase := .none
  wave : Nat := 0
  /-- FCK count of the last fire (R81). -/
  lastFire : Option Nat := none
  /-- Instant of the first DAC sample of the present play, in vernier steps (R85); samples driven so far; the level the output
  has, in the units of the waveform's domain (R88, R90). -/
  playAt : Nat := 0
  samples : Nat := 0
  level : Nat := 0
  /-- Fire inhibit has cut the play short: the output returns to the idle level at its largest slope (R170). -/
  cut : Bool := false
  /-- FCK counts of listen start, of the last window close (R59, R103), and of the next chop period (R92). -/
  listenAt : Nat := 0
  closedAt : Nat := 0
  chopAt : Nat := 0
  due : Option DueFire := none
  current : Option DueFire := none
  /-- Product and column of the last fire of a stroke (R82). -/
  lastCol : Option (Word × Nat) := none
  /-- The group monitor's suspect fire: GROUP_SHORT or not (R101). -/
  suspect : Option Bool := none
  /-- TRIP was written 1 and the re-enable is scheduled (R96). -/
  reenable : Bool := false
  /-- A takeover waits for the fire-period boundary (R98, R99). -/
  takeover : Option Bool := none
  chopOn : Bool := false
  evenFire : Bool := true
  listen : Option Listen := none
  armedWarned : Bool := false
  clipWarned : Bool := false
  /-- Extra delay of a charge group found by the phase search, in vernier steps (R123). -/
  phaseSteps : Int := 0
  deriving DecidableEq, Repr

structure Tile where
  fenced : Bool := false
  inReset : Bool := false
  spare : Bool := false
  placed : Bool := false
  degraded : Bool := false
  retired : Bool := false
  ready : Bool := false
  epoch : Byte := 0
  ownEpoch : Byte := 0
  coat : BitVec 16 := 0
  bistPass : Bool := false
  /-- Ticks of recent transient faults (R231). -/
  transients : List Nat := []
  ctrl : Word := 0
  pga : Word := 0x0F0F0000#32
  adc : Word := 0xFC000D00#32
  cmpA : Comparator := {}
  cmpB : Comparator := {}
  dac : Word := 0
  flt : Word := 0xB0400000#32
  bq : Biquad := {}
  trowel : Trowel := {}
  sar : Sar := {}
  decim : Decim := {}
  openRec : Option OpenRec := none
  eng : Engine := {}
  engMem : Memory := []
  buffer : Memory := []
  lutRam : Memory := []
  /-- Fabric slice frames written (R224): frame index and its 128 bytes. -/
  frames : List (Nat × List Byte) := []
  waves : Vector Waveform 16 := Vector.replicate 16 {}
  shadowWaves : Vector Waveform 16 := Vector.replicate 16 {}
  teo : Bool := false
  tei : Vector Bool 3 := Vector.replicate 3 false
  sliceOut : BitVec 64 := 0
  /-- Flip-flops of the slice: FF0 of LUT i at bit 2i, FF1 at bit 2i + 1 (R225). -/
  ffs : BitVec 256 := 0
  /-- One-cycle inputs of the slice since its last clock edge: fire start, stroke boundary, TRIG, data strobe (R226). -/
  pulses : BitVec 4 := 0
  /-- The tile lies behind the dust sheet (R238, R239). -/
  sheet : Bool := false
  /-- FCK count of the sheet's release from reset, and tick of the last heartbeat probe (R239, R243). -/
  sheetAt : Nat := 0
  probedAt : Nat := 0
  /-- A spine word for the data input of a FABRIC or DECIM stage (R226). -/
  dataIn : Word := 0
  deriving DecidableEq, Repr

/-! ### Panels -/

/-- A select frame in a port (R58, R59, R61). -/
structure Frame where
  fire : Bool
  head : HeadId
  seq : Word
  col : Nat
  codes : List Nat
  /-- FCK count at which its first bit goes out, whether at the rate before changeover (R62), and whether this is its second
  sending (R61). -/
  start : Nat := 0
  onQck : Bool := false
  again : Bool := false
  deriving DecidableEq, Repr

structure Panel where
  ref : Word := 0
  refOk : Bool := false
  refFault : Bool := false
  /-- FCK count of the reference's start or last change, and REFOK has set since the panel entered ARMED (R136, R155). -/
  refAt : Nat := 0
  refSeen : Bool := false
  vext : BitVec 12 := 0
  vset : BitVec 10 := 0
  pvhOk : Bool := false
  pvhOn : Bool := false
  crsOk : Bool := false
  /-- The rail is off, or on and not good since: its reservoir is measured when it becomes good (R94). -/
  crsDue : Bool := true
  pvhMeas : Word := 0
  crsCap : BitVec 16 := 0
  crsV : BitVec 16 := 0
  overspeed : BitVec 16 := 0
  powerCap : BitVec 16 := 0
  cmpFilt : Vector Word 2 := Vector.replicate 2 0
  overrun : BitVec 16 := 0
  falseWake : BitVec 16 := 0
  echoTransient : BitVec 16 := 0
  echoLasting : BitVec 16 := 0
  listen : Word := 0x4020F403#32
  cls0 : Word := 0x1F1FB31A#32
  cls1 : Word := 0x60801405#32
  gmon : Word := 0x40400508#32
  listened : BitVec 16 := 0
  skipped : Byte := 0
  stolen : Byte := 0
  calInterp : Bool := true
  /-- The panel has left OFF and its calibration is not recomputed yet (R359). -/
  calDue : Bool := true
  tLast : BitVec 16 := 0
  calq : Word := 0
  tempMax : BitVec 16 := 0
  tempSensor : BitVec 16 := 0
  /-- Tick of the last reading (R359). -/
  tempAt : Option Nat := none
  lanes : BitVec 16 := 0xFFFF#16
  replayed : BitVec 16 := 0
  failed : BitVec 16 := 0
  purgeRaised : Bool := false
  offWarned : Bool := false
  /-- Crossbar: source of each sink, 256 when none (R168, R169), and the level each sink holds. -/
  sinks : Vector Nat 256 := Vector.replicate 256 256
  sinkLvl : Vector Bool 256 := Vector.replicate 256 false
  /-- Epoch that each sink's grant carries (R169, R241), and sinks that a change of source holds inactive, with the FCK count
  at which they follow the new one (R169). -/
  sinkEpoch : Vector Byte 256 := Vector.replicate 256 0
  sinkHold : List (Nat × Nat) := []
  /-- Spine inbound lane k takes outbound lane `l` of panel `p` (R171): 32 * p + l, 256 when none. -/
  spineIn : Vector Nat 32 := Vector.replicate 32 256
  /-- Pin of each pin event input line, 128 when none (R366). -/
  pinLine : Vector Nat 32 := Vector.replicate 32 128
  /-- The frames of the port in sending order; the first is shifting. -/
  frames : List Frame := []
  /-- FCK count at which LT last fell (R58). -/
  ltLow : Nat := 0
  /-- Frame words that a SELECT_PORT stage has taken (R211). -/
  portWords : List Word := []
  /-- Fires of the last 100 us on the rail: FCK count and energy in nC * 50 mV (R262). -/
  railLog : List (Nat × Nat) := []
  deriving DecidableEq, Repr

/-! ### Heads, jobs, products -/

/-- A nozzle of a head map (R27). -/
structure Nozzle where
  port : PanelId
  slot : Nat
  tile : TileId
  row : Nat
  neighbours : List Int
  deriving DecidableEq, Repr

/-- The definition of a head: descriptor bytes 24-42 (R26) and its map (R27). -/
structure HeadDef where
  selBits : Nat
  lanes : Nat
  rate : Nat
  rows : Nat
  ports : Byte
  echoEn : Bool
  echoDelay : Nat
  latchSetup : Nat
  latchWidth : Nat
  ckCont : Bool
  listenCode : Nat
  echoPhase : Nat
  tLf : Nat
  neighbours : Nat
  dInvert : Byte
  ctlInvert : Byte
  rowOffsets : List Int
  nozzles : List Nozzle
  deriving DecidableEq, Repr

/-- Nozzle status entry (R110). `last` 7: not yet classified. -/
structure NozzleStat where
  status : BitVec 2 := 0
  pending : Bool := false
  last : BitVec 3 := 7
  transients : Byte := 0
  /-- The host has written the status and no snapshot has been taken since (R112). -/
  byHost : Bool := false
  deriving DecidableEq, Repr

/-- Compensation settings (R52). -/
structure Comp where
  mapper : Bool := true
  grey : Bool := true
  wMove : BitVec 16 := 57344
  wBoost : BitVec 16 := 49152
  deriving DecidableEq, Repr

/-- Where a product's raster comes from (R32, R49). -/
inductive Raster where
  | merged (cols : List (List Nat))
  | awaited
  /-- Read from the host: its address, its queue, the columns that have arrived, and whether a read has failed twice. -/
  | host (addr : BitVec 64) (pq : Fin 8) (cols : List (List Nat)) (failed : Bool)
  deriving DecidableEq, Repr

/-- Causes of R65. -/
inductive Cause where
  | none | dateExpired | collision | lateRender | disarmed | fault | noRaster | integrity | overflow
  deriving DecidableEq, Repr

/-- A field-slot record (R33). -/
structure FieldRec where
  ty : Nat
  table : Nat
  source : Nat
  orMode : Bool
  column : Nat
  nozzle : Nat
  glyphs : Nat
  fill : Byte
  string : List Byte
  deriving DecidableEq, Repr

/-- A counter record with its present value (R37). -/
structure CounterRec where
  decimal : Bool
  digits : Nat
  down : Bool
  start : Word
  limit : Word
  step : Nat
  value : Word
  deriving DecidableEq, Repr

/-- A defined job (R29-R32). -/
structure JobDef where
  head : HeadId
  flags : Byte
  columns : Nat
  pitch : Nat
  delay : Word
  trigger : BitVec 16
  encoder : Fin 8
  rejectPin : Byte
  minPitch : Word
  rejectDist : Word
  rejectWidth : Nat
  coverMin : Nat
  fields : List FieldRec
  counters : List CounterRec
  template : List Byte
  maxRate : Word
  used : Nat
  /-- Nozzles and select bits of the head when the job was defined: the layout of its template (R32). -/
  nozzles : Nat
  bits : Nat
  deriving DecidableEq, Repr

/-- A product in flight (R45, R63-R65). -/
structure Product where
  seq : Word
  job : Fin 64
  /-- The job as it was when the product was detected. -/
  jdef : JobDef
  time : BitVec 64
  c0 : Word
  counts : List Word
  slot : Option (Fin 32)
  stale : Bool
  raster : Raster
  rendered : Bool
  merge : Bool
  compens : Bool
  classify : Bool
  faultcls : Bool
  /-- Next stroke column, and the mapped image columns, newest first. -/
  col : Nat := 0
  mapped : List (List Cell) := []
  crc : Word := 0xFFFFFFFF#32
  started : Bool := false
  dots : Nat := 0
  /-- Dots that have fired, and the sum of their weights (R53). -/
  fired : Nat := 0
  weight : Nat := 0
  /-- Whole-column stagger and remainder of each row (R77). -/
  stagger : List (Nat × Int) := []
  compensated : Bool := false
  echoFault : Bool := false
  unreliable : Bool := false
  prelock : Bool := false
  rejectEarly : Bool := false
  cause : Cause := .none
  done : Bool := false
  deriving DecidableEq, Repr

/-- A SPIT, a sweep or a spit-and-listen pass on a head (R114-R117). -/
structure Pass where
  desc : Option Desc
  spit : Bool
  first : Nat
  count : Nat
  fires : Nat
  code : Nat
  listens : Bool
  period : Nat
  inclOut : Bool
  /-- A pass of SPIT_EVERY: INCL_OUT is that of each nozzle's panel (R106, R114). -/
  own : Bool := false
  /-- Nozzles still to visit, and fires left of the nozzle each group is at. -/
  left : List Nat
  /-- Fires made of the present round (R117). -/
  fired : Nat := 0
  again : List Nat := []
  /-- The latest class of each nozzle heard. -/
  results : List (Nat × Nat) := []
  deriving DecidableEq, Repr

/-- A tracking or single phase search (R123). -/
structure PhaseSearch where
  desc : Option Desc
  chargeTile : TileId
  detectTile : TileId
  steps : Nat
  drops : Nat
  hitsMin : Nat
  flight : Nat
  span : Nat
  every : Nat
  /-- The step under test, drops left of it (0: no search runs), and the hits of every step. -/
  step : Nat := 0
  dropsLeft : Nat := 0
  hits : List Nat := []
  /-- FCK count at which the present test drop is charged (R123). -/
  charged : Option Nat := none
  /-- CMPA of the detector tile has been latched in the present window. -/
  hit : Bool := false
  /-- The search runs a second time, no step having passed. -/
  again : Bool := false
  /-- FCK count before which a tracking search does not repeat. -/
  nextAt : Nat := 0
  deriving DecidableEq, Repr

structure Swap where
  desc : Desc
  job : Fin 64
  deriving DecidableEq, Repr

structure Head where
  hdef : Option HeadDef := none
  comp : Comp := {}
  /-- Settings that wait for the product boundary, oldest first (R52). -/
  compWait : List (Desc × Comp) := []
  armed : Option (Fin 64) := none
  /-- The armed job carries the HLV term of R95: it was armed while no other job was (R260). -/
  hlvShare : Bool := false
  /-- The armed job's P of R95, divided by 0.9, in 10 mW; taken at arming (R260). -/
  power : Nat := 0
  swap : Option Swap := none
  /-- DISARMs that wait for the products in flight (R48). -/
  disarm : List Desc := []
  products : List Product := []
  nextSeq : Word := 0
  lastC0 : Option Word := none
  freeRunWait : Bool := false
  /-- C0 taken by a free-run job for its next product (R70). -/
  freeRunC0 : Option Word := none
  /-- Filtered trigger edges not yet accepted or suppressed, oldest first: SYSTIME and the encoder counts latched at each (R69). -/
  edges : List (BitVec 64 × List Word) := []
  pointers : List (TileId × Nat) := []
  stats : List NozzleStat := []
  pass : Option Pass := none
  search : Option PhaseSearch := none
  spitCount : Nat := 0
  colsSinceSteal : Option Nat := none
  stealNext : Bool := false
  /-- Whole-column stagger and remainder of each row, fixed at arming (R77). -/
  stagger : List (Nat × Int) := []
  lead : Nat := 0
  /-- The column last taken up, as a fire of no group: it tells when the column's instant has come (R75). -/
  column : Option DueFire := none
  /-- Waveforms whose shadow copies go live at the product boundary: the command, how its read-back went, its index and
  its tiles (R91). -/
  waveWait : List (Desc × Attempt × Fin 16 × List TileId) := []
  /-- A phase that acts from the next product boundary (R123). -/
  phaseWait : Option (TileId × Int) := none
  deriving DecidableEq, Repr

structure Job where
  jdef : Option JobDef := none
  suppressed : Nat := 0
  deriving DecidableEq, Repr

/-- A glyph (R35): advance in columns, and its column bitmaps as lists of levels. -/
structure Glyph where
  advance : Nat
  cols : List (List Nat)
  deriving DecidableEq, Repr

structure GlyphTable where
  height : Nat := 0
  glyphs : List (Byte × Glyph) := []
  deriving DecidableEq, Repr

structure DateSlot where
  effective : BitVec 64 := 0
  expiry : BitVec 64 := 0
  strings : List (List Byte) := []
  deriving DecidableEq, Repr

/-- Slots that wait for the step between two accepted detects (R39). -/
structure SlotWrite where
  desc : Desc
  index : Nat
  slots : List DateSlot
  lead : Nat
  deriving DecidableEq, Repr

structure Dates where
  slots : Vector DateSlot 32 := Vector.replicate 32 {}
  lead : Nat := 60
  wait : List SlotWrite := []
  /-- DATE_LOW may be raised (R42). -/
  lowArmed : Bool := true
  deriving DecidableEq, Repr

/-! ### Chains, coats, calibration -/

/-- A stage record (R210). -/
structure Stage where
  kind : Nat
  fixed : Bool
  grouped : Bool
  fix : Nat
  group : Nat
  heat : Nat
  params : List Byte
  deriving DecidableEq, Repr

/-- A link record (R213). -/
structure LinkRec where
  src : Nat
  srcPort : Nat
  dst : Nat
  dstPort : Nat
  ty : Nat
  budget : Nat
  hold : Bool
  deriving DecidableEq, Repr

/-- A stage entry of a placement record (R222). -/
structure StagePlace where
  stage : Nat
  unit : Nat
  tile : TileId
  deriving DecidableEq, Repr

/-- A route entry of a placement record (R222). -/
structure Route where
  link : Nat
  kind : Nat
  panel : PanelId
  item : Nat
  deriving DecidableEq, Repr

/-- An analogue port AP0 to AP5 in use (R228): `key` is a link for an input, 256 + 4 * stage + k for output port 4 + k. -/
structure ApUse where
  key : Nat
  tile : TileId
  ap : Nat
  deriving DecidableEq, Repr

structure Placement where
  stages : List StagePlace
  routes : List Route
  aps : List ApUse := []
  deriving DecidableEq, Repr

structure Chain where
  cdef : Option (List Stage × List LinkRec) := none
  placement : Option Placement := none
  broken : Bool := false
  deriving DecidableEq, Repr

/-- A STAGE_COAT item (R232). -/
structure Item where
  off : Nat
  value : Word
  mask : Word
  deriving DecidableEq, Repr

/-- A calibration entry (R346, R360). -/
structure CalEntry where
  code : Nat
  sub : Nat
  unit : Nat
  value : Int
  deriving DecidableEq, Repr

/-- A frame of an image: its address and its 128 bytes (R331). -/
structure ImgFrame where
  addr : Word
  data : List Byte
  deriving DecidableEq, Repr

/-- What a descriptor bound to a coat does at its commit point (R233). -/
inductive Bound where
  /-- A placement, with the command that waits for it and the stages it sets up. -/
  | place (by_ : Option (Byte × Desc)) (chain : Fin 256) (p : Placement) (sets : List Nat) (us : Nat)
  | release (d : Desc) (chain : Fin 256)
  | startEngine (d : Desc) (tiles : List TileId) (resume : Bool) (arg1 arg2 : Word)
  | image (d : Desc) (tiles : List TileId) (rb : Attempt) (frames : List ImgFrame)
  | applyCal (d : Desc) (action : Nat) (old : List CalEntry)
  | fnMode (d : Desc)
  deriving DecidableEq, Repr

/-- The commit point of a coat (R235). -/
inductive CommitPoint where
  | product (h : HeadId) | firePeriod (h : HeadId) | time (t : BitVec 64) | now
  deriving DecidableEq, Repr

/-- An open coat (R232-R236). `own` marks a coat the module opened for itself (R217, R230). -/
structure Coat where
  number : BitVec 16
  items : List Item := []
  bound : List Bound := []
  point : Option (Desc × CommitPoint × Option Nat) := none
  own : Bool := false
  deriving DecidableEq, Repr

/-- A decimator sync that is pending (R148, R150): at a SYSTIME, or at an FCK count where it was asked for at once. -/
structure Sync where
  desc : Option Desc
  groups : BitVec 16
  time : BitVec 64
  due : Option Nat := none
  deriving DecidableEq, Repr

/-- A program of the program store (R204). -/
structure Program where
  bytes : List Byte
  entry : Word
  deriving DecidableEq, Repr

/-- A running CALIBRATE (R351-R354): entry groups still to measure as code and unit, the fits accepted, counts, and the
raw records of FN_MODE.CALFIT = 1. -/
structure CalRun where
  desc : Desc
  head : HeadId
  store : Bool
  left : List (Nat × Nat)
  good : List CalFit := []
  accepted : Nat := 0
  kept : Nat := 0
  skipped : Nat := 0
  raw : List Byte := []
  deriving DecidableEq, Repr

/-- A change of one live entry: its new value, none where it is to hold none, and whether it carries the override mark
then (R357). -/
structure CalChange where
  code : Nat
  sub : Nat
  unit : Nat
  value : Option Int
  mark : Bool
  deriving DecidableEq, Repr

/-- Changes that wait for their edges, and the APPLY_CAL that completes when the last has been made (R356). -/
structure CalWait where
  desc : Option Desc
  changes : List CalChange
  deriving DecidableEq, Repr

structure Cal where
  live : List CalEntry := []
  pending : List CalEntry := []
  /-- Pending entries, by code, SUB and unit, that will carry the override mark. -/
  marks : List (Nat × Nat × Nat) := []
  /-- Live entries that carry it. -/
  override : List (Nat × Nat × Nat) := []
  run : Option CalRun := none
  waits : List CalWait := []
  deriving DecidableEq, Repr

/-- A BIST run (R342-R344). -/
structure BistRun where
  desc : Option Desc
  tile : TileId
  mode : Nat
  slices : Nat
  done : Nat := 0
  /-- Some slice passed on its second run only. -/
  again : Bool := false
  readmit : Bool := false
  deriving DecidableEq, Repr

/-! ### Pins, timers, tally -/

structure Pin where
  cfg : Word := 0x40000080#32
  locked : Bool := false
  out : Bool := false
  /-- The level driven from outside; none when nothing drives the pad (R361). -/
  pad : Option Bool := none
  /-- The level the keeper holds (PULL 3). -/
  kept : Bool := false
  sync : Bool := false
  filt : Bool := false
  held : Bool := false
  ist : Bool := false
  ien : Bool := false
  stuck : Bool := false
  wake : Bool := false
  stuckPhase : StuckPhase := .none
  cand : Option (Bool × Nat) := none
  gapUntil : Option Nat := none
  activeSince : Option Nat := none
  woke : Bool := false
  /-- The function-switch hold runs, since this FCK count (R364). -/
  hold : Bool := false
  holdAt : Nat := 0
  /-- SYSTIME and encoder counts latched at the raw edge (R367). -/
  latch : Option (BitVec 64 × List Word) := none
  reject : Bool := false
  deriving DecidableEq, Repr

structure Timer where
  placed : Bool := false
  period : Word := 0
  high : Word := 0
  output : Bool := false
  /-- Clock cycles that the output keeps its level for (R366). -/
  left : Nat := 0
  deriving DecidableEq, Repr

/-- The two-write pin lock (R372) and the pins' filters and counters (R367, R368). -/
structure Gpio where
  pins : Vector Pin 128 := Vector.replicate 128 {}
  lockFirst : Option PinId := none
  filt : Vector Word 4 := Vector.replicate 4 0
  overrun : BitVec 16 := 0
  falseWake : BitVec 16 := 0
  timers : Vector Timer 16 := Vector.replicate 16 {}
  deriving DecidableEq, Repr

/-- A stitch range (R385, R388). -/
structure Stitch where
  head : HeadId
  first : Nat
  count : Nat
  neighbour : BitVec 9
  owned : Bool
  /-- An ownership change that waits for the product boundary (R386). -/
  change : Option Bool := none
  deriving DecidableEq, Repr

/-- A tally frame (R381). -/
inductive TFrame where
  | sync (at48 : BitVec 48) (groups : BitVec 16)
  | hold (reason head : Byte) (concerned : BitVec 16)
  | absent (entries : List (BitVec 16))
  | stitch (dest : BitVec 16) (action head : Byte)
  | roll (no period : BitVec 16)
  deriving DecidableEq, Repr

/-- A frame waiting to be sent, with the TALLY_SEND that asked for it, and whether it has failed once (R380). -/
structure TxFrame where
  frame : TFrame
  desc : Option Desc := none
  failed : Bool := false
  deriving DecidableEq, Repr

structure Tally where
  en : Bool := false
  master : Bool := false
  rate500 : Bool := false
  silent : Bool := false
  station : BitVec 9 := 0
  period : BitVec 16 := 0
  hold : Bool := false
  nomaster : Bool := false
  conflict : Bool := false
  reason : BitVec 2 := 0
  holdFrom : BitVec 9 := 0
  rollNo : BitVec 16 := 0
  nextRoll : BitVec 16 := 0
  /-- FCK counts at which the master's next roll is due and at which the last ROLL was heard, and its sender (R382). -/
  rollDue : Nat := 0
  rollAt : Nat := 0
  masterNo : Option (BitVec 9) := none
  lastPeriod : BitVec 16 := 0
  crcErr : Byte := 0
  retry : Byte := 0
  dropped : Byte := 0
  ignored : Byte := 0
  absent : List Nat := []
  expected : List Nat := []
  answered : List Nat := []
  missed : List Nat := []
  ranges : Vector (Option Stitch) 2 := Vector.replicate 2 none
  tx : List TxFrame := []
  deriving DecidableEq, Repr

/-! ### What leaves the module -/

/-- What the module sends on its outside, newest first in State.out (log 14). -/
inductive Sent where
  | message (vector : Fin 64)
  | jsb (f : JsbFrame)
  /-- A tally frame with its bits from SOF to EOF, stuff bits among them (R378). -/
  | tally (f : TFrame) (bits : List Bool)
  /-- The dominant ACK, an in-bit answer in a group's slot, and the error flag on the tally bus (R379, R380). -/
  | tallyAck
  | tallyAnswer (group slot : Nat)
  | tallyFlag
  | read (v : Word)
  /-- A read of BAR4 space: its bytes, and the poisoned mark of the completion (R309). -/
  | readBytes (bs : List Byte) (poisoned : Bool)
  /-- A select frame: the lines of the port in each bit time (CK, D0 to D7, LT from bit 0 up), and the codes it spells. -/
  | frame (port : PanelId) (fire : Bool) (codes : List Nat) (latched : Bool) (lines : List (BitVec 10))
  | portFrame (port : PanelId) (words : List Word)
  /-- A waveform starts on a pin: FCK count and vernier tap (R79). -/
  | fire (tile by_ : TileId) (wave cycle tap : Nat)
  /-- A DAC sample of a pin (R90). -/
  | dac (tile : TileId) (code : Nat)
  | trig (tile : TileId)
  | clkreq (on : Bool)
  deriving DecidableEq, Repr

/-! ### The whole machine -/

structure State where
  aon : Aon := {}
  clk : Clocks := {}
  pwr : Power := {}
  link : Link := {}
  jsb : Jsb := {}
  cqs : Vector Cq 16 := Vector.replicate 16 {}
  sts : Vector Stream 32 := Vector.replicate 32 {}
  pqs : Vector Pq 8 := Vector.replicate 8 {}
  /-- Turns the ring engine has served (R286). -/
  turns : Nat := 0
  ev : Events := {}
  msix : Vector Msix 64 := Vector.replicate 64 {}
  sec : Sec := {}
  fnMode : BitVec 16 := 0
  scratch : Vector Word 8 := Vector.replicate 8 0
  scrub : Scrub := {}
  mem : Integrity := {}
  /-- What the host has written into shared memory through BAR4. -/
  shared : List Host.Cell := []
  ledger : Ledger := {}
  coatNo : BitVec 16 := 0
  coatLast : BitVec 16 := 0
  coat : Option Coat := none
  /-- Tiles whose stages are to be re-placed, with the command that waits for it (R230, R317). -/
  moves : List (TileId × Option (Byte × Desc)) := []
  /-- Tiles whose read-back after E_c is due, with the FCK count by which it takes place (R237). -/
  readback : List (TileId × Nat) := []
  /-- Heartbeat probes sent and unanswered: the tile, whether it is the second probe, and the count of FCK cycles that had run
  when it was sent (R243). -/
  probes : List (TileId × Bool × Nat) := []
  chains : Vector Chain 256 := Vector.replicate 256 {}
  programs : Vector (Option Program) 64 := Vector.replicate 64 none
  netlists : Vector (List (Nat × List Byte)) 64 := Vector.replicate 64 []
  heads : Vector Head 8 := Vector.replicate 8 {}
  jobs : Vector Job 64 := Vector.replicate 64 {}
  glyphs : Vector GlyphTable 4 := Vector.replicate 4 {}
  dates : Dates := {}
  cal : Cal := {}
  bist : List BistRun := []
  syncs : List Sync := []
  /-- Pin events on their way to a group's sync line: the group and the FCK count of E (R148, R171). -/
  lineSyncs : List (Fin 16 × Nat) := []
  panels : Vector Panel 8 := Vector.replicate 8 {}
  tiles : Vector Tile 512 := Vector.replicate 512 {}
  gpio : Gpio := {}
  tally : Tally := {}
  hostMem : Memory := []
  /-- Counter of free values drawn (log 10). -/
  free : Nat := 0
  out : List Sent := []
  /-- The commands that wait, first in first out. -/
  pending : List Instr := []
  deriving DecidableEq, Repr

/-- The machine at the instant module reset ends, after the AON supply came up (R396, log 4): BOOTING, before the image
load of R335 and the default spares of R229. -/
def State.reset : State := {}

end Sys2Proof.Machine
end

