-- ==== Sys2Proof/Machine/Ops.lean ====
section
/-!
DEFINITION. The named operations over memories, byte strings and the tables of the state.
-/
namespace Sys2Proof.Machine

open Sys2Proof

abbrev Result := Host.Outcome State Fault Refusal

/-! ### Memories (R3, R21, R312) -/

/-- The byte at an address; an unlisted address reads zero (R312). -/
def Memory.get : Memory → Nat → Byte
  | [], _ => 0
  | (b, x) :: m, a => if b = a then x else Memory.get m a

/-- Writes one byte and keeps the canonical form. -/
def Memory.put : Memory → Nat → Byte → Memory
  | [], a, x => if x = 0 then [] else [(a, x)]
  | (b, y) :: m, a, x =>
    if a < b then (if x = 0 then (b, y) :: m else (a, x) :: (b, y) :: m)
    else if a = b then (if x = 0 then m else (a, x) :: m)
    else (b, y) :: Memory.put m a x

/-- The canonical form: addresses strictly rising from `lo`, no zero byte. -/
def Memory.wfFrom : Nat → Memory → Bool
  | _, [] => true
  | lo, (a, x) :: m => decide (lo ≤ a) && x != 0 && Memory.wfFrom (a + 1) m

def Memory.wf (m : Memory) : Bool := Memory.wfFrom 0 m

/-- `n` bytes from an address upward. -/
def Memory.bytes (m : Memory) (a : Nat) : Nat → List Byte
  | 0 => []
  | n + 1 => m.get a :: Memory.bytes m (a + 1) n

/-- Writes a byte string from an address upward. -/
def Memory.putBytes (m : Memory) (a : Nat) : List Byte → Memory
  | [] => m
  | x :: xs => Memory.putBytes (m.put a x) (a + 1) xs

/-- Removes every byte of a range: the range then reads zero (the primer, R312). -/
def Memory.clear (m : Memory) (a n : Nat) : Memory := m.filter fun c => c.1 < a || a + n ≤ c.1

/-! ### Shared memory (R22): every byte the host has written is listed, zeros too; an unlisted byte is the module's own -/

def sharedLook : List Host.Cell → Nat → Option Byte
  | [], _ => none
  | (b, x) :: m, a => if b = a then some x else sharedLook m a

def sharedPut : List Host.Cell → Nat → Byte → List Host.Cell
  | [], a, x => [(a, x)]
  | (b, y) :: m, a, x =>
    if a < b then (a, x) :: (b, y) :: m else if a = b then (a, x) :: m else (b, y) :: sharedPut m a x

def sharedPutBytes (m : List Host.Cell) (a : Nat) : List Byte → List Host.Cell
  | [] => m
  | x :: xs => sharedPutBytes (sharedPut m a x) (a + 1) xs

/-- Addresses strictly rising from `lo`. -/
def sharedWfFrom : Nat → List Host.Cell → Bool
  | _, [] => true
  | lo, (a, _) :: m => decide (lo ≤ a) && sharedWfFrom (a + 1) m

/-! ### Little-endian byte strings (R3) -/

/-- The number a byte string spells, byte 0 first. -/
def leNat : List Byte → Nat
  | [] => 0
  | b :: bs => b.toNat + 256 * leNat bs

/-- `n` bytes of a number, byte 0 first. -/
def natLe : Nat → Nat → List Byte
  | 0, _ => []
  | n + 1, v => BitVec.ofNat 8 (v % 256) :: natLe n (v / 256)

/-- The number in bytes `[off, off + n)` of a string. -/
def le (bs : List Byte) (off n : Nat) : Nat := leNat ((bs.drop off).take n)

/-- A number of `bits` bits read as signed. -/
def signed (bits v : Nat) : Int := if v < 2 ^ (bits - 1) then v else (v : Int) - 2 ^ bits

/-- Signed little-endian field. -/
def leInt (bs : List Byte) (off n : Nat) : Int := signed (8 * n) (le bs off n)

/-- Pads with zero bytes to a multiple of `k`. -/
def padTo (k : Nat) (bs : List Byte) : List Byte := bs ++ List.replicate ((k - bs.length % k) % k) 0

def u32 (v : Word) : List Byte := natLe 4 v.toNat

/-- A saturating count of `w` bits. -/
def satInc {w : Nat} (x : BitVec w) : BitVec w := if x = BitVec.allOnes w then x else x + 1

/-- A number clamped to `w` bits. -/
def satNat (w n : Nat) : BitVec w := BitVec.ofNat w (min n (2 ^ w - 1))

/-- Division rounded to the nearest, halves away from zero (R54, R77, R78, R359). -/
def divRound (a : Int) (b : Nat) : Int :=
  if 0 ≤ a then (2 * a + b) / (2 * b) else -((2 * (-a) + b) / (2 * b))

def ceilDiv (a b : Nat) : Nat := (a + b - 1) / b

/-! ### CRC-32C (R63) -/

/-- One bit of the reflected CRC with polynomial 0x1EDC_6F41. -/
def crcBit (c : Word) : Word := if c.getLsbD 0 then (c >>> 1) ^^^ 0x82F63B78#32 else c >>> 1

def crcBits : Nat → Word → Word
  | 0, c => c
  | n + 1, c => crcBits n (crcBit c)

/-- Folds bytes into a running CRC, before the final complement. -/
def crcFold (c : Word) (bs : List Byte) : Word :=
  bs.foldl (fun c b => crcBits 8 (c ^^^ b.setWidth 32)) c

/-- CRC-32C of a byte string (R63). -/
def crc32c (bs : List Byte) : Word := ~~~(crcFold 0xFFFFFFFF#32 bs)

/-! ### Updating the tables of the state -/

def State.modTile (s : State) (t : TileId) (f : Tile → Tile) : State :=
  { s with tiles := s.tiles.set t (f s.tiles[t]) }
def State.modPanel (s : State) (p : PanelId) (f : Panel → Panel) : State :=
  { s with panels := s.panels.set p (f s.panels[p]) }
def State.modHead (s : State) (h : HeadId) (f : Head → Head) : State :=
  { s with heads := s.heads.set h (f s.heads[h]) }
def State.modJob (s : State) (j : Fin 64) (f : Job → Job) : State :=
  { s with jobs := s.jobs.set j (f s.jobs[j]) }
def State.modChain (s : State) (c : Fin 256) (f : Chain → Chain) : State :=
  { s with chains := s.chains.set c (f s.chains[c]) }
def State.modCq (s : State) (n : Fin 16) (f : Cq → Cq) : State :=
  { s with cqs := s.cqs.set n (f s.cqs[n]) }
def State.modSt (s : State) (n : Fin 32) (f : Stream → Stream) : State :=
  { s with sts := s.sts.set n (f s.sts[n]) }
def State.modPq (s : State) (n : Fin 8) (f : Pq → Pq) : State :=
  { s with pqs := s.pqs.set n (f s.pqs[n]) }
def State.modMsix (s : State) (v : Fin 64) (f : Msix → Msix) : State :=
  { s with msix := s.msix.set v (f s.msix[v]) }
def State.modEnc (s : State) (n : Fin 8) (f : Encoder → Encoder) : State :=
  { s with aon := { s.aon with enc := s.aon.enc.set n (f s.aon.enc[n]) } }
def State.modPin (s : State) (p : PinId) (f : Pin → Pin) : State :=
  { s with gpio := { s.gpio with pins := s.gpio.pins.set p (f s.gpio.pins[p]) } }
def State.modTimer (s : State) (k : Fin 16) (f : Timer → Timer) : State :=
  { s with gpio := { s.gpio with timers := s.gpio.timers.set k (f s.gpio.timers[k]) } }
def State.modEng (s : State) (t : TileId) (f : Engine → Engine) : State :=
  s.modTile t fun x => { x with eng := f x.eng }
def State.modTrowel (s : State) (t : TileId) (f : Trowel → Trowel) : State :=
  s.modTile t fun x => { x with trowel := f x.trowel }
def State.modCmp (s : State) (t : TileId) (c : Cmp) (f : Comparator → Comparator) : State :=
  s.modTile t fun x => match c with
    | .a => { x with cmpA := f x.cmpA }
    | .b => { x with cmpB := f x.cmpB }
def Tile.cmp (x : Tile) : Cmp → Comparator
  | .a => x.cmpA
  | .b => x.cmpB

def State.send (s : State) (x : Sent) : State := { s with out := x :: s.out }

/-- A free bit, and the state with the counter advanced (log 10). -/
def State.drawBit (s : State) : Bool × State := (Config.freeBit s.free, { s with free := s.free + 1 })
def State.drawWord (s : State) : BitVec 64 × State := (Config.freeWord s.free, { s with free := s.free + 1 })

/-! ### Numbering (R10, R11) -/

/-- Panel of a tile: n div 64. -/
def panelOf (t : TileId) : PanelId := ⟨t.val / 64, by omega⟩
/-- Tile of a panel by local index. -/
def tileAt (p : PanelId) (l : Fin 64) : TileId := ⟨64 * p.val + l.val, by omega⟩
def localOf (t : TileId) : Nat := t.val % 64
/-- The partner, n xor 1. -/
def partner (t : TileId) : TileId := if h : t.val % 2 = 0 then ⟨t.val + 1, by omega⟩ else ⟨t.val - 1, by omega⟩

def allTiles : List TileId := List.finRange 512
def allPanels : List PanelId := List.finRange 8
def allHeads : List HeadId := List.finRange 8
def tilesOf (p : PanelId) : List TileId := (List.finRange 64).map (tileAt p)

/-! ### States of the module and its panels (R266, R267, R272) -/

def Mode.code : Mode → Nat
  | .dormant => 0 | .standby => 1 | .armed => 2 | .active => 3 | .faultHold => 4 | .booting => 5
def PState.code : PState → Nat
  | .off => 0 | .retain => 1 | .armed => 2 | .active => 3
def PState.live : PState → Bool
  | .armed | .active => true
  | _ => false
def Mode.up : Mode → Bool
  | .armed | .active => true
  | _ => false
def Lifecycle.code : Lifecycle → Nat
  | .blank => 0 | .opened => 1 | .closed => 2 | .returned => 3

def State.pstate (s : State) (p : PanelId) : PState := s.pwr.panels[p]
/-- The tile's panel is ARMED or ACTIVE in a module that is (R88, R154). -/
def State.tileLive (s : State) (t : TileId) : Bool := s.pwr.mode.up && (s.pstate (panelOf t)).live
/-- Fast clocks run (R13, R272 FAST). -/
def State.fastOn (s : State) : Bool := s.clk.fast == .qck || s.clk.fast == .fck
/-- SYSTIME as the AON domain latches it: the base of the last tick while fast clocks are stopped (R17). -/
def State.aonTime (s : State) : BitVec 64 := if s.fastOn then s.aon.sysNow else s.aon.sysBase
/-- Before changeover (R13, R20 PRELOCK). -/
def State.prelock (s : State) : Bool := s.clk.fast != .fck
/-- The service domain (bursar, endpoint, ring engine) runs and accepts descriptors (R266, R398 READY). -/
def State.serving (s : State) : Bool :=
  s.aon.up && (s.pwr.mode != .booting && s.pwr.mode != .dormant)

/-- FCK cycles of a time in us (1,200 per us). -/
def usFck (n : Nat) : Nat := 1200 * n
/-- The low 48 bits of SYSTIME, the timestamp of a record (R20). -/
def State.stamp (s : State) : BitVec 48 := s.aon.sysNow.setWidth 48

end Sys2Proof.Machine
end

