-- ==== Sys2Proof/Machine/Codes.lean ====
section
/-!
DEFINITION. The error codes of the memories (R306, R307, R310) and the flips of MEM_FLIP (R316). A word is clean unless listed
in `mem.errs` with its flipped codeword bits or its poison mark.
-/
namespace Sys2Proof.Machine

open Sys2Proof

/-- The codes of R306. -/
inductive Code where
  | strong | standard | light
  deriving DecidableEq, Repr

/-- The effective code of buffer region 1 to 3 (R310). -/
def memCodeOf (w : Word) (k : Nat) : Code :=
  match Word.field w (2 * k + 1) (2 * k) with
  | 1 => .light
  | 2 => .strong
  | _ => .standard

/-- The code of a region (R307). -/
def State.codeOf (s : State) (region : Fin 16) : Code :=
  match region.val with
  | 0 => .standard
  | 2 => memCodeOf s.mem.memCode 0
  | 3 => memCodeOf s.mem.memCode 1
  | 4 => memCodeOf s.mem.memCode 2
  | 5 => .light
  | 9 => .standard
  | 12 => .light
  | _ => .strong

/-- Codeword bits (R306). -/
def Code.width : Code → Nat
  | .strong => 80 | .standard => 72 | .light => 68

def popcount (f : BitVec 80) : Nat := ((List.range 80).filter fun i => f.getLsbD i).length

/-- LIGHT: some 16-bit group with its parity bit holds an odd number of flips (R306). -/
def lightFails (f : BitVec 80) : Bool :=
  (List.range 4).any fun k =>
    (((List.range 16).filter fun i => f.getLsbD (16 * k + i)).length + (f.getLsbD (64 + k)).toNat) % 2 == 1

/-- What a decoder makes of a set of flips. -/
inductive Decoded where
  | clean | corrected | uncorrectable
  /-- Flips the code does not see: the data is read as it stands. -/
  | unseen
  /-- More flips than the code detects: the manual says nothing of them (log 10). -/
  | open_
  deriving DecidableEq, Repr

def Code.decode (c : Code) (f : BitVec 80) : Decoded :=
  let n := popcount f
  match c with
  | .strong => if n = 0 then .clean else if n ≤ 2 then .corrected else if n = 3 then .uncorrectable else .open_
  | .standard => if n = 0 then .clean else if n = 1 then .corrected else if n = 2 then .uncorrectable else .open_
  | .light => if lightFails f then .uncorrectable else if n = 0 then .clean else .unseen

def State.errOf (s : State) (l : Loc) : Option WordErr := s.mem.errs.find? fun e => e.loc == l
def State.dropErr (l : Loc) (s : State) : State :=
  { s with mem := { s.mem with errs := s.mem.errs.filter fun e => e.loc != l } }
def State.putErr (e : WordErr) (s : State) : State :=
  let s := s.dropErr e.loc
  if e.flips = 0 ∧ !e.poison then s else { s with mem := { s.mem with errs := e :: s.mem.errs } }

/-- Base of regions 8 to 11 in shared memory (R22). -/
def sharedBase (region : Nat) : Nat :=
  match region with
  | 8 => 0 | 9 => 0x1000000 | 10 => 0x1800000 | _ => 0x1820000
/-- Region of a shared memory offset. -/
def sharedRegion (off : Nat) : Fin 16 :=
  if off < 0x1000000 then 8 else if off < 0x1800000 then 9 else if off < 0x1820000 then 10 else 11

/-- The armed flips act on this write (R316). -/
def State.flipHits (s : State) (l : Loc) : Bool :=
  s.mem.flipArm && Word.field s.mem.flipSel 15 12 == l.region.val &&
    (decide (8 ≤ l.region.val ∧ l.region.val ≤ 11) || Word.field s.mem.flipSel 8 0 == l.unit)

/-- The codeword bits of the mask (R316), cut to the codeword. -/
def State.flipMask (s : State) (region : Fin 16) : BitVec 80 :=
  let m : Nat := s.mem.flipHi.toNat * 2 ^ 32 + s.mem.flipLo.toNat
  let w := (s.codeOf region).width
  BitVec.ofNat 80 ((if s.mem.flipSel.getLsbD 16 then m * 2 ^ 16 else m) % 2 ^ w)

def applyFlips (l : Loc) (s : State) : State :=
  if s.flipHits l then
    let f := ((s.errOf l).map (·.flips)).getD 0 ^^^ s.flipMask l.region
    let p := ((s.errOf l).map (·.poison)).getD false
    let s := s.putErr { loc := l, flips := f, poison := p }
    { s with mem := { s.mem with flipArm := false, flipLo := 0, flipHi := 0 } }
  else s

/-- A write of a whole codeword leaves it clean, unless armed flips act on it (R310, R316). -/
def wholeWrite (l : Loc) (s : State) : State := applyFlips l (s.dropErr l)

end Sys2Proof.Machine
end

