-- ==== Sys2Proof/Machine/Report.lean ====
section
/-!
DEFINITION. What the module reports: MSI-X messages (R301), stream records (R293-R296), status events (R300), the ledger
(R322-R326) and health (R231).
-/
namespace Sys2Proof.Machine

open Sys2Proof

/-! ### MSI-X (R301) -/

/-- The minimum gap of vector `v` in us: byte v mod 4 of IRQ_GAP(v div 4) (R300). -/
def State.msixGap (s : State) (v : Fin 64) : Nat :=
  let w := s.ev.gap[(⟨v.val / 4, by omega⟩ : Fin 16)]
  Word.field w (8 * (v.val % 4) + 7) (8 * (v.val % 4))

/-- A cause on vector `v`: pends in the PBA while masked, waits for the gap, or sends one message (R301). -/
def raiseMsix (v : Fin 64) (s : State) : State :=
  let m := s.msix[v]
  if m.masked || s.link.fnMask then s.modMsix v fun m => { m with pba := true }
  else if s.aon.fck < m.gapUntil then s.modMsix v fun m => { m with held := true }
  else
    let t := s.aon.fck + usFck (s.msixGap v)
    (s.modMsix v fun m => { m with gapUntil := t, held := false }).send (.message v)

/-! ### Host memory as the module writes it (R280, R288) -/

/-- The link carries host-memory writes: trained, not in D3hot reset or PERST (R280, R254). -/
def State.linkUp (s : State) : Bool := s.link.speed != 0 && !s.link.perst

def State.hostWrite (s : State) (a : Nat) (bs : List Byte) : State :=
  { s with hostMem := s.hostMem.putBytes a bs }

/-! ### The sideband (R252, R253) -/

/-- The module sends a frame; SENT counts it. -/
def jsbSend (f : JsbFrame) (s : State) : State :=
  { s with jsb := { s.jsb with sent := satInc s.jsb.sent, last := some f, repeated := false } }.send (.jsb f)

/-- CLKREQ and LINK_WAKE; VALUE bits they do not use are open. -/
def clkreqFrame (on : Bool) : JsbFrame := ⟨8, (Config.jsbPad 8 &&& 0xFFE#12) ||| BitVec.ofNat 12 on.toNat⟩
def wakeFrame : JsbFrame := ⟨9, Config.jsbPad 9⟩

/-- A record for the host brings the link out of L1: LINK_WAKE, with CLKREQ where it was released (R257). -/
def linkWake (s : State) : State :=
  if s.link.inL1 then
    let s := if s.link.clkreq then s else jsbSend (clkreqFrame true) { s with link := { s.link with clkreq := true } }
    jsbSend wakeFrame { s with link := { s.link with inL1 := false } }
  else s

/-! ### Stream rings (R292-R296) -/

def Stream.bytes (r : Stream) : Nat := 4096 * 2 ^ r.size.toNat
/-- Bytes not yet consumed. -/
def Stream.used (r : Stream) : Nat := (r.write.toNat + r.bytes - r.consumed.toNat) % r.bytes

/-- Bytes a record of `n` bytes takes at offset `w`, with the PAD it needs (R294). -/
def Stream.cost (r : Stream) (w n : Nat) : Nat := if w + n > r.bytes then (r.bytes - w) + n else n

/-- The 8-byte record header (R293). -/
def recHeader (len ty : Nat) (rseq : Word) : List Byte :=
  natLe 2 len ++ natLe 1 ty ++ [0] ++ u32 rseq

/-- Writes one record at WRITE, after a PAD when it would pass the ring's end (R294). -/
def putRecord (n : Fin 32) (ty : Nat) (payload : List Byte) (s : State) : State :=
  let r := s.sts[n]
  let body := padTo 8 payload
  let len := 8 + body.length
  let w := r.write.toNat
  if w + len > r.bytes then
    let s := s.hostWrite (r.base.toNat + w) (recHeader (r.bytes - w) 0 r.rseq)
    let s := s.hostWrite r.base.toNat (recHeader len ty (r.rseq + 1) ++ body)
    s.modSt n fun r => { r with write := BitVec.ofNat 26 (len % r.bytes), rseq := r.rseq + 2, mirrorDue := true }
  else
    let s := s.hostWrite (r.base.toNat + w) (recHeader len ty r.rseq ++ body)
    s.modSt n fun r =>
      { r with write := BitVec.ofNat 26 ((w + len) % r.bytes), rseq := r.rseq + 1, mirrorDue := true }

/-- The payload of a GAP record (R293). -/
def gapPayload (g : Gap) : List Byte :=
  u32 g.lost ++ natLe 6 g.firstTime.toNat ++ natLe 6 g.lastTime.toNat ++ natLe 2 g.types.toNat ++ List.replicate 6 0

/-- Fires the ring's vector; no further message until the consumed doorbell (R296). -/
def fireRing (n : Fin 32) (s : State) : State :=
  raiseMsix (s.sts[n]).vector (s.modSt n fun r => { r with signalled := true, firstAt := none })

/-- A record has been written: the ring's message when its condition holds (R296). -/
def signalRing (n : Fin 32) (s : State) : State :=
  let now := s.aon.fck
  let s := s.modSt n fun r => { r with firstAt := r.firstAt.or (some now) }
  let r := s.sts[n]
  if !r.signalled && decide (64 * r.thresh.toNat ≤ r.used) then fireRing n s else s

/-- Discards a record for want of room or of a link (R295): counts it and opens or extends the GAP. -/
def dropRecord (n : Fin 32) (ty : Nat) (s : State) : State :=
  let t := s.stamp
  s.modSt n fun r =>
    let g : Gap := r.gap.getD { firstTime := t }
    { r with lost := r.lost + 1,
             gap := some { g with lost := g.lost + 1, lastTime := t, types := g.types ||| (1#16 <<< ty) } }

/-- Writes a record, with the due GAP first, if they fit (R295). Answers whether this is the first discard. -/
def writeRecord (n : Fin 32) (ty : Nat) (payload : List Byte) (s : State) : Bool × State :=
  let s := linkWake s
  let r := s.sts[n]
  let len := 8 + (padTo 8 payload).length
  let w := r.write.toNat
  let gapLen := if r.gap.isSome then r.cost w 32 else 0
  let need := gapLen + r.cost ((w + gapLen) % r.bytes) len
  if s.linkUp && decide (need + 8 ≤ r.bytes - r.used) then
    let s := match r.gap with
      | some g => (putRecord n 1 (gapPayload g) s).modSt n fun r => { r with gap := none }
      | none => s
    (false, signalRing n (putRecord n ty payload s))
  else (r.gap.isNone, dropRecord n ty s)

/-- The ring a source is bound to (R290). -/
def State.ringOf (s : State) (src : Source) : Option (Fin 32) :=
  (List.finRange 32).find? fun n => s.sts[n].isOpen && s.sts[n].sources.contains src

/-! ### Status events (R300) -/

/-- EV_STATUS bit numbers (R300). -/
inductive Ev where
  | grantNeeded | grantCut | powerOver | faultHold | dateLow | groupFault | purgeRequest | phaseLost | engineStop
  | chainBroken | queueError | streamLoss | ledgerLasting
  deriving DecidableEq, Repr

def Ev.idx : Ev → Nat
  | .grantNeeded => 0 | .grantCut => 1 | .powerOver => 2 | .faultHold => 3 | .dateLow => 4 | .groupFault => 5
  | .purgeRequest => 6 | .phaseLost => 7 | .engineStop => 8 | .chainBroken => 9 | .queueError => 10 | .streamLoss => 11
  | .ledgerLasting => 12

/-- The low six bits of a register name a vector. -/
def vecOf (w : Word) (lo : Nat) : Fin 64 := Fin.ofNat 64 (Word.field w (lo + 5) lo)

/-- The STATUS payload (R300). -/
def statusPayload (s : State) (e : Ev) (src : Word) : List Byte :=
  natLe 6 s.stamp.toNat ++ natLe 1 e.idx ++ [0] ++ u32 src ++ [0, 0, 0, 0]

/-- Sets the event's bit, and sends a message when its enabled term goes from 0 to 1 (R300). -/
def setEvent (e : Ev) (s : State) : State :=
  let was := s.ev.status.getLsbD e.idx
  let s' := { s with ev := { s.ev with status := s.ev.status ||| (1#13 <<< e.idx) } }
  if !was && s.ev.enable.getLsbD e.idx then raiseMsix (vecOf s.ev.vector 0) s' else s'

/-- An occurrence of an event: bit, message and STATUS record; a record lost for room raises STREAM_LOSS in turn, at most
`fuel` rings deep (each such loss is the first of its ring, R295). -/
def raiseEventN : Nat → Ev → Word → State → State
  | 0, e, _, s => setEvent e s
  | k + 1, e, src, s =>
    let s := setEvent e s
    match s.ringOf .status with
    | none => s
    | some n =>
      let (first, s) := writeRecord n 6 (statusPayload s e src) s
      if first then raiseEventN k .streamLoss (BitVec.ofNat 32 n.val) s else s

def raiseEvent (e : Ev) (src : Word) (s : State) : State := raiseEventN 2 e src s

/-- SOURCE of an event that concerns no unit. -/
def noUnit : Word := 0xFFFFFFFF#32

/-- A record of a source goes to the ring bound to it (R295); answers whether a ring is bound. -/
def emit (src : Source) (ty : Nat) (payload : List Byte) (s : State) : Bool × State :=
  match s.ringOf src with
  | none => (false, s)
  | some n =>
    let (first, s) := writeRecord n ty payload s
    (true, if first then raiseEvent .streamLoss (BitVec.ofNat 32 n.val) s else s)

/-! ### The ledger (R322-R326) -/

def LClass.code : LClass → Nat
  | .info => 0 | .transient => 1 | .lasting => 2 | .fatal => 3

/-- SOURCE: unit class [15:12] and number [11:0] (R322). -/
def unitSrc (cls n : Nat) : BitVec 16 := BitVec.ofNat 16 (cls * 4096 + n)
def srcModule : BitVec 16 := 0
def srcTile (t : TileId) : BitVec 16 := unitSrc 1 t.val
def srcPanel (p : PanelId) : BitVec 16 := unitSrc 2 p.val
def srcHead (h : HeadId) : BitVec 16 := unitSrc 3 h.val

/-- The 32 bytes of an entry (R322). -/
def Entry.bytes (e : Entry) : List Byte :=
  natLe 8 e.time.toNat ++ natLe 2 e.source.toNat ++ natLe 1 e.cls.code ++ [e.kind] ++ u32 e.seq ++
    u32 e.arg0 ++ u32 e.arg1 ++ u32 e.arg2 ++ u32 e.count

/-- An entry whose stored bytes are `bs` (R322). -/
def Entry.stored (e : Entry) (bs : List Byte) : Entry :=
  { e with
    time := BitVec.ofNat 64 (le bs 0 8), source := BitVec.ofNat 16 (le bs 8 2)
    cls := match le bs 10 1 % 4 with
      | 0 => .info | 1 => .transient | 2 => .lasting | _ => .fatal
    kind := bs.getD 11 0, seq := BitVec.ofNat 32 (le bs 12 4), arg0 := BitVec.ofNat 32 (le bs 16 4)
    arg1 := BitVec.ofNat 32 (le bs 20 4), arg2 := BitVec.ofNat 32 (le bs 24 4), count := BitVec.ofNat 32 (le bs 28 4) }

/-- Place of an entry in the circle of 4,096 (R322, log 71). -/
def Entry.slot (e : Entry) : Nat := (e.seq.toNat - 1) % 4096

/-- The kind STALE_SPEAKER merges at class 2 (R241, R323). -/
def kStale : Byte := 0x29#8

/-- An earlier entry that a new one merges into (R323): same kind and source, made less than 1,024 ticks ago. -/
def Entry.merges (e : Entry) (cls : LClass) (kind : Byte) (source : BitVec 16) (tick : Nat) : Bool :=
  e.kind == kind && e.source == source && e.cls == cls && decide (tick < e.tick + 1024) &&
    (cls == .info || (kind == kStale && cls == .lasting))

/-- Replaces the first entry that satisfies `p`. -/
def replaceFirst {α : Type} (p : α → Bool) (f : α → α) : List α → List α
  | [] => []
  | x :: xs => if p x then f x :: xs else x :: replaceFirst p f xs

/-- The next sequence number: from 0xFFFF_FFFF to 1 (R322). -/
def nextSeq (s : Word) : Word := if s = 0xFFFFFFFF#32 then 1 else s + 1

/-- Word `k` of the ledger's ring entry that holds a sequence number (R322, R323). -/
def ledgerLoc (seq : Word) (k : Nat) : Loc := ⟨10, 0, 4 * ((seq.toNat - 1) % 4096) + k⟩

/-- Appends an entry: sequence number, overwrite of the oldest, export (R326) and LEDGER_LASTING (R323). -/
def appendEntry (cls : LClass) (kind : Byte) (source : BitVec 16) (a0 a1 a2 count : Word) (s : State) : State :=
  let q := nextSeq s.ledger.seq
  let e : Entry := { time := s.aon.sysNow, tick := s.aon.ticks, source, cls, kind, seq := q, arg0 := a0, arg1 := a1,
                     arg2 := a2, count }
  let full := decide (4096 ≤ s.ledger.entries.length)
  let s := (List.range 4).foldl (fun s k => wholeWrite (ledgerLoc q k) s) s
  let s := { s with ledger := { s.ledger with
    entries := e :: s.ledger.entries.take 4095, seq := q,
    wraps := if full then s.ledger.wraps + 1 else s.ledger.wraps } }
  let s := if s.ledger.exportMin.toNat ≤ cls.code then (emit .ledger 7 e.bytes s).2 else s
  if 2 ≤ cls.code then raiseEvent .ledgerLasting noUnit s else s

/-- An entry made now, merged where R323 merges it. -/
def log (cls : LClass) (kind : Byte) (source : BitVec 16) (a0 a1 a2 : Word) (s : State) : State :=
  let hit := fun e : Entry => e.merges cls kind source s.aon.ticks
  if s.ledger.entries.any hit then
    { s with ledger := { s.ledger with
      entries := replaceFirst hit (fun e => { e with count := satInc e.count }) s.ledger.entries } }
  else appendEntry cls kind source a0 a1 a2 1 s

/-- A number as a ledger argument. -/
def arg (n : Nat) : Word := BitVec.ofNat 32 n

/-- A write ignored under a state rule (R394, R324): source by the register's block. -/
def logIgnored (off : Nat) (v : Word) (s : State) : State :=
  let src := if 0x8000 ≤ off then unitSrc 1 ((off - 0x8000) / 64)
    else if 0x4000 ≤ off then unitSrc 2 ((off - 0x4000) / 256) else srcModule
  log .info 0x24 src (arg off) v 0 s

/-- The PTM_STEP entry: bytes 16 to 23 the old and 24 to 31 the new SYSTIME (R324). -/
def logPtmStep (old new : BitVec 64) (s : State) : State :=
  appendEntry .info 0x3D srcModule (old.setWidth 32) ((old >>> 32).setWidth 32) (new.setWidth 32)
    ((new >>> 32).setWidth 32) s

/-! ### Health (R231) -/

/-- A transient fault of a tile, kept for 65,536 ticks. -/
def tileTransient (t : TileId) (s : State) : State :=
  let now := s.aon.ticks
  s.modTile t fun x => { x with transients := now :: x.transients.filter fun k => decide (now < k + 65536) }

/-- HEALTH code (R231). -/
def Tile.health (x : Tile) (now : Nat) : Nat :=
  if x.retired then 3 else if x.degraded then 2
  else if 4 ≤ (x.transients.filter fun k => decide (now < k + 65536)).length then 1 else 0

end Sys2Proof.Machine
end

