-- ==== Sys2Proof/Machine/Check.lean ====
section
/-!
DEFINITION. Checked memory accesses (R306 to R310) and the page retirements of R317.
-/
namespace Sys2Proof.Machine

open Sys2Proof

/-- SOURCE of a memory entry (R322, R324). -/
def Loc.source (l : Loc) : BitVec 16 :=
  let r := l.region.val
  if r ≤ 6 then unitSrc 1 l.unit
  else if r = 7 then unitSrc 5 (40 + l.unit)
  else if r ≤ 11 then unitSrc 5 ((sharedBase r + 8 * l.word) / 0x100000)
  else if r = 12 then unitSrc 2 l.unit else srcModule

/-- ARG1 of a memory entry: byte offset, or bank row and column (R324). -/
def Loc.arg1 (l : Loc) : Word :=
  if 6 ≤ l.region.val ∧ l.region.val ≤ 11 then Config.bankRowCol l.region.val l.word else arg (8 * l.word)

def logMem (cls : LClass) (kind : Byte) (l : Loc) (f : BitVec 80) (s : State) : State :=
  log cls kind l.source (arg (l.region.val * 2 ^ 24 + l.unit)) l.arg1 (Config.syndrome l.region.val f) s

/-- A correction (R308): the codeword is written back, counted and ledgered; twice within 65,536 ticks is MEM_REPEAT. -/
def correct (l : Loc) (f : BitVec 80) (s : State) : State :=
  let again := s.mem.corrections.any fun c => c.1 == l && decide (s.aon.ticks < c.2 + 65536)
  let s := s.dropErr l
  let s := { s with
    mem := { s.mem with corrections := (l, s.aon.ticks) :: s.mem.corrections.filter fun c => c.1 != l },
    scrub := { s.scrub with corrected := s.scrub.corrected + 1 } }
  let s := logMem .info 0x01 l f s
  if again then logMem .lasting 0x03 l f s else s

/-- A lasting failure of a read (R309): counted and ledgered, with a fatal entry where the reader's row of the table says so. -/
def lasting (fatal : Bool) (l : Loc) (f : BitVec 80) (s : State) : State :=
  logMem (if fatal then .fatal else .lasting) 0x02 l f { s with scrub := { s.scrub with uncorr := s.scrub.uncorr + 1 } }

/-- A clean second read (R309): ledgered as transient; it counts toward the WATCH of the tile whose memory it is (R321). -/
def transientRead (l : Loc) (f : BitVec 80) (s : State) : State :=
  let s := logMem .transient 0x02 l f (s.dropErr l)
  if h : l.region.val ≤ 6 ∧ l.unit < 512 then tileTransient ⟨l.unit, h.2⟩ s else s

/-- What a read makes of an uncorrectable word (R309): it is read once more, and whether the second read is clean is free (log 11);
a poisoned word never is (R310). Answers whether the data may be used. -/
def secondRead (fatal : Bool) (e : WordErr) (s : State) : Bool × State :=
  if e.poison then (false, lasting fatal e.loc e.flips s)
  else
    let (again, s) := s.drawBit
    if again then (true, transientRead e.loc e.flips s) else (false, lasting fatal e.loc e.flips s)

/-- A checked read (R308, R309): whether the data may be used, the data bits that are flipped in it, the state after. `fatal`: a
lasting failure is fatal to this reader. -/
def checkReadBy (fatal : Bool) (l : Loc) (s : State) : Bool × BitVec 64 × State :=
  match s.errOf l with
  | none => (true, 0, s)
  | some e =>
    let second := fun s => let r := secondRead fatal { e with loc := l } s; (r.1, 0, r.2)
    if e.poison then second s
    else match (s.codeOf l.region).decode e.flips with
      | .clean => (true, 0, s)
      | .corrected => (true, 0, correct l e.flips s)
      | .uncorrectable => second s
      | .unseen => (true, e.flips.setWidth 64, s)
      | .open_ =>
        let (bad, s) := s.drawBit
        if bad then second s
        else
          let (w, s) := s.drawWord
          (true, w, s)

/-- A read by the memory's own reader: a failure in a panel's configuration or in the module services is fatal (R309). -/
def checkRead (l : Loc) (s : State) : Bool × BitVec 64 × State := checkReadBy (l.region == 7 || l.region == 11) l s

/-- The module uses a memory whose layout the manual does not give: each word that is not clean is one it needs by a free bit (log 8).
Answers whether one of them failed for good. -/
def wordsBad (r : Fin 16) (unit : Option Nat) (s : State) : Bool × State :=
  (s.mem.errs.filter fun e => e.loc.region == r && unit.all (· == e.loc.unit)).foldl (fun (a : Bool × State) e =>
    let (mine, s) := a.2.drawBit
    if mine then
      let c := checkRead e.loc s
      (a.1 || !c.1, c.2.2)
    else (a.1, s)) (false, s)

/-- A record of a source passes ring staging on its way to its ring; one whose words fail there is discarded and counted (R309). -/
def emitStaged (src : Source) (ty : Nat) (payload : List Byte) (s : State) : Bool × State :=
  let r := wordsBad 9 none s
  match r.2.ringOf src with
  | some n =>
    if r.1 then
      let first := (r.2.sts[n]).gap.isNone
      let s := dropRecord n ty r.2
      (true, if first then raiseEvent .streamLoss (BitVec.ofNat 32 n.val) s else s)
    else emit src ty payload r.2
  | none => emit src ty payload r.2

/-- The codeword bits that a store of whole 16-bit groups of LIGHT replaces: bytes `[b, b + n)` of the word. -/
def lightCleared (b n : Nat) (f : BitVec 80) : BitVec 80 :=
  (List.range 4).foldl (fun f k =>
    if b ≤ 2 * k ∧ 2 * k + 2 ≤ b + n then
      f &&& ~~~(((0xFFFF#80) <<< (16 * k)) ||| ((1#80) <<< (64 + k)))
    else f) f

/-- The check bits after a write of bytes `[b, b + n)` of a word (R310): a whole codeword, or whole groups of LIGHT, are
written clean; a narrower write reads first and poisons what it cannot read. -/
def checkWrite (l : Loc) (b n : Nat) (s : State) : State :=
  let s :=
    match s.errOf l with
    | none => s
    | some e =>
      if n = 8 then s.dropErr l
      else if s.codeOf l.region = .light ∧ b % 2 = 0 ∧ n % 2 = 0 then s.putErr { e with flips := lightCleared b n e.flips }
      else
        let (ok, _, s) := checkReadBy (l.region == 7) l s
        if ok then s else s.putErr { e with poison := true }
  applyFlips l s

/-- A page is retired (R317). -/
def State.pageRetired (s : State) (region : Fin 16) (t : TileId) (page : Nat) : Bool :=
  s.mem.retired.contains (region, t, page)

end Sys2Proof.Machine
end

