-- ==== Sys2Proof/Machine/Query.lean ====
section
/-!
DEFINITION. Facts that many rules ask of the state: heads and their groups, armed jobs, the skim set's values, trowel
modes, the allocation of R260 and the wake of R13.
-/
namespace Sys2Proof.Machine

open Sys2Proof

/-! ### The skim set (R346, R348) -/

/-- The entry of a set. -/
def lookEntry (l : List CalEntry) (code sub unit : Nat) : Option Int :=
  (l.find? fun e => e.code == code && e.sub == sub && e.unit == unit).map (·.value)

def State.skim (s : State) (code sub unit : Nat) : Option Int := lookEntry s.cal.live code sub unit
/-- A value that acts as 0 where the entry holds none. -/
def State.skim0 (s : State) (code sub unit : Nat) : Int := (s.skim code sub unit).getD 0

/-- SUB of a nozzle entry: the head in [7:5] (R346). -/
def headSub (h : HeadId) : Nat := 32 * h.val

/-! ### Heads and groups (R27) -/

/-- Indices with the elements of a list. -/
def withIndex {α : Type} (l : List α) : List (Nat × α) := (List.range l.length).zip l

def HeadDef.n (d : HeadDef) : Nat := d.nozzles.length
/-- Tiles that drive a group of the head. -/
def HeadDef.tiles (d : HeadDef) : List TileId := (d.nozzles.map (·.tile)).eraseDups
/-- Nozzle numbers of the group a tile drives. -/
def HeadDef.group (d : HeadDef) (t : TileId) : List Nat :=
  ((withIndex d.nozzles).filter fun p => p.2.tile == t).map (·.1)
def HeadDef.drives (d : HeadDef) (t : TileId) : Bool := d.nozzles.any fun n => n.tile == t
/-- Select ports the head uses. -/
def HeadDef.usesPort (d : HeadDef) (p : PanelId) : Bool := d.ports.getLsbD p.val
/-- Panels that hold a group of the head. -/
def HeadDef.panels (d : HeadDef) : List PanelId := (d.tiles.map panelOf).eraseDups

/-- Tiles whose trowels may drive a group of the head: its own, and their partners in takeover (R98). -/
def HeadDef.reach (hd : HeadDef) : List TileId := (hd.tiles ++ hd.tiles.map partner).eraseDups

/-- The defined head that a tile drives a group of. -/
def State.headOf (s : State) (t : TileId) : Option HeadId :=
  allHeads.find? fun h => match s.heads[h].hdef with
    | some d => d.drives t
    | none => false

def State.jobOf (s : State) (h : HeadId) : Option JobDef :=
  match s.heads[h].armed with
  | some j => s.jobs[j].jdef
  | none => none
/-- The tile drives a group of an armed job (R87). -/
def State.armedTile (s : State) (t : TileId) : Bool :=
  match s.headOf t with
  | some h => s.heads[h].armed.isSome
  | none => false
/-- Some job is armed. -/
def State.anyArmed (s : State) : Bool := allHeads.any fun h => s.heads[h].armed.isSome
/-- An armed job uses the panel's groups (R93). -/
def State.armedPanel (s : State) (p : PanelId) : Bool :=
  allHeads.any fun h => s.heads[h].armed.isSome && match s.heads[h].hdef with
    | some d => d.panels.contains p
    | none => false
/-- The job is armed on its head. -/
def State.jobArmed (s : State) (j : Fin 64) : Bool := allHeads.any fun h => s.heads[h].armed == some j

/-- An armed job that still accepts detects has this trigger, and an edge to `lvl` is its edge (R30, R48). -/
def Head.triggers (x : Head) (j : JobDef) (code : BitVec 16) (lvl : Bool) : Bool :=
  j.trigger == code && lvl != j.flags.getLsbD 3 && x.disarm.isEmpty
def State.triggered (s : State) (code : BitVec 16) (lvl : Bool) : Bool :=
  allHeads.any fun h => match s.jobOf h with
    | some j => s.heads[h].triggers j code lvl
    | none => false

/-- A filtered trigger edge, with the SYSTIME and the encoder counts latched for it, waits for its heads (R45, R69). -/
def noteEdge (code : BitVec 16) (lvl : Bool) (time : BitVec 64) (counts : List Word) (s : State) : State :=
  allHeads.foldl (fun s h => match s.jobOf h with
    | some j =>
      if s.heads[h].triggers j code lvl then
        s.modHead h fun x => { x with edges := x.edges ++ [(time, counts)] }
      else s
    | none => s) s

/-- The encoder counts of all channels. -/
def State.counts (s : State) : List Word := s.aon.enc.toList.map (·.count)

/-! ### The purge request (R118) -/

/-- Nozzles of a panel with STATUS 2 whose last class is AIR or CLOG (R118). -/
def State.purgeCount (s : State) (p : PanelId) : Nat :=
  (allHeads.map fun h => match s.heads[h].hdef with
    | some d => ((d.nozzles.zip s.heads[h].stats).filter fun x =>
        panelOf x.1.tile == p && x.2.status == 2 && (x.2.last == 2 || x.2.last == 3)).length
    | none => 0).sum

/-- PURGE_REQUEST is raised when the count reaches PURGE_AT, and again after it has fallen below it (R118). -/
def purgeCheck (p : PanelId) (s : State) : State :=
  let at_ := Word.field (s.panels[p]).gmon 7 0
  let n := s.purgeCount p
  if at_ ≠ 0 ∧ at_ ≤ n then
    if (s.panels[p]).purgeRaised then s
    else raiseEvent .purgeRequest (arg p.val) (log .info 0x1B (srcPanel p) (arg p.val) (arg n) 0
      (s.modPanel p fun x => { x with purgeRaised := true }))
  else s.modPanel p fun x => { x with purgeRaised := false }

/-! ### Trowels (R86, R88) -/

def Trowel.waveIdx (w : Trowel) : Fin 16 := Fin.ofNat 16 (Word.field w.cfg 27 24)
/-- Off after a lasting trip until the re-enable, which writing 1 to TRIP schedules (R86, R96). -/
def Trowel.stays (w : Trowel) : Bool := w.trip || w.reenable
def Trowel.modeField (w : Trowel) : Nat := Word.field w.cfg 23 21
def Trowel.buddyEn (w : Trowel) : Bool := w.cfg.getLsbD 20
def Trowel.recoverEn (w : Trowel) : Bool := w.cfg.getLsbD 19
/-- Trip level in mA. -/
def Trowel.ilim (w : Trowel) : Nat := 350 + 150 * Word.field w.cfg 18 16
def Trowel.chop (w : Trowel) : Nat := Word.field w.cfg 15 12
def Trowel.cmCmp (w : Trowel) : Cmp := if w.cfg.getLsbD 11 then .b else .a

/-- Some word of the panel's configuration memory fails: its trowels act as mode 0 and its comparators produce no events
until the word is rewritten (R309, log 22). -/
def State.panelCfgFails (s : State) (p : PanelId) : Bool :=
  s.mem.errs.any fun e => e.loc.region == 7 && e.loc.unit == p.val && (e.poison || decide (3 ≤ popcount e.flips))

/-- The mode the trowel acts in (R86, R88, R238, R334). -/
def State.trowelMode (s : State) (t : TileId) : Nat :=
  let x := s.tiles[t]
  if !s.tileLive t || x.inReset || x.fenced || s.pwr.ioOff || s.panelCfgFails (panelOf t) then 0
  else if 5 ≤ x.trowel.modeField then 0 else x.trowel.modeField

/-- T_CTRL lines (R406): 0 none, else the line's number. -/
def Tile.adcTrig (x : Tile) : Option (Fin 3) :=
  match Word.field x.ctrl 31 30 with
  | 1 => some 0 | 2 => some 1 | 3 => some 2 | _ => none
def Tile.inhibitLine (x : Tile) : Option (Fin 3) :=
  match Word.field x.ctrl 29 28 with
  | 1 => some 0 | 2 => some 1 | 3 => some 2 | _ => none
def Tile.inhibited (x : Tile) : Bool :=
  match x.inhibitLine with
  | some k => x.tei[k]
  | none => false
def Tile.teoSrc (x : Tile) : Nat := Word.field x.ctrl 25 24
def Tile.teoOut (x : Tile) : Nat := Word.field x.ctrl 23 18

/-! ### The allocation, in 10 mW (R260, R95) -/

/-- HLV power in mW: VSEL voltage * ALLOC. -/
def hlvMilliwatt (ctrl : Word) : Nat :=
  let v := match Word.field ctrl 25 24 with
    | 1 => 33 | 2 => 50 | _ => 18
  v * min (Word.field ctrl 15 8) 150
def hlvEn (ctrl : Word) : Bool := ctrl.getLsbD 23

/-- Rail set value in units of 50 mV (R93). -/
def Panel.rail50 (x : Panel) : Nat := 240 + x.vset.toNat

/-- ETA of a panel, 0 until calibrated (R93, R348). -/
def State.eta (s : State) (p : PanelId) : Nat := (s.skim0 0x18 0 p.val).toNat

/-- 256 - ETA where recovery acts, else 256 (R94, R95). -/
def State.keepRatio (s : State) (t : TileId) : Nat :=
  if s.panels[panelOf t].crsOk && s.tiles[t].trowel.recoverEn then 256 - s.eta (panelOf t) else 256

/-- Charge of a group's full-duty fire in nC; 3 uC where never calibrated (R95). -/
def State.groupQ (s : State) (t : TileId) : Nat := ((s.skim 0x12 0 t.val).getD 3000).toNat

/-- Sum over the groups of charge, rail and kept ratio (R95). -/
def State.headWork (s : State) (d : HeadDef) : Nat :=
  (d.tiles.map fun t => s.groupQ t * s.panels[panelOf t].rail50 * s.keepRatio t).sum

/-- Allocation of a job on a head in 10 mW (R260): P / 0.9, rounded up; `hlv` in mW. With Q in nC, V in 50 mV and the
kept ratio in 1/256, P / 0.9 = (work * MAX_RATE * 12800 + hlv * 10^9 * PITCH) / (9 * 10^9 * PITCH). -/
def State.jobAlloc (s : State) (d : HeadDef) (j : JobDef) (hlv : Nat) : Nat :=
  ceilDiv (s.headWork d * j.maxRate.toNat * 12800 + hlv * 10 ^ 9 * j.pitch) (9 * 10 ^ 9 * j.pitch)

def baseAlloc : Mode → Nat
  | .dormant => 5 | .standby => 30 | .booting => 0 | .armed => 670 | .active => 670 | .faultHold => 670
def panelAlloc : PState → Nat
  | .off => 0 | .retain => 6 | .armed => 440 | .active => 440

/-- Allocation of a job that a head takes now; `hlv`: it carries the HLV term (R95, R260). -/
def State.powerFor (s : State) (d : HeadDef) (j : JobDef) (hlv : Bool) : Nat :=
  s.jobAlloc d j (if hlv then hlvMilliwatt s.pwr.hlvCtrl else 0)

/-- Allocation of the armed jobs, each as taken at arming. -/
def State.jobsAlloc (s : State) : Nat := (allHeads.map fun h => s.heads[h].power).sum

/-- The allocation that a module state, panel states and HLV setting give with the present jobs (R260). -/
def State.allocFor (s : State) (m : Mode) (ps : Vector PState 8) (hlv : Word) : Nat :=
  baseAlloc m + (ps.toList.map panelAlloc).sum + s.jobsAlloc +
    (if hlvEn hlv && m.up && !s.anyArmed then ceilDiv (hlvMilliwatt hlv) 9 else 0)

def State.alloc (s : State) : Nat := s.allocFor s.pwr.mode s.pwr.panels s.pwr.hlvCtrl

/-- The request of R259 in 10 mW: the allocation in ARMED with every panel of the image ARMED and HLV as set. -/
def State.requestFor (s : State) : Nat :=
  s.allocFor .armed (Vector.ofFn fun (p : PanelId) => if s.pwr.imagePanels[p] then .armed else s.pstate p) s.pwr.hlvCtrl

/-- The request changes: a REQUEST frame rounded up to 0.1 W and GRANT_NEEDED (R259). `always`: after a module reset. -/
def reRequest (always : Bool) (s : State) : State :=
  let r := s.requestFor
  if always || s.aon.request.toNat != r then
    let s := { s with aon := { s.aon with request := satNat 16 r } }
    raiseEvent .grantNeeded noUnit (jsbSend ⟨0xA, satNat 12 (ceilDiv r 10)⟩ s)
  else s

/-! ### Wake (R13, R277) -/

/-- QCK and the PLL start together: QCK is usable 100 ns later (R13). -/
def startingClocks (c : Clocks) (now : Nat) : Clocks :=
  { c with fast := .starting, pll := .locking false, changeoverDue := false, qckAt := now + 120, pllAt := now }

/-- What SYSTIME's interpolation has added since the last realignment: 40 units every 3 FCK cycles, 160 every 3 QCK cycles
(R17). -/
def interpStep (fast : FastClk) (n : Nat) : Nat := if fast = .fck then 40 * (n / 3) else 160 * (n / 12)

/-- The change from QCK to FCK: the interpolation goes on at the new rate from where it stands; a SYSTIME that holds goes on
holding (R14, R17, R84). -/
def changeover (s : State) : State :=
  if s.clk.fast = .qck ∧ s.clk.changeoverDue then
    { s with
      clk := { s.clk with fast := .fck, changeoverDue := false, fckAt := s.aon.fck }
      aon := { s.aon with
        interp := s.aon.interp % 12
        interpFrom := s.aon.interpFrom + BitVec.ofNat 64 (interpStep .qck s.aon.interp) } }
  else s

/-- A wake source starts QCK and the PLL in an ARMED module whose fast clocks are stopped; LAST names it. -/
def wake (src : BitVec 4) (s : State) : State :=
  if s.pwr.mode = .armed ∧ s.clk.fast = .stopped then
    { s with clk := startingClocks s.clk s.aon.fck,
             aon := { s.aon with wakeLast := src } }
  else s

/-- A write to BAR2 is a wake source with DB_EN (R277). -/
def doorbellWake (s : State) : State := if s.aon.wakeCtrl.getLsbD 30 then wake 5 s else s

/-! ### Rails (R275) -/

/-- Power sequencing is host-assisted. -/
def State.hostSeq (s : State) : Bool := Word.field (s.fnMode.setWidth 32) 15 14 == 1

/-- The step that runs. -/
def State.stepNow (s : State) : Option PowerStep := s.pwr.change.bind fun c => c.steps.head?
def State.arming (s : State) : Bool := s.stepNow == some .standbyToArmed
/-- Panel `p` is ARMED or ACTIVE, or becomes so in the step that runs. -/
def State.armingPanel (s : State) (p : PanelId) : Bool :=
  (s.pstate p).live || (s.arming && match s.pwr.change with
    | some c => c.panels[p].live
    | none => false)
def State.armingModule (s : State) : Bool :=
  s.pwr.mode.up || (s.arming && match s.pwr.change with
    | some c => c.goal.up
    | none => false)

/-- The rail is to be on: by the panel states in hardware, by PWR_RAILS and HLV_CTRL in host-assisted sequencing. -/
def State.railWanted (s : State) : Rail → Bool
  | .vdda => if s.hostSeq then s.pwr.vddaEn else allPanels.any s.armingPanel
  | .pvh p => if s.hostSeq then s.pwr.pvhEn[p] else s.armingPanel p
  | .hlv => hlvEn s.pwr.hlvCtrl && (if s.hostSeq then s.pwr.mode.up else s.armingModule)
  | _ => false
def State.railGood (s : State) : Rail → Bool
  | .vdda => s.pwr.vddaGood
  | .pvh p => s.panels[p].pvhOk
  | .hlv => s.pwr.hlvOk
  | _ => true
/-- The converter's place in the order of R275. -/
def railRank : Rail → Nat
  | .vio => 0 | .v18 => 1 | .vddCore => 2 | .vdda => 3 | .pvh _ => 4 | .hlv => 5
def stepRails : List Rail := .vdda :: (allPanels.map .pvh ++ [.hlv])

/-- The rail is coming up: wanted, not good, and during a change every wanted rail before it good. -/
def State.railStarting (s : State) (r : Rail) : Bool :=
  s.railWanted r && !s.railGood r && s.pwr.mode != .faultHold &&
    (!s.arming || stepRails.all fun q => decide (railRank r ≤ railRank q) || !s.railWanted q || s.railGood q)

/-- Rails that have begun to start are noted, with the time; those that no longer do are not (R275). -/
def noteRails (s : State) : State :=
  let from_ := fun r => ((s.pwr.railFrom.find? fun x => x.1 == r).map (·.2)).getD s.aon.fck
  { s with pwr := { s.pwr with railFrom := (stepRails.filter s.railStarting).map fun r => (r, from_ r) } }

/-- The rail has been starting for a time in us. -/
def State.railRan (s : State) (r : Rail) (us : Nat) : Bool :=
  s.pwr.railFrom.any fun x => x.1 == r && decide (x.2 + usFck us ≤ s.aon.fck)

/-- Time in us that a PVH rail takes from 0 to its set value at 2 V/ms (R93, R269); other rails have none of their own. -/
def State.railRamp (s : State) : Rail → Nat
  | .pvh p => if (s.panels[p]).crsDue then 25 * (s.panels[p]).rail50 else 0
  | _ => 0

end Sys2Proof.Machine
end

