-- ==== Sys2Proof/Machine/Trowels.lean ====
section
/-!
DEFINITION. When a trowel may play: waveforms and their domains (R89 to R91), the fire spacing of R81, the rail share of
R262 and R95, and the idle clip of R88.
-/
namespace Sys2Proof.Machine

open Sys2Proof

/-! ### Waveform records (R90, R331) -/

/-- A segment record. -/
def segOf (bs : List Byte) : Segment := { level := le bs 0 2, slope := le bs 2 2, duration := le bs 4 2 }
def Segment.bytes (g : Segment) : List Byte := natLe 2 g.level ++ natLe 2 g.slope ++ natLe 2 g.duration ++ [0, 0]

/-- `n` segment records. -/
def segsOf : Nat → List Byte → List Segment
  | 0, _ => []
  | n + 1, bs => segOf bs :: segsOf n (bs.drop 8)

/-- Largest level and slope of a domain. -/
def domainLimits (d : Nat) : Nat × Nat :=
  match d with
  | 0 => (62000, 3333) | 1 => (3300, 333) | _ => (1200, 1200)

/-- The records of `n` segments are in range, their reserved bytes 0 and their durations at most 65,535 in all. -/
def segsOk (dom n : Nat) (bs : List Byte) : Bool :=
  let l := segsOf n bs
  (l.all fun g => decide (g.level ≤ (domainLimits dom).1) && decide (g.slope ≤ (domainLimits dom).2) &&
    decide (1 ≤ g.duration)) && decide ((l.map (·.duration)).sum ≤ 65535) &&
    (List.range n).all fun k => le bs (8 * k + 6) 2 == 0

/-- A waveform record of 384 bytes, and a waveform as one. -/
def waveOfRecord (bs : List Byte) : Waveform := { domain := BitVec.ofNat 2 (le bs 0 1), segs := segsOf (le bs 1 1) (bs.drop 8) }
def Waveform.record (w : Waveform) : List Byte :=
  let b := natLe 1 w.domain.toNat ++ natLe 1 w.segs.length ++ List.replicate 6 0 ++ w.segs.flatMap Segment.bytes
  b ++ List.replicate (384 - b.length) 0
def recordOk (bs : List Byte) : Bool :=
  let n := le bs 1 1
  decide (le bs 0 1 ≤ 2) && decide (n ≤ 32) && le bs 2 6 == 0 && segsOk (le bs 0 1) n (bs.drop 8) &&
    (bs.drop (8 + 8 * n)).all (· == 0)

/-! ### Playing -/

/-- DOMAIN that a mode plays: HV for 1, LV for 2, current for 4 (R91). -/
def modeDomain (mode : Nat) : Option (BitVec 2) :=
  match mode with
  | 1 => some 0 | 2 => some 1 | 4 => some 2 | _ => none

/-- The index holds a waveform of the mode's domain (R91). -/
def State.playable (s : State) (t : TileId) (idx : Fin 16) : Bool :=
  let w := s.tiles[t].waves[idx]
  !w.segs.isEmpty && modeDomain (s.trowelMode t) == some w.domain

/-- R81: at `now` the last fire is at least 10,000 FCK cycles back and its waveform and listen are over. -/
def State.spacedAt (s : State) (t : TileId) (now : Nat) : Bool :=
  let w := s.tiles[t].trowel
  w.play == .idle && match w.lastFire with
    | some f => decide (f + 10000 ≤ now)
    | none => true
def State.spaced (s : State) (t : TileId) : Bool := s.spacedAt t s.aon.fck

/-- Energy of one fire in nC * 50 mV (R262). -/
def State.fireEnergy (s : State) (t : TileId) : Nat := s.groupQ t * s.panels[panelOf t].rail50

/-- P of R95 over the groups of the armed jobs on a rail, in 10 mW. -/
def State.railAlloc (s : State) (p : PanelId) : Nat :=
  (allHeads.map fun h => match s.heads[h].hdef, s.jobOf h with
    | some d, some j =>
      let work := ((d.tiles.filter fun t => panelOf t == p).map fun t =>
        s.groupQ t * s.panels[p].rail50 * s.keepRatio t).sum
      work * j.maxRate.toNat * 1280 / (10 ^ 9 * j.pitch)
    | _, _ => 0).sum

/-- The rail's share in 10 mW: its allocations and an equal part of the headroom (R262). -/
def State.railShare (s : State) (p : PanelId) : Nat :=
  let on := (allPanels.filter fun q => s.panels[q].pvhOn).length
  s.railAlloc p + (s.pwr.grant.toNat - s.alloc) / max 1 on

/-- The energy of the rail's 100 us window (R262). -/
def State.railWindow (s : State) (p : PanelId) : Nat :=
  ((s.panels[p].railLog.filter fun x => decide (s.aon.fck < x.1 + usFck 100)).map (·.2)).sum

/-- A fire of the tile would pass the rail's share, or head drive is withheld (R95, R262). -/
def State.overShare (s : State) (t : TileId) : Bool :=
  s.pwr.withhold || decide (s.railShare (panelOf t) * 20000 < s.railWindow (panelOf t) + s.fireEnergy t)

/-! ### Playback (R85, R88, R90, R92) -/

/-- DAC samples of a waveform. -/
def Waveform.length (w : Waveform) : Nat := (w.segs.map (·.duration)).sum

/-- The segment in which a sample lies. -/
def segAt : List Segment → Nat → Option Segment
  | [], _ => none
  | g :: gs, k => if k < g.duration then some g else segAt gs (k - g.duration)

/-- One sample from `out` toward the segment's LEVEL, no faster than SLOPE; SLOPE 0 is the domain's largest (R90). -/
def Segment.toward (g : Segment) (dom : BitVec 2) (out : Nat) : Nat :=
  let k := if g.slope = 0 then (domainLimits dom.toNat).2 else g.slope
  if out ≤ g.level then out + min (g.level - out) k else out - min (out - g.level) k

/-- Amplitude trim of a group in 1/32,768 (R346, R348). -/
def State.ampTrim (s : State) (t : TileId) : Nat := ((s.skim 0x11 0 t.val).getD 32768).toNat

/-- DAC code of a level in mV (R90); the 12-bit converter holds at its last code. -/
def dacCode (dom : BitVec 2) (out amp : Nat) : Nat :=
  min 4095 (divRound ((out * amp * 4095 : Nat) : Int) (32768 * (if dom = 0 then 64000 else 3300))).toNat

/-- The idle level of a tile, the last segment's LEVEL of waveform WAVE (R88). -/
def Tile.idleLevel (x : Tile) : Nat := ((x.waves[x.trowel.waveIdx]).segs.getLast?.map (·.level)).getD 0

/-- The highest level of an HV trowel in mV: PVHp - 0.5 V (R88). -/
def State.railTop (s : State) (t : TileId) : Nat := (s.panels[panelOf t]).rail50 * 50 - 500

/-- A level of an HV trowel that the rail clips. -/
def State.clipsAt (s : State) (t : TileId) (level : Nat) : Bool :=
  decide (s.railTop t * 32768 < level * s.ampTrim t)

/-- The idle level of an HV trowel lies above PVHp - 0.5 V. -/
def State.clips (s : State) (t : TileId) : Bool := s.trowelMode t == 1 && s.clipsAt t (s.tiles[t]).idleLevel

/-- WAVE_CLIP of tile `t`, once per arming of the tiles `ts` (R88). -/
def logClip (t : TileId) (ts : List TileId) (s : State) : State :=
  if (s.tiles[t]).trowel.clipWarned then s
  else
    let s := ts.foldl (fun s u => s.modTrowel u fun w => { w with clipWarned := true }) s
    log .info 0x17 (srcTile t) (arg t.val) (arg (s.tiles[t]).trowel.waveIdx.val) 0 s

/-- The tiles that are armed together with a tile; none where its head has no armed job. -/
def State.armedWith (s : State) (t : TileId) : Option (List TileId) :=
  match s.headOf t with
  | some h => if s.heads[h].armed.isSome then (s.heads[h].hdef).map HeadDef.reach else none
  | none => none

/-- The next sample of the play in hand, or of its return to the idle level under fire inhibit (R170): the level steps, and the DAC drives it, onto both pins in takeover (R90, R98). In
current mode LEVEL is the comparator's target, and no DAC drives the pin (R92). -/
def playSample (t : TileId) (s : State) : State :=
  let w := (s.tiles[t]).trowel
  let v := (s.tiles[t]).waves[(Fin.ofNat 16 w.wave)]
  let seg := if w.cut then some ⟨(s.tiles[t]).idleLevel, 0, 0⟩ else segAt v.segs w.samples
  match seg with
  | none => s
  | some g =>
    let out := if v.domain = 2 then g.level else g.toward v.domain w.level
    let s := s.modTrowel t fun w => { w with level := out, samples := w.samples + 1 }
    if v.domain = 2 then s
    else
      let s := match s.armedWith t with
        | some ts => if v.domain = 0 && s.clipsAt t out then logClip t ts s else s
        | none => s
      let code := dacCode v.domain out (s.ampTrim t)
      let s := s.send (.dac t code)
      if w.buddyAct then s.send (.dac (partner t) code) else s

def playSamples : Nat → TileId → State → State
  | 0, _, s => s
  | n + 1, t, s => playSamples n t (playSample t s)

/-- Samples whose edge, one every 8 FCK cycles from the fire's own instant, has come by an FCK count (R85). -/
def Trowel.samplesBy (w : Trowel) (now : Nat) : Nat :=
  if 8 * now + 7 < w.playAt then 0 else (8 * now + 7 - w.playAt) / 64 + 1

/-- The samples that are due now. -/
def playOn (t : TileId) (s : State) : State :=
  let w := (s.tiles[t]).trowel
  if w.play == .playing then playSamples (w.samplesBy s.aon.fck - w.samples) t s else s

/-- The play in hand has lasted all its samples (R90), or has returned to the idle level under fire inhibit (R170). -/
def State.playOver (s : State) (t : TileId) : Bool :=
  let w := (s.tiles[t]).trowel
  if w.cut then w.level == (s.tiles[t]).idleLevel || s.trowelMode t == 4
  else decide (w.playAt + 64 * ((s.tiles[t]).waves[(Fin.ofNat 16 w.wave)]).length ≤ 8 * s.aon.fck + 7)

/-- What a trowel shows on TA (R88, R92, R96). -/
inductive TaOut where
  | highZ
  /-- Held at 0 V by the 2 kOhm clamp. -/
  | clamped
  /-- Driven to a voltage in mV. -/
  | volts (mV : Nat)
  /-- Switched on toward a current in mA (mode 4). -/
  | current (mA : Nat)
  deriving DecidableEq, Repr

/-- The TA output of a trowel that drives its own pin. -/
def State.ownTa (s : State) (t : TileId) : TaOut :=
  let w := (s.tiles[t]).trowel
  let drive := fun lv : Nat => min (lv * s.ampTrim t / 32768) (s.railTop t)
  if w.stays || w.phase == .returning then .clamped
  else match s.trowelMode t with
    | 1 =>
      if w.play == .listening then .highZ
      else .volts (drive (if w.play == .playing then w.level else (s.tiles[t]).idleLevel))
    | 4 => if w.play == .listening then .highZ else if w.chopOn then .current w.level else .clamped
    | 0 => .clamped
    | _ => .highZ

/-- What TAnnn shows: its own trowel, or the partner's in takeover, which trims by its own amplitude (R98). -/
def State.taOut (s : State) (t : TileId) : TaOut :=
  if (s.tiles[t]).trowel.taken then s.ownTa (partner t) else s.ownTa t

/-- The trowel is off after a lasting trip or drives its pin no longer (R96, R98). -/
def Trowel.off (w : Trowel) : Bool := w.stays || w.taken

end Sys2Proof.Machine
end

