-- ==== Sys2Proof/Machine/Chains.lean ====
section
/-!
DEFINITION. Defined and placed chains (R209 to R215): stage parameters, the links of placed chains with their ends, and the
crossbar source of an event link.
-/
namespace Sys2Proof

/-- PARAMS word at record byte 8 + k (R210). -/
def Machine.Stage.word (g : Machine.Stage) (k : Nat) : Word := BitVec.ofNat 32 (Machine.le g.params k 4)
/-- PARAMS byte at record byte 8 + k. -/
def Machine.Stage.byte (g : Machine.Stage) (k : Nat) : Nat := Machine.le g.params k 1

namespace Machine

/-- Stage codes (R211). -/
def kPinIn : Nat := 0
def kPinOut : Nat := 1
def kPga : Nat := 2
def kFilter : Nat := 3
def kAdc : Nat := 4
def kDecim : Nat := 5
def kCmp : Nat := 6
def kWindow : Nat := 7
def kRamp : Nat := 8
def kDac : Nat := 9
def kTrowel : Nat := 10
def kListen : Nat := 11
def kEngine : Nat := 12
def kFabric : Nat := 13
def kEncoder : Nat := 14
def kTimer : Nat := 15
def kPort : Nat := 16

/-- The stage sits on a tile. -/
def Stage.onTile (g : Stage) : Bool := (kPga ≤ g.kind && g.kind ≤ kFabric)
/-- A PIN_IN or PIN_OUT of a GPIO pin: PARAMS byte 8 is the class. -/
def Stage.gpio (g : Stage) : Bool := g.kind ≤ kPinOut && g.byte 0 == 1
def Stage.tb (g : Stage) : Bool := g.kind ≤ kPinOut && g.byte 0 == 0

/-- A link of a placed chain with its two ends. -/
structure LinkView where
  chain : Fin 256
  idx : Nat
  link : LinkRec
  src : Stage
  dst : Stage
  srcAt : StagePlace
  dstAt : StagePlace
  routes : List Route
  deriving DecidableEq, Repr

/-- The links of a chain both of whose ends are placed. -/
def linkViews (c : Fin 256) (stages : List Stage) (links : List LinkRec) (pl : Placement) : List LinkView :=
  (withIndex links).filterMap fun (i, l) =>
    match stages[l.src]?, stages[l.dst]?, pl.stages.find? (fun p => p.stage == l.src),
      pl.stages.find? (fun p => p.stage == l.dst) with
    | some a, some b, some pa, some pb =>
      some { chain := c, idx := i, link := l, src := a, dst := b, srcAt := pa, dstAt := pb,
             routes := pl.routes.filter fun r => r.link == i }
    | _, _, _, _ => none

def State.links (s : State) : List LinkView :=
  (List.finRange 256).flatMap fun c =>
    match s.chains[c].cdef, s.chains[c].placement with
    | some (stages, links), some pl => linkViews c stages links pl
    | _, _ => []

/-- Crossbar panel and source of an event link (R168, R366): a pin, encoder or timer enters through the pin event line of its
KIND 6 route. -/
def LinkView.source (v : LinkView) : Option (PanelId × Nat) :=
  let t := v.srcAt.tile
  if v.src.kind = kCmp then some (panelOf t, 2 * localOf t + v.srcAt.unit % 2)
  else if v.src.kind = kWindow then some (panelOf t, 2 * localOf t + (v.link.srcPort - 4) % 2)
  else if v.src.kind = kEngine ∨ v.src.kind = kFabric then some (panelOf t, 128 + localOf t)
  else (v.routes.find? fun r => r.kind == 6).map fun r => (r.panel, 224 + r.item % 32)

/-- A rising edge on line `k` of tile `t` is the play input of a DAC or TROWEL stage (R96, R211). -/
def State.lineplays (s : State) (t : TileId) (k : Fin 3) : Bool :=
  s.tiles[t].placed && s.links.any fun v =>
    (v.dst.kind == kDac || v.dst.kind == kTrowel) && v.link.dstPort == 0 && v.dstAt.tile == t &&
      v.routes.any fun r => r.kind == 2 && r.panel == panelOf t && r.item == 3 * localOf t + k.val

/-- Select ports whose frame start a source is (R211). -/
def State.portStarts (s : State) (p : PanelId) (source : Nat) : List PanelId :=
  ((s.links.filter fun v => v.dst.kind == kPort && v.link.dstPort == 1 && v.source == some (p, source)).map
    fun v => Fin.ofNat 8 v.dst.fix)

end Machine
end Sys2Proof
end

