-- ==== Sys2Proof/Machine/Analog.lean ====
section
/-!
DEFINITION. The analogue cell of a tile (R124 to R130, R135, R136, R153, R157, R159, R160, R228): references, PGAs, biquad, what
feeds what, and the thresholds. Voltages are in pV. A path ends at one source that the module does not drive, and the command
that looks at the path gives that source's value (log 19).
-/
namespace Sys2Proof.Machine

open Sys2Proof

/-! ### References (R136, R153) -/

/-- pV in a microvolt. -/
def pv : Int := 1000000

/-- V_ref in uV (R136); VDDA at its nominal 3.3 V (log 19). -/
def State.vref (s : State) (p : PanelId) : Nat :=
  match Word.field (s.panels[p]).ref 25 24 with
  | 1 => 1000 * (s.panels[p]).vext.toNat
  | 2 => 3300000
  | _ => 2048000

/-- VCM, half the selected reference (R136). -/
def State.vcm (s : State) (p : PanelId) : Int := s.vref p * pv / 2

/-- V_FS of the threshold DACs (R153). -/
def State.vfs (s : State) (p : PanelId) : Int :=
  if Word.field (s.panels[p]).ref 25 24 = 1 then min ((s.panels[p]).vext.toNat * 1611300000) (3300000 * pv) else 3300000 * pv

/-! ### What feeds what (R125, R127, R130, R153, R228) -/

/-- A point of a tile's analogue cell. -/
inductive Node where
  | tb | ap (k : Nat) | pgaA | pgaB | biquad | tap | vcm
  /-- The LV drive of the trowel (R88). -/
  | lv
  /-- The trowel current monitor (R130, R153). -/
  | monitor
  deriving DecidableEq, Repr

/-- Input of a PGA by its code (R125); none holds the output at VCM. Code 8 is PGA A's output, on PGA B only. -/
def pgaNode (b : Bool) (code : Nat) : Option Node :=
  if code = 0 then some .tb
  else if code ≤ 6 then some (.ap (code - 1))
  else if code = 7 then some .tap
  else if code = 8 then (if b then some .pgaA else none)
  else if code = 9 then some .biquad
  else if code = 10 then some .vcm else none

def Tile.pgaOn (x : Tile) (b : Bool) : Bool := x.pga.getLsbD (if b then 14 else 15)
def Tile.pgaIn (x : Tile) (b : Bool) : Option Node :=
  pgaNode b (if b then Word.field x.pga 19 16 else Word.field x.pga 27 24)
/-- Gain code: 13 to 15 act as 12 (R124). -/
def Tile.pgaGain (x : Tile) (b : Bool) : Nat := min 12 (if b then Word.field x.pga 23 20 else Word.field x.pga 31 28)

def Tile.bqOn (x : Tile) : Bool := x.flt.getLsbD 9
def Tile.bqDiv (x : Tile) : Nat := Word.field x.flt 15 12
/-- Response of the biquad: 10 to 31 act as 9 (R128). -/
def Tile.bqResp (x : Tile) : Nat := min 9 (Word.field x.flt 20 16)
def Tile.bqIn (x : Tile) : Node :=
  match Word.field x.flt 11 10 with
  | 0 => .pgaA | 1 => .pgaB | 2 => .tb | _ => .ap 0

/-- Input of a comparator by its code (R153). -/
def cmpNode (code : Nat) : Node :=
  match code with
  | 0 => .tb | 1 => .tap | 2 => .ap 0 | 3 => .ap 1 | 4 => .pgaA | 5 => .pgaB | 6 => .biquad | _ => .monitor

/-- What an analogue stage puts onto its net (R211). -/
def Stage.node (g : Stage) (p : StagePlace) : Option Node :=
  if g.tb then some .tb
  else match g.kind with
    | 2 => some (if p.unit % 2 = 0 then .pgaA else .pgaB)
    | 3 => some .biquad
    | 9 => some .lv
    | 10 | 11 => some .tap
    | _ => none

/-- The point that the net of an analogue port carries (R228): the source of the analogue link that took the port. A PIN_IN's
point is the TB pin of tile FIX. -/
def State.apSource (s : State) (t : TileId) (k : Nat) : Option (Node × TileId) :=
  (List.finRange 256).findSome? fun c => match s.chains[c].placement with
    | some pl => (pl.aps.find? fun a => a.tile == t && a.ap == k && decide (a.key < 256)).bind fun a =>
        (s.links.find? fun v => v.chain == c && v.idx == a.key).bind fun v =>
          (v.src.node v.srcAt).map fun n => (n, if v.src.tb then Fin.ofNat 512 v.src.fix else v.srcAt.tile)
    | none => none

/-- The matrix connects two tiles: a fence opens a tile's switches, and the dust sheet holds the ports that cross its border at VCM
(R239, R242). -/
def State.matrixOpen (s : State) (t u : TileId) : Bool :=
  !(s.tiles[t]).fenced && !(s.tiles[u]).fenced && (s.tiles[t]).sheet == (s.tiles[u]).sheet

/-- The points from which a point takes its level, nearest first, with their tiles; `fuel` bounds the walk. -/
def State.path (s : State) : Nat → Node → TileId → List (Node × TileId)
  | 0, n, t => [(n, t)]
  | k + 1, n, t =>
    let x := s.tiles[t]
    let next := match n with
      | .ap i => (s.apSource t i).map fun (m : Node × TileId) => if s.matrixOpen t m.2 then m else (Node.vcm, t)
      | .pgaA => if x.pgaOn false then (x.pgaIn false).map fun m => (m, t) else none
      | .pgaB => if x.pgaOn true then (x.pgaIn true).map fun m => (m, t) else none
      | .biquad => if x.bqOn then some (x.bqIn, t) else none
      | _ => none
    match next with
    | some m => (n, t) :: s.path k m.1 m.2
    | none => [(n, t)]

/-- Points that a walk may pass. -/
def pathFuel : Nat := 32

/-! ### Levels (R125, R128, R130) -/

/-- 10^(3 GAIN / 20) in units of 10^-12 (R125). -/
def pgaFactor (gain : Nat) : Int :=
  ([1000000000000, 1412537544623, 1995262314969, 2818382931264, 3981071705535, 5623413251903, 7943282347243, 11220184543020,
    15848931924611, 22387211385683, 31622776601684, 44668359215096, 63095734448019] : List Int).getD gain 63095734448019

/-- A PGA's output for an input: gain about VCM, clipped 50 mV from the rails of the SAR range (R125). -/
def State.pgaOut (s : State) (t : TileId) (b : Bool) (v : Int) : Int :=
  let c := s.vcm (panelOf t)
  let g := pgaFactor ((s.tiles[t]).pgaGain b)
  let top : Int := s.vref (panelOf t) * pv - 50000 * pv
  max (50000 * pv) (min top (c + divRound ((v - c) * g) 1000000000000))

/-- Level of a source that no other point feeds. `ext` is what the command gives: microvolts at the pin, microamperes of trowel
current at the monitor. A PGA or biquad without power or input holds VCM (R125, R127). -/
def State.sourceVolt (s : State) (ext : Int) (n : Node) (t : TileId) : Int :=
  match n with
  | .tb | .ap _ => ext * pv
  | .tap => ext * pv / 20
  | .lv => ((s.tiles[t]).trowel.level : Nat) * 1000 * pv
  | .monitor => s.vcm (panelOf t) + ext * 800000
  | .vcm | .pgaA | .pgaB | .biquad => s.vcm (panelOf t)

/-- The level at the head of a path. A biquad that is fed shows its state (R128). -/
def State.pathVolt (s : State) (ext : Int) : List (Node × TileId) → Int
  | [] => 0
  | [(n, t)] => s.sourceVolt ext n t
  | (n, t) :: rest =>
    match n with
    | .pgaA => s.pgaOut t false (s.pathVolt ext rest)
    | .pgaB => s.pgaOut t true (s.pathVolt ext rest)
    | .biquad => s.vcm (panelOf t) + (s.tiles[t]).bq.y1
    | _ => s.pathVolt ext rest

def State.volt (s : State) (ext : Int) (n : Node) (t : TileId) : Int := s.pathVolt ext (s.path pathFuel n t)

/-! ### The biquad (R128, log 74) -/

/-- Poles of a response, a1 and a2 in units of 10^-12. The switching clock is 30 times f0 for every BQ_DIV, so a response has one
set: K = tan(pi / 30) times the pole frequency over f0, a1 = 2 (K^2 - 1) / (1 + K / Q + K^2),
a2 = (1 - K / Q + K^2) / (1 + K / Q + K^2). -/
def bqPoles (resp : Nat) : Int × Int :=
  match resp with
  | 1 => (-1571607682968, 628907782909)
  | 2 => (-1685966706510, 743329869776)
  | 4 => (-1859635225460, 901180582629)
  | 5 | 7 => (-1916449966184, 959264598458)
  | 6 => (-1936167607419, 979422743528)
  | _ => (-1705519129393, 743621441297)

/-- Zeros of a response, in units of 1/4 of those of its poles: unity gain in the passband or at the centre. -/
def bqZeros (resp : Nat) : Int × Int × Int :=
  let (a1, a2) := bqPoles resp
  let u : Int := 1000000000000
  if resp ≤ 2 then (u + a1 + a2, 2 * (u + a1 + a2), u + a1 + a2)
  else if resp = 3 then (u - a1 + a2, -2 * (u - a1 + a2), u - a1 + a2)
  else if resp ≤ 6 then (2 * (u - a2), 0, -2 * (u - a2))
  else if resp = 7 then (2 * (u + a2), 4 * a1, 2 * (u + a2))
  else (4 * a2, 4 * a1, 4 * u)

/-- One edge of the switching clock with input `x` about VCM. -/
def Biquad.edge (q : Biquad) (resp : Nat) (x : Int) : Biquad :=
  let y :=
    if resp = 9 then x
    else
      let (a1, a2) := bqPoles resp
      let (b0, b1, b2) := bqZeros resp
      divRound (b0 * x + b1 * q.x1 + b2 * q.x2 - 4 * a1 * q.y1 - 4 * a2 * q.y2) 4000000000000
  { q with x1 := x, x2 := q.x1, y1 := y, y2 := q.y1 }

/-- One edge of the 150 MHz base clock at an FCK count: every 2^BQ_DIV-th is one of the switching clock. -/
def bqBase (rest : List (Node × TileId)) (t : TileId) (at_ : Nat) (ext : Int) (s : State) : State :=
  let x := s.tiles[t]
  if at_ ≤ x.bq.at_ then s
  else
    let q := { x.bq with at_, edges := x.bq.edges + 1 }
    let v := s.pathVolt ext rest - s.vcm (panelOf t)
    s.modTile t fun x => { x with bq := if q.edges % 2 ^ x.bqDiv = 0 then q.edge x.bqResp v else q }

/-- The biquads of a path see a level of its source, the farthest first. -/
def bqPath (at_ : Nat) (ext : Int) : List (Node × TileId) → State → State
  | [], s => s
  | (n, t) :: rest, s =>
    let s := bqPath at_ ext rest s
    if n = .biquad ∧ (s.tiles[t]).bqOn then bqBase rest t at_ ext s else s

/-- The levels of the source at the base clock edges before an FCK count, oldest first. -/
def bqRun (now : Nat) (n : Node) (t : TileId) (past : List Int) (s : State) : State :=
  let path := s.path pathFuel n t
  (withIndex past).foldl (fun s v => bqPath (now - 8 * (past.length - 1 - v.1)) v.2 path s) s

/-- A new response, f0, input or power: the biquad restarts from VCM (R128). -/
def Tile.bqRestart (x : Tile) (old : Word) (now : Nat) : Tile :=
  if (old ^^^ x.flt) &&& 0x001FFE00#32 = 0 then x else { x with bq := { at_ := now } }

/-! ### Thresholds (R153, R156 to R160) -/

def Comparator.thr (c : Comparator) : Nat := Word.field c.cfg 27 18
/-- Hysteresis in pV (R152). -/
def Comparator.hystPv (c : Comparator) : Int :=
  match Word.field c.cfg 17 16 with
  | 0 => 0 | 1 => 5000 * pv | 2 => 20000 * pv | _ => 50000 * pv
def Comparator.inp (c : Comparator) : Nat := Word.field c.cfg 15 13
def Comparator.win (c : Comparator) : Bool := c.cfg.getLsbD 2

/-- The comparator whose trip switches a trowel in current-mode pulse off (R92, R160). -/
def State.currentCmp (s : State) (t : TileId) (c : Cmp) : Bool := s.trowelMode t == 4 && (s.tiles[t]).trowel.cmCmp == c

/-- Code of the threshold DAC: in current mode VCM + 0.8 V/A times the waveform's current, rounded (R160). -/
def State.thrCode (s : State) (t : TileId) (c : Cmp) : Nat :=
  let p := panelOf t
  if s.currentCmp t c then
    min 1023 (divRound ((s.vcm p + ((s.tiles[t]).trowel.level : Nat) * 800 * pv) * 1024) (s.vfs p).toNat).toNat
  else ((s.tiles[t]).cmp c).thr

/-- RSLOPE and RDIR of a comparator (R158). -/
def Tile.rslope (x : Tile) : Cmp → Nat
  | .a => Word.field x.dac 31 24
  | .b => Word.field x.dac 23 16
def Tile.rdir (x : Tile) : Cmp → Bool
  | .a => x.dac.getLsbD 11
  | .b => x.dac.getLsbD 10

/-- DAC samples since the period start (R159). -/
def State.rampSamples (s : State) (c : Comparator) : Nat :=
  match c.rampAt with
  | some a => (s.aon.run - a) / 8
  | none => 0

/-- The effective threshold, which is the output of the threshold DAC (R153, R157, R159, R160). -/
def State.threshold (s : State) (t : TileId) (c : Cmp) : Int :=
  let p := panelOf t
  let x := s.tiles[t]
  let step : Int := (s.rampSamples (x.cmp c) * x.rslope c : Nat) * (100 * pv)
  let v := (s.thrCode t c : Int) * s.vfs p / 1024
  max 0 (min (s.vfs p) (if s.currentCmp t c || x.rdir c then v - step else v + step))

/-- The comparator whose input selection acts: CMPA's for both in window mode (R156). -/
def Tile.inputOf (x : Tile) (c : Cmp) : Cmp := if x.cmpA.win then .a else c

/-- The point a comparator looks at (R153, R156, R160). -/
def State.cmpPoint (s : State) (t : TileId) (c : Cmp) : Node :=
  let d := (s.tiles[t]).inputOf c
  if s.currentCmp t c || s.currentCmp t d then .monitor else cmpNode ((s.tiles[t]).cmp d).inp

/-- On which side of its band the comparator's input lies, none inside it (R154). -/
def State.cmpSide (s : State) (t : TileId) (c : Cmp) (ext : Int) : Option Bool :=
  let v := s.volt ext (s.cmpPoint t c) t
  let th := s.threshold t c
  let h := ((s.tiles[t]).cmp c).hystPv
  if 2 * th + h < 2 * v then some true else if 2 * v < 2 * th - h then some false else none

/-! ### The SAR's inputs (R130, R157) -/

/-- Level at the SAR of tile `t` for the input selection of tile `o`. `ext` is microvolts for a pin, rail or diode, millidegrees
Celsius for the panel sensor, microamperes for the current monitor. -/
def State.muxVolt (s : State) (t o : TileId) (ext : Int) : Int :=
  let p := panelOf t
  match Word.field (s.tiles[o]).adc 31 26 with
  | 0x00 => s.volt ext .tb o
  | 0x01 => s.volt ext (.ap 0) o | 0x02 => s.volt ext (.ap 1) o | 0x03 => s.volt ext (.ap 2) o
  | 0x04 => s.volt ext (.ap 3) o | 0x05 => s.volt ext (.ap 4) o | 0x06 => s.volt ext (.ap 5) o
  | 0x08 => s.volt ext .pgaA o | 0x09 => s.volt ext .pgaB o | 0x0A => s.volt ext .biquad o | 0x0B => s.volt ext .tap o
  | 0x0C => s.threshold o .a | 0x0D => s.threshold o .b
  | 0x20 => s.vref p * pv / 2
  | 0x21 | 0x27 => ext * pv
  | 0x22 | 0x23 => ext * pv / 2
  | 0x24 | 0x25 => ext * pv / 32
  | 0x26 => 500000 * pv + ext * 5 * pv
  | 0x28 => s.volt ext .monitor o
  | 0x2A => s.vcm p
  | _ => 0

/-- The point of the cell that the SAR looks at, where it is one. -/
def muxNode (mux : Nat) : Option Node :=
  if mux = 0 then some .tb
  else if mux ≤ 6 then some (.ap (mux - 1))
  else match mux with
    | 0x08 => some .pgaA | 0x09 => some .pgaB | 0x0A => some .biquad | 0x0B => some .tap | _ => none

end Sys2Proof.Machine
end

