-- ==== Sys2Proof/Machine/PinLines.lean ====
section
/-!
DEFINITION. The GPIO pins (R361 to R371): output sources, pad level, filters, events, interrupts and wake. What a pin
launches into the crossbars is answered as a list, which Crossbar.lean sends on.
-/
namespace Sys2Proof.Machine

open Sys2Proof

/-- A change of level at a crossbar source. -/
structure Launch where
  panel : PanelId
  source : Nat
  level : Bool
  deriving DecidableEq, Repr

/-! ### Filter profiles (R165, R367) -/

def profMinw (w : Word) : Nat := Word.field w 31 24
def profGap (w : Word) : Nat := Word.field w 23 16
def profMax (w : Word) : Nat := Word.field w 15 8
/-- MINW in FCK cycles: before changeover ceil(MINW / 4) QCK cycles (R165). -/
def State.minwFck (s : State) (w : Word) : Nat := if s.clk.fast = .fck then profMinw w else 4 * ceilDiv (profMinw w) 4

/-! ### Configuration fields (R362) -/

def Pin.idle (x : Pin) : Nat := Word.field x.cfg 30 29
def Pin.oselA (x : Pin) : Nat := Word.field x.cfg 28 20
def Pin.oselB (x : Pin) : Nat := Word.field x.cfg 19 11
def Pin.oe (x : Pin) : Bool := x.cfg.getLsbD 10
def Pin.od (x : Pin) : Bool := x.cfg.getLsbD 9
def Pin.pull (x : Pin) : Nat := Word.field x.cfg 6 5
def Pin.prof (x : Pin) : Fin 4 := Fin.ofNat 4 (Word.field x.cfg 4 3)
/-- IMODE: 6 and 7 act as 0. -/
def Pin.imode (x : Pin) : Nat := let m := Word.field x.cfg 2 0; if 6 ≤ m then 0 else m
/-- The fields whose change is a function change (R364): OSEL_A, OSEL_B, OE, OD. -/
def functionMask : Word := 0x1FFFFE00#32
/-- The RWL fields. -/
def pincfgMask : Word := 0x7FFFFFFF#32

def State.pinProfile (s : State) (p : PinId) : Word := s.gpio.filt[(s.gpio.pins[p]).prof]

/-! ### Output sources (R363) -/

/-- A reject output is a source of the pin: an armed job names it, or a pulse is pending (R363). -/
def State.rejectSource (s : State) (p : PinId) : Bool :=
  (allHeads.any fun h => match s.jobOf h with
    | some j => j.rejectPin.toNat == p.val
    | none => false) || s.aon.rejects.any fun r => r.pin == p

/-- Value and output enable of a source code (R363). -/
def State.pinSource (s : State) (p : PinId) (code : Nat) : Bool × Bool :=
  let x := s.gpio.pins[p]
  if code = 1 then (x.out, x.oe)
  else if code = 2 then (s.tally.hold, true)
  else if h : 0x10 ≤ code ∧ code < 0x20 then
    let t := s.gpio.timers[(⟨code - 0x10, by omega⟩ : Fin 16)]
    (t.output && t.placed, t.placed)
  else if h : 0x100 ≤ code ∧ code < 0x200 then
    let q : PanelId := ⟨(code - 0x100) / 32, by omega⟩
    let k : Fin 256 := ⟨224 + code % 32, by omega⟩
    let routed := (s.pstate q).live && (s.panels[q]).sinks[k] != 256
    ((s.panels[q]).sinkLvl[k] && routed, routed)
  else (false, false)

/-- The pin's combined value and output enable: the OR of its sources (R363); after a failed full load only
reject outputs drive (R334). -/
def State.pinOut (s : State) (p : PinId) : Bool × Bool :=
  let x := s.gpio.pins[p]
  let a := s.pinSource p x.oselA
  let b := s.pinSource p x.oselB
  let r := s.rejectSource p
  if s.pwr.ioOff then (r && x.reject, r) else ((a.1 && a.2) || (b.1 && b.2) || (r && x.reject), a.2 || b.2 || r)

/-- What the module drives on the pad, none for high impedance: IDLE during a function switch (R364), else the combined
output, open drain or push-pull (R362). -/
def State.pinDrive (s : State) (p : PinId) : Option Bool :=
  let x := s.gpio.pins[p]
  if x.hold then
    match x.idle with
    | 0 => some false
    | 1 => some true
    | _ => none
  else
    let o := s.pinOut p
    if !o.2 then none else if x.od then (if o.1 then none else some false) else some o.1

/-- The pad's level: driven by the module, driven from outside, pulled or kept; none where it has no defined level (R361). -/
def State.padLevel (s : State) (p : PinId) : Option Bool :=
  let x := s.gpio.pins[p]
  match s.pinDrive p with
  | some b => some b
  | none =>
    match x.pad with
    | some b => some b
    | none =>
      match x.pull with
      | 1 => some true
      | 2 => some false
      | 3 => some x.kept
      | _ => none

/-! ### Triggers and activity -/

/-- An edge of the pin to `lvl` is an armed job's trigger (R30). -/
def State.pinTriggers (s : State) (p : PinId) (lvl : Bool) : Bool := s.triggered (BitVec.ofNat 16 p.val) lvl

/-- A change to `lvl` is an event under IMODE (R362). -/
def Pin.hits (x : Pin) (lvl : Bool) : Bool :=
  match x.imode with
  | 1 => lvl | 2 => !lvl | 3 => true | 4 => lvl | 5 => !lvl | _ => false

/-- The pin is active at `lvl` (R369). -/
def State.pinActive (s : State) (p : PinId) (lvl : Bool) : Bool :=
  let m := (s.gpio.pins[p]).imode
  (lvl && (m == 1 || m == 3 || m == 4 || s.pinTriggers p true)) ||
    (!lvl && (m == 2 || m == 5 || s.pinTriggers p false))

/-- Source of LAST if a change to `lvl` would wake the module (R277, R371). -/
def State.pinWakes (s : State) (p : PinId) (lvl : Bool) : Option (BitVec 4) :=
  let x := s.gpio.pins[p]
  if x.stuck then none
  else if s.pinTriggers p lvl then some 1
  else if x.wake && s.aon.wakeCtrl.getLsbD 28 && x.hits lvl then some 3 else none
/-- The pin's edges of some direction wake the module. -/
def State.pinWakeSource (s : State) (p : PinId) : Bool :=
  (s.pinWakes p true).isSome || (s.pinWakes p false).isSome

/-! ### Lines and interrupts (R366, R370) -/

/-- Event lines that take a GPIO source: a pin, or 129 + k a timer, 145 + n an encoder's counts, 153 + n its direction
(log 21). -/
def lineLaunches (s : State) (code : Nat) (lvl : Bool) : List Launch :=
  allPanels.flatMap fun q =>
    ((List.finRange 32).filter fun k => s.panels[q].pinLine[k] == code).map fun k => ⟨q, 224 + k.val, lvl⟩

/-- Sets IST where IEN allows, with the pin vector's message on a change from 0 (R370, R300). -/
def setIst (p : PinId) (s : State) : State :=
  let x := s.gpio.pins[p]
  if x.ien && !x.ist then raiseMsix (vecOf s.ev.vector 8) (s.modPin p fun x => { x with ist := true }) else s

/-- A level mode sets the bit again while its level holds (R370). -/
def istRefresh (p : PinId) (s : State) : State :=
  let x := s.gpio.pins[p]
  if !x.stuck && ((x.imode == 4 && x.held) || (x.imode == 5 && !x.held)) then setIst p s else s

/-- An event: the rate limit and the interrupt status. -/
def pinEvent (p : PinId) (imode : Bool) (s : State) : State :=
  let gap := profGap (s.pinProfile p)
  let now := s.aon.fck
  let s := s.modPin p fun x => { x with gapUntil := if gap = 0 then none else some (now + 64 * gap) }
  if imode then setIst p s else s

/-- The level after MIN_GAP takes `lvl`: an event under IMODE or as a trigger, and the PE lines (R366 to R368). -/
def pinTake (p : PinId) (lvl : Bool) (s : State) : List Launch × State :=
  let x := s.gpio.pins[p]
  if x.held = lvl then ([], s)
  else
    let s' := s.modPin p fun x => { x with held := lvl }
    if x.stuck then ([], s')
    else
      let s' := if x.hits lvl || s.pinTriggers p lvl then pinEvent p (x.hits lvl) s' else s'
      let l := x.latch.getD (s.aonTime, s.counts)
      let s' := noteEdge (BitVec.ofNat 16 p.val) lvl l.1 l.2 s'
      (lineLaunches s' p.val lvl, s')

/-- The pin's level has passed MINW (R367, R368). -/
def pinAccept (p : PinId) (lvl : Bool) (s : State) : List Launch × State :=
  let now := s.aon.ticks
  let act := s.pinActive p lvl
  let x := s.gpio.pins[p]
  let resume := !act && x.stuckPhase == .first
  let s := s.modPin p fun x =>
    { x with filt := lvl, cand := none, woke := false, activeSince := if act then some now else none,
             stuck := if resume then false else x.stuck,
             stuckPhase := if resume then .watched now else x.stuckPhase }
  match x.gapUntil with
  | some g =>
    if s.aon.fck < g then ([], { s with gpio := { s.gpio with overrun := s.gpio.overrun + 1 } })
    else pinTake p lvl (s.modPin p fun x => { x with gapUntil := none })
  | none => pinTake p lvl s

/-- The synchronised level enters the width filter (R367). -/
def pinFilter (p : PinId) (s : State) : List Launch × State :=
  let x := s.gpio.pins[p]
  let minw := s.minwFck (s.pinProfile p)
  if x.cand.isSome && x.sync == x.filt then
    let s' := s.modPin p fun x => { x with cand := none, woke := false }
    ([], if x.woke then { s' with gpio := { s'.gpio with falseWake := s'.gpio.falseWake + 1 } } else s')
  else if x.sync == x.filt then ([], s)
  else if s.fastOn then
    if minw = 0 then pinAccept p x.sync s
    else
      let due := s.aon.fck + minw
      ([], s.modPin p fun x => { x with cand := some (x.sync, due) })
  else if s.pwr.mode = .armed then
    match s.pinWakes p x.sync with
    | some src =>
      let due := s.aon.fck + minw
      ([], wake src (s.modPin p fun x => { x with cand := some (x.sync, due), woke := true }))
    | none => ([], if s.pinWakeSource p then s.modPin p fun x => { x with filt := x.sync, held := x.sync } else s)
  else ([], s)

/-- The pad is sampled: a level the manual does not define is free; the raw edge latches SYSTIME and the encoder counts
(R361, R367). -/
def pinSampled (p : PinId) (s : State) : List Launch × State :=
  let (lvl, s) := match s.padLevel p with
    | some b => (b, s)
    | none => s.drawBit
  if (s.gpio.pins[p]).sync = lvl then ([], s.modPin p fun x => { x with kept := lvl })
  else
    let l := (s.aonTime, s.counts)
    pinFilter p (s.modPin p fun x => { x with sync := lvl, kept := lvl, latch := some l })

end Sys2Proof.Machine
end

