-- ==== Sys2Proof/Machine/Crossbar.lean ====
section
/-!
DEFINITION. The panel event crossbars and the spine (R168 to R171), the actions of tile event inputs (R170), capture
(R196) and the comparator's period start and latch (R159, R161). Delays in FCK cycles are left out (log 16): an event
crosses in the step that launches it.
-/
namespace Sys2Proof.Machine

open Sys2Proof

/-! ### Engine events (R191, R196) -/

/-- Sets an edge bit of EVM; a fenced tile's engine is HELD and takes none. -/
def setEvm (t : TileId) (bit : Nat) (s : State) : State :=
  if s.tiles[t].fenced then s
  else s.modEng t fun e => { e with evm := e.evm ||| (1#16 <<< bit) }

/-- An entry of the capture FIFO, or STATUS.CAP_OVF when it is full (R196). -/
def capture (t : TileId) (src : BitVec 3) (s : State) : State :=
  let now := s.stamp
  let pre := s.prelock
  s.modEng t fun e =>
    if e.capFifo.length < 16 then { e with capFifo := e.capFifo ++ [⟨src, pre, now⟩] }
    else { e with status := e.status ||| 2#5 }

/-! ### Comparator fields (R152) -/

def Comparator.hyst (c : Comparator) : Nat := Word.field c.cfg 17 16
def Comparator.pol (c : Comparator) : Bool := c.cfg.getLsbD 12
/-- LATCH: 3 acts as 1. -/
def Comparator.latch (c : Comparator) : Nat := let l := Word.field c.cfg 11 10; if l = 3 then 1 else l
/-- EDGE: 0 rising, 1 falling, 2 both; 3 acts as 0. -/
def Comparator.edge (c : Comparator) : Nat := let l := Word.field c.cfg 9 8; if l = 3 then 0 else l
def Comparator.cap (c : Comparator) : Bool := c.cfg.getLsbD 7
def Comparator.irqEng (c : Comparator) : Bool := c.cfg.getLsbD 6
def Comparator.irqHost (c : Comparator) : Bool := c.cfg.getLsbD 5
def Comparator.wakeEn (c : Comparator) : Bool := c.cfg.getLsbD 4
def Comparator.prof (c : Comparator) : Bool := c.cfg.getLsbD 3
def Comparator.en (c : Comparator) : Bool := c.cfg.getLsbD 0

/-- The signal routed to the crossbar and the event logic (R161); held at 0 while STUCK (R167). -/
def Comparator.routed (c : Comparator) : Bool :=
  if c.stuck then false else if c.latch = 0 then c.filt else c.lat

def cmpNum : Cmp → Nat
  | .a => 0 | .b => 1
/-- Crossbar source of a comparator: 2l for CMPA and 2l + 1 for CMPB (R168). -/
def cmpLaunch (t : TileId) (c : Cmp) (lvl : Bool) : Launch := ⟨panelOf t, 2 * localOf t + cmpNum c, lvl⟩
def teoLaunch (t : TileId) (lvl : Bool) : Launch := ⟨panelOf t, 128 + localOf t, lvl⟩

/-- Whether some comparator of a panel has LAT and IRQ_HOST set: bit k of PNL_CMPSUMj (R163). -/
def Tile.cmpSum (x : Tile) (c : Cmp) : Bool := (x.cmp c).lat && (x.cmp c).irqHost
/-- A summary bit goes from 0 to 1: the panel's vector fires (R300). -/
def cmpSummary (t : TileId) (c : Cmp) (was : Bool) (s : State) : State :=
  if !was && (s.tiles[t]).cmpSum c then
    let p := (panelOf t).val
    let w := s.ev.irqVec[(⟨p / 4, by have := (panelOf t).isLt; omega⟩ : Fin 2)]
    raiseMsix (vecOf w (8 * (p % 4))) s
  else s

/-- LAT clears, unless the comparator's event falls in the same FCK cycle (R162). -/
def Comparator.unlatch (now : Nat) (c : Comparator) : Comparator := if c.evAt = some now then c else { c with lat := false }

/-- The comparator's period start: the ramp restarts and LATCH 2 clears LAT (R159, R161). -/
def periodStart (t : TileId) (c : Cmp) (s : State) : List Launch × State :=
  let x := s.tiles[t].cmp c
  let run := s.aon.run
  let fck := s.aon.fck
  let s' := s.modCmp t c fun x =>
    let x := { x with rampAt := some run }
    if x.latch = 2 then x.unlatch fck else x
  let now := (s'.tiles[t].cmp c).routed
  (if x.routed != now then [cmpLaunch t c now] else [], s')

/-- RPER of a comparator (R158). -/
def Tile.rper (x : Tile) : Cmp → Nat
  | .a => Word.field x.dac 15 14
  | .b => Word.field x.dac 13 12

/-! ### Tile event inputs (R170) -/

/-- TRIG of T_ADC (R129). -/
def Tile.adcTrigOn (x : Tile) : Bool := x.adc.getLsbD 13

/-- An ADC trigger event (R132): a conversion starts 8 FCK cycles later, or the event is dropped and flags MISS. -/
def adcTrigger (t : TileId) (s : State) : State :=
  let x := s.tiles[t]
  if x.sar.en && !x.sar.paused && x.adcTrigOn then
    let now := s.aon.fck
    let early := match x.sar.lastStart with
      | some f => decide (now < f + 60)
      | none => false
    s.modTile t fun x => { x with sar :=
      if early || x.sar.nextAt.isSome then { x.sar with missed := true } else { x.sar with nextAt := some (now + 8) } }
  else s

/-- The period start of a code acts on a comparator: RPER names it, and current-mode pulse does not (R158 to R160). -/
def State.periodOf (s : State) (t : TileId) (c : Cmp) (code : Nat) : Bool :=
  (s.tiles[t]).rper c == code && !s.currentCmp t c

/-- Fire inhibit becomes active: a waveform in progress turns back to its idle level, and its dots are lost (R170). -/
def inhibitCut (t : TileId) (s : State) : State :=
  if (s.tiles[t]).trowel.play == .playing then
    s.modTrowel t fun w => { w with
      cut := true, chopOn := false, current := w.current.map fun d => { d with dots := 0, weight := 0, listen := none } }
  else s

/-- The play input of a DAC or TROWEL stage: its trowel's next play is due (R96). -/
def stagePlay (t : TileId) (s : State) : State :=
  let d : DueFire := { head := 0, seq := 0, col := 0, by_ := .stage, nFired := 0, latched := false, listen := none }
  s.modTrowel t fun w => { w with due := w.due.or (some d) }

/-- A rising edge on line `k` of tile `t`: EVM, capture, ADC trigger, play, fire inhibit and ramp period starts. -/
def teiRise (t : TileId) (k : Fin 3) (s : State) : List Launch × State :=
  let x := s.tiles[t]
  if x.fenced then ([], s)
  else
    let s := setEvm t k.val s
    let s := if x.eng.capen.getLsbD k.val then capture t (BitVec.ofNat 3 (2 + k.val)) s else s
    let s := if x.adcTrig = some k then adcTrigger t s else s
    let s := if s.lineplays t k then stagePlay t s else s
    let s := if x.inhibitLine = some k then inhibitCut t s else s
    let (l1, s) := if s.periodOf t .a (2 + k.val) then periodStart t .a s else ([], s)
    let (l2, s) := if s.periodOf t .b (2 + k.val) then periodStart t .b s else ([], s)
    (l1 ++ l2, s)

/-- What a change still has to cause: a launch at a source, the sampling of a pin's pad, or the frame start of a port that a
SELECT_PORT stage holds. -/
inductive Work where
  | line (l : Launch) | pin (p : PinId) | port (p : PanelId)
  deriving DecidableEq, Repr

/-- The level of sink `k` of panel `p` changes: a tile event input, an outbound lane, or a pin event output line whose
pins follow its level. -/
def sinkChange (p : PanelId) (k : Nat) (lvl : Bool) (s : State) : List Work × State :=
  if h : k < 192 then
    let t := tileAt p ⟨k / 3, by omega⟩
    let line : Fin 3 := ⟨k % 3, by omega⟩
    let s := s.modTile t fun x => { x with tei := x.tei.set line lvl }
    if lvl then
      let r := teiRise t line s
      (r.1.map .line, r.2)
    else ([], s)
  else if k < 224 then
    let lane := 32 * p.val + (k - 192)
    (allPanels.flatMap fun q =>
      ((List.finRange 32).filter fun i => s.panels[q].spineIn[i] == lane).map fun i => .line ⟨q, 192 + i.val, lvl⟩, s)
  else
    let code := 0x100 + 32 * p.val + (k - 224)
    (((List.finRange 128).filter fun g =>
      (s.gpio.pins[g]).oselA == code || (s.gpio.pins[g]).oselB == code).map .pin, s)

/-- The level a crossbar source shows now. -/
def State.sourceLevel (s : State) (p : PanelId) (k : Nat) : Bool :=
  if k < 128 then
    let t := tileAt p (Fin.ofNat 64 (k / 2))
    !(s.tiles[t]).fenced && ((s.tiles[t]).cmp (if k % 2 = 0 then .a else .b)).routed
  else if k < 192 then
    let t := tileAt p (Fin.ofNat 64 (k - 128))
    !(s.tiles[t]).fenced && (s.tiles[t]).teo
  else if k < 224 then
    let l := (s.panels[p]).spineIn[(Fin.ofNat 32 (k - 192) : Fin 32)]
    l < 256 && (s.panels[(Fin.ofNat 8 (l / 32) : PanelId)]).sinkLvl[(Fin.ofNat 256 (192 + l % 32) : Fin 256)]
  else
    let c := (s.panels[p]).pinLine[(Fin.ofNat 32 (k - 224) : Fin 32)]
    if c < 128 then
      let x := s.gpio.pins[(Fin.ofNat 128 c : PinId)]
      x.held && !x.stuck
    else if 129 ≤ c ∧ c < 145 then (s.gpio.timers[(Fin.ofNat 16 (c - 129) : Fin 16)]).output
    else if 153 ≤ c ∧ c < 161 then (s.aon.enc[(Fin.ofNat 8 (c - 153) : Fin 8)]).dir else false

/-- The work of a sink that takes a level. -/
def sinkTo (p : PanelId) (k : Fin 256) (lvl : Bool) (s : State) : List Work × State :=
  if (s.panels[p]).sinkLvl[k] = lvl then ([], s)
  else sinkChange p k.val lvl (s.modPanel p fun x => { x with sinkLvl := x.sinkLvl.set k lvl })

/-- The tile whose epoch a source carries (R169). -/
def Launch.tile (l : Launch) : Option TileId :=
  if h : l.source < 128 then some (tileAt l.panel ⟨l.source / 2, by omega⟩)
  else if h : l.source < 192 then some (tileAt l.panel ⟨l.source - 128, by omega⟩) else none

/-- The source reaches the crossbar: fast clocks run, its panel is live and its tile is not fenced (R88, R168, R169). -/
def State.reaches (s : State) (l : Launch) : Bool :=
  s.fastOn && (s.pstate l.panel).live && match l.tile with
    | some t => !s.tiles[t].fenced
    | none => true

/-- The dust sheet lies between a source and a sink: exactly one of their tiles is behind it (R239). -/
def State.sheeted (s : State) (l : Launch) (k : Fin 256) : Bool :=
  let behind := match l.tile with
    | some t => (s.tiles[t]).sheet
    | none => false
  let sink := if h : k.val < 192 then (s.tiles[(tileAt l.panel ⟨k.val / 3, by omega⟩)]).sheet else false
  behind != sink

/-- The sink follows the source: it is not held by a change of source, and its grant carries the present epoch of the source's
tile (R169, R241). -/
def State.granted (s : State) (l : Launch) (k : Fin 256) : Bool :=
  let pn := s.panels[l.panel]
  !(pn.sinkHold.any fun h => h.1 == k.val) && match l.tile with
    | some t => pn.sinkEpoch[k] == (s.tiles[t]).epoch
    | none => true

/-- A delivery whose epoch is not the source tile's current one: a message's or a grant's (R202, R241). -/
def staleSpeaker (t : TileId) (epoch : Byte) (s : State) : State :=
  log .lasting kStale (srcTile t) (arg t.val) (epoch.setWidth 32) ((s.tiles[t]).epoch.setWidth 32) s

/-- A change at a sink whose grant has gone stale is dropped and ledgered (R241). -/
def staleGrant (l : Launch) (k : Fin 256) (s : State) : State :=
  let e := (s.panels[l.panel]).sinkEpoch[k]
  match l.tile with
  | some t => if e != (s.tiles[t]).epoch then staleSpeaker t e s else s
  | none => s

/-- Every sink that takes the source, shows the other level and is not held by the dust sheet. -/
def launchSinks (l : Launch) (s : State) : List Work × State :=
  if s.reaches l then
    (List.finRange 256).foldl (fun (acc : List Work × State) (k : Fin 256) =>
      let pn := acc.2.panels[l.panel]
      if pn.sinks[k] == l.source && pn.sinkLvl[k] != l.level then
        if acc.2.granted l k && !acc.2.sheeted l k then
          let s := acc.2.modPanel l.panel fun x => { x with sinkLvl := x.sinkLvl.set k l.level }
          let r := sinkChange l.panel k.val l.level s
          (acc.1 ++ r.1, r.2)
        else (acc.1, staleGrant l k acc.2)
      else acc) ([], s)
  else ([], s)

/-- A pin event on a line that feeds sync lines: their groups' edge E is 12 FCK cycles away (R148, R171). -/
def syncEvent (l : Launch) (s : State) : State :=
  let gs := if l.source < 224 then [] else
    (List.finRange 16).filter fun g => Config.syncSource g.val == 32 * l.panel.val + (l.source - 224)
  { s with lineSyncs := s.lineSyncs ++ gs.map fun g => (g, s.aon.fck + 12) }

/-- One launch: the sinks, a select port whose frames it starts, and sync lines that it feeds. -/
def launchOne (l : Launch) (s : State) : List Work × State :=
  let r := launchSinks l s
  if l.level && s.reaches l then (r.1 ++ (s.portStarts l.panel l.source).map .port, syncEvent l r.2) else r

def workOne (w : Work) (s : State) : List Work × State :=
  match w with
  | .line l => launchOne l s
  | .pin p =>
    let r := pinSampled p s
    (r.1.map .line, r.2)
  | .port p =>
    let ws := (s.panels[p]).portWords
    ([], (s.modPanel p fun x => { x with portWords := [] }).send (.portFrame p ws))

/-- A work list and everything it causes; a sink that already shows the level ends a chain, and `fuel` bounds it. -/
def works : Nat → List Work → State → State
  | 0, _, s => s
  | _, [], s => s
  | n + 1, w :: ws, s =>
    let r := workOne w s
    works n (ws ++ r.1) r.2

def launch (l : Launch) (s : State) : State := works 1024 [.line l] s
def launches (ls : List Launch) (s : State) : State := works 1024 (ls.map .line) s
/-- The pad of a pin is sampled. -/
def pinSample (p : PinId) (s : State) : State := works 1024 [.pin p] s

/-- A sink takes the level that its source shows, where it follows one. -/
def sinkFollow (p : PanelId) (k : Fin 256) (s : State) : State :=
  let src := (s.panels[p]).sinks[k]
  let l : Launch := ⟨p, src, s.sourceLevel p src⟩
  if src < 256 && s.reaches l && s.granted l k && !s.sheeted l k then
    let r := sinkTo p k l.level s
    works 1024 r.1 r.2
  else s

/-- The crossbars run again: every sink takes its source's level (R168). -/
def resample (s : State) : State :=
  allPanels.foldl (fun s p => (List.finRange 256).foldl (fun s k => sinkFollow p k s) s) s

/-- Sinks whose change of source is two FCK cycles old follow the new one (R169). -/
def releaseSinks (p : PanelId) (s : State) : State :=
  let now := s.aon.fck
  let ripe := ((s.panels[p]).sinkHold.filter fun h => h.2 ≤ now).map (·.1)
  if ripe.isEmpty then s
  else ripe.foldl (fun s k => sinkFollow p (Fin.ofNat 256 k) s)
    (s.modPanel p fun x => { x with sinkHold := x.sinkHold.filter fun h => !decide (h.2 ≤ now) })

/-- A pulse of one FCK cycle on the TEO of a tile whose TEO takes TRIG (R168, R194). -/
def trigPulse (t : TileId) (s : State) : State :=
  let s := (s.send (.trig t)).modTile t fun x => { x with pulses := x.pulses ||| 4#4 }
  if (s.tiles[t]).teoSrc = 1 then launch (teoLaunch t false) (launch (teoLaunch t true) s) else s

/-- The stroke boundary of the tile's head: EVM bit 9 and slice input 6 (R191, R226). -/
def strokeEdge (t : TileId) (s : State) : State :=
  (setEvm t 9 s).modTile t fun x => { x with pulses := x.pulses ||| 2#4 }

/-- A period start of the comparators of a tile that `on` names. -/
def periodStarts (t : TileId) (on : Cmp → Bool) (s : State) : State :=
  let (l1, s) := if on .a then periodStart t .a s else ([], s)
  let (l2, s) := if on .b then periodStart t .b s else ([], s)
  launches (l1 ++ l2) s

/-- The fire start of the tile's trowel: EVM bit 10, slice input 5, and ramps whose period starts there (R158, R191). -/
def fireStart (t : TileId) (s : State) : State :=
  let s := (setEvm t 10 s).modTile t fun x => { x with pulses := x.pulses ||| 1#4 }
  periodStarts t (fun c => s.periodOf t c 1) s

end Sys2Proof.Machine
end

