-- ==== Sys2Proof/Machine/Drive.lean ====
section
/-!
DEFINITION. The start of a play on a trowel (R81, R158, R262).
-/
namespace Sys2Proof.Machine

open Sys2Proof

/-- Meters a fire on its rail. -/
def meterFire (t : TileId) (s : State) : State :=
  let e := s.fireEnergy t
  let now := s.aon.fck
  s.modPanel (panelOf t) fun p =>
    { p with railLog := (now, e) :: p.railLog.filter fun x => decide (now < x.1 + usFck 100) }

/-- A play starts on the trowel at an FCK cycle and vernier tap, from the idle level (R85, R90): fire spacing, rail meter, EVM
bit 10 and ramps. Its listen would start GAP samples after its last sample (R103). -/
def startPlay (t : TileId) (idx cycle tap : Nat) (s : State) : State :=
  let x := s.tiles[t]
  let gap := Word.field (s.panels[panelOf t]).listen 19 12
  let len := (x.waves[(Fin.ofNat 16 idx)]).length
  let s := s.modTrowel t fun w =>
    { w with play := .playing, wave := idx, lastFire := some cycle, playAt := 8 * cycle + tap, samples := 0, cut := false,
             level := x.idleLevel, listenAt := ceilDiv (8 * cycle + tap + 64 * (len + gap)) 8, chopAt := cycle }
  fireStart t (playOn t (meterFire t s))

end Sys2Proof.Machine
end

