-- ==== Sys2Proof/Machine/Adc.lean ====
section
/-!
DEFINITION. The SAR of a tile, its schedule, its circular buffer, the decimation chain, data records and sync edges (R129 to
R149). What the source of the selected path shows arrives with ADC_CONVERSION.
-/
namespace Sys2Proof.Machine

open Sys2Proof

/-! ### Fields (R127, R129) -/

def Tile.mux (x : Tile) : Nat := Word.field x.adc 31 26
def Tile.adcDiv (x : Tile) : Nat := Word.field x.adc 25 18
def Tile.adcRoute (x : Tile) : Nat := Word.field x.adc 17 16
def Tile.adcFifoOn (x : Tile) : Bool := x.adc.getLsbD 15
def Tile.bufReg (x : Tile) : Nat := max 1 (Word.field x.adc 12 11)
/-- Bytes of the circular buffer: 512 * 2^BUF_SIZE, 6 and 7 acting as 5. -/
def Tile.bufBytes (x : Tile) : Nat := 512 * 2 ^ min 5 (Word.field x.adc 10 8)
def Tile.adcKeep (x : Tile) : Bool := x.adc.getLsbD 1
def Tile.adcEn (x : Tile) : Bool := x.adc.getLsbD 0
/-- FCK cycles between conversions: 60 * (DIV + 1), 15 * (DIV + 1) of QCK before changeover (R132). -/
def Tile.adcPeriod (x : Tile) : Nat := 60 * (x.adcDiv + 1)
def Tile.ilv (x : Tile) : Bool := x.adc.getLsbD 14
/-- DEC: 12 to 15 act as 11. -/
def Tile.dec (x : Tile) : Nat := min 11 (Word.field x.flt 31 28)
def Tile.syncGrp (x : Tile) : Nat := Word.field x.flt 27 24
def Tile.syncEn (x : Tile) : Bool := x.flt.getLsbD 23
/-- DEC_DEST: 3 acts as 2. -/
def Tile.decDest (x : Tile) : Nat := min 2 (Word.field x.flt 22 21)

/-- The odd tile of a joined pair works for its even partner (R138, R139). -/
def State.joinedOdd (s : State) (t : TileId) : Bool :=
  t.val % 2 == 1 && (s.tiles[partner t]).ilv && (s.tiles[partner t]).sar.en

/-- The SAR belongs to listening: a job using the tile's group is armed, or a listen runs on it (R103). -/
def State.sarListens (s : State) (t : TileId) : Bool := s.armedTile t || (s.tiles[t]).trowel.listen.isSome

/-! ### Decimation responses (R145) -/

/-- Factor, sinc order and settling outputs; the FIR responses are 5 to 10. -/
def decShape (code : Nat) : Nat × Nat × Nat :=
  match code with
  | 0 => (4, 3, 3) | 1 => (8, 3, 3) | 2 => (16, 3, 3) | 3 => (32, 4, 4) | 4 => (64, 4, 4)
  | 5 => (8, 3, 11) | 6 => (16, 3, 11) | 7 => (32, 4, 12) | 8 => (64, 4, 12) | 9 => (128, 5, 13) | 10 => (256, 5, 13)
  | _ => (1, 0, 0)

/-- Inputs in an output's support: those of the sinc stage, and for a FIR response of nine of its outputs, one output back
(log 18). -/
def decSupport (code : Nat) : Nat :=
  let (r, n, _) := decShape code
  if code ≤ 4 then n * (r - 1) + 1 else if code ≤ 10 then 9 * r + n * (r - 1) + 1 else 1

/-- Taps of `n` boxcars of length `r` in cascade. -/
def boxTaps (r : Nat) : Nat → List Nat
  | 0 => [1]
  | n + 1 =>
    let l := boxTaps r n
    (List.range (l.length + r - 1)).map fun i => ((List.range r).map fun k => if k ≤ i then l.getD (i - k) 0 else 0).sum

def dot : List Nat → List Int → Int
  | a :: as, b :: bs => (a : Int) * b + dot as bs
  | _, _ => 0

/-- Tap k of nine of a FIR response: symmetric, so the phase is linear, and their sum is firScale + 1, so the DC gain is one
(R145, R146). -/
def firTap (code k : Nat) : Int :=
  let side := (List.range 4).map (Config.firTap code)
  if k = 4 then (Config.firScale code + 1 : Nat) - 2 * side.sum else side.getD (min k (8 - k)) 0

/-- An output's value times its scale, and the scale (R145, R146): the sinc stage over its inputs, and for a FIR response nine taps
over the sinc stage's outputs, the newest of them one output back. -/
def decRatio (code : Nat) (hist : List Int) : Int × Nat :=
  let (r, n, _) := decShape code
  if code ≤ 4 then (dot (boxTaps r n) hist, r ^ n)
  else if code ≤ 10 then
    let taps := boxTaps r n
    (((List.range 9).map fun k => firTap code k * dot taps (hist.drop ((k + 1) * r))).sum, r ^ n * (Config.firScale code + 1))
  else (hist.headD 0, 1)

/-- The filtered value before saturation (R146): the direction in which it rounds is open (log 18). -/
def decValue (code : Nat) (hist : List Int) : Int :=
  let (y, d) := decRatio code hist
  if y % (d : Int) = 0 then y / (d : Int) else if Config.roundUp code hist then y / (d : Int) + 1 else y / (d : Int)

/-! ### Destinations (R142 to R144, R197) -/

/-- A word enters the engine's ADC FIFO, or sets STATUS.ADC_OVF. -/
def fifoPush (t : TileId) (w : Word) (s : State) : State :=
  s.modEng t fun e =>
    if e.adcFifo.length < 32 then { e with adcFifo := e.adcFifo ++ [w] } else { e with status := e.status ||| 1#5 }

/-- Bytes into the tile's buffer memory at an offset past the keep region (R180, R310); discarded while being primed
(R311). -/
def bufWrite (t : TileId) (off : Nat) (bs : List Byte) (s : State) : State :=
  if s.mem.memBusy then s
  else
    let words := ((List.range bs.length).map fun k => (off + k) / 8).eraseDups
    let s := words.foldl (fun s w =>
      let lo := max off (8 * w)
      let hi := min (off + bs.length) (8 * w + 8)
      checkWrite ⟨Fin.ofNat 16 (1 + off / 0x4000), t.val, w % 0x800⟩ (lo % 8) (hi - lo) s) s
    s.modTile t fun x => { x with buffer := x.buffer.putBytes off bs }

/-- The header of the circular buffer (R142): WRITE, and TOTAL and T0 of the words that go there. -/
def bufHeader (t : TileId) (total : Word) (t0 : BitVec 64) (s : State) : State :=
  let x := s.tiles[t]
  bufWrite t (0x4000 * x.bufReg) (u32 x.sar.writeIdx ++ u32 total ++ natLe 8 t0.toNat) s

/-- A word into the circular buffer; WRITE advances after it. -/
def bufPush (t : TileId) (w total : Word) (t0 : BitVec 64) (s : State) : State :=
  let x := s.tiles[t]
  let n := (x.bufBytes - 16) / 4
  let i := x.sar.writeIdx.toNat
  let s := bufWrite t (0x4000 * x.bufReg + 16 + 4 * i) (u32 w) s
  bufHeader t total t0 (s.modTile t fun x => { x with sar := { x.sar with writeIdx := BitVec.ofNat 32 ((i + 1) % n) } })

/-- Payload of a data record (R143). -/
def dataPayload (t : TileId) (r : OpenRec) : List Byte :=
  natLe 6 r.time.toNat ++ natLe 2 t.val ++ [if r.decimated then 1 else 0, 0] ++ natLe 2 r.words.length ++
    u32 r.total ++ r.words.flatMap u32

/-- Closes the open record and writes it to the tile's ring (R143). -/
def recClose (t : TileId) (s : State) : State :=
  match (s.tiles[t]).openRec with
  | none => s
  | some r =>
    let s := s.modTile t fun x => { x with openRec := none }
    (emitStaged (.tile t) 2 (dataPayload t r) s).2

/-- A word for the stream ring of the tile, `total` words after the start, of conversion time `at_`; with no ring bound it is
discarded with one NO_STREAM entry per start. -/
def recPush (t : TileId) (decimated : Bool) (w total : Word) (at_ : BitVec 64) (s : State) : State :=
  match s.ringOf (.tile t) with
  | none =>
    let x := s.tiles[t]
    if (if decimated then x.decim.noStream else x.sar.noStream) then s
    else
      let s := s.modTile t fun x =>
        if decimated then { x with decim := { x.decim with noStream := true } }
        else { x with sar := { x.sar with noStream := true } }
      log .info 0x21 (srcTile t) (arg t.val) (s.aon.sysNow.setWidth 32) ((s.aon.sysNow >>> 32).setWidth 32) s
  | some _ =>
    let s := match (s.tiles[t]).openRec with
      | some r => if r.decimated = decimated then s else recClose t s
      | none => s
    let opened := s.aon.fck
    let r : OpenRec := match (s.tiles[t]).openRec with
      | some r => { r with words := r.words ++ [w] }
      | none => { time := at_, openedAt := opened, decimated, total, words := [w] }
    let s := s.modTile t fun x => { x with openRec := some r }
    if 256 ≤ r.words.length then recClose t s else s

/-! ### Data links of placed chains (R211, R213) -/

/-- Data passes from a tile's stage to another's: no fence and no dust sheet lies between them (R239, R242). -/
def State.dataOpen (s : State) (t : TileId) (v : LinkView) : Bool :=
  !(s.tiles[t]).fenced &&
    (if v.dst.kind = kPort then !(s.tiles[t]).sheet
    else !(s.tiles[v.dstAt.tile]).fenced && (s.tiles[v.dstAt.tile]).sheet == (s.tiles[t]).sheet)

/-- Data links that leave a stage of `kind` placed on tile `t`: kind, tile and FIX of each destination stage. -/
def State.dataLinks (s : State) (t : TileId) (kind : Nat) : List (Nat × TileId × Nat) :=
  if s.tiles[t].placed then
    (s.links.filter fun v => v.link.ty == 2 && v.src.kind == kind && v.srcAt.tile == t && s.dataOpen t v).map fun v =>
      (v.dst.kind, v.dstAt.tile, v.dst.fix)
  else []

/-- A word for linked stages: an engine on another tile takes it into its ADC FIFO, a fabric slice onto its data input, a
select port among its frame words. -/
def linkWords (t : TileId) (kind : Nat) (w : Word) (s : State) : State :=
  (s.dataLinks t kind).foldl (fun s d =>
    if d.1 = kEngine ∧ d.2.1 ≠ t then fifoPush d.2.1 w s
    else if d.1 = kFabric then
      let v := if kind = kAdc then w &&& 0x3FFF#32 else w &&& 0xFFFFFF#32
      s.modTile d.2.1 fun x => { x with dataIn := v, pulses := x.pulses ||| 8#4 }
    else if d.1 = kPort then s.modPanel (Fin.ofNat 8 d.2.2) fun p => { p with portWords := p.portWords ++ [w] }
    else s) s

/-- A decimated word of tile `t` goes to DEC_DEST (R127, R146); TOTAL counts the words delivered since the start (R142). -/
def decEmit (t : TileId) (w : Word) (at_ : BitVec 64) (s : State) : State :=
  let x := s.tiles[t]
  let total := x.decim.total
  let s := s.modTile t fun x => { x with decim := { x.decim with total := total + 1 } }
  let s := match x.decDest with
    | 0 => bufPush t w (total + 1) x.decim.t0 s
    | 1 => recPush t true w total at_ s
    | _ => s
  let s := if x.decDest = 2 || x.adcFifoOn then fifoPush t w s else s
  linkWords t kDecim w s

/-- One input word, converted at SYSTIME `at_`, into the chain of tile `t`; every factor inputs give one output (R146, R147). -/
def decInput (t : TileId) (w : Word) (at_ : BitVec 64) (s : State) : State :=
  let x := s.tiles[t]
  let code := x.dec
  let (r, _, settle) := decShape code
  let n := decSupport code
  let v : Int := ((Word.field w 13 0 : Nat) - 8192 : Int) * 1024
  let d := x.decim
  let hist := (v :: d.hist).take n
  let fl := (w :: d.flagHist).take n
  let d' := { d with count := d.count + 1, hist, flagHist := fl, t0 := if d.count = 0 then at_ else d.t0 }
  if (d.count + 1) % r = 0 then
    let j := d.outs + 1
    let any := fun i => fl.any fun f => f.getLsbD i
    let y := clampInt24 (decValue code hist)
    let out : Word := Word.flag (any 20 || any 21 || any 22) 29 ||| Word.flag (any 17) 28 ||| Word.flag (any 16) 27 |||
      Word.flag d.mark 26 ||| Word.flag (any 18 || y.2) 25 ||| Word.flag (decide (j ≤ settle)) 24 |||
      (BitVec.ofInt 24 y.1).setWidth 32
    decEmit t out at_ (s.modTile t fun x => { x with decim := { d' with outs := j, mark := false } })
  else s.modTile t fun x => { x with decim := d' }
where
  /-- Saturation of RESULT. -/
  clampInt24 (x : Int) : Int × Bool :=
    if x < -8388608 then (-8388608, true) else if 8388607 < x then (8388607, true) else (x, false)

/-! ### Who feeds whom (R138, R147, R211) -/

/-- The tile whose settings govern a conversion of `t` (R138). -/
def State.sarOwner (s : State) (t : TileId) : TileId := if s.joinedOdd t then partner t else t

/-- Tiles whose chain takes the words of the SAR of `o`: its own under ROUTE 2, and those of linked DECIM stages. -/
def State.fed (s : State) (o : TileId) : List TileId :=
  (if (s.tiles[o]).adcRoute = 2 then [o] else []) ++
    (((s.dataLinks o kAdc).filter fun d => d.1 == kDecim && d.2.1 != o).map (·.2.1)).eraseDups

/-- The running SAR that feeds the chain of a tile. -/
def State.feeder (s : State) (t : TileId) : Option TileId :=
  if (s.tiles[t]).sar.en && (s.tiles[t]).adcRoute = 2 then some t
  else if (s.tiles[t]).placed then
    (s.links.find? fun v => v.link.ty == 2 && v.src.kind == kAdc && v.dst.kind == kDecim && v.dstAt.tile == t &&
      v.srcAt.tile != t && (s.tiles[v.srcAt.tile]).sar.en).map (·.srcAt.tile)
  else none

/-! ### Starts and stops (R132, R133, R142, R147) -/

/-- SYSTIME of an FCK count (R17, R142): 40 units every 3 cycles. -/
def State.timeOf (s : State) (f : Nat) : BitVec 64 :=
  if s.aon.fck ≤ f then s.aon.sysNow + BitVec.ofNat 64 (40 * (f - s.aon.fck) / 3)
  else s.aon.sysNow - BitVec.ofNat 64 (40 * (s.aon.fck - f) / 3)

/-- The next conversion of a SAR starts at an FCK count; with TRIG set it awaits its event (R132). -/
def sarSchedule (t : TileId) (at_ : Nat) (s : State) : State :=
  s.modTile t fun x => { x with sar :=
    { x.sar with nextAt := if x.adcTrigOn then none else some at_, oddNext := false } }

/-- A start or a sync of the chain of a tile: it is cleared, its record closes, the header of its buffer is reset (R142, R147,
R149). The first output after a sync carries SYNCMARK. -/
def chainStart (t : TileId) (mark : Bool) (at_ : BitVec 64) (s : State) : State :=
  let s := match (s.tiles[t]).openRec with
    | some r => if r.decimated then recClose t s else s
    | none => s
  let s := s.modTile t fun x => { x with decim := { mark, t0 := at_ } }
  if (s.tiles[t]).decDest = 0 then
    bufHeader t 0 at_ (s.modTile t fun x => { x with sar := { x.sar with writeIdx := 0 } })
  else s

/-- A start or a sync of a SAR whose first conversion is to start at an FCK count: the record closes, the counts restart, the
header is reset. -/
def sarRestart (t : TileId) (at_ : Nat) (s : State) : State :=
  let s := recClose t s
  let t0 := s.timeOf at_
  let s := s.modTile t fun x => { x with sar :=
    { x.sar with seq := 0, total := 0, t0, lastStart := none, missed := false, begun := false, finish := false,
                 noStream := false } }
  let s := sarSchedule t at_ s
  if (s.tiles[t]).adcRoute = 1 then
    bufHeader t 0 t0 (s.modTile t fun x => { x with sar := { x.sar with writeIdx := 0 } })
  else s

/-- The chains that a SAR feeds start with it. -/
def fedStart (t : TileId) (at_ : Nat) (s : State) : State :=
  (s.fed t).foldl (fun s u => chainStart u false (s.timeOf at_) s) s

/-- T_ADC.EN takes effect in a live panel: the first conversion starts `wait` FCK cycles later. While the fast clocks stand the
SAR waits for them (R132, R133). -/
def sarStart (t : TileId) (wait : Nat) (s : State) : State :=
  let s := s.modTile t fun x => { x with sar := { x.sar with en := true, paused := !s.fastOn } }
  if s.fastOn then
    let at_ := s.aon.fck + wait
    fedStart t at_ (sarRestart t at_ s)
  else s

/-- SYSTIME at which the next conversion of a SAR starts; the present where none is scheduled. -/
def State.nextTime (s : State) (t : TileId) : BitVec 64 := s.timeOf ((s.tiles[t]).sar.nextAt.getD s.aon.fck)

/-- A conversion has started and is not delivered yet. -/
def State.converting (s : State) (t : TileId) : Bool :=
  match (s.tiles[t]).sar.nextAt with
  | some a => decide (a ≤ s.aon.fck)
  | none => false

/-- The SAR converts no more; a conversion in progress is finished, and then the record closes (R129, R133). -/
def sarHalt (t : TileId) (s : State) : State :=
  if s.converting t then s.modTile t fun x => { x with sar := { x.sar with finish := true } }
  else recClose t (s.modTile t fun x => { x with sar := { x.sar with nextAt := none } })

/-- T_ADC.EN clears. -/
def sarStop (t : TileId) (s : State) : State :=
  sarHalt t (s.modTile t fun x => { x with sar := { x.sar with en := false, paused := false } })

/-- The panel leaves ARMED: the SAR and the biquad lose their supply (R267). -/
def sarCut (t : TileId) (s : State) : State :=
  let now := s.aon.fck
  (recClose t s).modTile t fun x => { x with
    sar := { x.sar with en := false, paused := false, finish := false, nextAt := none, oddNext := false }, bq := { at_ := now } }

/-- Fast clocks stop: a SAR with KEEP clear pauses (R133). -/
def sarPause (t : TileId) (s : State) : State :=
  if (s.tiles[t]).sar.en then sarHalt t (s.modTile t fun x => { x with sar := { x.sar with paused := true } }) else s
/-- Fast clocks start: a paused SAR starts again, its first conversion 8 QCK cycles later. -/
def sarResume (t : TileId) (s : State) : State :=
  if (s.tiles[t]).sar.en && (s.tiles[t]).sar.paused then sarStart t 32 s else s

/-- The pair's partner is gone: the SAR carries on alone from its next conversion (R140). -/
def sarSolo (t : TileId) (s : State) : State :=
  s.modTile t fun x => { x with sar := { x.sar with
    solo := true, oddNext := false,
    nextAt := if x.sar.oddNext then (if x.adcTrigOn then none else x.sar.lastStart.map (· + x.adcPeriod)) else x.sar.nextAt } }

/-! ### One conversion (R130 to R132, R139, R141) -/

/-- CODE and CLIP for a level at the SAR in pV: the skim set's offset in 1/16 LSB and gain in ppm correct it, in the direction
that Config.skimAdds says (R131, R346, log 18). -/
def State.adcCode (s : State) (t : TileId) (v : Int) : BitVec 14 × Bool :=
  let vref : Int := max 1 (s.vref (panelOf t)) * pv
  let off := s.skim0 0x01 0 t.val
  let gain := s.skim0 0x02 0 t.val
  let k : Int := if Config.skimAdds then 1 else -1
  let c : Int := (v * 16384 * 16 + k * off * vref) * (1000000 + k * gain) / (vref * 16000000)
  if c < 0 then (0, true) else if 16383 < c then (16383, true) else (BitVec.ofInt 14 c, false)

/-- A raw word reaches its destinations (R142 to R144). -/
def adcDeliver (t : TileId) (w : Word) (at_ : BitVec 64) (s : State) : State :=
  let x := s.tiles[t]
  let total := x.sar.total
  let kept := x.adcRoute = 1 || x.adcRoute = 3
  let s := s.modTile t fun x => { x with sar :=
    { x.sar with total := if kept then x.sar.total + 1 else x.sar.total, seq := x.sar.seq + 1 } }
  let s := match x.adcRoute with
    | 1 => bufPush t w (total + 1) x.sar.t0 s
    | 3 => recPush t false w total at_ s
    | _ => s
  let s := if x.adcFifoOn && x.adcRoute != 2 then fifoPush t w s else s
  let s := linkWords t kAdc w s
  (s.fed t).foldl (fun s u => decInput u w at_ s) s

/-- FCK count at which the conversion of `t` that is due has started: the SAR runs or finishes, in service, in its turn of a joined
pair. -/
def State.conversionAt (s : State) (t : TileId) : Option Nat :=
  let o := s.sarOwner t
  let x := s.tiles[o]
  let odd := s.joinedOdd t
  if (x.sar.finish || (s.fastOn && x.sar.en && !x.sar.paused)) && s.tileLive t && !(s.tiles[t]).fenced && !(s.tiles[t]).inReset &&
      (odd == x.sar.oddNext) then
    match x.sar.nextAt with
    | some a => if a ≤ s.aon.fck then some a else none
    | none => none
  else none

/-- The schedule after a conversion of `t` that started at an FCK count: the odd conversion of a joined pair 30 * (DIV + 1) cycles
after the even one, 8 QCK cycles before changeover, 25 ns with TRIG; else the next period, or the next event (R132, R139). -/
def sarNext (t : TileId) (at_ : Nat) (s : State) : State :=
  let o := s.sarOwner t
  let odd := s.joinedOdd t
  let skew := if s.prelock then 0 else s.skim0 0x09 0 o.val
  let gap := if s.prelock then 32 else 30
  let s := s.modTile o fun x =>
    let joined := x.ilv && o.val % 2 == 0 && !x.sar.solo
    let even := if odd then x.sar.lastStart.getD at_ else at_
    { x with sar := { x.sar with
      missed := false, begun := true, lastStart := some even, oddNext := joined && !odd,
      oddAt := if odd then (at_, skew) else x.sar.oddAt,
      nextAt :=
        if joined && !odd then some (at_ + if x.adcTrigOn || s.prelock then gap else gap * (x.adcDiv + 1))
        else if x.sar.finish || x.adcTrigOn then none else some (even + x.adcPeriod) } }
  if (s.tiles[o]).sar.finish && !(s.tiles[o]).sar.oddNext then
    recClose o (s.modTile o fun x => { x with sar := { x.sar with finish := false } })
  else s

/-- The sample word of a conversion that started at an FCK count (R141). -/
def State.sampleWord (s : State) (t : TileId) (at_ : Nat) (ext : Int) : Word :=
  let o := s.sarOwner t
  let x := s.tiles[o]
  let c := s.adcCode t (s.muxVolt t o ext)
  Word.put x.sar.seq.toNat 24 ||| Word.flag x.sar.solo 22 ||| Word.flag x.sar.missed 21 |||
    Word.flag (decide (at_ < x.sar.chgUntil)) 20 ||| Word.flag (s.joinedOdd t) 19 ||| Word.flag c.2 18 |||
    Word.flag (s.prelock || decide (at_ < s.clk.fckAt)) 17 ||| Word.flag (!(s.panels[panelOf t]).refOk) 16 |||
    c.1.setWidth 32

/-- ADC_CONVERSION: a conversion that has started completes, and its word goes to its destinations (R132, R139, R141). `v` is what
the source shows at the start of the conversion (log 19). While the SAR belongs to listening, no sample is delivered (R134). -/
def execAdcConversion (t : TileId) (v : Signal) (s : State) : Result :=
  .next (match s.conversionAt t with
    | none => s
    | some a =>
      if s.sarListens t then sarNext t a s
      else
        let o := s.sarOwner t
        let s := match muxNode (s.tiles[o]).mux with
          | some n => bqRun a n o v.past s
          | none => s
        let at_ := s.timeOf a
        let s := s.modTile o fun x => { x with sar := { x.sar with
          chgUntil := if x.sar.chgPend then a + 240 else x.sar.chgUntil, chgPend := false,
          t0 := if x.sar.begun then x.sar.t0 else at_ } }
        let w := s.sampleWord t a v.now
        sarNext t a (adcDeliver o w at_ s))

/-- STREAM_RECORD_CLOSE: a record of 256 words or 100 us closes (R143). -/
def execStreamRecordClose (t : TileId) (s : State) : Result :=
  .next (match (s.tiles[t]).openRec with
    | some r => if 256 ≤ r.words.length || r.openedAt + usFck 100 ≤ s.aon.fck then recClose t s else s
    | none => s)

/-! ### Sync groups (R148, R149) -/

/-- The tile's chain runs and belongs to a group of the mask. -/
def State.syncMember (s : State) (t : TileId) (groups : BitVec 16) : Bool :=
  let x := s.tiles[t]
  s.tileLive t && x.syncEn && groups.getLsbD x.syncGrp && match s.feeder t with
    | some o => !(s.tiles[o]).sar.paused
    | none => false

/-- A sync of the groups at one edge: the member SARs restart, and the member chains with them. -/
def syncGroups (groups : BitVec 16) (s : State) : State :=
  let members := allTiles.filter fun t => s.syncMember t groups
  let at_ := s.aon.fck + 8
  let s := ((members.filterMap s.feeder).eraseDups).foldl (fun s o => sarRestart o at_ s) s
  members.foldl (fun s t => chainStart t true (s.timeOf at_) s) s

end Sys2Proof.Machine
end

