-- ==== Sys2Proof/Machine/CalSet.lean ====
section
/-!
DEFINITION. Calibration entries (R346, R360): their checks, groups, panels and order, and the stored sets of R358.
-/
namespace Sys2Proof.Machine

open Sys2Proof

/-! ### The table of R346 -/

/-- What the unit of a code is. -/
inductive CalUnit where
  | tile | evenTile | nozzle | panel
  deriving DecidableEq, Repr

def calUnit (code : Nat) : CalUnit :=
  if code = 0x09 then .evenTile
  else if code = 0x18 then .panel
  else if code = 0x10 ∨ (0x13 ≤ code ∧ code ≤ 0x16) then .nozzle else .tile

/-- Codes of the table. -/
def calCode (code : Nat) : Bool := (1 ≤ code && code ≤ 0x0A) || (0x10 ≤ code && code ≤ 0x16) || code == 0x18
/-- Codes that the module measures. -/
def calMeasured (code : Nat) : Bool := calCode code && code != 0x10 && code != 0x11

/-- SUB values of a code; the head of a nozzle entry lies in [7:5]. -/
def calSubs (code : Nat) : List Nat :=
  match code with
  | 0x03 => (List.range 13) ++ (List.range 13).map (16 + ·)
  | 0x04 | 0x05 | 0x06 | 0x07 => [0, 1]
  | 0x08 => List.range 9
  | 0x10 | 0x13 | 0x14 | 0x15 | 0x16 => (List.range 8).map (32 * ·)
  | _ => [0]

/-- The plausible range. -/
def calRange (code sub : Nat) : Int × Int :=
  match code with
  | 0x01 => (-1024, 1024) | 0x02 => (-20000, 20000) | 0x03 => (-30000, 30000)
  | 0x04 => if sub = 0 then (-500, 500) else (-300, 300)
  | 0x05 => (-20000, 20000) | 0x06 => (-200, 200) | 0x07 => (-20000, 20000)
  | 0x08 => if sub = 8 then (-2000, 2000) else (-60, 60)
  | 0x09 => (-128, 128) | 0x0A => (-100, 100) | 0x10 => (-2048, 2047) | 0x11 => (24576, 40960)
  | 0x12 => (10, 50000) | 0x13 => (1, 5000) | 0x14 => (500, 50000) | 0x15 => (50, 60000) | 0x16 => (5, 3000)
  | _ => (26, 179)

def CalEntry.plausible (e : CalEntry) : Bool :=
  let r := calRange e.code e.sub
  decide (r.1 ≤ e.value ∧ e.value ≤ r.2)

/-- N of a head; none where it is not defined. -/
def State.headN (s : State) (h : Nat) : Option Nat :=
  if hh : h < 8 then (s.heads[h].hdef).map HeadDef.n else none

/-- The unit is in range (R360): a nozzle of a live set lies below the N of its defined head. -/
def State.calUnitOk (s : State) (stored : Bool) (e : CalEntry) : Bool :=
  match calUnit e.code with
  | .tile => e.unit < 512
  | .evenTile => e.unit < 512 && e.unit % 2 == 0
  | .panel => e.unit < 8
  | .nozzle => if stored then e.unit < 8192 else match s.headN (e.sub / 32) with
    | some n => e.unit < n
    | none => false

/-- WRITE_CAL_SET accepts the entry (R360). -/
def State.calEntryOk (s : State) (stored : Bool) (e : CalEntry) : Bool :=
  calCode e.code && (calSubs e.code).contains e.sub && s.calUnitOk stored e && e.plausible

/-- Same entry: code, SUB and unit. -/
def CalEntry.same (a b : CalEntry) : Bool := a.code == b.code && a.sub == b.sub && a.unit == b.unit

/-- The tile whose keep region holds the entry (R346); none for a panel entry or a nozzle that does not exist. -/
def State.entryTile (s : State) (e : CalEntry) : Option TileId :=
  match calUnit e.code with
  | .panel => none
  | .nozzle => if h : e.sub / 32 < 8 then match s.heads[e.sub / 32].hdef with
      | some d => (d.nozzles[e.unit]?).map (·.tile)
      | none => none
    else none
  | _ => if h : e.unit < 512 then some ⟨e.unit, h⟩ else none

/-- The panel of the entry. -/
def State.entryPanel (s : State) (e : CalEntry) : Option PanelId :=
  match calUnit e.code with
  | .panel => if h : e.unit < 8 then some ⟨e.unit, h⟩ else none
  | _ => (s.entryTile e).map panelOf

/-! ### Merging, in order of code, SUB and unit (R355, R358) -/

def CalEntry.before (a b : CalEntry) : Bool :=
  a.code < b.code || (a.code == b.code && (a.sub < b.sub || (a.sub == b.sub && a.unit < b.unit)))

/-- Puts an entry into an ordered set, replacing the same entry. -/
def calPut (e : CalEntry) : List CalEntry → List CalEntry
  | [] => [e]
  | x :: xs => if e.same x then e :: xs else if e.before x then e :: x :: xs else x :: calPut e xs

def calMerge (new old : List CalEntry) : List CalEntry := new.foldl (fun l e => calPut e l) old

/-! ### Bytes (R360) -/

def intLe (n : Nat) (v : Int) : List Byte := natLe n (BitVec.ofInt (8 * n) v).toNat
def CalEntry.bytes (e : CalEntry) : List Byte :=
  natLe 1 e.code ++ natLe 1 e.sub ++ natLe 2 e.unit ++ intLe 4 e.value

/-- The entry in 8 bytes. -/
def calEntryOf (bs : List Byte) : CalEntry :=
  { code := le bs 0 1, sub := le bs 1 1, unit := le bs 2 2, value := leInt bs 4 4 }

/-- `n` entries from a byte string. -/
def calEntries : Nat → List Byte → List CalEntry
  | 0, _ => []
  | n + 1, bs => calEntryOf bs :: calEntries n (bs.drop 8)

/-! ### Stored sets (R358) -/

def calSetBase (i : Nat) : Nat := 0x03800000 + 0xC0000 * i
def calMagic : Nat := 0x43414C53

/-- A stored set: present where its header and CRC hold. -/
def storedSet (m : Memory) (i : Nat) : Option (List CalEntry) :=
  let a := calSetBase i
  let h := m.bytes a 16
  let n := le h 8 4
  if le h 0 4 = calMagic ∧ le h 4 1 = i ∧ 64 + 8 * n ≤ 0xC0000 then
    let bs := m.bytes (a + 64) (8 * n)
    if (crc32c bs).toNat = le h 12 4 then some (calEntries n bs) else none
  else none

/-- Writes a stored set. -/
def putStoredSet (i : Nat) (l : List CalEntry) (m : Memory) : Memory :=
  let bs := l.flatMap CalEntry.bytes
  let h := natLe 4 calMagic ++ natLe 1 i ++ [0, 0, 0] ++ natLe 4 l.length ++ u32 (crc32c bs)
  (m.clear (calSetBase i) 0xC0000).putBytes (calSetBase i) (h ++ List.replicate 48 0 ++ bs)

/-- Temperature of set `i` in 0.1 degC (R358). -/
def calPoint (i : Nat) : Int := 100 + 200 * (i : Int)

end Sys2Proof.Machine
end

