-- ==== Sys2Proof/Machine/Operands.lean ====
section
/-!
DEFINITION. The operand forms of descriptors (R278), the header and reserved-byte check of R283 step 2 with the offset of
the first offending byte (R6, R281), and the status codes (R282).
-/
namespace Sys2Proof

/-! ### Header flags and command fields (R278) -/

def Desc.ci (d : Desc) : Bool := d.flags.getLsbD 0
def Desc.fence (d : Desc) : Bool := d.flags.getLsbD 1
def Desc.bound (d : Desc) : Bool := d.flags.getLsbD 2

/-- The unsigned field of `n` bytes at descriptor offset `off`, 24 to 63. -/
def Desc.u (d : Desc) (off n : Nat) : Nat := (d.body.extractLsb' (8 * (off - 24)) (8 * n)).toNat

/-- The signed field of `n` bytes at descriptor offset `off`. -/
def Desc.i (d : Desc) (off n : Nat) : Int := (d.body.extractLsb' (8 * (off - 24)) (8 * n)).toInt

/-- `n` bytes from descriptor offset `off`. -/
def Desc.bytes (d : Desc) (off n : Nat) : List Byte :=
  (List.range n).map fun k => d.body.extractLsb' (8 * (off + k - 24)) 8

def Desc.len (d : Desc) : Nat := d.length.toNat

/-- The descriptor as it lies in host memory: how its transfers will go is not part of it. -/
def Desc.bare (d : Desc) : Desc := { d with rd := .clean, wr := .clean, cw := .clean }

namespace Machine

/-! ### The check of R283 step 2 -/

/-- Offset of the first byte that is not 0, the bytes lying from `off` upward. -/
def firstNonzero (off : Nat) : List Byte → Option Nat
  | [] => none
  | b :: bs => if b = 0 then firstNonzero (off + 1) bs else some off

/-- Bytes of a word with the low `w` bits left out: what a target of `w` defined bits must have zero. -/
def targetRest (t : Word) (w : Nat) : List Byte := natLe 4 ((t.toNat / 2 ^ w) * 2 ^ w)

/-- How a command uses header bytes 8 to 19. -/
inductive BufUse where
  /-- No buffer: bytes 8 to 19 name nothing, and R278 alone binds them. -/
  | none
  /-- A buffer under R278. -/
  | buffer
  /-- Bytes 8 to 19 must be 0 (OPEN_STREAM of MODE 1). -/
  | zero
  /-- A buffer under R278 whose LENGTH must be 0 (CALIBRATE with CALFIT 0). -/
  | empty
  deriving DecidableEq, Repr

/-- How a command uses header bytes 20 to 23. -/
inductive CoatUse where
  /-- BOUND refused: bytes 20 to 23 are 0. -/
  | unbound
  /-- BOUND accepted. -/
  | bindable
  /-- COMMIT_COAT: bytes 20 and 21 name a coat without BOUND. -/
  | commit
  deriving DecidableEq, Repr

def flagsFault (d : Desc) (c : CoatUse) : Option Nat :=
  if d.flags &&& 0xF8#8 ≠ 0 ∨ (d.bound ∧ c ≠ .bindable) then some 1 else none

/-- R278: BUFFER is a multiple of 4, and 0 when LENGTH is 0; R290: bytes that must be 0. -/
def bufferFault (d : Desc) : BufUse → Option Nat
  | .zero => firstNonzero 8 (natLe 8 d.buffer.toNat ++ natLe 4 d.len)
  | .none | .buffer =>
    if d.length = 0 then firstNonzero 8 (natLe 8 d.buffer.toNat)
    else if d.buffer.toNat % 4 = 0 then none else some 8
  | .empty =>
    if d.length = 0 then firstNonzero 8 (natLe 8 d.buffer.toNat)
    else if d.buffer.toNat % 4 = 0 then firstNonzero 16 (natLe 4 d.len) else some 8

def coatFault (d : Desc) (c : CoatUse) : Option Nat :=
  if c = .commit ∨ (c = .bindable ∧ d.bound) then firstNonzero 22 (natLe 2 (d.coat.toNat / 65536))
  else firstNonzero 20 (natLe 4 d.coat.toNat)

/-- Reserved byte ranges (offset, length) of the command, rising. -/
def reservedFault (d : Desc) (rs : List (Nat × Nat)) : Option Nat :=
  rs.findSome? fun r => firstNonzero r.1 (d.bytes r.1 r.2)

/-- R283 step 2: the offset of the first offending byte of the header and the reserved bytes, if any. -/
def headerFault (d : Desc) (target : Nat) (b : BufUse) (c : CoatUse) (rs : List (Nat × Nat)) : Option Nat :=
  (flagsFault d c).or ((firstNonzero 4 (targetRest d.target target)).or
    ((bufferFault d b).or ((coatFault d c).or (reservedFault d rs))))

/-! ### Status codes (R282) -/

inductive Status where
  | ok | okTransient | badOpcode | badField | lifecycle | state | noResource | budget | integrity | lasting | aborted
  | power | busy
  deriving DecidableEq, Repr

def Status.code : Status → Nat
  | .ok => 0x0000 | .okTransient => 0x0001 | .badOpcode => 0x0100 | .badField => 0x0101 | .lifecycle => 0x0102
  | .state => 0x0103 | .noResource => 0x0200 | .budget => 0x0201 | .integrity => 0x0300 | .lasting => 0x0301
  | .aborted => 0x0400 | .power => 0x0500 | .busy => 0x0600

/-- OK, or OK_TRANSIENT where some attempt succeeded only the second time (R280). -/
def okOf (l : List Attempt) : Status := if l.contains .second then .okTransient else .ok

/-! ### The opcode index (R305) and the commands of STANDBY (R270) -/

def opcodes : List Byte :=
  [0x01, 0x02, 0x03, 0x04, 0x10, 0x11, 0x12, 0x13, 0x20, 0x21, 0x22, 0x23, 0x24, 0x25, 0x26, 0x27, 0x28, 0x30, 0x31,
   0x32, 0x33, 0x40, 0x41, 0x42, 0x43, 0x44, 0x45, 0x46, 0x47, 0x48, 0x49, 0x50, 0x51, 0x52, 0x53, 0x60, 0x61, 0x62,
   0x63, 0x70, 0x71, 0x72, 0x80, 0x81, 0x82, 0x83, 0x84, 0x85, 0x90, 0x91]

/-- Opcodes that STANDBY executes (R270): power, status, store, ledger, date slot, job, glyph, counter, ring and tally
commands, and LOAD_IMAGE to the store (DEST 1, byte 24). -/
def standbyOk (op : Byte) (d : Desc) : Bool :=
  ([0x01, 0x02, 0x03, 0x04, 0x12, 0x13, 0x42, 0x43, 0x44, 0x45, 0x46, 0x47, 0x48, 0x70, 0x71, 0x82, 0x90, 0x91] :
    List Byte).contains op || (op == 0x10 && d.u 24 1 == 1)

end Machine
end Sys2Proof
end

