-- ==== Sys2Proof/Machine/Command.lean ====
section
/-!
DEFINITION. Running a descriptor: its start, the checks every command shares (R283), host buffers (R280) and the
completion (R281, R288, R289).
-/
namespace Sys2Proof.Machine

open Sys2Proof

/-- Ring entries of a queue pair (R284): 16 * 2^SIZE, 13 to 15 acting as 12. -/
def Cq.slots (q : Cq) : Nat := 16 * 2 ^ min q.size.toNat 12

/-- Completions written and not yet consumed (R286). -/
def Cq.unconsumed (q : Cq) : Nat := (q.cpw.toNat + q.slots - q.cpHead.toNat) % q.slots

/-- Descriptors in progress (R284 BUSY, R286). -/
def Cq.inProgress (q : Cq) : Nat := q.fetched.length + q.waiting.length

/-- How a host-memory transfer goes: both attempts fail while the link is down (R280). -/
def State.transfer (s : State) (a : Attempt) : Attempt := if s.linkUp then a else .failed

/-- The failure code of R324 for a read: 1 to 4, free (log 11). -/
def readFailure (s : State) : Word × State :=
  let (w, s) := s.drawWord
  (arg (w.toNat % 4 + 1), s)

/-- A HOST_DMA entry (R321, R324). -/
def hostDmaRead (cls : LClass) (queue : Nat) (op : Byte) (s : State) : State :=
  let (c, s) := readFailure s
  log cls 0x0B (unitSrc 6 queue) (arg queue) (op.setWidth 32) c s
def hostDmaWrite (cls : LClass) (queue : Nat) (op : Byte) (s : State) : State :=
  log cls 0x0B (unitSrc 6 queue) (arg queue) (op.setWidth 32) 5 s

/-! ### Completions -/

/-- The 16 bytes of a completion (R281). -/
def completionBytes (tag : BitVec 16) (st : Status) (detail : Nat) (phase : Bool) (result : Nat) : List Byte :=
  natLe 2 tag.toNat ++ natLe 2 st.code ++ natLe 4 (detail % 2 ^ 31 + if phase then 2 ^ 31 else 0) ++ natLe 8 result

/-- Slot CPW is taken and CPW advances; the phase turns at the end of the ring (R288). -/
def Cq.takeSlot (q : Cq) : Cq :=
  let last := q.cpw.toNat + 1 == q.slots
  { q with cpw := if last then 0 else q.cpw + 1, phase := if last then !q.phase else q.phase }

/-- The descriptor leaves its queue's list of descriptors in progress, and its fence falls (R287). -/
def Cq.done (q : Cq) (d : Desc) : Cq :=
  { q with waiting := q.waiting.erase d, fence := if q.fence = some d then none else q.fence }

/-- Posts a descriptor's completion (R281, R288): the write, one retry, and what R289 says of a lost completion. The
completion of a command that PERST found in progress is discarded. -/
def finish (op : Byte) (d : Desc) (st : Status) (detail result : Nat) (s : State) : State :=
  let q := s.cqs[d.queue]
  let s := s.modCq d.queue fun q => q.done d
  if !q.waiting.contains d then s
  else
    let s' := s.modCq d.queue Cq.takeSlot
    let written := s'.hostWrite (q.cpBase.toNat + 16 * q.cpw.toNat) (completionBytes d.tag st detail q.phase result)
    let irq := fun s : State => if d.ci then raiseMsix q.vector s else s
    match s.transfer d.cw with
    | .clean => irq written
    | .second => irq (hostDmaWrite .transient d.queue.val op written)
    | .failed =>
      let s' := hostDmaWrite .lasting d.queue.val op s'
      raiseEvent .queueError (arg d.queue.val) (s'.modCq d.queue fun q => { q with err := 2 })

/-- Completes with a status and nothing else. -/
def refuse (op : Byte) (d : Desc) (st : Status) (s : State) : State := finish op d st 0 0 s
/-- Completes with BAD_FIELD and the offset of the first offending byte, 0xFF for the buffer (R281). -/
def badField (op : Byte) (d : Desc) (off : Nat) (s : State) : State := finish op d .badField off 0 s
def inBuffer : Nat := 0xFF
/-- Completes with OK. -/
def okay (op : Byte) (d : Desc) (result : Nat) (s : State) : State := finish op d .ok 0 result s
/-- OK after a buffer read that may have needed its second attempt (R280). -/
def okayRead (op : Byte) (d : Desc) (result : Nat) (s : State) : State := finish op d (okOf [d.rd]) 0 result s

/-! ### Buffers (R280) -/

/-- Reads the command's buffer and goes on with its bytes, or completes with INTEGRITY. -/
def withBuffer (op : Byte) (d : Desc) (k : List Byte → State → State) (s : State) : State :=
  let bs := s.hostMem.bytes d.buffer.toNat d.len
  match s.transfer d.rd with
  | .clean => k bs s
  | .second => k bs (hostDmaRead .transient d.queue.val op s)
  | .failed => refuse op d .integrity (hostDmaRead .lasting d.queue.val op s)

/-- Writes the output to the buffer and completes, after attempts `l` of the command's own (R280). -/
def writeOut (op : Byte) (d : Desc) (l : List Attempt) (bs : List Byte) (result : Nat) (s : State) : State :=
  match s.transfer d.wr with
  | .clean => finish op d (okOf l) 0 result (s.hostWrite d.buffer.toNat bs)
  | .second => finish op d .okTransient 0 result
      (hostDmaWrite .transient d.queue.val op (s.hostWrite d.buffer.toNat bs))
  | .failed => refuse op d .integrity (hostDmaWrite .lasting d.queue.val op s)

/-! ### The checks of R283 -/

/-- A descriptor of the queue starts execution (R287). -/
def Cq.start (q : Cq) (op : Byte) (d : Desc) : Cq :=
  { q with fetched := q.fetched.erase ⟨op, d.bare⟩, waiting := q.waiting ++ [d],
           fence := if d.fence then some d else q.fence }

/-- A fetched descriptor starts when it is the oldest of its queue that has not started (R287). -/
def Cq.isNext (q : Cq) (d : Desc) : Bool :=
  match q.fetched with
  | [] => true
  | f :: fs => f.desc == d.bare || fs.all fun g => g.desc != d.bare

/-- The ring engine runs the descriptor now: the service domain is up, no fence holds the queue, and no earlier descriptor of the
queue waits to start (R266, R287). -/
def State.runs (s : State) (d : Desc) : Bool :=
  s.serving && (s.cqs[d.queue]).fence.isNone && (s.cqs[d.queue]).isNext d

/-- R283: header fault, lifecycle, module state, then the command's own checks and effect. A descriptor behind a fence, or
met while the service domain is down, waits: nothing changes (log 12). -/
def runDesc (op : Byte) (d : Desc) (fault : Option Nat) (permitted : Bool) (body : State → State) (s : State) : Result :=
  .next <|
    if s.runs d then
      let s := s.modCq d.queue fun q => q.start op d
      match fault with
      | some off => badField op d off s
      | none =>
        if !permitted then refuse op d .lifecycle s
        else if s.pwr.mode == .standby && !standbyOk op d then refuse op d .state s
        else body s
    else s

end Sys2Proof.Machine
end

