-- ==== Sys2Proof/Machine/Comparators.lean ====
section
/-!
DEFINITION. The comparators (R152 to R167): level, filters, events and routes, STUCK, wake and power-up.
-/
namespace Sys2Proof.Machine

open Sys2Proof

/-! ### Levels (R154, R156) -/

/-- CMPA's INSIDE of window mode (R156). -/
def Tile.inside (x : Tile) : Bool :=
  x.cmpB.raw && !x.cmpA.raw && decide (x.cmpB.thr < x.cmpA.thr)

/-- Output before POL, and whether it is unresolved. -/
def Tile.cmpRaw (x : Tile) : Cmp → Bool × Bool
  | .a => if x.cmpA.win then (x.inside, x.cmpA.unres || x.cmpB.unres) else (x.cmpA.raw, x.cmpA.unres)
  | .b => (x.cmpB.raw, x.cmpB.unres)

/-- LVL (R154, R155): 0 while not powered, in a panel that is not live, or unresolved. -/
def State.cmpLvl (s : State) (t : TileId) (c : Cmp) : Bool :=
  let x := s.tiles[t]
  let r := x.cmpRaw c
  (x.cmp c).powered && s.tileLive t && !r.2 && (r.1 != (x.cmp c).pol)

/-- The filter profile of a comparator (R165). -/
def State.cmpProfile (s : State) (t : TileId) (c : Cmp) : Word :=
  (s.panels[panelOf t]).cmpFilt[(if ((s.tiles[t]).cmp c).prof then 1 else 0 : Fin 2)]

/-- TRIGGER code of a comparator (R30). -/
def cmpCode (t : TileId) (c : Cmp) : BitVec 16 := BitVec.ofNat 16 ((1 + cmpNum c) * 0x4000 + t.val)

/-- An edge to `lvl` is of the kind EDGE chooses (R152). -/
def Comparator.edgeHits (c : Comparator) (lvl : Bool) : Bool :=
  match c.edge with
  | 0 => lvl
  | 1 => !lvl
  | _ => true

/-! ### Events (R161, R163) -/

/-- A latch of CMPA of a search's detector tile in the window of a charged test drop is a hit (R123). -/
def phaseHit (t : TileId) (s : State) : State :=
  allHeads.foldl (fun s h => match (s.heads[h]).search with
    | some y => match y.charged with
      | some c =>
        if y.detectTile = t ∧ c + usFck y.flight ≤ s.aon.fck ∧ s.aon.fck ≤ c + usFck (y.flight + y.span) then
          s.modHead h fun x => { x with search := some { y with hit := true } }
        else s
      | none => s
    | none => s) s

/-- An event: LAT, the rate limit, and every enabled route. -/
def cmpEvent (t : TileId) (c : Cmp) (s : State) : State :=
  if s.panelCfgFails (panelOf t) then s else
  let gap := profGap (s.cmpProfile t c)
  let was := (s.tiles[t]).cmpSum c
  let now := s.aon.fck
  let s := s.modCmp t c fun x =>
    { x with lat := true, evAt := some now, gapUntil := if gap = 0 then none else some (now + 64 * gap) }
  let s := if c = .a then phaseHit t s else s
  let s := if ((s.tiles[t]).cmp c).cap then capture t (BitVec.ofNat 3 (cmpNum c)) s else s
  cmpSummary t c was (setEvm t (3 + cmpNum c) s)

/-- The routed signal follows a change of the comparator. -/
def cmpRoute (t : TileId) (c : Cmp) (was : Bool) (s : State) : State :=
  let now := ((s.tiles[t]).cmp c).routed
  if was != now then launch (cmpLaunch t c now) s else s

/-- The comparator gives no events: STUCK, a failing word of its panel's configuration, or a tile in reset (R167, R238, R242, R309). -/
def State.cmpMute (s : State) (t : TileId) (c : Cmp) : Bool :=
  ((s.tiles[t]).cmp c).stuck || s.panelCfgFails (panelOf t) || (s.tiles[t]).fenced || (s.tiles[t]).inReset

/-- The filtered level takes `lvl`; an edge of the chosen kind is an event (R161). -/
def cmpTake (t : TileId) (c : Cmp) (lvl : Bool) (s : State) : State :=
  let x := (s.tiles[t]).cmp c
  if x.filt = lvl then s
  else
    let s' := s.modCmp t c fun x => { x with filt := lvl }
    let s' := if s.cmpMute t c then s' else noteEdge (cmpCode t c) lvl s.aonTime s.counts s'
    cmpRoute t c x.routed (if x.edgeHits lvl && !s.cmpMute t c then cmpEvent t c s' else s')

/-- A change that has passed MINW: held and counted during MIN_GAP (R166), else taken. -/
def cmpAccept (t : TileId) (c : Cmp) (lvl : Bool) (s : State) : State :=
  let s := s.modCmp t c fun x => { x with acc := lvl, cand := none, woke := false }
  match ((s.tiles[t]).cmp c).gapUntil with
  | some g =>
    if s.aon.fck < g then
      if ((s.tiles[t]).cmp c).edgeHits lvl then
        s.modPanel (panelOf t) fun p => { p with overrun := p.overrun + 1 }
      else s
    else cmpTake t c lvl (s.modCmp t c fun x => { x with gapUntil := none })
  | none => cmpTake t c lvl s

/-- A comparator edge in an ARMED module whose fast clocks are stopped (R164). -/
def cmpWake (t : TileId) (c : Cmp) (s : State) : State :=
  let x := (s.tiles[t]).cmp c
  if s.fastOn then s
  else if s.triggered (cmpCode t c) x.lvl then (wake 1 s).modCmp t c fun x => { x with woke := true }
  else if x.edgeHits x.lvl && x.wakeEn && !x.stuck then (wake 2 s).modCmp t c fun x => { x with woke := true }
  else s

/-- The changed level enters the width filter, which compares it with the level accepted last (R165). -/
def cmpFilter (t : TileId) (c : Cmp) (s : State) : State :=
  let x := (s.tiles[t]).cmp c
  let minw := s.minwFck (s.cmpProfile t c)
  if x.lvl = x.acc then
    let s' := s.modCmp t c fun x => { x with cand := none, woke := false }
    if x.woke then s'.modPanel (panelOf t) fun p => { p with falseWake := p.falseWake + 1 } else s'
  else if s.fastOn && minw = 0 then cmpAccept t c x.lvl s
  else
    let due := s.aon.fck + minw
    cmpWake t c (s.modCmp t c fun x => { x with cand := some (x.lvl, due) })

/-- Fast clocks start: the width filter runs from QCK (R164). -/
def cmpRefilter (t : TileId) (c : Cmp) (s : State) : State :=
  let due := s.aon.fck + s.minwFck (s.cmpProfile t c)
  s.modCmp t c fun x => { x with cand := x.cand.map fun k => (k.1, due) }

/-- A first STUCK ends when LVL returns to 0: events resume from that level (R167). -/
def Comparator.resumed (now : Nat) (c : Comparator) : Comparator :=
  if c.stuckPhase = .first then { c with stuck := false, stuckPhase := .watched now, filt := false, acc := false, cand := none } else c

/-- LVL is recomputed; a change starts or ends the active time, ends a first STUCK (R167), and goes to the filter. -/
def cmpLevel (t : TileId) (c : Cmp) (s : State) : State :=
  let lvl := s.cmpLvl t c
  let x := (s.tiles[t]).cmp c
  if x.lvl = lvl then s
  else
    let now := s.aon.ticks
    let was := x.routed
    let s := s.modCmp t c fun x =>
      let x := { x with lvl, activeSince := if lvl then some now else none }
      if lvl then x else x.resumed now
    cmpFilter t c (cmpRoute t c was s)

/-- Both comparators of a tile: in window mode CMPB's change moves CMPA's INSIDE. -/
def cmpLevels (t : TileId) (s : State) : State := cmpLevel t .b (cmpLevel t .a s)

/-! ### The input (R153 to R156, R159, R160) -/

/-- The comparator's raw output for a side of its band: inside, it stays as it is (R154). -/
def Comparator.input (c : Comparator) (side : Option Bool) : Comparator :=
  match side with
  | none => { c with unres := c.unres && c.hystPv != 0 }
  | some b => { c with raw := b, unres := false }

/-- The comparator looks at its input again; in current-mode pulse the chosen comparator's trip switches the trowel off (R92,
R160). A comparator whose input has not been given keeps its output (log 19). -/
def cmpLook (t : TileId) (c : Cmp) (s : State) : State :=
  let x := (s.tiles[t]).cmp c
  match x.seen with
  | some ext =>
    if x.powered then
      let side := s.cmpSide t c ext
      let s := s.modCmp t c fun x => x.input side
      if side = some true ∧ s.currentCmp t c then s.modTrowel t fun w => { w with chopOn := false } else s
    else s
  | none => s.modCmp t c fun x => x.input none

/-- A comparator that was unresolved and now is 0 takes its level without an event (R155). -/
def cmpSilent (t : TileId) (c : Cmp) (was : Bool) (s : State) : State :=
  let r := (s.tiles[t]).cmpRaw c
  if was && !r.2 && !r.1 then
    let lvl := s.cmpLvl t c
    let now := s.aon.ticks
    let routed := ((s.tiles[t]).cmp c).routed
    cmpRoute t c routed (s.modCmp t c fun x =>
      { x with lvl, filt := lvl, acc := lvl, cand := none, activeSince := if lvl then some now else none })
  else s

/-- Both comparators of a tile look at their inputs and their levels follow. -/
def cmpLooks (t : TileId) (s : State) : State :=
  let x := s.tiles[t]
  let s := cmpLook t .b (cmpLook t .a s)
  cmpLevels t (cmpSilent t .b (x.cmpRaw .b).2 (cmpSilent t .a (x.cmpRaw .a).2 s))

/-! ### Power-up (R155) -/

/-- The comparator powers up: EN in a live panel whose reference has settled since the panel was armed. The side of an input that has
not been given is free (log 10). -/
def cmpPowerUp (t : TileId) (c : Cmp) (s : State) : State :=
  let x := (s.tiles[t]).cmp c
  if x.en && !x.powered && s.tileLive t && (s.panels[panelOf t]).refSeen then
    let (band, s) := s.drawBit
    let (above, s) := s.drawBit
    let side := match x.seen with
      | some ext => s.cmpSide t c ext
      | none => if band then none else some above
    let unres := side == none && x.hystPv != 0
    let s := s.modCmp t c fun x =>
      { x with powered := true, unres, raw := side == some true, rampAt := none, cand := none }
    let lvl := s.cmpLvl t c
    let was := ((s.tiles[t]).cmp c).routed
    let now := s.aon.ticks
    cmpRoute t c was (s.modCmp t c fun x =>
      { x with lvl, filt := lvl, acc := lvl, activeSince := if lvl then some now else none })
  else s

/-- The comparator loses power: LVL 0 and no events (R154). -/
def cmpPowerDown (t : TileId) (c : Cmp) (s : State) : State :=
  let was := ((s.tiles[t]).cmp c).routed
  cmpRoute t c was (s.modCmp t c fun x =>
    { x with powered := false, raw := false, unres := false, lvl := false, filt := false, acc := false, cand := none,
             activeSince := none })

/-- The comparators of a panel after its reference settles or its state changes. -/
def cmpPanelUp (p : PanelId) (s : State) : State :=
  (tilesOf p).foldl (fun s t => cmpPowerUp t .b (cmpPowerUp t .a s)) s

/-! ### Rows -/

/-- COMPARATOR_EDGE: `v` is what the source of the comparator's path shows (log 19); in window mode both comparators of the tile see it (R156). The output, its filters and its routes
follow from the threshold and the hysteresis. A module without power looks at nothing. -/
def execComparatorEdge (t : TileId) (c : Cmp) (v : Signal) (s : State) : Result :=
  .next (if !s.aon.up then s
    else
    let win := (s.tiles[t]).cmpA.win
    let s := if s.fastOn then bqRun s.aon.fck (s.cmpPoint t c) t v.past s else s
    let s := s.modCmp t c fun x => { x with seen := some v.now }
    let s := if win then s.modCmp t (if c = .a then .b else .a) fun x => { x with seen := some v.now } else s
    cmpLooks t s)

/-- COMPARATOR_MINW_ACCEPT: the waiting change has held for MINW with clocks running (R165). -/
def execComparatorMinwAccept (t : TileId) (c : Cmp) (s : State) : Result :=
  .next (match ((s.tiles[t]).cmp c).cand with
    | some (lvl, due) => if s.fastOn && decide (due ≤ s.aon.fck) then cmpAccept t c lvl s else s
    | none => s)

/-- COMPARATOR_MIN_GAP_END: the routed signal takes the level that the width filter has accepted; a difference is an event (R166). -/
def execComparatorMinGapEnd (t : TileId) (c : Cmp) (s : State) : Result :=
  .next (
    let x := (s.tiles[t]).cmp c
    match x.gapUntil with
    | some g =>
      if g ≤ s.aon.fck && s.fastOn then
        let s := s.modCmp t c fun x => { x with gapUntil := none }
        if x.filt = x.acc then s
        else
          let s' := s.modCmp t c fun x => { x with filt := x.acc }
          cmpRoute t c x.routed (if s.cmpMute t c then s'
            else cmpEvent t c (noteEdge (cmpCode t c) x.acc s.aonTime s.counts s'))
      else s
    | none => s)

/-- A STUCK ledger entry of a comparator (R324). -/
def logStuckCmp (cls : LClass) (t : TileId) (c : Cmp) (s : State) : State :=
  log cls 0x23 (srcTile t) (arg t.val) (arg (cmpNum c)) 0 s

/-- COMPARATOR_MAXACT_EXPIRY: LVL has stayed 1 for longer than MAXACT (R167). -/
def execComparatorMaxactExpiry (t : TileId) (c : Cmp) (s : State) : Result :=
  .next (
    let x := (s.tiles[t]).cmp c
    let m := profMax (s.cmpProfile t c)
    match x.activeSince with
    | some a =>
      if m ≠ 0 && x.lvl && !x.stuck && decide (a + 16 * m < s.aon.ticks) then
        let again := match x.stuckPhase with
          | .watched since => decide (s.aon.ticks < since + 1024)
          | _ => false
        let s' := s.modCmp t c fun x =>
          { x with stuck := true, stuckPhase := if again then .lasting else .first,
                   cfg := x.cfg &&& 0xFFFFFFEF#32 }
        let s' := cmpRoute t c x.routed s'
        if again then (logStuckCmp .lasting t c s').modTile t fun x => { x with degraded := true } else s'
      else s
    | none => s)

end Sys2Proof.Machine
end

