-- ==== Sys2Proof/Machine/Flags.lean ====
section
/-!
DEFINITION. Flag computations of the tile engine (R184 to R186).
-/
namespace Sys2Proof.Machine

open Sys2Proof

/-- Z, N, C and V as one instruction leaves them. -/
structure Flags where
  z : Bool
  n : Bool
  c : Bool
  v : Bool
  deriving DecidableEq, Repr

def Engine.flags (e : Engine) : Flags := ⟨e.z, e.n, e.c, e.v⟩
def Engine.setFlags (e : Engine) (f : Flags) : Engine := { e with z := f.z, n := f.n, c := f.c, v := f.v }

/-- Z and N of a result, with the given C and V. -/
def flagsOf (r : Word) (c v : Bool) : Flags := ⟨r == 0, r.msb, c, v⟩

/-- Add: C is the carry out, V signed overflow. -/
def aluAdd (a b : Word) : Word × Flags :=
  let r := a + b
  (r, flagsOf r (decide (2 ^ 32 ≤ a.toNat + b.toNat)) (a.msb == b.msb && r.msb != a.msb))

/-- Subtract: C is 1 when no borrow occurs. -/
def aluSub (a b : Word) : Word × Flags :=
  let r := a - b
  (r, flagsOf r (decide (b.toNat ≤ a.toNat)) (a.msb != b.msb && r.msb != a.msb))

/-- Logic: C and V are cleared. -/
def aluLogic (r : Word) : Word × Flags := (r, flagsOf r false false)

/-- Shifts by 0 to 31: C is the last bit shifted out, 0 for a shift of 0; V is kept. -/
def aluShl (v : Bool) (a : Word) (n : Nat) : Word × Flags :=
  (a <<< n, flagsOf (a <<< n) (n != 0 && a.getLsbD (32 - n)) v)
def aluShr (v : Bool) (a : Word) (n : Nat) : Word × Flags :=
  (a >>> n, flagsOf (a >>> n) (n != 0 && a.getLsbD (n - 1)) v)
def aluSar (v : Bool) (a : Word) (n : Nat) : Word × Flags :=
  (a.sshiftRight n, flagsOf (a.sshiftRight n) (n != 0 && a.getLsbD (n - 1)) v)

/-- The condition codes (R186); 15 is reserved. -/
def condHolds (e : Engine) (cond : Reg4) : Bool :=
  match cond.toNat with
  | 0 => true
  | 1 => e.z
  | 2 => !e.z
  | 3 => e.n != e.v
  | 4 => e.n == e.v
  | 5 => !e.z && e.n == e.v
  | 6 => e.z || e.n != e.v
  | 7 => !e.c
  | 8 => e.c
  | 9 => e.c && !e.z
  | 10 => !e.c || e.z
  | 11 => e.n
  | 12 => !e.n
  | 13 => e.v
  | 14 => !e.v
  | _ => false

/-- A number clamped to `w` bits signed, and whether the clamp acted. -/
def clampInt (w : Nat) (x : Int) : Int × Bool :=
  if x < -(2 ^ (w - 1)) then (-(2 ^ (w - 1)), true)
  else if 2 ^ (w - 1) - 1 < x then (2 ^ (w - 1) - 1, true) else (x, false)

/-- A halfword of a MAC operand: the high one where the selector is set (R185). -/
def macHalf (hi : Bool) (x : Word) : Int :=
  if hi then (x.extractLsb' 16 16).toInt else (x.extractLsb' 0 16).toInt

end Sys2Proof.Machine
end

