-- ==== Sys2Proof/Machine/Engine.lean ====
section
/-!
DEFINITION. The tile engine: registers, the program counter and the loop levels (R176, R189), faults (R203), its memory map
(R179, R180), its special registers (R190, R191), and how one instruction runs.
-/
namespace Sys2Proof.Machine

open Sys2Proof

/-! ### Registers and program counter -/

/-- e0 reads 0 (R176). -/
def Engine.rd (e : Engine) (r : Reg4) : Word := if r = 0 then 0 else e.regs[r.toFin]
/-- Writes to e0 are discarded (R176). -/
def Engine.wr (e : Engine) (r : Reg4) (v : Word) : Engine :=
  if r = 0 then e else { e with regs := e.regs.set r.toFin v }

/-- The program counter after the instruction at `pc` completes and would go on at `dflt`: the loop levels that end at
`pc` count down, innermost first (R189). -/
def loopEnd (pc dflt : Word) : List LoopLevel → Word × List LoopLevel
  | [] => (dflt, [])
  | l :: ls =>
    if l.last = pc then
      if 1 < l.left then (l.first, { l with left := l.left - 1 } :: ls) else loopEnd pc dflt ls
    else (dflt, l :: ls)

/-- The instruction at PC completes. -/
def Engine.goto (e : Engine) (dflt : Word) : Engine :=
  let r := loopEnd e.pc dflt e.loops
  { e with pc := r.1, loops := r.2 }
def Engine.seq (e : Engine) : Engine := e.goto (e.pc + 4)

/-- Address of the next instruction (R178): past the one in which a sleeping engine waits. -/
def Engine.nextPc (e : Engine) : Word :=
  match e.stall with
  | some (.waitEv _ _ _) | some (.adcp _) | some (.recv _ _) => e.seq.pc
  | _ => e.pc

/-- A taken B, or a JALR without link, from inside the innermost body to outside it closes that level (R189). -/
def Engine.jump (e : Engine) (closes : Bool) (target : Word) : Engine :=
  match e.loops with
  | l :: ls =>
    if closes && decide (l.first.toNat ≤ e.pc.toNat ∧ e.pc.toNat ≤ l.last.toNat) &&
        !decide (l.first.toNat ≤ target.toNat ∧ target.toNat ≤ l.last.toNat) then
      { e with pc := target, loops := ls }
    else e.goto target
  | [] => { e with pc := target }

/-! ### Faults (R203) -/

inductive EngFault where
  | illegal | align | address | memory | loop | regrange
  deriving DecidableEq, Repr
def EngFault.code : EngFault → BitVec 4
  | .illegal => 1 | .align => 2 | .address => 3 | .memory => 4 | .loop => 5 | .regrange => 6

/-- Entry to HALTED or FAULT raises ENGINE_STOP under HOST_EV (R178). -/
def engineStopEvent (t : TileId) (s : State) : State :=
  if (s.tiles[t]).eng.hostEv then raiseEvent .engineStop (arg t.val) s else s

/-- The engine stops before the faulting instruction takes effect (R203). -/
def engFault (t : TileId) (f : EngFault) (s : State) : State :=
  let s := s.modEng t fun e => { e with st := .fault, cause := f.code, arm := none, stall := none }
  engineStopEvent t
    (log .lasting 0x28 (srcTile t) (f.code.setWidth 32) (s.tiles[t]).eng.pc 0 s)

/-- The engine issues an instruction: RUNNING, not stalled, its clock running (R178, R177). -/
def State.engineRuns (s : State) (t : TileId) : Bool :=
  let x := s.tiles[t]
  s.fastOn && s.tileLive t && !x.fenced && !x.inReset && x.eng.st == .running && x.eng.stall.isNone

/-- An instruction on the engine of tile `t`: nothing where the engine issues none (log 2), ILLEGAL where a field it does
not use is not 0 (R183), else its effect. -/
def engineOp (t : TileId) (illegal : Bool) (f : State → State) (s : State) : Result :=
  .next (if s.engineRuns t then (if illegal then engFault t .illegal s else f s) else s)

/-- An instruction that only changes the engine and goes on to the next. -/
def engineAlu (t : TileId) (illegal : Bool) (f : Engine → Engine) (s : State) : Result :=
  engineOp t illegal (fun s => s.modEng t fun e => (f e).seq) s

/-- A result with its flags into `d`. -/
def Engine.put (e : Engine) (d : Reg4) (r : Word × Flags) : Engine := (e.setFlags r.2).wr d r.1

/-! ### Memory map (R179) -/

/-- Where an engine address lies: region, byte offset in the unit's memory, page of R317, and whether stores may. -/
inductive Place where
  | eng (off : Nat)
  | keep (off : Nat)
  | buf (off : Nat)
  | lut (off : Nat)
  deriving DecidableEq, Repr

def placeOf (a : Nat) : Option Place :=
  if a < 0x8000 then some (.eng a)
  else if 0x10000 ≤ a ∧ a < 0x14000 then some (.keep (a - 0x10000))
  else if 0x14000 ≤ a ∧ a < 0x20000 then some (.buf (a - 0x10000))
  else if 0x20000 ≤ a ∧ a < 0x20800 then some (.lut (a - 0x20000)) else none

def Place.region : Place → Fin 16
  | .eng _ => 0
  | .keep _ => 1
  | .buf off => Fin.ofNat 16 (1 + off / 0x4000)
  | .lut _ => 5
def Place.off : Place → Nat
  | .eng off | .keep off | .buf off | .lut off => off
/-- The word of the region that holds the byte (R307). -/
def Place.loc (p : Place) (t : TileId) : Loc :=
  ⟨p.region, t.val, match p with
    | .buf off => off % 0x4000 / 8
    | _ => p.off / 8⟩
def Place.page (p : Place) : Nat := p.off / 1024

/-- What an access gives. -/
inductive Access where
  | bytes (bs : List Byte) (s : State)
  | fails (f : EngFault) (s : State)
  /-- Buffer regions 1 to 3 are being primed: the access stalls (R311). -/
  | stalls

/-- Bytes with the flipped data bits of their word laid over them. -/
def xorMask (m : BitVec 64) (b : Nat) : List Byte → List Byte
  | [] => []
  | x :: xs => (x ^^^ m.extractLsb' (8 * b) 8) :: xorMask m (b + 1) xs

/-- An engine access of `n` bytes at a place: the page is not retired and regions 1 to 3 are not being primed. -/
def State.placeBlocked (s : State) (t : TileId) (p : Place) : Bool :=
  match p with
  | .keep _ => false
  | _ => s.pageRetired p.region t p.page
def State.placeStalls (s : State) (p : Place) : Bool :=
  match p with
  | .buf _ => s.mem.memBusy
  | _ => false

/-- The stored bytes of a place. -/
def Tile.stored (x : Tile) (p : Place) (n : Nat) : List Byte :=
  match p with
  | .eng off => x.engMem.bytes off n
  | .keep off => x.buffer.bytes off n
  | .buf off => x.buffer.bytes off n
  | .lut off => x.lutRam.bytes off n

/-- The keep region of a tile holds a waveform or a calibration entry (R21, R91, R346); else it reads zero, as the primer left it
(R312). -/
def State.keepUsed (s : State) (t : TileId) : Bool :=
  let x := s.tiles[t]
  (x.waves.toList ++ x.shadowWaves.toList).any (fun w => !w.segs.isEmpty) || s.cal.live.any fun e => s.entryTile e == some t

/-- A load of `n` bytes, aligned (R179, R180, R308, R309, R339). Where a keep region holds something its bytes are free, since the
manual does not give its layout (log 8). -/
def engLoad (t : TileId) (a n : Nat) (s : State) : Access :=
  if a % n ≠ 0 then .fails .align s
  else match placeOf a with
    | none => .fails .address s
    | some (.keep off) =>
      if s.sec.lifecycle = .closed then .fails .address s
      else
        let (w, s) := s.drawWord
        let (ok, m, s) := checkRead ((Place.keep off).loc t) s
        if ok then .bytes (xorMask m (a % 8) (natLe n (if s.keepUsed t then w.toNat else 0))) s else .fails .memory s
    | some p =>
      if s.placeBlocked t p then .fails .address s
      else if s.placeStalls p then .stalls
      else
        let (ok, m, s) := checkRead (p.loc t) s
        if ok then .bytes (xorMask m (a % 8) (s.tiles[t].stored p n)) s else .fails .memory s

/-- Writes bytes of a place. -/
def Tile.write (x : Tile) (p : Place) (bs : List Byte) : Tile :=
  match p with
  | .eng off => { x with engMem := x.engMem.putBytes off bs }
  | .keep _ => x
  | .buf off => { x with buffer := x.buffer.putBytes off bs }
  | .lut off => { x with lutRam := x.lutRam.putBytes off bs }

/-- Old bytes of engine memory that fetch still sees (R188). -/
def keepStale (e : Engine) (m : Memory) (off n : Nat) : Engine :=
  { e with stale := ((List.range n).filterMap fun k =>
      if e.stale.any (fun c => c.1 == off + k) then none else some (off + k, m.get (off + k))) ++ e.stale }

/-- A store of bytes (R179, R310). -/
def engStore (t : TileId) (a : Nat) (bs : List Byte) (s : State) : Access :=
  if a % bs.length ≠ 0 then .fails .align s
  else match placeOf a with
    | none => .fails .address s
    | some (.keep _) => .fails .address s
    | some p =>
      if s.placeBlocked t p then .fails .address s
      else if s.placeStalls p then .stalls
      else
        let s := checkWrite (p.loc t) (a % 8) bs.length s
        let s := match p with
          | .eng off => s.modTile t fun x => { x with eng := keepStale x.eng x.engMem off bs.length }
          | _ => s
        .bytes [] (s.modTile t fun x => x.write p bs)

/-- The effective address of a load or store. -/
def Engine.ea (e : Engine) (a : Reg4) (imm : Imm18) : Nat := (e.rd a + imm.signExtend 32).toNat

/-- A load into `d`, widened by `f`. -/
def engineLoad (t : TileId) (d a : Reg4) (imm : Imm18) (n : Nat) (f : List Byte → Word) (s : State) : Result :=
  engineOp t false (fun s =>
    match engLoad t (s.tiles[t].eng.ea a imm) n s with
    | .bytes bs s => s.modEng t fun e => (e.wr d (f bs)).seq
    | .fails c s => engFault t c s
    | .stalls => s) s

/-- A store of the low `n` bytes of `d`. -/
def engineStore (t : TileId) (d a : Reg4) (imm : Imm18) (n : Nat) (s : State) : Result :=
  engineOp t false (fun s =>
    let e := s.tiles[t].eng
    match engStore t (e.ea a imm) (natLe n (e.rd d).toNat) s with
    | .bytes _ s => s.modEng t Engine.seq
    | .fails c s => engFault t c s
    | .stalls => s) s

/-! ### EVM and the special registers (R190, R191) -/

/-- FIFO_THR: 0 acts as 1. -/
def Engine.thr (e : Engine) : Nat := max 1 e.fifoThr.toNat

/-- EVM with its level bits: 5 ADC FIFO level, 6 inbox, 11 capture FIFO (R191). -/
def Engine.evmNow (e : Engine) : BitVec 16 :=
  (e.evm &&& 0x079F#16) ||| (if e.thr ≤ e.adcFifo.length then 0x0020#16 else 0) |||
    (if e.inbox.isEmpty then 0 else 0x0040#16) ||| (if e.capFifo.isEmpty then 0 else 0x0800#16)

def Engine.flagWord (e : Engine) : Word :=
  Word.flag e.av 4 ||| Word.flag e.z 3 ||| Word.flag e.n 2 ||| Word.flag e.c 1 ||| Word.flag e.v 0

def Engine.levels (e : Engine) : Word :=
  Word.put e.outbox.length 24 ||| Word.put e.inbox.length 16 ||| Word.put e.capFifo.length 8 |||
    Word.put e.adcFifo.length 0

def Engine.loopCount (e : Engine) (k : Nat) : Word :=
  match e.loops[k]? with
  | some l => BitVec.ofNat 32 l.left
  | none => 0

/-- What MFS reads (R190); none where the number is not listed. -/
def readSpecial (s : State) (t : TileId) (n : Nat) : Option Word :=
  let x := s.tiles[t]
  let e := x.eng
  match n with
  | 0x00 => some e.flagWord
  | 0x01 => some (e.status.setWidth 32)
  | 0x02 => some (e.evmNow.setWidth 32)
  | 0x03 => some e.ien
  | 0x04 => some e.ivec
  | 0x05 => some e.epc
  | 0x06 => some (e.loopCount 0)
  | 0x07 => some (e.loopCount 1)
  | 0x08 => some e.cycle
  | 0x09 => some (s.aon.sysNow.setWidth 32)
  | 0x0A => some e.sysh
  | 0x0B => some e.capx
  | 0x0C => some (e.capen.setWidth 32)
  | 0x0D => some (Word.put x.ownEpoch.toNat 16 ||| Word.put t.val 0)
  | 0x0E => some (x.coat.setWidth 32)
  | 0x0F => some e.fifoThr
  | 0x10 => some e.levels
  | 0x11 => some e.msgDrop
  | _ => none

/-- What MTS writes (R190); none where the number is not listed. A write to a read-only register is ignored. -/
def writeSpecial (n : Nat) (v : Word) (e : Engine) : Option Engine :=
  match n with
  | 0x00 => some { e with av := v.getLsbD 4, z := v.getLsbD 3, n := v.getLsbD 2, c := v.getLsbD 1, v := v.getLsbD 0 }
  | 0x01 => some { e with status := e.status &&& ~~~(v.setWidth 5) }
  | 0x02 => some { e with evm := e.evm &&& ~~~(v.setWidth 16) }
  | 0x03 => some { e with ien := v &&& 0x8000FFFF#32 }
  | 0x04 => some { e with ivec := v }
  | 0x05 => some { e with epc := v }
  | 0x0C => some { e with capen := v.setWidth 3 }
  | 0x0F => some { e with fifoThr := v }
  | 0x11 => some { e with msgDrop := v }
  | 0x06 | 0x07 | 0x08 | 0x09 | 0x0A | 0x0B | 0x0D | 0x0E | 0x10 => some e
  | _ => none

/-- Events that may interrupt: EVM and IEN, bits 3 and 4 only with IRQ_ENG (R193). -/
def Tile.irqPending (x : Tile) : Bool :=
  let m := x.eng.evmNow &&& x.eng.ien.setWidth 16
  let m := if x.cmpA.irqEng then m else m &&& ~~~(0x0008#16)
  let m := if x.cmpB.irqEng then m else m &&& ~~~(0x0010#16)
  m != 0

/-! ### Completing a wait (R187, R192, R197, R200, R201) -/

/-- WAIT's result: the masked events, whose edge bits clear. -/
def Engine.takeEvents (e : Engine) (mask : BitVec 16) (d : Reg4) : Engine :=
  let m := e.evmNow &&& mask
  ({ e with evm := e.evm &&& ~~~m }.wr d (m.setWidth 32))

/-- Header word of a received message (R201). -/
def Msg.header (m : Msg) : Word :=
  Word.put m.tag.toNat 24 ||| Word.put m.epoch.toNat 16 ||| Word.put (m.words.length - 1) 10 ||| Word.put m.src.toNat 0

/-- Payload words into consecutive registers from `r`; e0 discards the payload. -/
def Engine.wrPayload (e : Engine) (r : Nat) : List Word → Engine
  | [] => e
  | w :: ws => (e.wr (BitVec.ofNat 4 r) w).wrPayload (r + 1) ws

def Engine.receive (e : Engine) (d a : Reg4) (m : Msg) (rest : List Msg) : Engine :=
  let e := { e with inbox := rest }
  let e := e.wr d m.header
  if a = 0 then e else e.wrPayload a.toNat m.words

/-- The payload registers of a SEND (R200). -/
def Engine.payload (e : Engine) (b : Reg4) (n : Nat) : List Word :=
  (List.range n).map fun k => e.rd (BitVec.ofNat 4 (b.toNat + k))

def sendLen (a : Word) : Nat := Word.field a 11 10 + 1

/-- The message that SEND a, b forms now (R200). -/
def sendMsg (s : State) (t : TileId) (a b : Reg4) : Msg :=
  let x := s.tiles[t]
  let h := x.eng.rd a
  { src := BitVec.ofNat 10 t.val, dst := h.setWidth 10, epoch := x.ownEpoch, tag := h.extractLsb' 24 8,
    words := x.eng.payload b (sendLen h), time := s.stamp }

/-- A fence: fetch sees every earlier store (R188). -/
def Engine.fenced (e : Engine) : Engine := { e with stale := [] }

/-- HALT takes effect (R184): the engine is HALTED at the next instruction. Only a FENCE makes stores visible to fetch (R188). -/
def engineHalt (t : TileId) (s : State) : State :=
  engineStopEvent t (s.modEng t fun e => { e.seq with st := .halted, stall := none })

/-! ### The queues of messages (R200 to R202) -/

/-- A message enters the inbox, which the eighth one fills. -/
def Engine.accepts (run : Nat) (m : Msg) (e : Engine) : Engine :=
  { e with inbox := e.inbox ++ [m], fullAt := if 7 ≤ e.inbox.length then run else e.fullAt }

/-- A message enters the outbox. -/
def Engine.posts (run : Nat) (m : Msg) (e : Engine) : Engine :=
  { e with outbox := e.outbox ++ [m], outAt := if e.outbox.isEmpty then run else e.outAt }

/-- The oldest message leaves the outbox. -/
def Engine.posted (run : Nat) (rest : List Msg) (e : Engine) : Engine := { e with outbox := rest, outAt := run }

/-- Inbox room lets the oldest waiting host message in, whose ENGINE_MESSAGE completes (R207). -/
def admitHost (t : TileId) (s : State) : State :=
  match (s.tiles[t]).eng.hostMsgs with
  | [] => s
  | (d, m) :: rest =>
    if (s.tiles[t]).eng.inbox.length < 8 then
      let now := s.aon.fck
      let run := s.aon.run
      okay 0x33 d 0 (s.modEng t fun e => { e.accepts run m with hostMsgs := rest, hostAt := now })
    else s

/-! ### DACS and ARM (R195, R198) -/

/-- DACS is refused (R198). -/
def State.dacsRefused (s : State) (t : TileId) (idx : Fin 16) : Bool :=
  let m := s.trowelMode t
  s.armedTile t || m == 0 || m == 3 || !s.playable t idx || !s.spaced t || s.overShare t ||
    s.tiles[t].trowel.off

/-- DACS with index `idx`: the fire is due at its edge, or STATUS.DAC_REF is set (R198). -/
def dacsPlay (t : TileId) (by_ : FireBy) (idx : Fin 16) (s : State) : State :=
  if s.dacsRefused t idx || s.tiles[t].trowel.due.isSome then
    s.modEng t fun e => { e with status := e.status ||| 8#5 }
  else
    let due : DueFire :=
      { head := 0, seq := 0, col := 0, by_, nFired := 0, latched := false, listen := none, wave := some idx }
    s.modTrowel t fun w => { w with due := some due }

/-- SYSTIME[31:0] has reached `a`, modulo 2^32 within half its range (R195). -/
def reached (now a : Word) : Bool := !(now - a).msb

end Sys2Proof.Machine
end

