-- ==== Sys2Proof/Machine/Pins.lean ====
section
/-!
DEFINITION. The pin rows (R361 to R371) and the timers (R366).
-/
namespace Sys2Proof.Machine

open Sys2Proof

/-- The launches a pin has caused go into the crossbars. -/
def sent (r : List Launch × State) : State := launches r.1 r.2

/-- A function change: the pin drives IDLE for 2 cycles from here on (R364). -/
def pinHold (p : PinId) (s : State) : State :=
  let now := s.aon.fck
  pinSample p (s.modPin p fun x => { x with hold := true, holdAt := now })

/-- The hold has lasted 2 FCK cycles, or 2 QCK cycles while FCK does not run (R364). -/
def State.holdOver (s : State) (p : PinId) : Bool :=
  let x := s.gpio.pins[p]
  x.hold && decide (x.holdAt + (if s.clk.fast = .fck then 2 else 8) ≤ s.aon.fck)

/-- Pins that some reject output is a source of (R363). -/
def State.rejectSources (s : State) : List PinId :=
  ((allHeads.filterMap fun h => (s.jobOf h).bind fun j =>
    if k : j.rejectPin.toNat < 128 then some (⟨j.rejectPin.toNat, k⟩ : PinId) else none) ++ s.aon.rejects.map (·.pin)).eraseDups

/-- Pins that a reject output has become a source of, or ceased to be, change their function (R364). -/
def rejectsFollow (old s : State) : State :=
  let a := old.rejectSources
  let b := s.rejectSources
  ((a.filter fun p => !b.contains p) ++ b.filter fun p => !a.contains p).foldl (fun s p => pinHold p s) s

/-- The filter of a pin that is no wake source stands still while fast clocks are stopped: its gap and its active time go on (R367). -/
def Pin.stoodStill (x : Pin) (fck ticks : Nat) : Pin :=
  { x with gapUntil := x.gapUntil.map (· + fck), activeSince := x.activeSince.map (· + ticks) }

/-- When fast clocks start, the width filter of a waking edge runs from QCK, and each filter that stood still goes on and compares
its level (R164, R367). -/
def pinsRestart (s : State) : State :=
  let fck := s.aon.fck - s.clk.stopFck
  let ticks := s.aon.ticks - s.clk.stopTick
  (List.finRange 128).foldl (fun s p =>
    let s := if s.pinWakeSource p then s else s.modPin p fun x => x.stoodStill fck ticks
    match (s.gpio.pins[p]).cand with
    | some k =>
      let due := s.aon.fck + s.minwFck (s.pinProfile p)
      s.modPin p fun x => { x with cand := some (k.1, due) }
    | none => sent (pinFilter p s)) s

/-- The pin's filter runs: with fast clocks, or as a wake source's (R367). -/
def State.filterRuns (s : State) (p : PinId) : Bool := s.fastOn || s.pinWakeSource p

/-! ### Rows -/

/-- PIN_EDGE: the line drives the pad, or no longer drives it. A module without power samples nothing. -/
def execPinEdge (p : PinId) (level : Option Bool) (s : State) : Result :=
  .next (
    let s := s.modPin p fun x => { x with pad := level }
    if s.aon.up then pinSample p s else s)

/-- PIN_MINW_ACCEPT: the waiting change has held for MINW with clocks running. -/
def execPinMinwAccept (p : PinId) (s : State) : Result :=
  .next (match (s.gpio.pins[p]).cand with
    | some (lvl, due) => if s.fastOn && decide (due ≤ s.aon.fck) then sent (pinAccept p lvl s) else s
    | none => s)

/-- PIN_MIN_GAP_END: the held level takes the current level; a difference is an event (R368). -/
def execPinMinGapEnd (p : PinId) (s : State) : Result :=
  .next (
    let x := s.gpio.pins[p]
    match x.gapUntil with
    | some g =>
      if decide (g ≤ s.aon.fck) && s.filterRuns p then
        let s := s.modPin p fun x => { x with gapUntil := none }
        if x.held = x.filt then s
        else
          let s := s.modPin p fun x => { x with held := x.filt }
          if x.stuck then s
          else
            let l := x.latch.getD (s.aonTime, s.counts)
            let s := noteEdge (BitVec.ofNat 16 p.val) x.filt l.1 l.2 s
            launches (lineLaunches s p.val x.filt) (pinEvent p (x.imode != 0) s)
      else s
    | none => s)

/-- A STUCK ledger entry of a pin: unit class 7, ARG1 2 (R369). -/
def logStuckPin (cls : LClass) (p : PinId) (s : State) : State := log cls 0x23 (unitSrc 7 p.val) (arg p.val) 2 0 s

/-- PIN_MAXACT_EXPIRY: the pin has been active longer than MAXACT (R369); a locked pin keeps its PIN_WAKE bit. -/
def execPinMaxactExpiry (p : PinId) (s : State) : Result :=
  .next (
    let x := s.gpio.pins[p]
    let m := profMax (s.pinProfile p)
    match x.activeSince with
    | some a =>
      if m ≠ 0 && !x.stuck && s.filterRuns p && decide (a + 16 * m < s.aon.ticks) then
        let again := match x.stuckPhase with
          | .watched since => decide (s.aon.ticks < since + 1024)
          | _ => false
        let s := s.modPin p fun x =>
          { x with stuck := true, stuckPhase := if again then .lasting else .first, wake := x.wake && x.locked }
        let s := launches (lineLaunches s p.val false) s
        if again then logStuckPin .lasting p s else s
      else s
    | none => s)

/-- PIN_FUNCTION_HOLD_END: the new function takes over (R364). -/
def execPinFunctionHoldEnd (p : PinId) (s : State) : Result :=
  .next (if s.holdOver p then pinSample p (s.modPin p fun x => { x with hold := false }) else s)

/-- STUCK_RESUME_WINDOW_END: 1,024 ticks after events resumed without a new STUCK (R167, R369). -/
def execStuckResumeWindowEnd (u : StuckUnit) (s : State) : Result :=
  .next (match u with
    | .cmp t c =>
      match ((s.tiles[t]).cmp c).stuckPhase with
      | .watched since =>
        if since + 1024 ≤ s.aon.ticks then
          tileTransient t (logStuckCmp .transient t c (s.modCmp t c fun x => { x with stuckPhase := .none }))
        else s
      | _ => s
    | .pin p =>
      match (s.gpio.pins[p]).stuckPhase with
      | .watched since =>
        if since + 1024 ≤ s.aon.ticks then logStuckPin .transient p (s.modPin p fun x => { x with stuckPhase := .none })
        else s
      | _ => s)

/-- Pins that a source code feeds sample their pads again. -/
def pinsOfSource (code : Nat) (s : State) : State :=
  (List.finRange 128).foldl (fun s p =>
    let x := s.gpio.pins[p]
    if x.oselA == code || x.oselB == code then pinSample p s else s) s

/-- Clock cycles for which a timer's output keeps a level. -/
def Timer.span (x : Timer) (lvl : Bool) : Nat :=
  if lvl then (if x.high = 0 then 0 else x.high.toNat) else x.period.toNat - x.high.toNat

/-- The timer's output takes the next level of its period: high for the high time, then low (R366, DESIGN CHOICE, log 53). A level
that lasts no cycle is passed over. -/
def Timer.turned (x : Timer) (lvl : Bool) : Timer :=
  let l := if x.span lvl = 0 then !lvl else lvl
  { x with output := l, left := x.span l }

/-- A timer's output shows its level to its pins and event lines. -/
def timerShows (k : Fin 16) (s : State) : State :=
  pinsOfSource (0x10 + k.val) (launches (lineLaunches s (129 + k.val) (s.gpio.timers[k]).output) s)

/-- A TIMER stage is placed: its period begins (R366). -/
def timerUp (k : Fin 16) (period high : Word) (s : State) : State :=
  timerShows k (s.modTimer k fun _ => ({ placed := true, period, high } : Timer).turned true)
def timerDown (k : Fin 16) (s : State) : State := timerShows k (s.modTimer k fun _ => {})

/-- TIMER_CHANNEL_EXPIRY: the timer has counted to its high time or its period (R366). -/
def execTimerChannelExpiry (k : Fin 16) (s : State) : Result :=
  .next (
    let x := s.gpio.timers[k]
    if s.fastOn && x.placed && x.left == 0 then timerShows k (s.modTimer k fun x => x.turned (!x.output)) else s)

end Sys2Proof.Machine
end

