-- ==== Sys2Proof/Machine/Registers.lean ====
section
/-!
DEFINITION. The register map (R391 to R406): every register by name, its BAR0 offset, and the bits that software may write
or clear.
-/
namespace Sys2Proof.Machine

open Sys2Proof

/-- Registers of a panel block (R402). -/
inductive PReg where
  | state | temp | link | linkCnt | ref | trip (k : Fin 2) | pvh | pvhMeas | crs | fireCnt | cmpFilt (k : Fin 2) | cmpCnt
  | echoCnt | cmpSum (j : Fin 4) | fence (k : Fin 2) | spare (k : Fin 2) | listen | cls0 | cls1 | gmon | lsnCnt | cal | calq
  deriving DecidableEq, Repr

/-- Registers of a tile block (R405). -/
inductive TReg where
  | state | ctrl | pga | adc | cmp (c : Cmp) | dac | trwl | eng | flt
  deriving DecidableEq, Repr

/-- The registers of BAR0 (R397, R402, R405). -/
inductive Reg where
  | ident | revision | serialLo | serialHi | caps | modStatus | resetCause | tempCore | scratch (k : Fin 8)
  | pwrStatus | pwrCtrl | pwrBudget | pwrMeas | hlvCtrl | wakeCtrl | wakeTime | pwrJsb | pwrRails | pwrPeak | linkStat
  | jsbCnt | railMeas (k : Fin 6)
  | cqBaseLo (n : Fin 16) | cqBaseHi (n : Fin 16) | cpBaseLo (n : Fin 16) | cpBaseHi (n : Fin 16) | cqCfg (n : Fin 16)
  | cqStat (n : Fin 16)
  | stBaseLo (n : Fin 32) | stBaseHi (n : Fin 32) | stMirLo (n : Fin 32) | stMirHi (n : Fin 32) | stCfg (n : Fin 32)
  | stWrite (n : Fin 32) | stLost (n : Fin 32)
  | pqBaseLo (n : Fin 8) | pqBaseHi (n : Fin 8) | pqCfg (n : Fin 8) | pqStat (n : Fin 8) | pqLate (n : Fin 8)
  | pqBad (n : Fin 8)
  | evStatus | evEnable | evVector | irqVec (k : Fin 2) | irqGap (k : Fin 16)
  | secLc | secLcAdv | secKeyData (k : Fin 8) | secKeyCmd | secBoot | imgStatus | imgVersion
  | fnMode | memCode | scrubCtrl | scrubStat | scrubPass | memFlipLo | memFlipHi | memFlipSel | ledgerCtrl | ledgerSeq
  | repairStat
  | tallyCfg | tallyStat | tallyCnt | systimeLo | systimeHi | ptmOffset | ptmRate | encCfg (n : Fin 8)
  | encScale (n : Fin 8) | encCount (n : Fin 8)
  | gpioOut (k : Fin 8) | gpioIn (k : Fin 8) | pinLock | pinIrqsum | pinFilt (k : Fin 4) | pinCnt | pincfg (p : PinId)
  | pinIst (k : Fin 4) | pinIen (k : Fin 4) | pinStuck (k : Fin 4) | pinWake (k : Fin 4)
  | panel (p : PanelId) (r : PReg)
  | tile (t : TileId) (r : TReg)
  deriving DecidableEq, Repr

/-! ### Offsets -/

/-- Offset in the panel block (R402). -/
def PReg.off : PReg → Nat
  | .state => 0x00 | .temp => 0x04 | .link => 0x08 | .linkCnt => 0x0C | .ref => 0x10 | .trip k => 0x14 + 4 * k.val
  | .pvh => 0x20 | .pvhMeas => 0x24 | .crs => 0x28 | .fireCnt => 0x2C | .cmpFilt k => 0x30 + 4 * k.val | .cmpCnt => 0x38
  | .echoCnt => 0x3C | .cmpSum j => 0x40 + 4 * j.val | .fence k => 0x50 + 4 * k.val | .spare k => 0x58 + 4 * k.val
  | .listen => 0x60 | .cls0 => 0x64 | .cls1 => 0x68 | .gmon => 0x6C | .lsnCnt => 0x70 | .cal => 0x74 | .calq => 0x78

/-- Offset in the tile block (R405). -/
def TReg.off : TReg → Nat
  | .state => 0x00 | .ctrl => 0x04 | .pga => 0x08 | .adc => 0x0C | .cmp .a => 0x10 | .cmp .b => 0x14 | .dac => 0x18
  | .trwl => 0x1C | .eng => 0x20 | .flt => 0x24

/-- BAR0 offset of a register. -/
def Reg.off : Reg → Nat
  | .ident => 0x0000 | .revision => 0x0004 | .serialLo => 0x0008 | .serialHi => 0x000C | .caps => 0x0010
  | .modStatus => 0x0014 | .resetCause => 0x0018 | .tempCore => 0x001C | .scratch k => 0x0020 + 4 * k.val
  | .pwrStatus => 0x0100 | .pwrCtrl => 0x0104 | .pwrBudget => 0x0108 | .pwrMeas => 0x010C | .hlvCtrl => 0x0110
  | .wakeCtrl => 0x0114 | .wakeTime => 0x0118 | .pwrJsb => 0x011C | .pwrRails => 0x0120 | .pwrPeak => 0x0124
  | .linkStat => 0x0128 | .jsbCnt => 0x012C | .railMeas k => 0x0130 + 4 * k.val
  | .cqBaseLo n => 0x0400 + 0x20 * n.val | .cqBaseHi n => 0x0404 + 0x20 * n.val | .cpBaseLo n => 0x0408 + 0x20 * n.val
  | .cpBaseHi n => 0x040C + 0x20 * n.val | .cqCfg n => 0x0410 + 0x20 * n.val | .cqStat n => 0x0414 + 0x20 * n.val
  | .stBaseLo n => 0x0600 + 0x20 * n.val | .stBaseHi n => 0x0604 + 0x20 * n.val | .stMirLo n => 0x0608 + 0x20 * n.val
  | .stMirHi n => 0x060C + 0x20 * n.val | .stCfg n => 0x0610 + 0x20 * n.val | .stWrite n => 0x0614 + 0x20 * n.val
  | .stLost n => 0x0618 + 0x20 * n.val
  | .pqBaseLo n => 0x0A00 + 0x20 * n.val | .pqBaseHi n => 0x0A04 + 0x20 * n.val | .pqCfg n => 0x0A08 + 0x20 * n.val
  | .pqStat n => 0x0A0C + 0x20 * n.val | .pqLate n => 0x0A10 + 0x20 * n.val | .pqBad n => 0x0A14 + 0x20 * n.val
  | .evStatus => 0x0B00 | .evEnable => 0x0B04 | .evVector => 0x0B08 | .irqVec k => 0x0B0C + 4 * k.val
  | .irqGap k => 0x0B40 + 4 * k.val
  | .secLc => 0x0C00 | .secLcAdv => 0x0C04 | .secKeyData k => 0x0C08 + 4 * k.val | .secKeyCmd => 0x0C28
  | .secBoot => 0x0C2C | .imgStatus => 0x0C30 | .imgVersion => 0x0C34
  | .fnMode => 0x0D00 | .memCode => 0x0D04 | .scrubCtrl => 0x0D08 | .scrubStat => 0x0D0C | .scrubPass => 0x0D10
  | .memFlipLo => 0x0D14 | .memFlipHi => 0x0D18 | .memFlipSel => 0x0D1C | .ledgerCtrl => 0x0D20 | .ledgerSeq => 0x0D24
  | .repairStat => 0x0D28
  | .tallyCfg => 0x0E00 | .tallyStat => 0x0E04 | .tallyCnt => 0x0E08 | .systimeLo => 0x0E0C | .systimeHi => 0x0E10
  | .ptmOffset => 0x0E14 | .ptmRate => 0x0E18 | .encCfg n => 0x0E20 + 4 * n.val | .encScale n => 0x0E40 + 4 * n.val
  | .encCount n => 0x0E60 + 4 * n.val
  | .gpioOut k => 0x0F00 + 4 * k.val | .gpioIn k => 0x0F20 + 4 * k.val | .pinLock => 0x0F40 | .pinIrqsum => 0x0F44
  | .pinFilt k => 0x0F48 + 4 * k.val | .pinCnt => 0x0F58 | .pincfg p => 0x1000 + 4 * p.val
  | .pinIst k => 0x1200 + 4 * k.val | .pinIen k => 0x1210 + 4 * k.val | .pinStuck k => 0x1220 + 4 * k.val
  | .pinWake k => 0x1230 + 4 * k.val
  | .panel p r => 0x4000 + 0x100 * p.val + r.off
  | .tile t r => 0x8000 + 0x40 * t.val + r.off

/-- The register at an offset of a panel block. -/
def pregAt (o : Nat) : Option PReg :=
  match o with
  | 0x00 => some .state | 0x04 => some .temp | 0x08 => some .link | 0x0C => some .linkCnt | 0x10 => some .ref
  | 0x14 => some (.trip 0) | 0x18 => some (.trip 1) | 0x20 => some .pvh | 0x24 => some .pvhMeas | 0x28 => some .crs
  | 0x2C => some .fireCnt | 0x30 => some (.cmpFilt 0) | 0x34 => some (.cmpFilt 1) | 0x38 => some .cmpCnt
  | 0x3C => some .echoCnt | 0x40 => some (.cmpSum 0) | 0x44 => some (.cmpSum 1) | 0x48 => some (.cmpSum 2)
  | 0x4C => some (.cmpSum 3) | 0x50 => some (.fence 0) | 0x54 => some (.fence 1) | 0x58 => some (.spare 0)
  | 0x5C => some (.spare 1) | 0x60 => some .listen | 0x64 => some .cls0 | 0x68 => some .cls1 | 0x6C => some .gmon
  | 0x70 => some .lsnCnt | 0x74 => some .cal | 0x78 => some .calq
  | _ => none

/-- The register at an offset of a tile block. -/
def tregAt (o : Nat) : Option TReg :=
  match o with
  | 0x00 => some .state | 0x04 => some .ctrl | 0x08 => some .pga | 0x0C => some .adc | 0x10 => some (.cmp .a)
  | 0x14 => some (.cmp .b) | 0x18 => some .dac | 0x1C => some .trwl | 0x20 => some .eng | 0x24 => some .flt
  | _ => none

/-- The `k`th of `n` registers that lie 4 bytes apart. -/
def indexed (n : Nat) (base o : Nat) : Option (Fin n) :=
  if h : base ≤ o ∧ (o - base) % 4 = 0 ∧ (o - base) / 4 < n then some ⟨(o - base) / 4, h.2.2⟩ else none

/-- A command queue, stream ring or print queue register by its offset in the block. -/
def cqRegAt (n : Fin 16) (o : Nat) : Option Reg :=
  match o with
  | 0x00 => some (.cqBaseLo n) | 0x04 => some (.cqBaseHi n) | 0x08 => some (.cpBaseLo n) | 0x0C => some (.cpBaseHi n)
  | 0x10 => some (.cqCfg n) | 0x14 => some (.cqStat n) | _ => none
def stRegAt (n : Fin 32) (o : Nat) : Option Reg :=
  match o with
  | 0x00 => some (.stBaseLo n) | 0x04 => some (.stBaseHi n) | 0x08 => some (.stMirLo n) | 0x0C => some (.stMirHi n)
  | 0x10 => some (.stCfg n) | 0x14 => some (.stWrite n) | 0x18 => some (.stLost n) | _ => none
def pqRegAt (n : Fin 8) (o : Nat) : Option Reg :=
  match o with
  | 0x00 => some (.pqBaseLo n) | 0x04 => some (.pqBaseHi n) | 0x08 => some (.pqCfg n) | 0x0C => some (.pqStat n)
  | 0x10 => some (.pqLate n) | 0x14 => some (.pqBad n) | _ => none

/-- The single global registers. -/
def globalAt (o : Nat) : Option Reg :=
  match o with
  | 0x0000 => some .ident | 0x0004 => some .revision | 0x0008 => some .serialLo | 0x000C => some .serialHi
  | 0x0010 => some .caps | 0x0014 => some .modStatus | 0x0018 => some .resetCause | 0x001C => some .tempCore
  | 0x0100 => some .pwrStatus | 0x0104 => some .pwrCtrl | 0x0108 => some .pwrBudget | 0x010C => some .pwrMeas
  | 0x0110 => some .hlvCtrl | 0x0114 => some .wakeCtrl | 0x0118 => some .wakeTime | 0x011C => some .pwrJsb
  | 0x0120 => some .pwrRails | 0x0124 => some .pwrPeak | 0x0128 => some .linkStat | 0x012C => some .jsbCnt
  | 0x0B00 => some .evStatus | 0x0B04 => some .evEnable | 0x0B08 => some .evVector
  | 0x0C00 => some .secLc | 0x0C04 => some .secLcAdv | 0x0C28 => some .secKeyCmd | 0x0C2C => some .secBoot
  | 0x0C30 => some .imgStatus | 0x0C34 => some .imgVersion
  | 0x0D00 => some .fnMode | 0x0D04 => some .memCode | 0x0D08 => some .scrubCtrl | 0x0D0C => some .scrubStat
  | 0x0D10 => some .scrubPass | 0x0D14 => some .memFlipLo | 0x0D18 => some .memFlipHi | 0x0D1C => some .memFlipSel
  | 0x0D20 => some .ledgerCtrl | 0x0D24 => some .ledgerSeq | 0x0D28 => some .repairStat
  | 0x0E00 => some .tallyCfg | 0x0E04 => some .tallyStat | 0x0E08 => some .tallyCnt | 0x0E0C => some .systimeLo
  | 0x0E10 => some .systimeHi | 0x0E14 => some .ptmOffset | 0x0E18 => some .ptmRate
  | 0x0F40 => some .pinLock | 0x0F44 => some .pinIrqsum | 0x0F58 => some .pinCnt
  | _ => none

/-- The global registers that come in rows. -/
def rowTable : List (Nat → Option Reg) :=
  [fun o => (indexed 8 0x0020 o).map Reg.scratch,
   fun o => (indexed 6 0x0130 o).map Reg.railMeas,
   fun o => (indexed 2 0x0B0C o).map Reg.irqVec,
   fun o => (indexed 16 0x0B40 o).map Reg.irqGap,
   fun o => (indexed 8 0x0C08 o).map Reg.secKeyData,
   fun o => (indexed 8 0x0E20 o).map Reg.encCfg,
   fun o => (indexed 8 0x0E40 o).map Reg.encScale,
   fun o => (indexed 8 0x0E60 o).map Reg.encCount,
   fun o => (indexed 8 0x0F00 o).map Reg.gpioOut,
   fun o => (indexed 8 0x0F20 o).map Reg.gpioIn,
   fun o => (indexed 4 0x0F48 o).map Reg.pinFilt,
   fun o => (indexed 128 0x1000 o).map Reg.pincfg,
   fun o => (indexed 4 0x1200 o).map Reg.pinIst,
   fun o => (indexed 4 0x1210 o).map Reg.pinIen,
   fun o => (indexed 4 0x1220 o).map Reg.pinStuck,
   fun o => (indexed 4 0x1230 o).map Reg.pinWake]

def rowAt (o : Nat) : Option Reg := rowTable.findSome? fun f => f o

/-- The register at a BAR0 offset; none at a reserved position or an unallotted offset (R393). -/
def regAt (o : Nat) : Option Reg :=
  if h : 0x8000 ≤ o ∧ o < 0x10000 then
    (tregAt ((o - 0x8000) % 0x40)).map (.tile ⟨(o - 0x8000) / 0x40, by omega⟩)
  else if h : 0x4000 ≤ o ∧ o < 0x4800 then
    (pregAt ((o - 0x4000) % 0x100)).map (.panel ⟨(o - 0x4000) / 0x100, by omega⟩)
  else if h : 0x0400 ≤ o ∧ o < 0x0600 then cqRegAt ⟨(o - 0x0400) / 0x20, by omega⟩ ((o - 0x0400) % 0x20)
  else if h : 0x0600 ≤ o ∧ o < 0x0A00 then stRegAt ⟨(o - 0x0600) / 0x20, by omega⟩ ((o - 0x0600) % 0x20)
  else if h : 0x0A00 ≤ o ∧ o < 0x0B00 then pqRegAt ⟨(o - 0x0A00) / 0x20, by omega⟩ ((o - 0x0A00) % 0x20)
  else (globalAt o).or (rowAt o)

/-! ### Access codes -/

/-- RW and RWL bits of a panel register. -/
def PReg.rw (p : PanelId) : PReg → Word
  | .linkCnt | .fireCnt | .cmpCnt | .echoCnt | .listen | .cls0 | .cls1 | .gmon | .lsnCnt => 0xFFFFFFFF#32
  | .ref => if p = 0 then 0x03800000#32 else 0x03000000#32
  | .pvh => 0x000003FF#32
  | .cmpFilt _ => 0xFFFFFF00#32
  | .cal => 0x80000000#32
  | _ => 0

/-- RW bits of a tile register; ILV exists on even tiles (R129), WIN in T_CMPA (R152). -/
def TReg.rw (t : TileId) : TReg → Word
  | .ctrl => 0xF3FC0000#32
  | .pga => 0xFFFFC000#32
  | .adc => if t.val % 2 = 0 then 0xFFFFFF03#32 else 0xFFFFBF03#32
  | .cmp .a => 0x0FFFFFFD#32
  | .cmp .b => 0x0FFFFFF9#32
  | .dac => 0xFFFFFC00#32
  | .trwl => 0x0FFFF800#32
  | .eng => 0x01000000#32
  | .flt => 0xFFFFFE00#32
  | .state => 0

/-- RW and RWL bits that a write stores (R4). -/
def Reg.rw : Reg → Word
  | .tempCore => 0xFFFF0000#32
  | .scratch _ | .wakeTime | .jsbCnt | .cqBaseLo _ | .cqBaseHi _ | .cpBaseLo _ | .cpBaseHi _ | .pqBaseLo _ | .pqBaseHi _
  | .irqGap _ | .scrubStat | .memFlipLo | .memFlipHi | .tallyCnt | .encScale _ | .encCount _ | .pinCnt
  | .pinIen _ | .pinWake _ => 0xFFFFFFFF#32
  | .pwrCtrl => 0x00000103#32
  | .hlvCtrl => 0x03C0FF00#32
  | .wakeCtrl => 0xF0000000#32
  | .pwrRails => 0x00FF0100#32
  | .pwrPeak => 0xFFFF0FFF#32
  | .cqCfg _ => 0xFFF00000#32
  | .stCfg _ => 0x03FFFFFF#32
  | .pqCfg _ => 0x87F00000#32
  | .evEnable => 0x00001FFF#32
  | .evVector => 0x00003F3F#32
  | .irqVec _ => 0x3F3F3F3F#32
  | .secBoot => 0x80000013#32
  | .memCode => 0x0000003F#32
  | .scrubCtrl => 0x00001FFF#32
  | .memFlipSel => 0x0001F1FF#32
  | .ledgerCtrl => 0x00000003#32
  | .tallyCfg => 0x80000000#32
  | .encCfg _ => 0x3E3FFFFF#32
  | .pinFilt _ => 0xFFFFFF00#32
  | .pincfg _ => 0x7FFFFFFF#32
  | .panel p r => r.rw p
  | .tile t r => r.rw t
  | _ => 0

/-- W1C bits. -/
def Reg.w1c : Reg → Word
  | .pwrMeas => 0x00000008#32
  | .hlvCtrl => 0x20000000#32
  | .evStatus => 0x00001FFF#32
  | .scrubCtrl => 0x80000000#32
  | .tallyStat => 0xA0000000#32
  | .encCfg _ => 0x80000000#32
  | .pinIst _ | .pinStuck _ => 0xFFFFFFFF#32
  | .tile _ .trwl => 0x80000000#32
  | .tile _ (.cmp _) => 0x50000000#32
  | _ => 0

/-- The panel whose state governs access to the register (R395). -/
def Reg.panelOf : Reg → Option PanelId
  | .panel p _ => some p
  | .tile t _ => some (Machine.panelOf t)
  | _ => none

end Sys2Proof.Machine
end

