-- ==== Sys2Proof/Machine/Scrub.lean ====
section
/-!
DEFINITION. The scrubber (R313 to R315): its place, its pauses, the vote over its three copies, and the check of one word.
-/
namespace Sys2Proof.Machine

open Sys2Proof

/-! ### Regions in words of 8 bytes (R307, R313) -/

/-- Words of a region, per unit. -/
def regionWords (r : Nat) : Nat :=
  match r with
  | 0 => 4096 | 1 => 2048 | 2 => 2048 | 3 => 2048 | 4 => 2048 | 5 => 256 | 6 => 1024 | 7 => 8192
  | 8 => 0x200000 | 9 => 0x100000 | 10 => 0x4000 | 11 => 0xFC000 | _ => 0

/-- Words of one tile in the pass. -/
def tileWords : Nat := 13568
def tilesWords : Nat := 6946816
def panelsWords : Nat := 65536
/-- Words of one pass. -/
def passWords : Nat := 11206656

/-- The word at an offset among a tile's words. -/
def tileLoc (t k : Nat) : Loc :=
  if k < 4096 then ⟨0, t, k⟩
  else if k < 12288 then ⟨Fin.ofNat 16 (1 + (k - 4096) / 2048), t, (k - 4096) % 2048⟩
  else if k < 12544 then ⟨5, t, k - 12288⟩ else ⟨6, t, k - 12544⟩

/-- The word at a byte offset of shared memory. -/
def sharedLoc (off : Nat) : Loc :=
  let r := sharedRegion off
  ⟨r, 0, (off - sharedBase r.val) / 8⟩

/-- The word at a place of the pass. -/
def passLoc (ptr : Nat) : Loc :=
  if ptr < tilesWords then tileLoc (ptr / tileWords) (ptr % tileWords)
  else if ptr < tilesWords + panelsWords then
    let k := ptr - tilesWords
    ⟨7, k / 8192, k % 8192⟩
  else sharedLoc (8 * (ptr - tilesWords - panelsWords))

/-- The panel that powers a word's memory; none for shared memory. -/
def Loc.panel (l : Loc) : Option PanelId :=
  if l.region.val ≤ 6 then (if h : l.unit < 512 then some (panelOf ⟨l.unit, h⟩) else none)
  else if l.region.val = 7 ∨ l.region.val = 12 then (if h : l.unit < 8 then some ⟨l.unit, h⟩ else none)
  else none

/-- The word can be read: its panel is live, its tile in service (R313, R315). -/
def State.locLive (s : State) (l : Loc) : Bool :=
  (match l.panel with
    | some p => (s.pstate p).live
    | none => true) &&
  (if l.region.val ≤ 6 then (if h : l.unit < 512 then !(s.tiles[(⟨l.unit, h⟩ : TileId)]).fenced else true) else true)

/-! ### The voted copies (R314) -/

def State.scrubRate (s : State) : Nat := min 4096 (max 1 (s.scrub.copies[0]).rate.toNat)
def State.scrubPtr (s : State) : Nat := (s.scrub.copies[0]).ptr
def State.scrubHost (s : State) : Bool := (s.scrub.copies[0]).mode != 0

/-- The background pass runs: it steps over the words of memories it cannot read at the same pace (R313, log 38). -/
def State.scrubRuns (s : State) : Bool := s.pwr.mode.up && !s.scrubHost
/-- PAUSED: the pass stands, or is paused for the memory it is at (R313). -/
def State.scrubPaused (s : State) : Bool := !s.scrubRuns || !s.locLive (passLoc s.scrubPtr)

/-- Writes all three copies. -/
def State.setScrub (f : ScrubCopy → ScrubCopy) (s : State) : State :=
  { s with scrub := { s.scrub with copies := s.scrub.copies.map f } }

/-- The vote (R314): a copy that differs from the other two takes their value; three different copies return to reset. -/
def scrubVote (s : State) : State :=
  let a := s.scrub.copies[0]
  let b := s.scrub.copies[1]
  let c := s.scrub.copies[2]
  if a = b ∧ b = c then s
  else
    let two : Option ScrubCopy := if a = b ∨ a = c then some a else if b = c then some b else none
    match two with
    | some x => log .info 0x04 srcModule 2 0 0
        { s with scrub := { s.scrub with copies := Vector.replicate 3 x, voteErr := true } }
    | none => log .lasting 0x04 srcModule 0 0 0
        { s with scrub := { s.scrub with copies := Vector.replicate 3 {}, voteErr := true } }

/-! ### Reading words -/

/-- One checked read by the scrubber (R308, R309, R315): the word's outcome and the state. `clear` rewrites a lasting
failure as zero. -/
def scrubWord (l : Loc) (s : State) : Decoded × State :=
  match s.errOf l with
  | none => (.clean, s)
  | some e =>
    let second := fun s => let r := secondRead false { e with loc := l } s; (if r.1 then Decoded.clean else .uncorrectable, r.2)
    if e.poison then second s
    else match (s.codeOf l.region).decode e.flips with
      | .corrected => (.corrected, correct l e.flips s)
      | .uncorrectable => second s
      | .open_ =>
        let (bad, s) := s.drawBit
        if bad then second s else (.open_, s)
      | d => (d, s)

/-- Advances the pass over `n` words: only listed words need a read; a wrap completes a pass. -/
def scrubAdvance (n : Nat) (s : State) : State :=
  let p := s.scrubPtr
  let hit := s.mem.errs.filter fun e =>
    s.locLive e.loc && ((List.range n).any fun k => passLoc ((p + k) % passWords) == e.loc)
  let s := hit.foldl (fun s e => (scrubWord e.loc s).2) s
  let wraps := decide (passWords ≤ p + n)
  let s := s.setScrub fun c => { c with ptr := (p + n) % passWords }
  let s := { s with scrub := { s.scrub with accAt := s.aon.fck } }
  if wraps then { s with scrub := { s.scrub with passes := s.scrub.passes + 1 } } else s

end Sys2Proof.Machine
end

