-- ==== Sys2Proof/Machine/RegisterRead.lean ====
section
/-!
DEFINITION. What every register reads (R392, R397 to R406), the rules of DORMANT (R271) and of panels that are OFF (R395).
-/
namespace Sys2Proof.Machine

open Sys2Proof

/-! ### Words from parts -/

/-- A word whose bit `i` is `f i`. -/
def wordOf (f : Fin 32 → Bool) : Word :=
  BitVec.ofNat 32 ((List.finRange 32).foldl (fun n i => if f i then n + 2 ^ i.val else n) 0)

/-- Bit `j` of word `k` stands for pin 32k + j. -/
def pinOf (k : Fin 4) (j : Fin 32) : PinId := ⟨32 * k.val + j.val, by omega⟩
def pinWord (s : State) (k : Fin 4) (f : Pin → Bool) : Word := wordOf fun j => f s.gpio.pins[pinOf k j]
/-- Pin j of a 16-pin group. -/
def pin16 (k : Fin 8) (j : Fin 16) : PinId := ⟨16 * k.val + j.val, by omega⟩
/-- Bit `l` of word `k` of a panel stands for local tile 32k + l. -/
def tileOf2 (p : PanelId) (k : Fin 2) (j : Fin 32) : TileId := tileAt p ⟨32 * k.val + j.val, by omega⟩
def tileWord (s : State) (p : PanelId) (k : Fin 2) (f : Tile → Bool) : Word := wordOf fun j => f s.tiles[tileOf2 p k j]

/-! ### Status words -/

/-- Code of PWR_STATUS.STATE: TRANSITION while a change runs (R269, R272). -/
def State.stateCode (s : State) : Nat :=
  if s.pwr.change.isSome || s.pwr.dormantDue then 6 else s.pwr.mode.code

/-- PWR_STATUS (R272). -/
def State.pwrStatus (s : State) : Word :=
  Word.put s.stateCode 29 ||| Word.put s.pwr.fcause.toNat 26 ||| Word.flag s.fastOn 25 |||
  Word.flag (s.clk.fast == .qck) 24 ||| Word.flag (s.clk.pll == .locked) 23 ||| Word.flag s.pwr.nfault 22 |||
  Word.flag s.aon.ptmAligned 21 ||| Word.flag s.pwr.fclear 20 |||
  ((List.finRange 8).foldl (fun w (p : Fin 8) => w ||| Word.put (s.pstate p).code (2 * p.val)) 0)

def State.pwrBudget (s : State) : Word := Word.put s.pwr.grant.toNat 16 ||| Word.put (min s.alloc 65535) 0
def State.pwrMeas (s : State) : Word :=
  Word.put s.pwr.pin.toNat 16 ||| Word.put s.pwr.vin.toNat 4 ||| Word.flag s.pwr.overSeen 3

/-- HRST is asserted (R276). -/
def State.hrst (s : State) : Bool := !s.pwr.hlvOk || s.pwr.hrstHold || s.pwr.ioOff || s.pwr.hlvCtrl.getLsbD 22

/-- COAT: the open coat's number, or the last committed (R398). -/
def State.coatShown (s : State) : BitVec 16 :=
  match s.coat with
  | some c => c.number
  | none => s.coatLast

def Cq.cfg (q : Cq) : Word :=
  Word.flag q.en 31 ||| Word.flag q.prio 30 ||| Word.put q.vector.val 24 ||| Word.put q.size.toNat 20 |||
  Word.flag (q.inProgress != 0) 19 ||| Word.put q.err.toNat 17
def Stream.cfg (r : Stream) : Word :=
  Word.flag r.isOpen 31 ||| Word.put r.size.toNat 27 ||| Word.put r.vector.val 20 ||| Word.put r.timeout.toNat 12 |||
  Word.put r.thresh.toNat 0

/-- A product reads a raster of the print queue (R297 BUSY). -/
def State.pqBusy (s : State) (n : Fin 8) : Bool :=
  allHeads.any fun h => s.heads[h].products.any fun p => match p.raster with
    | .host _ q _ _ => q == n && !p.done
    | _ => false
def State.pqCfg (s : State) (n : Fin 8) : Word :=
  let q := s.pqs[n]
  Word.flag q.en 31 ||| Word.put q.headId.val 24 ||| Word.put q.size.toNat 20 ||| Word.flag (s.pqBusy n) 19 |||
  Word.put q.err.toNat 17

/-- Usable key slots (R340). -/
def Sec.keyBits (x : Sec) : Nat :=
  if x.keysOff then 0 else (if (x.keys[0]).isSome then 1 else 0) + (if (x.keys[1]).isSome then 2 else 0)

/-- A half of a 64-bit address. -/
def loHalf (a : BitVec 64) : Word := a.setWidth 32
def hiHalf (a : BitVec 64) : Word := (a >>> 32).setWidth 32

/-! ### Panel and tile registers -/

/-- Head that owns a select port. -/
def State.portHead (s : State) (p : PanelId) : Option HeadId :=
  allHeads.find? fun h => match s.heads[h].hdef with
    | some d => d.usesPort p
    | none => false

def State.countTiles (s : State) (p : PanelId) (f : Tile → Bool) : Nat :=
  ((tilesOf p).filter fun t => f s.tiles[t]).length

/-- Comparator 32j + k of a panel has LAT and IRQ_HOST set (R163). -/
def State.cmpSumBit (s : State) (p : PanelId) (j : Fin 4) (k : Fin 32) : Bool :=
  (s.tiles[tileAt p ⟨(32 * j.val + k.val) / 2, by omega⟩]).cmpSum (if k.val % 2 = 0 then .a else .b)

def readPanel (s : State) (p : PanelId) (r : PReg) : Word :=
  let x := s.panels[p]
  match r with
  | .state =>
    Word.put (s.pstate p).code 30 ||| Word.flag (s.fastOn && (s.pstate p).live) 29 |||
    Word.flag (s.portHead p).isSome 23 ||| Word.put ((s.portHead p).map (·.val) |>.getD 0) 20 |||
    Word.put (s.countTiles p (·.placed)) 8 ||| Word.put (s.countTiles p (·.fenced)) 0
  | .temp => Word.put x.tempMax.toNat 16 ||| Word.put x.tempSensor.toNat 0
  | .link => Word.put x.lanes.toNat 16 ||| Word.put ((List.range 16).filter fun i => x.lanes.getLsbD i).length 0
  | .linkCnt => Word.put x.replayed.toNat 16 ||| Word.put x.failed.toNat 0
  | .ref => Word.flag x.refOk 31 ||| Word.flag x.refFault 30 ||| x.ref ||| Word.put x.vext.toNat 0
  | .trip k => tileWord s p k (·.trowel.trip)
  | .pvh => Word.flag x.pvhOk 31 ||| Word.flag x.crsOk 30 ||| Word.flag x.pvhOn 29 ||| Word.put (s.eta p) 16 |||
      Word.put x.vset.toNat 0
  | .pvhMeas => x.pvhMeas
  | .crs => Word.put x.crsCap.toNat 16 ||| Word.put x.crsV.toNat 0
  | .fireCnt => Word.put x.overspeed.toNat 16 ||| Word.put x.powerCap.toNat 0
  | .cmpFilt k => x.cmpFilt[k]
  | .cmpCnt => Word.put x.overrun.toNat 16 ||| Word.put x.falseWake.toNat 0
  | .echoCnt => Word.put x.echoTransient.toNat 16 ||| Word.put x.echoLasting.toNat 0
  | .cmpSum j => wordOf fun k => s.cmpSumBit p j k
  | .fence k => tileWord s p k (·.fenced)
  | .spare k => tileWord s p k (·.spare)
  | .listen => x.listen
  | .cls0 => x.cls0
  | .cls1 => x.cls1
  | .gmon => x.gmon
  | .lsnCnt => Word.put x.listened.toNat 16 ||| Word.put x.skipped.toNat 8 ||| Word.put x.stolen.toNat 0
  | .cal =>
    Word.flag x.calInterp 31 ||| Word.flag (s.cal.pending.any fun e => s.entryPanel e == some p) 30 |||
    Word.flag (s.cal.override.any fun k => s.entryPanel ⟨k.1, k.2.1, k.2.2, 0⟩ == some p) 29 |||
    ((List.range 5).foldl (fun w i => w ||| Word.flag (storedSet s.sec.store i).isSome (16 + i)) 0) |||
    Word.put x.tLast.toNat 0
  | .calq => x.calq

def EngState.code : EngState → Nat
  | .stopped => 0 | .running => 1 | .sleeping => 2 | .halted => 3 | .fault => 4 | .held => 5

/-- The engine's state as T_ENG shows it: HELD in a tile that is fenced or in reset (R178). -/
def Tile.engState (x : Tile) : EngState := if x.fenced || x.inReset then .held else x.eng.st

def readTile (s : State) (t : TileId) (r : TReg) : Word :=
  let x := s.tiles[t]
  match r with
  | .state =>
    Word.flag x.fenced 31 ||| Word.flag x.inReset 30 ||| Word.flag x.spare 29 ||| Word.flag x.placed 28 |||
    Word.put (x.health s.aon.ticks) 26 ||| Word.flag x.ready 25 ||| Word.flag (s.headOf t).isSome 24 |||
    Word.put x.epoch.toNat 16 ||| Word.put x.coat.toNat 0
  | .ctrl => x.ctrl ||| Word.flag (s.headOf t).isSome 15 ||| Word.put ((s.headOf t).map (·.val) |>.getD 0) 12
  | .pga => x.pga
  | .adc => x.adc
  | .cmp c =>
    let y := x.cmp c
    Word.flag y.lvl 31 ||| Word.flag y.lat 30 ||| Word.flag y.unres 29 ||| Word.flag y.stuck 28 ||| y.cfg
  | .dac => x.dac
  | .trwl =>
    let y := x.trowel
    Word.flag y.trip 31 ||| Word.flag y.fold 30 ||| Word.flag y.buddyAct 29 ||| Word.flag y.taken 28 ||| y.cfg
  | .eng =>
    Word.put x.engState.code 29 ||| Word.put (if x.engState = .fault then x.eng.cause.toNat else 0) 25 |||
    Word.flag x.eng.hostEv 24 ||| Word.put x.eng.prog.toNat 16 |||
    (if s.sec.lifecycle = .closed then 0 else x.eng.nextPc &&& 0x7FFF#32)
  | .flt => x.flt

/-! ### The whole map -/

def Encoder.word (x : Encoder) : Word :=
  Word.flag x.ovs 31 ||| Word.flag x.ovsNow 30 ||| x.cfg ||| Word.put x.illegal.toNat 0

/-- What a register holds. -/
def readReg (s : State) (r : Reg) : Word :=
  match r with
  | .ident => 0x05121F7C#32
  | .revision => Config.revision
  | .serialLo => Config.serialLo
  | .serialHi => Config.serialHi
  | .caps => 0x82008420#32 ||| Word.flag Config.gradeIE 27
  | .modStatus => Word.flag (s.pwr.mode != .booting) 31 ||| Word.flag s.coat.isSome 30 |||
      Word.put s.sec.lifecycle.code 28 ||| Word.put s.coatShown.toNat 0
  | .resetCause => Word.put s.aon.resetCount.toNat 16 ||| Word.put s.aon.resetCause.toNat 0
  | .tempCore => Word.put s.pwr.peakTemp.toNat 16 ||| Word.put s.pwr.coreTemp.toNat 0
  | .scratch k => s.scratch[k]
  | .pwrStatus => s.pwrStatus
  | .pwrCtrl => Word.flag s.aon.leave 31 ||| s.aon.pwrCtrl
  | .pwrBudget => s.pwrBudget
  | .pwrMeas => s.pwrMeas
  | .hlvCtrl => Word.flag s.pwr.hlvOk 31 ||| Word.flag s.hrst 30 ||| Word.flag s.pwr.hlvOver 29 ||| s.pwr.hlvCtrl
  | .wakeCtrl => s.aon.wakeCtrl ||| Word.put s.aon.wakeLast.toNat 8
  | .wakeTime => s.aon.wakeTime
  | .pwrJsb => Word.put s.aon.limit.toNat 16 ||| Word.put (ceilDiv s.aon.request.toNat 10) 0
  | .pwrRails => wordOf fun i =>
      if h : 24 ≤ i.val then s.panels[i.val - 24].pvhOk
      else if h : 16 ≤ i.val then s.pwr.pvhEn[i.val - 16]
      else if i.val = 9 then s.pwr.vddaGood else if i.val = 8 then s.pwr.vddaEn else false
  | .pwrPeak => Word.put s.pwr.pinMax.toNat 16 ||| Word.put s.pwr.vinMin.toNat 0
  | .linkStat => Word.put s.link.speed.toNat 28 ||| Word.put s.link.width.toNat 24 ||| Word.put s.link.lastL1.toNat 22 |||
      Word.flag s.link.ptmEn 21 ||| Word.flag s.link.ecrcEn 20 ||| Word.put s.link.l1Entries.toNat 0
  | .jsbCnt => Word.put s.jsb.sent.toNat 24 ||| Word.put s.jsb.received.toNat 16 ||| Word.put s.jsb.naks.toNat 8 |||
      Word.put s.jsb.dropped.toNat 0
  | .railMeas k => s.pwr.railMeas[k]
  | .cqBaseLo n => loHalf (s.cqs[n]).base
  | .cqBaseHi n => hiHalf (s.cqs[n]).base
  | .cpBaseLo n => loHalf (s.cqs[n]).cpBase
  | .cpBaseHi n => hiHalf (s.cqs[n]).cpBase
  | .cqCfg n => (s.cqs[n]).cfg
  | .cqStat n => Word.put (s.cqs[n]).cpw.toNat 16 ||| Word.put (s.cqs[n]).head.toNat 0
  | .stBaseLo n => loHalf (s.sts[n]).base
  | .stBaseHi n => hiHalf (s.sts[n]).base
  | .stMirLo n => loHalf (s.sts[n]).mirror
  | .stMirHi n => hiHalf (s.sts[n]).mirror
  | .stCfg n => (s.sts[n]).cfg
  | .stWrite n => (s.sts[n]).write.setWidth 32
  | .stLost n => (s.sts[n]).lost
  | .pqBaseLo n => loHalf (s.pqs[n]).base
  | .pqBaseHi n => hiHalf (s.pqs[n]).base
  | .pqCfg n => s.pqCfg n
  | .pqStat n => Word.put (s.pqs[n]).tail.toNat 16 ||| Word.put (s.pqs[n]).rdidx.toNat 0
  | .pqLate n => (s.pqs[n]).late
  | .pqBad n => (s.pqs[n]).bad
  | .evStatus => s.ev.status.setWidth 32
  | .evEnable => s.ev.enable.setWidth 32
  | .evVector => s.ev.vector
  | .irqVec k => s.ev.irqVec[k]
  | .irqGap k => s.ev.gap[k]
  | .secLc => Word.put s.sec.lifecycle.code 30 ||| Word.put s.sec.pendingLc.code 28 ||| Word.flag s.sec.fuseFail 27 |||
      Word.put s.sec.keyBits 24
  | .secLcAdv => 0
  | .secKeyData _ => 0
  | .secKeyCmd => 0
  | .secBoot => s.aon.secBoot
  | .imgStatus => Word.put s.sec.imgResult.toNat 30 ||| Word.put s.sec.imgSource.toNat 27 |||
      Word.flag s.sec.fallbackUsed 26 ||| Word.put s.sec.imgCause.toNat 16 ||| (s.sec.imageId &&& 0xFFFF#32)
  | .imgVersion => s.sec.imgVersion
  | .fnMode => s.fnMode.setWidth 32
  | .memCode => s.mem.memCode ||| Word.flag s.mem.memBusy 31
  | .scrubCtrl => -- PAUSED keeps its reset value while BOOTING lasts (R313, R396; log 38)
    Word.flag s.scrub.voteErr 31 ||| Word.flag (s.scrubPaused && s.pwr.mode != .booting) 30 |||
      (s.scrub.copies[0]).rate.setWidth 32
  | .scrubStat => Word.put s.scrub.corrected.toNat 16 ||| Word.put s.scrub.uncorr.toNat 0
  | .scrubPass => s.scrub.passes
  | .memFlipLo => s.mem.flipLo
  | .memFlipHi => s.mem.flipHi
  | .memFlipSel => s.mem.flipSel ||| Word.flag s.mem.flipArm 31
  | .ledgerCtrl => Word.put s.ledger.wraps.toNat 16 ||| Word.put s.ledger.exportMin.toNat 0
  | .ledgerSeq => s.ledger.seq
  | .repairStat => Word.put s.sec.repairs.length 8 ||| Word.put (16 - s.sec.repairs.length) 0
  | .tallyCfg => Word.flag s.tally.en 31 ||| Word.flag s.tally.master 30 ||| Word.flag s.tally.rate500 29 |||
      Word.flag s.tally.silent 28 ||| Word.put s.tally.station.toNat 16 ||| Word.put s.tally.period.toNat 0
  | .tallyStat => Word.flag s.tally.hold 31 ||| Word.flag s.tally.nomaster 30 ||| Word.flag s.tally.conflict 29 |||
      Word.put s.tally.reason.toNat 27 ||| Word.put s.tally.holdFrom.toNat 18 ||| Word.put s.tally.rollNo.toNat 0
  | .tallyCnt => Word.put s.tally.crcErr.toNat 24 ||| Word.put s.tally.retry.toNat 16 |||
      Word.put s.tally.dropped.toNat 8 ||| Word.put s.tally.ignored.toNat 0
  | .systimeLo => loHalf s.aon.sysNow
  | .systimeHi => s.aon.sysHiLatch
  | .ptmOffset => s.aon.ptmOffset
  | .ptmRate => Word.put s.aon.ptmRate.toNat 16 ||| Word.put s.aon.ptmDialogues.toNat 0
  | .encCfg n => (s.aon.enc[n]).word
  | .encScale n => (s.aon.enc[n]).scale
  | .encCount n => (s.aon.enc[n]).count
  | .gpioOut k => wordOf fun i => if h : i.val < 16 then s.gpio.pins[pin16 k ⟨i.val, h⟩].out else false
  | .gpioIn k => wordOf fun i =>
      if h : i.val < 16 then s.gpio.pins[pin16 k ⟨i.val, h⟩].filt else s.gpio.pins[pin16 k ⟨i.val - 16, by omega⟩].sync
  | .pinLock => Word.flag s.gpio.lockFirst.isSome 31 ||| Word.put ((s.gpio.lockFirst.map (·.val)).getD 0) 0
  | .pinIrqsum => wordOf fun i =>
      if h : i.val < 4 then pinWord s ⟨i.val, h⟩ (·.ist) != 0
      else if h : i.val < 8 then pinWord s ⟨i.val - 4, by omega⟩ (·.stuck) != 0 else false
  | .pinFilt k => s.gpio.filt[k]
  | .pinCnt => Word.put s.gpio.overrun.toNat 16 ||| Word.put s.gpio.falseWake.toNat 0
  | .pincfg p => (s.gpio.pins[p]).cfg ||| Word.flag (s.gpio.pins[p]).locked 31
  | .pinIst k => pinWord s k (·.ist)
  | .pinIen k => pinWord s k (·.ien)
  | .pinStuck k => pinWord s k (·.stuck)
  | .pinWake k => pinWord s k (·.wake)
  | .panel p r => readPanel s p r
  | .tile t r => readTile s t r

/-! ### Host reads (R271, R393, R395) -/

/-- The registers that DORMANT answers for. -/
def Reg.dormant : Reg → Bool
  | .pwrStatus | .pwrCtrl | .pwrMeas => true
  | _ => false

/-- What a 4-byte read of a BAR0 offset returns. -/
def hostRead (s : State) (off : Nat) : Word :=
  match regAt off with
  | none => if s.pwr.mode = .dormant then 0xFFFFFFFF#32 else 0
  | some r =>
    if s.pwr.mode = .dormant then (if r.dormant then readReg s r else 0xFFFFFFFF#32)
    else match r with
      | .panel p .state => readReg s (.panel p .state)
      | _ => match r.panelOf with
        | some p => if s.pstate p = .off then 0 else readReg s r
        | none => readReg s r

end Sys2Proof.Machine
end

