-- ==== Sys2Proof/Machine/RegisterWrite.lean ====
section
/-!
DEFINITION. Writing registers (R4, R394): what a write of each register's fields does, the state rules under which the module
ignores a host write, and W1C bits. A coat's item writes fields by the same `setReg`, without those rules (R232, R236).
-/
namespace Sys2Proof.Machine

open Sys2Proof

/-! ### Questions of the state rules -/

/-- A job that follows the encoder channel is armed (R72, R376). -/
def State.encArmed (s : State) (n : Fin 8) : Bool :=
  allHeads.any fun h => match s.jobOf h with
    | some j => j.encoder == n
    | none => false

def State.anyPlaced (s : State) : Bool := s.chains.toList.any fun c => c.placement.isSome

/-- ILV joins the pair of an even tile (R138). -/
def State.joined (s : State) (t : TileId) : Bool := t.val % 2 == 0 && (s.tiles[t]).ilv

/-! ### Panel and tile fields -/

/-- TEO follows its source (R406): held at 0, the TRIG line, which is low between its pulses, or a slice output. -/
def teoRefresh (t : TileId) (s : State) : State :=
  let x := s.tiles[t]
  let lvl := match x.teoSrc with
    | 2 => x.sliceOut.getLsbD x.teoOut
    | _ => false
  if x.teo = lvl then s else launch (teoLaunch t lvl) (s.modTile t fun x => { x with teo := lvl })

/-- The effects of a new T_ADC on the SAR: EN starts and stops it, ROUTE 2 starts the chain, a MUX write opens the CHG
window, a clear ILV ends SOLO (R126, R132, R138, R140, R147). A SAR that is set free-running starts 8 FCK cycles later (DESIGN
CHOICE, log 75). -/
def adcWritten (t : TileId) (old : Word) (m : Word) (s : State) : State :=
  let new := (s.tiles[t]).adc
  let on := new.getLsbD 0 && old.getLsbD 0
  let s := if m &&& 0xFC000000#32 ≠ 0 then s.modTile t fun x => { x with sar := { x.sar with chgPend := true } } else s
  let s := s.modTile t fun x => { x with sar := { x.sar with ilv := new.getLsbD 14, solo := x.sar.solo && new.getLsbD 14 } }
  if !s.tileLive t then s
  else if new.getLsbD 0 && !old.getLsbD 0 then sarStart t 8 s
  else if !new.getLsbD 0 && old.getLsbD 0 then sarStop t s
  else
    let s := if on && new.getLsbD 13 != old.getLsbD 13 && !s.converting t then sarSchedule t (s.aon.fck + 8) s else s
    if on && Word.field new 17 16 == 2 && Word.field old 17 16 != 2 then chainStart t false (s.nextTime t) s else s

/-- The effects of a new T_CMPA or T_CMPB: power, input, levels, routes and the host summary (R153 to R156, R161, R163). What was
given for the input does not hold for another one. -/
def cmpWritten (t : TileId) (c : Cmp) (old : Word) (was : Bool) (sum : Bool) (s : State) : State :=
  let x := (s.tiles[t]).cmp c
  let s := if (old ^^^ x.cfg) &&& 0x0000E000#32 = 0 then s else s.modCmp t c fun x => { x with seen := none }
  let s := if (old ^^^ x.cfg).getLsbD 2 then s.modCmp t .b fun x => { x with seen := none } else s
  let s := if x.en then cmpPowerUp t c s else if x.powered then cmpPowerDown t c s else s
  cmpSummary t c sum (cmpLooks t (cmpRoute t c was s))

/-- A write of the fields under `m` of a tile register. -/
def setTile (t : TileId) (r : TReg) (v m : Word) (s : State) : State :=
  match r with
  | .state => s
  | .ctrl => teoRefresh t (s.modTile t fun x => { x with ctrl := Word.merge x.ctrl v m })
  | .pga =>
    if m = 0 then s
    else cmpLooks t (s.modTile t fun x => { x with pga := Word.merge x.pga v m, sar := { x.sar with chgPend := true } })
  | .adc =>
    let old := (s.tiles[t]).adc
    adcWritten t old m (s.modTile t fun x => { x with adc := Word.merge x.adc v m })
  | .cmp c =>
    let x := (s.tiles[t]).cmp c
    let sum := (s.tiles[t]).cmpSum c
    cmpWritten t c x.cfg x.routed sum (s.modCmp t c fun x => { x with cfg := Word.merge x.cfg v m })
  | .dac => cmpLooks t (s.modTile t fun x => { x with dac := Word.merge x.dac v m })
  | .trwl => s.modTrowel t fun x => { x with cfg := Word.merge x.cfg v m }
  | .eng => if m.getLsbD 24 then s.modEng t fun e => { e with hostEv := v.getLsbD 24 } else s
  | .flt =>
    let now := s.aon.fck
    let s := cmpLooks t (s.modTile t fun x => { x with flt := Word.merge x.flt v m }.bqRestart x.flt now)
    match s.feeder t with
    | some o => if m &&& 0xF0000000#32 ≠ 0 && s.tileLive t then chainStart t false (s.nextTime o) s else s
    | none => s

/-- A rail within 2 % of its set value stays good through a change of VSET (R93). -/
def vsetGood (old new : Nat) : Bool := decide (50 * ((max old new) - (min old new)) ≤ new)

/-- A write of the fields under `m` of a panel register. -/
def setPanel (p : PanelId) (r : PReg) (v m : Word) (s : State) : State :=
  let hi := fun (old : BitVec 16) => (Word.merge (Word.put old.toNat 16) v m).extractLsb' 16 16
  let lo := fun (old : BitVec 16) => (Word.merge (Word.put old.toNat 0) v m).setWidth 16
  match r with
  | .linkCnt => s.modPanel p fun x => { x with replayed := hi x.replayed, failed := lo x.failed }
  | .ref =>
    let now := s.aon.fck
    let s := s.modPanel p fun x =>
      let new := Word.merge x.ref v m
      if Word.field new 25 24 = Word.field x.ref 25 24 then { x with ref := new }
      else { x with ref := new, refOk := false, refFault := false, refAt := now }
    (tilesOf p).foldl (fun s t => cmpLooks t s) s
  | .pvh =>
    s.modPanel p fun x =>
      let new := min 1000 (Word.field (Word.merge (x.vset.setWidth 32) v m) 9 0)
      { x with vset := BitVec.ofNat 10 new, pvhOk := x.pvhOk && vsetGood x.rail50 (240 + new) }
  | .fireCnt => s.modPanel p fun x => { x with overspeed := hi x.overspeed, powerCap := lo x.powerCap }
  | .cmpFilt k => s.modPanel p fun x => { x with cmpFilt := x.cmpFilt.set k (Word.merge x.cmpFilt[k] v m) }
  | .cmpCnt => s.modPanel p fun x => { x with overrun := hi x.overrun, falseWake := lo x.falseWake }
  | .echoCnt => s.modPanel p fun x => { x with echoTransient := hi x.echoTransient, echoLasting := lo x.echoLasting }
  | .listen => s.modPanel p fun x => { x with listen := Word.merge x.listen v m }
  | .cls0 => s.modPanel p fun x => { x with cls0 := Word.merge x.cls0 v m }
  | .cls1 => s.modPanel p fun x => { x with cls1 := Word.merge x.cls1 v m }
  | .gmon => purgeCheck p (s.modPanel p fun x => { x with gmon := Word.merge x.gmon v m })
  | .lsnCnt => s.modPanel p fun x =>
      let new := Word.merge (Word.put x.listened.toNat 16 ||| Word.put x.skipped.toNat 8 ||| Word.put x.stolen.toNat 0) v m
      { x with listened := new.extractLsb' 16 16, skipped := new.extractLsb' 8 8, stolen := new.setWidth 8 }
  | .cal => if m.getLsbD 31 then s.modPanel p fun x => { x with calInterp := v.getLsbD 31 } else s
  | _ => s

/-- The configuration memory word of a panel or tile register is written (R307, R310, R316). -/
def cfgWrite (r : Reg) (s : State) : State :=
  match r with
  | .panel p _ => checkWrite ⟨7, p.val, Config.cfgWord r.off % 8192⟩ (r.off % 8) 4 s
  | .tile t _ => checkWrite ⟨6, t.val, Config.cfgWord r.off % 1024⟩ (r.off % 8) 4 s
  | _ => s

/-! ### The global registers -/

/-- Regions 1 to 3 of every tile's buffer memory are primed under new codes (R311). -/
def primeBuffers (s : State) : State :=
  let keep := fun e : WordErr => !(decide (2 ≤ e.loc.region.val ∧ e.loc.region.val ≤ 4))
  { s with mem := { s.mem with memBusy := true, errs := s.mem.errs.filter keep },
           tiles := s.tiles.map fun x => { x with buffer := x.buffer.clear 0x4000 0xC000 } }

/-- HLV follows HLV_CTRL and the module state: a changed or newly enabled supply is not yet good, a disabled one is off
(R276). -/
def hlvFollow (old : Word) (s : State) : State :=
  let on := hlvEn s.pwr.hlvCtrl && s.pwr.mode.up
  let same := hlvEn old && Word.field old 25 24 == Word.field s.pwr.hlvCtrl 25 24
  if on && same then s else { s with pwr := { s.pwr with hlvOk := false, hrstHold := true } }

/-- Software values of the pins of a 16-pin group (R365). -/
def gpioWrite (k : Fin 8) (v : Word) (s : State) : State :=
  (List.finRange 16).foldl (fun s (j : Fin 16) =>
    let p := pin16 k j
    if v.getLsbD (16 + j.val) && (s.gpio.pins[p]).out != v.getLsbD j.val then
      pinSample p (s.modPin p fun x => { x with out := v.getLsbD j.val })
    else s) s

/-- PINCFG takes new fields: a function change holds the pin at IDLE (R364). -/
def pincfgSet (p : PinId) (v m : Word) (s : State) : State :=
  let old := (s.gpio.pins[p]).cfg
  let new := Word.merge old v m
  let s := s.modPin p fun x => { x with cfg := new }
  istRefresh p (if (old ^^^ new) &&& functionMask ≠ 0 then pinHold p s else pinSample p s)

/-- Applies `f` for each bit of a 32-pin group. -/
def each32 (f : Fin 32 → State → State) (s : State) : State :=
  (List.finRange 32).foldl (fun s j => f j s) s

/-- New half of a 64-bit base address. -/
def setLo (a : BitVec 64) (v m : Word) : BitVec 64 := hiHalf a ++ Word.merge (loHalf a) v m
def setHi (a : BitVec 64) (v m : Word) : BitVec 64 := Word.merge (hiHalf a) v m ++ loHalf a

/-- The RW fields of a register under `m` take the value `v`, with what the manual says happens then. Registers whose
writes start something of their own (queues, security, power) are completed by `hostWrite`. -/
def setReg (r : Reg) (v m : Word) (s : State) : State :=
  match r with
  | .tempCore => { s with pwr := { s.pwr with peakTemp := v.extractLsb' 16 16 } }
  | .scratch k => { s with scratch := s.scratch.set k v }
  | .pwrCtrl => { s with aon := { s.aon with pwrCtrl := Word.merge s.aon.pwrCtrl v m } }
  | .hlvCtrl => hlvFollow s.pwr.hlvCtrl { s with pwr := { s.pwr with hlvCtrl := Word.merge s.pwr.hlvCtrl v m } }
  | .wakeCtrl => { s with aon := { s.aon with wakeCtrl := v &&& 0xF0000000#32 } }
  | .wakeTime => { s with aon := { s.aon with wakeTime := v } }
  | .pwrPeak => { s with pwr := { s.pwr with pinMax := v.extractLsb' 16 16, vinMin := v.setWidth 12 } }
  | .jsbCnt => { s with jsb := { s.jsb with sent := v.extractLsb' 24 8, received := v.extractLsb' 16 8,
                                            naks := v.extractLsb' 8 8, dropped := v.setWidth 8 } }
  | .cqBaseLo n => s.modCq n fun q => { q with base := setLo q.base v m }
  | .cqBaseHi n => s.modCq n fun q => { q with base := setHi q.base v m }
  | .cpBaseLo n => s.modCq n fun q => { q with cpBase := setLo q.cpBase v m }
  | .cpBaseHi n => s.modCq n fun q => { q with cpBase := setHi q.cpBase v m }
  | .cqCfg n => s.modCq n fun q =>
      let w := Word.merge q.cfg v m
      { q with prio := w.getLsbD 30, vector := vecOf w 24, size := w.extractLsb' 20 4 }
  | .stCfg n => s.modSt n fun q =>
      { q with vector := vecOf v 20, timeout := v.extractLsb' 12 8, thresh := v.setWidth 12 }
  | .pqBaseLo n => s.modPq n fun q => { q with base := setLo q.base v m }
  | .pqBaseHi n => s.modPq n fun q => { q with base := setHi q.base v m }
  | .pqCfg n => s.modPq n fun q =>
      let w := Word.merge (Word.put q.headId.val 24 ||| Word.put q.size.toNat 20) v m
      { q with headId := Fin.ofNat 8 (Word.field w 26 24), size := w.extractLsb' 20 4 }
  | .evVector => { s with ev := { s.ev with vector := v &&& 0x00003F3F#32 } }
  | .irqVec k => { s with ev := { s.ev with irqVec := s.ev.irqVec.set k (v &&& 0x3F3F3F3F#32) } }
  | .irqGap k => { s with ev := { s.ev with gap := s.ev.gap.set k v } }
  | .secBoot => { s with aon := { s.aon with secBoot := v &&& 0x80000013#32 } }
  | .scrubStat => { s with scrub := { s.scrub with corrected := v.extractLsb' 16 16, uncorr := v.setWidth 16 } }
  | .memFlipLo => { s with mem := { s.mem with flipLo := Word.merge s.mem.flipLo v m } }
  | .memFlipHi => { s with mem := { s.mem with flipHi := Word.merge s.mem.flipHi v m } }
  | .ledgerCtrl => { s with ledger := { s.ledger with exportMin := v.setWidth 2 } }
  | .tallyCfg => { s with tally := { s.tally with en := v.getLsbD 31 } }
  | .tallyCnt => { s with tally := { s.tally with crcErr := v.extractLsb' 24 8, retry := v.extractLsb' 16 8,
                                                  dropped := v.extractLsb' 8 8, ignored := v.setWidth 8 } }
  | .encCfg n => s.modEnc n fun x =>
      { x with cfg := Word.merge x.cfg v (m &&& 0x3E3FFF00#32), illegal := v.setWidth 8 }
  | .encScale n => s.modEnc n fun x => { x with scale := Word.merge x.scale v m }
  | .encCount n => s.modEnc n fun x => { x with count := Word.merge x.count v m }
  | .pinFilt k => { s with gpio := { s.gpio with filt := s.gpio.filt.set k (v &&& 0xFFFFFF00#32) } }
  | .pinCnt => { s with gpio := { s.gpio with overrun := v.extractLsb' 16 16, falseWake := v.setWidth 16 } }
  | .pincfg p => pincfgSet p v m s
  | .pinIen k => each32 (fun j s =>
      if m.getLsbD j.val then istRefresh (pinOf k j) (s.modPin (pinOf k j) fun x => { x with ien := v.getLsbD j.val })
      else s) s
  | .pinWake k => each32 (fun j s =>
      if m.getLsbD j.val then s.modPin (pinOf k j) fun x => { x with wake := v.getLsbD j.val } else s) s
  | .panel p q => setPanel p q v (m &&& q.rw p) (cfgWrite r s)
  | .tile t q => setTile t q v (m &&& q.rw t) (cfgWrite r s)
  | _ => s

/-! ### W1C bits -/

/-- STUCK is cleared by the host: events resume (R167). A first detection goes on to its watch (log 23). -/
def cmpUnstick (t : TileId) (c : Cmp) (s : State) : State :=
  let x := (s.tiles[t]).cmp c
  if x.stuck then
    let now := s.aon.ticks
    let was := x.routed
    let s := s.modCmp t c fun x =>
      { x with stuck := false, stuckPhase := if x.stuckPhase = .first then .watched now else .none,
               filt := x.acc, activeSince := if x.lvl then some now else none }
    cmpRoute t c was s
  else s

/-- PIN_STUCK is cleared by the host (R369). -/
def pinUnstick (p : PinId) (s : State) : State :=
  let x := s.gpio.pins[p]
  if x.stuck then
    let now := s.aon.ticks
    let s := s.modPin p fun x =>
      { x with stuck := false, stuckPhase := if x.stuckPhase = .first then .watched now else .none,
               activeSince := x.activeSince.map fun _ => now }
    launches (lineLaunches s p.val x.held) (istRefresh p s)
  else s

/-- LAT is cleared; the routed signal follows (R161, R162). -/
def cmpUnlatch (t : TileId) (c : Cmp) (s : State) : State :=
  let was := ((s.tiles[t]).cmp c).routed
  let now := s.aon.fck
  cmpRoute t c was (s.modCmp t c fun x => x.unlatch now)

/-- The bits of `m` written 1 of the register's W1C bits. -/
def clearReg (r : Reg) (m : Word) (s : State) : State :=
  match r with
  | .pwrMeas => if m.getLsbD 3 then { s with pwr := { s.pwr with overSeen := false } } else s
  | .hlvCtrl => if m.getLsbD 29 then { s with pwr := { s.pwr with hlvOver := false } } else s
  | .evStatus => { s with ev := { s.ev with status := s.ev.status &&& ~~~(m.setWidth 13) } }
  | .scrubCtrl => if m.getLsbD 31 then { s with scrub := { s.scrub with voteErr := false } } else s
  | .tallyStat =>
    let s := if m.getLsbD 29 then { s with tally := { s.tally with conflict := false } } else s
    if m.getLsbD 31 then pinsOfSource 2 { s with tally := { s.tally with hold := false } } else s
  | .encCfg n => if m.getLsbD 31 then s.modEnc n fun x => { x with ovs := false } else s
  | .pinIst k => each32 (fun j s =>
      if m.getLsbD j.val then istRefresh (pinOf k j) (s.modPin (pinOf k j) fun x => { x with ist := false }) else s) s
  | .pinStuck k => each32 (fun j s => if m.getLsbD j.val then pinUnstick (pinOf k j) s else s) s
  | .tile t .trwl => if m.getLsbD 31 then s.modTrowel t fun x => { x with reenable := x.reenable || x.trip, trip := false } else s
  | .tile t (.cmp c) =>
    let s := if m.getLsbD 30 then cmpUnlatch t c s else s
    if m.getLsbD 28 then cmpUnstick t c s else s
  | _ => s

/-! ### State rules (R394) -/

/-- ILV may not be set: the partner's SAR belongs to listening, or the partner is fenced or has EN set (R138). -/
def State.ilvRefused (s : State) (t : TileId) : Bool :=
  let u := partner t
  s.sarListens u || (s.tiles[u]).fenced || (s.tiles[u]).adcEn

/-- Bits that a host write to a tile register leaves alone now. -/
def tileLocked (s : State) (t : TileId) (r : TReg) (v : Word) : Word :=
  match r with
  | .ctrl => if (s.tiles[t]).placed then 0xF3FC0000#32 else 0
  | .pga => if s.sarListens t then 0xFFFFFFFF#32 else 0
  | .adc =>
    if s.sarListens t || (t.val % 2 == 1 && s.joined (partner t)) then 0xFFFFFFFF#32
    else
      (if Word.field v 31 26 = 0x3F then 1#32 else 0) |||
        (if v.getLsbD 14 && !(s.tiles[t]).ilv && t.val % 2 == 0 && s.ilvRefused t then 0x4000#32 else 0)
  | .trwl => if s.armedTile t then 0x0FFFF800#32 else 0
  | _ => 0

def panelLocked (s : State) (p : PanelId) (r : PReg) : Word :=
  if s.armedPanel p then
    match r with
    | .listen | .cls0 | .cls1 | .gmon => 0xFFFFFFFF#32
    | .pvh => 0x000003FF#32
    | .ref => 0x03000000#32
    | _ => 0
  else 0

/-- The allocation an HLV_CTRL value would lead to exceeds the grant (R261). -/
def State.hlvTooMuch (s : State) (v : Word) : Bool :=
  let new := Word.merge s.pwr.hlvCtrl v 0x0380FF00#32
  new != s.pwr.hlvCtrl && decide (s.pwr.grant.toNat < s.allocFor s.pwr.mode s.pwr.panels new)

/-- Pins of a group that are locked (R372). -/
def lockedPins (s : State) (k : Fin 4) : Word := pinWord s k (·.locked)

/-- The RW bits that a host write leaves alone under a state rule. -/
def locked (s : State) (r : Reg) (v : Word) : Word :=
  match r with
  | .hlvCtrl => if s.anyArmed || s.hlvTooMuch v then 0x0380FF00#32 else 0
  | .cqBaseLo n | .cqBaseHi n | .cpBaseLo n | .cpBaseHi n => if (s.cqs[n]).en then 0xFFFFFFFF#32 else 0
  | .cqCfg n => if (s.cqs[n]).en then 0x7FF00000#32 else 0
  | .pqBaseLo n | .pqBaseHi n => if (s.pqs[n]).en then 0xFFFFFFFF#32 else 0
  | .pqCfg n => if (s.pqs[n]).en then 0x07000000#32 else 0
  | .memCode => if s.anyPlaced || s.anyArmed then 0x3F#32 else 0
  | .memFlipLo | .memFlipHi => if s.mem.flipArm then 0xFFFFFFFF#32 else 0
  | .encCfg n => if s.encArmed n then 0x3E3FFF00#32 else 0
  | .encScale n | .encCount n => if s.encArmed n then 0xFFFFFFFF#32 else 0
  | .pincfg p => if (s.gpio.pins[p]).locked then pincfgMask else 0
  | .pinIen k | .pinWake k => lockedPins s k
  | .pwrRails => if Word.field (s.fnMode.setWidth 32) 15 14 = 1 then (if s.pwr.vddaGood then 0 else v &&& 0x00FF0000#32)
      else 0x00FF0100#32
  | .panel p q => panelLocked s p q
  | .tile t q => tileLocked s t q v
  | _ => 0

/-! ### The host's write -/

/-- The accepted part of a write and the ignored one: mask of RW bits taken, and whether the module ignores the write: a state
rule holds every RW field of the register, or one that the write would change (R72, R93, R106, R394, log 66). -/
def accept (s : State) (r : Reg) (v : Word) : Word × Bool :=
  let l := locked s r v &&& r.rw
  (r.rw &&& ~~~l, l != 0 && (l == r.rw || (readReg s r ^^^ v) &&& l != 0))

/-- THR of a comparator that a CMPSET has set in this FCK cycle: the engine's value remains (R199). -/
def State.thrKept (s : State) (r : Reg) : Word :=
  match r with
  | .tile t (.cmp c) => if ((s.tiles[t]).cmp c).setAt = some s.aon.fck then 0x0FFC0000#32 else 0
  | _ => 0

/-- A write of `v` to a register whose fields behave as stored fields. -/
def plainWrite (r : Reg) (v : Word) (s : State) : State :=
  let a := accept s r v
  let m := a.1 &&& ~~~(s.thrKept r)
  let s := clearReg r (v &&& r.w1c) s
  let s := setReg r v m s
  if a.2 then logIgnored r.off v s else s

/-- PWR_RAILS: the rails that software steps itself (R275). -/
def railsWrite (v : Word) (s : State) : State :=
  let a := accept s .pwrRails v
  let s := if a.1.getLsbD 8 then
      { s with pwr := { s.pwr with vddaEn := v.getLsbD 8, vddaGood := s.pwr.vddaGood && v.getLsbD 8 } }
    else s
  let s := allPanels.foldl (fun s p =>
    if a.1.getLsbD (16 + p.val) then
      let on := v.getLsbD (16 + p.val)
      let s := { s with pwr := { s.pwr with pvhEn := s.pwr.pvhEn.set p on } }
      s.modPanel p fun x => { x with pvhOn := on, pvhOk := x.pvhOk && on, crsDue := x.crsDue || !on }
    else s) s
  let s := noteRails s
  if a.2 then logIgnored (Reg.pwrRails).off v s else s

/-- HLV_CTRL: a write that R261 refuses sets OVER and raises POWER_OVER; a change of the request is sent (R259). -/
def hlvWrite (v : Word) (s : State) : State :=
  let tooMuch := !s.anyArmed && s.hlvTooMuch v
  let s := plainWrite .hlvCtrl v s
  let s := if tooMuch then raiseEvent .powerOver noUnit { s with pwr := { s.pwr with hlvOver := true } } else s
  reRequest false (noteRails s)

/-- MEM_CODE: a change primes buffer regions 1 to 3 (R311). -/
def memCodeWrite (v : Word) (s : State) : State :=
  let a := accept s .memCode v
  let new := Word.merge s.mem.memCode v a.1
  let s := if new = s.mem.memCode then s else primeBuffers { s with mem := { s.mem with memCode := new } }
  if a.2 then logIgnored (Reg.memCode).off v s else s

/-- MEM_FLIP_SEL: ARM is set unless REGION is 13 to 15 (R316). -/
def flipSelWrite (v : Word) (s : State) : State :=
  let arm := v.getLsbD 31 && decide (Word.field v 15 12 ≤ 12)
  { s with mem := { s.mem with flipSel := v &&& 0x0001F1FF#32, flipArm := s.mem.flipArm || arm } }

/-- SCRUB_CTRL goes to all three copies (R314). -/
def scrubCtrlWrite (v : Word) (s : State) : State :=
  (clearReg .scrubCtrl v s).setScrub fun c => { c with rate := v.setWidth 13 }

/-- EV_ENABLE: an enabled term that goes from 0 to 1 sends one message (R300). -/
def evEnableWrite (v : Word) (s : State) : State :=
  let new : BitVec 13 := v.setWidth 13
  let rise := s.ev.status &&& new &&& ~~~(s.ev.status &&& s.ev.enable)
  let s := { s with ev := { s.ev with enable := new } }
  if rise != 0 then raiseMsix (vecOf s.ev.vector 0) s else s

/-- CQn_CFG (R284, R289). -/
def cqCfgWrite (n : Fin 16) (v : Word) (s : State) : State :=
  let q := s.cqs[n]
  let a := accept s (.cqCfg n) v
  let s := if q.en then s else setReg (.cqCfg n) v a.1 s
  let s :=
    if v.getLsbD 31 then
      if q.en || q.inProgress != 0 then s
      else if q.base.toNat % 64 ≠ 0 ∨ q.cpBase.toNat % 16 ≠ 0 then s.modCq n fun q => { q with err := 3 }
      else s.modCq n fun q =>
        { q with en := true, head := 0, cpw := 0, tail := 0, cpHead := 0, phase := true, err := 0 }
    else s.modCq n fun q => { q with en := false }
  if a.2 then logIgnored (Reg.cqCfg n).off v s else s

/-- PQn_CFG (R297): an enable with a misaligned base, or of a head that another enabled queue carries, sets ERR to 3. -/
def pqCfgWrite (n : Fin 8) (v : Word) (s : State) : State :=
  let q := s.pqs[n]
  let a := accept s (.pqCfg n) v
  let s := setReg (.pqCfg n) v a.1 s
  let h := (s.pqs[n]).headId
  let s :=
    if v.getLsbD 31 then
      if q.en then s
      else if q.base.toNat % 32 ≠ 0 ∨ (List.finRange 8).any (fun k => k != n && (s.pqs[k]).en && (s.pqs[k]).headId == h)
      then s.modPq n fun q => { q with err := 3 }
      else s.modPq n fun q => { q with en := true, rdidx := 0, tail := 0, err := 0 }
    else s.modPq n fun q => { q with en := false }
  if a.2 then logIgnored (Reg.pqCfg n).off v s else s

/-- PIN_LOCK: two consecutive writes lock a pin (R372). -/
def pinLockWrite (v : Word) (s : State) : State :=
  let p : PinId := Fin.ofNat 128 (Word.field v 6 0)
  let key := Word.field v 15 8
  if key = 0x93 ∧ s.gpio.lockFirst = some p then
    ({ s with gpio := { s.gpio with lockFirst := none } }).modPin p fun x => { x with locked := true }
  else { s with gpio := { s.gpio with lockFirst := if key = 0x6C then some p else none } }

/-- A ledger entry for fuses, whose kind and arguments the manual does not give (R340, log 24). -/
def logFuse (cls : LClass) (s : State) : State :=
  let (w, s) := s.drawWord
  log cls (w.setWidth 8) srcModule 0 0 0 s

/-- The fuse blow of R340: one retry, then FUSE_FAIL and a lasting entry. -/
def blowFuses (fuse : Attempt) (good : State → State) (s : State) : State :=
  match fuse with
  | .clean => good { s with sec := { s.sec with fuseFail := false } }
  | .second => logFuse .transient (good { s with sec := { s.sec with fuseFail := false } })
  | .failed => logFuse .lasting { s with sec := { s.sec with fuseFail := true } }

def lcOf (n : Nat) : Lifecycle :=
  match n with
  | 0 => .blank | 1 => .opened | 2 => .closed | _ => .returned

/-- SEC_LC_ADV: the two-write lifecycle advance (R340). -/
def lcAdvWrite (v : Word) (fuse : Attempt) (s : State) : State :=
  let key := Word.field v 15 8
  let target := Word.field v 1 0
  let next := target == s.sec.lifecycle.code + 1
  let first := s.sec.lcFirst
  let s := { s with sec := { s.sec with lcFirst := none } }
  if !next then s
  else if key = 0x5A then { s with sec := { s.sec with lcFirst := some (BitVec.ofNat 2 target) } }
  else if key = 0xA7 ∧ first = some (BitVec.ofNat 2 target) then
    if s.sec.lifecycle = .opened ∧ s.sec.keyBits = 0 then s
    else blowFuses fuse (fun s => { s with sec := { s.sec with pendingLc := lcOf target } }) s
  else s

/-- The key in the data registers: word k holds key bytes 4k to 4k + 3 (R341). -/
def Sec.keyValue (x : Sec) : BitVec 256 :=
  BitVec.ofNat 256 ((List.finRange 8).foldl (fun n (k : Fin 8) => n + (x.keyData[k]).toNat * 2 ^ (32 * k.val)) 0)

/-- SEC_KEY_CMD: programs a key slot in OPEN (R341). -/
def keyCmdWrite (v : Word) (fuse : Attempt) (s : State) : State :=
  let k : Fin 2 := if v.getLsbD 0 then 1 else 0
  if Word.field v 15 8 = 0x3C ∧ s.sec.lifecycle = .opened ∧ s.sec.keys[k] = none then
    let key := s.sec.keyValue
    let s := { s with sec := { s.sec with keyData := Vector.replicate 8 0 } }
    blowFuses fuse (fun s => { s with sec := { s.sec with keys := s.sec.keys.set k (some key) } }) s
  else s

/-- PWR_CTRL: LEAVE_DORMANT acts in DORMANT only, where it starts a module reset of cause 2 (R271, R254). -/
def leaveDormant (s : State) : State :=
  if s.pwr.mode = .dormant then { s with aon := { s.aon with resetDue := some 2 } } else s
/-- LEAVE_DORMANT reads 1 from a write that acts to the reset it starts, and 0 at once after any other (R4, R271). -/
def pwrCtrlWrite (v : Word) (s : State) : State :=
  let s := setReg .pwrCtrl v (Reg.pwrCtrl).rw s
  if v.getLsbD 31 && s.pwr.mode == .dormant then leaveDormant { s with aon := { s.aon with leave := true } } else s

/-- A write to a register, by register. -/
def regWrite (r : Reg) (v : Word) (s : State) : State :=
  match r with
  | .pwrCtrl => pwrCtrlWrite v s
  | .pwrRails => railsWrite v s
  | .hlvCtrl => hlvWrite v s
  | .memCode => memCodeWrite v s
  | .memFlipSel => flipSelWrite v s
  | .scrubCtrl => scrubCtrlWrite v s
  | .evEnable => evEnableWrite v s
  | .cqCfg n => cqCfgWrite n v s
  | .pqCfg n => pqCfgWrite n v s
  | .pinLock => pinLockWrite v s
  | .secLcAdv => lcAdvWrite v .clean s
  | .secKeyCmd => keyCmdWrite v .clean s
  | .secKeyData k => { s with sec := { s.sec with keyData := s.sec.keyData.set k v } }
  | .gpioOut k => gpioWrite k v s
  | r => plainWrite r v s

/-- The endpoint decodes memory accesses: powered, out of PERST, not in D3hot (R256). -/
def State.decodes (s : State) : Bool := s.aon.up && !s.link.perst && !s.link.d3hot

/-- A write by the host in the present module and panel state (R271, R395): `f` is what the register makes of it. -/
def hostReg (r : Reg) (v : Word) (f : State → State) (s : State) : State :=
  if !s.decodes then s
  else if s.pwr.mode = .dormant then (if r = .pwrCtrl then f s else s)
  else match r.panelOf with
    | some p =>
      if s.pstate p = .off then
        if (s.panels[p]).offWarned then s
        else logIgnored r.off v (s.modPanel p fun x => { x with offWarned := true })
      else f s
    | none => f s

/-- A 4-byte write to a register (R392). -/
def hostWriteReg (r : Reg) (v : Word) (s : State) : State := hostReg r v (regWrite r v) s

/-! ### Rows -/

/-- REGISTER_WRITE: a BAR0 write. Fewer than 4 bytes, more than one DWORD, a reserved position and a misaligned offset are
ignored (R392, R393). -/
def execRegisterWrite (off : BitVec 16) (v : Word) (size : Nat) (s : State) : Result :=
  .next (if size = 4 then match regAt off.toNat with
      | some r => hostWriteReg r v s
      | none => s
    else s)

/-- CQ_ENABLE and CQ_STOP: a write of CQn_CFG (R284, R289). -/
def execCqEnable (n : Fin 16) (v : Word) (s : State) : Result := .next (hostReg (.cqCfg n) v (cqCfgWrite n v) s)
def execCqStop (n : Fin 16) (v : Word) (s : State) : Result := .next (hostReg (.cqCfg n) v (cqCfgWrite n v) s)
/-- PQ_ENABLE and PQ_STOP: a write of PQn_CFG (R297). -/
def execPqEnable (n : Fin 8) (v : Word) (s : State) : Result := .next (hostReg (.pqCfg n) v (pqCfgWrite n v) s)
def execPqStop (n : Fin 8) (v : Word) (s : State) : Result := .next (hostReg (.pqCfg n) v (pqCfgWrite n v) s)
/-- LEAVE_DORMANT: a write of PWR_CTRL (R271). -/
def execLeaveDormant (v : Word) (s : State) : Result := .next (hostReg .pwrCtrl v (pwrCtrlWrite v) s)
def execSecLcAdvWrite (v : Word) (fuse : Attempt) (s : State) : Result :=
  .next (hostReg .secLcAdv v (lcAdvWrite v fuse) s)
def execSecKeyCmdWrite (v : Word) (fuse : Attempt) (s : State) : Result :=
  .next (hostReg .secKeyCmd v (keyCmdWrite v fuse) s)
def execPinLockWrite (v : Word) (s : State) : Result := .next (hostReg .pinLock v (pinLockWrite v) s)
def execMemFlipArm (v : Word) (s : State) : Result := .next (hostReg .memFlipSel v (flipSelWrite v) s)
def execMemCodeWrite (v : Word) (s : State) : Result := .next (hostReg .memCode v (memCodeWrite v) s)
/-- TRIP_CLEAR: a write of T_TRWL; TRIP written 1 schedules the re-enable (R96). -/
def execTripClear (t : TileId) (v : Word) (s : State) : Result :=
  .next (hostReg (.tile t .trwl) v (plainWrite (.tile t .trwl) v) s)
def execComparatorStuckClear (t : TileId) (c : Cmp) (v : Word) (s : State) : Result :=
  .next (hostReg (.tile t (.cmp c)) v (plainWrite (.tile t (.cmp c)) v) s)
def execPinStuckClear (k : Fin 4) (v : Word) (s : State) : Result :=
  .next (hostReg (.pinStuck k) v (plainWrite (.pinStuck k) v) s)
def execGpioOutWrite (k : Fin 8) (v : Word) (s : State) : Result := .next (hostReg (.gpioOut k) v (gpioWrite k v) s)
def execScrubCtrlWrite (v : Word) (s : State) : Result := .next (hostReg .scrubCtrl v (scrubCtrlWrite v) s)
def execEncCountWrite (n : Fin 8) (v : Word) (s : State) : Result :=
  .next (hostReg (.encCount n) v (plainWrite (.encCount n) v) s)
def execAdcEnableWrite (t : TileId) (v : Word) (s : State) : Result :=
  .next (hostReg (.tile t .adc) v (plainWrite (.tile t .adc) v) s)
def execIlvWrite (t : TileId) (v : Word) (s : State) : Result :=
  .next (hostReg (.tile t .adc) v (plainWrite (.tile t .adc) v) s)
def execDecWrite (t : TileId) (v : Word) (s : State) : Result :=
  .next (hostReg (.tile t .flt) v (plainWrite (.tile t .flt) v) s)
def execRefSelectWrite (p : PanelId) (v : Word) (s : State) : Result :=
  .next (hostReg (.panel p .ref) v (plainWrite (.panel p .ref) v) s)
def execComparatorEnableWrite (t : TileId) (c : Cmp) (v : Word) (s : State) : Result :=
  .next (hostReg (.tile t (.cmp c)) v (plainWrite (.tile t (.cmp c)) v) s)
def execVsetWrite (p : PanelId) (v : Word) (s : State) : Result :=
  .next (hostReg (.panel p .pvh) v (plainWrite (.panel p .pvh) v) s)
def execPvhEnWrite (v : Word) (s : State) : Result := .next (hostReg .pwrRails v (railsWrite v) s)
def execHlvCtrlWrite (v : Word) (s : State) : Result := .next (hostReg .hlvCtrl v (hlvWrite v) s)
def execEvEnableWrite (v : Word) (s : State) : Result := .next (hostReg .evEnable v (evEnableWrite v) s)

/-- SYSTIME_LO_READ: returns the low half and latches the high half (R401). -/
def execSystimeLoRead (s : State) : Result :=
  .next (if s.pwr.mode = .dormant || !s.decodes then s.send (.read 0xFFFFFFFF#32)
    else { s with aon := { s.aon with sysHiLatch := hiHalf s.aon.sysNow } }.send (.read (loHalf s.aon.sysNow)))

/-- MEM_CODE_PRIME_DONE: priming ends and BUSY clears (R311). -/
def execMemCodePrimeDone (s : State) : Result := .next { s with mem := { s.mem with memBusy := false } }

/-- The scrubber's share of a shared-memory access (R308, R316): every word of a host access is checked. -/
def sharedWords (off n : Nat) : List Nat := ((List.range n).map fun k => (off + k) / 8).eraseDups

/-- The module has written into a partition since the primer (R21, R22, log 71): the print store with a job, glyph table or date
slot, ring staging with the first descriptor, module services once it has booted. -/
def State.partUsed (s : State) (region : Nat) : Bool :=
  match region with
  | 8 => (s.jobs.toList.any fun j => j.jdef.isSome) || (s.glyphs.toList.any fun g => g.height != 0) ||
      s.dates.slots.toList.any fun d => !d.strings.isEmpty
  | 9 => s.turns != 0
  | 10 => false
  | _ => s.pwr.mode != .booting

/-- The ledger entry that holds a shared memory offset (R22, R322). -/
def State.entryAt (s : State) (off : Nat) : Option Entry :=
  if sharedRegion off = 10 then s.ledger.entries.find? fun e => e.slot == (off - sharedBase 10) / 32 else none

/-- A byte of shared memory; `free` where the module has written it in a layout that the manual does not give (log 8, log 71). -/
def State.sharedByte (s : State) (off : Nat) (free : Byte) : Byte :=
  match s.entryAt off with
  | some e => e.bytes.getD (off % 32) 0
  | none => (sharedLook s.shared off).getD (if s.partUsed (sharedRegion off).val then free else 0)

/-- The host writes a byte of shared memory, a ledger entry's own bytes where one is there. -/
def sharedSet (off : Nat) (b : Byte) (s : State) : State :=
  match s.entryAt off with
  | some e =>
    let e' := e.stored (e.bytes.set (off % 32) b)
    { s with ledger := { s.ledger with entries := replaceFirst (· == e) (fun _ => e') s.ledger.entries } }
  | none => { s with shared := sharedPut s.shared off b }

def sharedSets (off : Nat) : List Byte → State → State
  | [], s => s
  | b :: bs, s => sharedSets (off + 1) bs (sharedSet off b s)

/-- Reads `n` bytes of shared memory. -/
def sharedRead (off n : Nat) (s : State) : List Byte × Bool × State :=
  (sharedWords off n).foldl (fun (acc : List Byte × Bool × State) (w : Nat) =>
    let (good, m, s) := checkReadBy false (sharedLoc (8 * w)) acc.2.2
    let lo := max off (8 * w)
    let hi := min (off + n) (8 * w + 8)
    let (free, s) := s.drawWord
    let raw := (List.range (hi - lo)).map fun k =>
      s.sharedByte (lo + k) (free.extractLsb' (8 * ((lo + k) % 8)) 8)
    (acc.1 ++ (List.range (hi - lo)).zipWith (fun k b => b ^^^ m.extractLsb' (8 * ((lo + k) % 8)) 8) raw,
      acc.2.1 || !good, s)) ([], false, s)

/-- SHARED_MEMORY_ACCESS: a host access to BAR4 (R256). -/
def execSharedMemoryAccess (off : BitVec 28) (len : Nat) (data : Option (List Byte)) (s : State) : Result :=
  .next (
    let o := off.toNat
    let opened := s.sec.lifecycle == .opened && s.pwr.mode != .dormant && s.decodes
    match data with
    | none =>
      let inside := if opened && decide (o < 0x2000000) then min len (0x2000000 - o) else 0
      let r := sharedRead o inside s
      r.2.2.send (.readBytes (r.1 ++ List.replicate (len - inside) 0) r.2.1)
    | some bs =>
      if opened && decide (o < 0x2000000) then
        let bs := bs.take (0x2000000 - o)
        let s := (sharedWords o bs.length).foldl (fun s w =>
          let lo := max o (8 * w)
          let hi := min (o + bs.length) (8 * w + 8)
          checkWrite (sharedLoc (8 * w)) (lo % 8) (hi - lo) s) s
        sharedSets o bs s
      else s)

end Sys2Proof.Machine
end

