-- ==== Sys2Proof/Machine/Fabric.lean ====
section
/-!
DEFINITION. The fabric slice of a tile (R224 to R227): LUTs, carry chains, flip-flops, local lines and LUT-RAM primitives, as
the tile's netlist frames set them, and one edge of their clock.
-/
namespace Sys2Proof.Machine

open Sys2Proof

/-! ### The netlist (R224) -/

/-- `n` bytes of the frames from a byte offset inside one frame; an absent frame is zero. -/
def sliceBytes (fs : List (Nat × List Byte)) (a n : Nat) : Nat :=
  match fs.find? fun f => f.1 == a / 128 with
  | some f => le f.2 (a % 128) n
  | none => 0

/-- LUT record `i`, entry `j` of the line table, record `k` of the LUT-RAM primitives. -/
def lutRecord (fs : List (Nat × List Byte)) (i : Nat) : BitVec 128 := BitVec.ofNat 128 (sliceBytes fs (16 * i) 16)
def lineEntry (fs : List (Nat × List Byte)) (j : Nat) : BitVec 16 := BitVec.ofNat 16 (sliceBytes fs (2048 + 2 * j) 2)
def ramRecord (fs : List (Nat × List Byte)) (k : Nat) : BitVec 16 := BitVec.ofNat 16 (sliceBytes fs (2304 + 2 * k) 2)

/-- Flip-flops at reset: FF0_INIT and FF1_INIT (R225). -/
def ffInit (fs : List (Nat × List Byte)) : BitVec 256 :=
  (List.range 128).foldl (fun v i =>
    let r := lutRecord fs i
    v ||| ((BitVec.ofNat 256 ((r.getLsbD 123).toNat + 2 * (r.getLsbD 122).toNat)) <<< (2 * i))) 0

/-- The slice starts from its reset: flip-flops at their initial values, outputs at 0 until the next edge. -/
def sliceReset (t : TileId) (s : State) : State :=
  teoRefresh t (s.modTile t fun x => { x with ffs := ffInit x.frames, sliceOut := 0, pulses := 0 })

/-! ### Signals (R226) -/

/-- The 64 inputs of the slice of tile `t`. -/
def State.sliceIn (s : State) (t : TileId) : BitVec 64 :=
  let x := s.tiles[t]
  let bit := fun (b : Bool) (i : Nat) => (BitVec.ofNat 64 b.toNat) <<< i
  bit x.tei[0] 0 ||| bit x.tei[1] 1 ||| bit x.tei[2] 2 ||| bit x.cmpA.routed 3 ||| bit x.cmpB.routed 4 |||
    bit (x.pulses.getLsbD 0) 5 ||| bit (x.pulses.getLsbD 1) 6 ||| bit (x.pulses.getLsbD 2) 7 |||
    ((x.dataIn.setWidth 24).setWidth 64 <<< 8) ||| bit (x.pulses.getLsbD 3) 32 |||
    (if (s.tiles[partner t]).sheet != x.sheet || (s.tiles[partner t]).fenced then (0 : BitVec 64)
      else (((s.tiles[partner t]).sliceOut).setWidth 31).setWidth 64 <<< 33)

/-- A 7-bit select: a slice input or a local line. -/
def sliceSel (inp lines : BitVec 64) (k : Nat) : Bool := if k < 64 then inp.getLsbD k else lines.getLsbD (k - 64)

/-- The number that the six inputs of a LUT spell, input 0 least. -/
def lutIndex (r : BitVec 128) (inp lines : BitVec 64) : Nat :=
  ((List.range 6).map fun k => (sliceSel inp lines (r.extractLsb' (64 + 7 * k) 7).toNat).toNat * 2 ^ k).sum

/-- Index, LUT output and carry sum of each LUT. -/
structure LutValue where
  index : Nat
  out : Bool
  sum : Bool

/-- The LUTs in ascending order with the carry between them (R225); a chain that no start opens begins at 0. -/
def lutValues (inp lines : BitVec 64) : Bool → List (BitVec 128) → List LutValue
  | _, [] => []
  | c, r :: rs =>
    let i := lutIndex r inp lines
    let mode := (r.extractLsb' 106 2).toNat
    let cin := match mode with
      | 2 => false
      | 3 => true
      | _ => c
    let p := r.getLsbD (i % 32)
    let cout := if mode = 0 then false else if p then cin else r.getLsbD (32 + i % 32)
    ⟨i, r.getLsbD i, p != cin⟩ :: lutValues inp lines cout rs

/-- A signal of the line table by its SOURCE code. -/
def sliceSource (x : Tile) (vs : List LutValue) (code : Nat) : Bool :=
  if code < 128 then ((vs[code]?).map (·.out)).getD false
  else if code < 384 then x.ffs.getLsbD (code - 128)
  else if code < 640 then
    let k := code - 384
    let a := ((vs[k % 128]?).map (·.index)).getD 0
    (x.lutRam.get (8 * k + a / 8)).getLsbD (a % 8)
  else false

/-- Entries `[j, j + 64)` of the line table: local lines from 0, outputs from 64. -/
def tableBits (x : Tile) (vs : List LutValue) (j : Nat) : BitVec 64 :=
  (List.range 64).foldl (fun v i =>
    let e := lineEntry x.frames (j + i)
    if e.getLsbD 15 && sliceSource x vs (e.setWidth 10).toNat then v ||| (1#64 <<< i) else v) 0

/-- One pass over the slice with the lines as they stand. -/
def Tile.lutsAt (x : Tile) (inp lines : BitVec 64) : List LutValue :=
  lutValues inp lines false ((List.range 128).map (lutRecord x.frames))

/-- `n` passes: each line settles once all it depends on has. -/
def Tile.settle (x : Tile) (inp : BitVec 64) : Nat → BitVec 64 → BitVec 64
  | 0, lines => lines
  | n + 1, lines => x.settle inp n (tableBits x (x.lutsAt inp lines) 0)

/-- The local lines: 64 lines settle in 64 passes unless they form a loop, whose value the manual leaves open. -/
def Tile.lines (x : Tile) (inp : BitVec 64) : BitVec 64 :=
  let l := x.settle inp 64 0
  if x.settle inp 1 l = l then l else Config.loopLines x.ffs inp

/-! ### The clock edge (R225, R227) -/

/-- The next value of one flip-flop of a LUT; `k` is 0 or 1. -/
def ffNext (r : BitVec 128) (v : LutValue) (inp lines : BitVec 64) (k : Nat) (old : Bool) : Bool :=
  let code := (r.extractLsb' (126 - 2 * k) 2).toNat
  let sr := (r.extractLsb' 108 7).toNat
  let ce := (r.extractLsb' 115 7).toNat
  let reset := sr != 0x7F && sliceSel inp lines sr
  let enable := ce == 0x7F || sliceSel inp lines ce
  let data := match code with
    | 0 => v.out
    | 1 => v.sum
    | _ => sliceSel inp lines (r.extractLsb' 64 7).toNat
  if code = 3 then old
  else if reset && (enable || !Config.resetNeedsEnable) then r.getLsbD (123 - k)
  else if enable then data else old

/-- The flip-flops after an edge. -/
def Tile.ffsNext (x : Tile) (vs : List LutValue) (inp lines : BitVec 64) : BitVec 256 :=
  ((withIndex vs).foldl (fun f v =>
    let r := lutRecord x.frames v.1
    let b := fun k => ffNext r v.2 inp lines k (x.ffs.getLsbD (2 * v.1 + k))
    f ||| ((BitVec.ofNat 256 ((b 0).toNat + 2 * (b 1).toNat)) <<< (2 * v.1))) (0#256))

/-- The bits that LUT-RAM primitives write at an edge: byte offset, bit and value. -/
def Tile.ramWrites (x : Tile) (vs : List LutValue) (inp lines : BitVec 64) : List (Nat × Nat × Bool) :=
  (List.range 256).filterMap fun k =>
    let r := ramRecord x.frames k
    let a := ((vs[k % 128]?).map (·.index)).getD 0
    if r.getLsbD 15 && sliceSel inp lines (r.extractLsb' 8 7).toNat then
      some (8 * k + a / 8, a % 8, sliceSel inp lines (r.extractLsb' 1 7).toNat)
    else none

/-- One bit of LUT-RAM is written. -/
def ramWrite (t : TileId) (w : Nat × Nat × Bool) (s : State) : State :=
  let s := checkWrite ⟨5, t.val, w.1 / 8⟩ (w.1 % 8) 1 s
  s.modTile t fun x =>
    let old := x.lutRam.get w.1
    let m : Byte := 1#8 <<< w.2.1
    { x with lutRam := x.lutRam.put w.1 (if w.2.2 then old ||| m else old &&& ~~~m) }

/-- The outputs that the slice shows after its next edge, and the flip-flops and writes of that edge. -/
structure SliceEdge where
  ffs : BitVec 256
  writes : List (Nat × Nat × Bool)
  inp : BitVec 64

def State.sliceEdge (s : State) (t : TileId) : SliceEdge :=
  let x := s.tiles[t]
  let inp := s.sliceIn t
  let lines := x.lines inp
  let vs := x.lutsAt inp lines
  { ffs := x.ffsNext vs inp lines, writes := x.ramWrites vs inp lines, inp }

/-- Output bits of a slice with its flip-flops as they stand. -/
def Tile.outputs (x : Tile) (inp : BitVec 64) : BitVec 64 := tableBits x (x.lutsAt inp (x.lines inp)) 64

/-- One clock edge of the slice of a tile, without its TEO. -/
def sliceStep (t : TileId) (s : State) : State :=
  let e := s.sliceEdge t
  let s := e.writes.foldl (fun s w => ramWrite t w s) s
  let s := s.modTile t fun x => { x with ffs := e.ffs, pulses := 0 }
  let out := (s.tiles[t]).outputs e.inp
  s.modTile t fun x => { x with sliceOut := out }

/-- The slice is clocked: it holds a netlist, its tile is in service and fast clocks run. -/
def State.sliceRuns (s : State) (t : TileId) : Bool :=
  let x := s.tiles[t]
  s.fastOn && s.tileLive t && !x.fenced && !x.inReset && !x.frames.isEmpty

/-- One clock edge of the slice: an output that feeds TEO launches its event (R168). -/
def sliceClock (t : TileId) (s : State) : State := if s.sliceRuns t then teoRefresh t (sliceStep t s) else s

/-- FABRIC_OUTPUT_EDGE: the edge at which the logic of the slice changes the output to this level; where the next edge does
not, nothing happens (log 35). -/
def execFabricOutputEdge (t : TileId) (out : Fin 64) (level : Bool) (s : State) : Result :=
  .next (if s.sliceRuns t && (s.tiles[t]).sliceOut.getLsbD out.val != level &&
      ((sliceStep t s).tiles[t]).sliceOut.getLsbD out.val == level then sliceClock t s
    else s)

end Sys2Proof.Machine
end

