-- ==== Sys2Proof/Machine/EngineIsa.lean ====
section
/-!
DEFINITION. The instructions of the tile engine (R184 to R201), one meaning each.
-/
namespace Sys2Proof.Machine

open Sys2Proof

/-! ### Arithmetic and logic (R184) -/

def execAdd (t : TileId) (d a b : Reg4) (s : State) : Result :=
  engineAlu t false (fun e => e.put d (aluAdd (e.rd a) (e.rd b))) s
def execSub (t : TileId) (d a b : Reg4) (s : State) : Result :=
  engineAlu t false (fun e => e.put d (aluSub (e.rd a) (e.rd b))) s
def execAnd (t : TileId) (d a b : Reg4) (s : State) : Result :=
  engineAlu t false (fun e => e.put d (aluLogic (e.rd a &&& e.rd b))) s
def execOr (t : TileId) (d a b : Reg4) (s : State) : Result :=
  engineAlu t false (fun e => e.put d (aluLogic (e.rd a ||| e.rd b))) s
def execXor (t : TileId) (d a b : Reg4) (s : State) : Result :=
  engineAlu t false (fun e => e.put d (aluLogic (e.rd a ^^^ e.rd b))) s
def execShl (t : TileId) (d a b : Reg4) (s : State) : Result :=
  engineAlu t false (fun e => e.put d (aluShl e.v (e.rd a) ((e.rd b).toNat % 32))) s
def execShr (t : TileId) (d a b : Reg4) (s : State) : Result :=
  engineAlu t false (fun e => e.put d (aluShr e.v (e.rd a) ((e.rd b).toNat % 32))) s
def execSar (t : TileId) (d a b : Reg4) (s : State) : Result :=
  engineAlu t false (fun e => e.put d (aluSar e.v (e.rd a) ((e.rd b).toNat % 32))) s
/-- CMP: d must be e0 (R183). -/
def execCmp (t : TileId) (d a b : Reg4) (s : State) : Result :=
  engineAlu t (d != 0) (fun e => e.setFlags (aluSub (e.rd a) (e.rd b)).2) s

def execAddi (t : TileId) (d a : Reg4) (imm : Imm18) (s : State) : Result :=
  engineAlu t false (fun e => e.put d (aluAdd (e.rd a) (imm.signExtend 32))) s
def execAndi (t : TileId) (d a : Reg4) (imm : Imm18) (s : State) : Result :=
  engineAlu t false (fun e => e.put d (aluLogic (e.rd a &&& imm.setWidth 32))) s
def execOri (t : TileId) (d a : Reg4) (imm : Imm18) (s : State) : Result :=
  engineAlu t false (fun e => e.put d (aluLogic (e.rd a ||| imm.setWidth 32))) s
/-- The immediate shifts use imm18[4:0]; the other immediate bits must be 0 (R183). -/
def shiftBad (imm : Imm18) : Bool := decide (32 ≤ imm.toNat)
def execShli (t : TileId) (d a : Reg4) (imm : Imm18) (s : State) : Result :=
  engineAlu t (shiftBad imm) (fun e => e.put d (aluShl e.v (e.rd a) (imm.toNat % 32))) s
def execShri (t : TileId) (d a : Reg4) (imm : Imm18) (s : State) : Result :=
  engineAlu t (shiftBad imm) (fun e => e.put d (aluShr e.v (e.rd a) (imm.toNat % 32))) s
def execSari (t : TileId) (d a : Reg4) (imm : Imm18) (s : State) : Result :=
  engineAlu t (shiftBad imm) (fun e => e.put d (aluSar e.v (e.rd a) (imm.toNat % 32))) s
def execCmpi (t : TileId) (d a : Reg4) (imm : Imm18) (s : State) : Result :=
  engineAlu t (d != 0) (fun e => e.setFlags (aluSub (e.rd a) (imm.signExtend 32)).2) s
def execLui (t : TileId) (d a : Reg4) (imm : Imm18) (s : State) : Result :=
  engineAlu t (a != 0) (fun e => e.wr d (imm.setWidth 32 <<< 14)) s

/-! ### Multiply and accumulate (R184, R185) -/

/-- Z and N of a result, C and V kept. -/
def Engine.putZn (e : Engine) (d : Reg4) (r : Word) : Engine := { e with z := r == 0, n := r.msb }.wr d r

def execMul (t : TileId) (d a b : Reg4) (s : State) : Result :=
  engineAlu t false (fun e => e.putZn d (e.rd a * e.rd b)) s
def execMulh (t : TileId) (d a b : Reg4) (s : State) : Result :=
  engineAlu t false (fun e =>
    e.putZn d (((e.rd a).signExtend 64 * (e.rd b).signExtend 64).extractLsb' 32 32)) s

/-- acc := sat40(acc + sgn * ha * hb); a clamp sets AV (R185). Selector bit 0 is sub-function bit 8 (a), bit 1 bit 9 (b). -/
def Engine.macc (e : Engine) (sgn : Int) (h : BitVec 2) (a b : Reg4) : Engine :=
  let x := clampInt 40 (e.acc.toInt + sgn * (macHalf (h.getLsbD 0) (e.rd a) * macHalf (h.getLsbD 1) (e.rd b)))
  { e with acc := BitVec.ofInt 40 x.1, av := e.av || x.2 }

def execMac (t : TileId) (h : BitVec 2) (d a b : Reg4) (s : State) : Result :=
  engineAlu t (d != 0) (fun e => e.macc 1 h a b) s
def execMsu (t : TileId) (h : BitVec 2) (d a b : Reg4) (s : State) : Result :=
  engineAlu t (d != 0) (fun e => e.macc (-1) h a b) s
def execWracc (t : TileId) (d a b : Reg4) (s : State) : Result :=
  engineAlu t (d != 0 || b != 0) (fun e => { e with acc := (e.rd a).signExtend 40 }) s
/-- RDACC: a shift above 39, or a non-zero unused bit, is ILLEGAL (R184). -/
def execRdacc (t : TileId) (d a : Reg4) (imm : Imm18) (s : State) : Result :=
  engineAlu t (a != 0 || decide (39 < imm.toNat)) (fun e =>
    let x := clampInt 32 ((e.acc.sshiftRight imm.toNat).toInt)
    let r := BitVec.ofInt 32 x.1
    { e with z := r == 0, n := r.msb, v := x.2 }.wr d r) s

/-! ### Loads and stores (R179) -/

def word32 (bs : List Byte) : Word := BitVec.ofNat 32 (leNat bs)

def execLdw (t : TileId) (d a : Reg4) (imm : Imm18) (s : State) : Result := engineLoad t d a imm 4 word32 s
def execLdh (t : TileId) (d a : Reg4) (imm : Imm18) (s : State) : Result :=
  engineLoad t d a imm 2 (fun bs => (BitVec.ofNat 16 (leNat bs)).signExtend 32) s
def execLdbu (t : TileId) (d a : Reg4) (imm : Imm18) (s : State) : Result := engineLoad t d a imm 1 word32 s
def execStw (t : TileId) (d a : Reg4) (imm : Imm18) (s : State) : Result := engineStore t d a imm 4 s
def execSth (t : TileId) (d a : Reg4) (imm : Imm18) (s : State) : Result := engineStore t d a imm 2 s
def execStb (t : TileId) (d a : Reg4) (imm : Imm18) (s : State) : Result := engineStore t d a imm 1 s

/-! ### Control flow (R184, R186, R189) -/

/-- A branch target: pc + 4 * off. -/
def branchTarget (pc : Word) (off : Off22) : Word := pc + (off.signExtend 32 <<< 2)

def execB (t : TileId) (cond : Reg4) (off : Off22) (s : State) : Result :=
  engineOp t (cond == 15) (fun s => s.modEng t fun e =>
    if condHolds e cond then e.jump true (branchTarget e.pc off) else e.seq) s
def execBl (t : TileId) (cond : Reg4) (off : Off22) (s : State) : Result :=
  engineOp t (cond == 15) (fun s => s.modEng t fun e =>
    if condHolds e cond then (e.wr 15 (e.pc + 4)).jump false (branchTarget e.pc off) else e.seq) s
def execJalr (t : TileId) (d a : Reg4) (imm : Imm18) (s : State) : Result :=
  engineOp t false (fun s =>
    let e := s.tiles[t].eng
    let target := e.rd a + imm.signExtend 32
    if target.toNat % 4 ≠ 0 then engFault t .align s
    else s.modEng t fun e => (e.wr d (e.pc + 4)).jump (d == 0) target) s

/-- Opens a loop level of `len` instructions, or skips the body at a count of 0 (R189). -/
def openLoop (t : TileId) (count len : Nat) (s : State) : State :=
  let e := s.tiles[t].eng
  let le := e.pc + BitVec.ofNat 32 (4 * len)
  if len = 0 then engFault t .loop s
  else if count = 0 then s.modEng t fun e => e.goto (le + 4)
  else if 2 ≤ e.loops.length then engFault t .loop s
  else if e.loops.any (fun l => decide (l.last.toNat < le.toNat)) then engFault t .loop s
  else s.modEng t fun e => { e with pc := e.pc + 4, loops := ⟨e.pc + 4, le, count⟩ :: e.loops }

/-- LOOP: d must be e0 and imm18[17:8] 0. -/
def execLoop (t : TileId) (d a : Reg4) (imm : Imm18) (s : State) : Result :=
  engineOp t (d != 0 || decide (256 ≤ imm.toNat)) (fun s =>
    openLoop t (s.tiles[t].eng.rd a).toNat imm.toNat s) s
def execLoopi (t : TileId) (d a : Reg4) (imm : Imm18) (s : State) : Result :=
  engineOp t (d != 0 || a != 0) (openLoop t (imm.toNat / 256) (imm.toNat % 256)) s

/-! ### Events (R192 to R196) -/

/-- WAIT: the mask is a[15:0]; a timeout of b engine cycles, 0 for none (R192). -/
def execWait (t : TileId) (d a b : Reg4) (s : State) : Result :=
  engineOp t false (fun s =>
    let e := s.tiles[t].eng
    let m : BitVec 16 := (e.rd a).setWidth 16
    if m = 0 ∧ b = 0 then engFault t .illegal s
    else if e.evmNow &&& m ≠ 0 then s.modEng t fun e => (e.takeEvents m d).seq
    else
      let left := if e.rd b = 0 then none else some (e.rd b).toNat
      s.modEng t fun e => { e with st := .sleeping, stall := some (.waitEv m d left) }) s

def execTrig (t : TileId) (d a b : Reg4) (s : State) : Result :=
  engineOp t (d != 0 || a != 0 || b != 0) (fun s => trigPulse t (s.modEng t Engine.seq)) s

/-- ARM: bits of b above 7 must be 0; b = 0 cancels; a time already passed sets ARM_LATE (R195). -/
def execArm (t : TileId) (d a b : Reg4) (s : State) : Result :=
  engineOp t (d != 0) (fun s =>
    let e := s.tiles[t].eng
    let when_ := e.rd a
    let acts := e.rd b
    if 256 ≤ acts.toNat then engFault t .illegal s
    else
      let now : Word := s.aon.sysNow.setWidth 32
      let late := acts != 0 && reached now when_ && now != when_
      s.modEng t fun e => { e with
        arm := if acts = 0 then none else some (when_, acts),
        status := if late then e.status ||| 4#5 else e.status }.seq) s

/-- CAPT: the oldest capture entry, or 0 with Z (R196). -/
def execCapt (t : TileId) (d a b : Reg4) (s : State) : Result :=
  engineAlu t (a != 0 || b != 0) (fun e =>
    match e.capFifo with
    | [] => { e with z := true }.wr d 0
    | x :: xs =>
      let capx := Word.flag x.prelock 31 ||| Word.put x.src.toNat 16 ||| Word.put (x.time.toNat / 2 ^ 32) 0
      { e with capFifo := xs, z := false, capx }.wr d (x.time.setWidth 32)) s

/-! ### Converters, drive and comparators (R197 to R199) -/

/-- ADCP: the oldest ADC word, or a stall that counts as SLEEPING (R197). -/
def execAdcp (t : TileId) (d a b : Reg4) (s : State) : Result :=
  engineOp t (a != 0 || b != 0) (fun s => s.modEng t fun e =>
    match e.adcFifo with
    | [] => { e with st := .sleeping, stall := some (.adcp d) }
    | w :: ws => ({ e with adcFifo := ws }.wr d w).seq) s
def execAdcpn (t : TileId) (d a b : Reg4) (s : State) : Result :=
  engineAlu t (a != 0 || b != 0) (fun e =>
    match e.adcFifo with
    | [] => { e with z := true }.wr d 0
    | w :: ws => { e with adcFifo := ws, z := false }.wr d w) s

/-- DACS a: waveform a[3:0] (R198). -/
def execDacs (t : TileId) (d a b : Reg4) (s : State) : Result :=
  engineOp t (d != 0 || b != 0) (fun s =>
    (dacsPlay t .dacs (Fin.ofNat 16 ((s.tiles[t].eng.rd a).toNat % 16)) s).modEng t Engine.seq) s

/-- CMPSET a, b: THR of CMPA or CMPB; bits [31:1] of b must be 0 (R199). -/
def execCmpset (t : TileId) (d a b : Reg4) (s : State) : Result :=
  engineOp t (d != 0) (fun s =>
    let e := s.tiles[t].eng
    if 2 ≤ (e.rd b).toNat then engFault t .illegal s
    else
      let thr := Word.put ((e.rd a).toNat % 1024) 18
      let now := s.aon.fck
      (cmpLooks t (s.modCmp t (if e.rd b = 0 then .a else .b) fun c =>
        { c with cfg := Word.merge c.cfg thr 0x0FFC0000#32, setAt := some now })).modEng t Engine.seq) s

/-- Clears a comparator's latch; the routed signal follows (R161, R162). -/
def clearLat (t : TileId) (c : Cmp) (s : State) : State :=
  let was := (s.tiles[t].cmp c).routed
  let fck := s.aon.fck
  let s := s.modCmp t c fun x => x.unlatch fck
  let now := (s.tiles[t].cmp c).routed
  if was != now then launch (cmpLaunch t c now) s else s

def execCmpclr (t : TileId) (d a b : Reg4) (s : State) : Result :=
  engineOp t (d != 0 || b != 0) (fun s =>
    let m := s.tiles[t].eng.rd a
    let s := s.modEng t Engine.seq
    let s := if m.getLsbD 0 then clearLat t .a s else s
    if m.getLsbD 1 then clearLat t .b s else s) s

/-! ### Messages (R200, R201) -/

/-- Bits of a that SEND does not define: [23:12]. -/
def sendBad (a : Word) : Bool := Word.field a 23 12 != 0

def execSend (t : TileId) (d a b : Reg4) (s : State) : Result :=
  engineOp t (d != 0) (fun s =>
    let e := s.tiles[t].eng
    if sendBad (e.rd a) then engFault t .illegal s
    else if 16 < b.toNat + sendLen (e.rd a) then engFault t .regrange s
    else if 4 ≤ e.outbox.length then s.modEng t fun e => { e with stall := some (.outbox a b) }
    else
      let m := sendMsg s t a b
      let run := s.aon.run
      s.modEng t fun e => (e.posts run m).seq) s

/-- RECV d, a: the oldest message, or a stall that counts as SLEEPING (R201). -/
def execRecv (t : TileId) (d a b : Reg4) (s : State) : Result :=
  engineOp t (b != 0) (fun s =>
    if 12 < a.toNat then engFault t .regrange s
    else admitHost t (s.modEng t fun e =>
      match e.inbox with
      | [] => { e with st := .sleeping, stall := some (.recv d a) }
      | m :: ms => (e.receive d a m ms).seq)) s
def execRecvn (t : TileId) (d a b : Reg4) (s : State) : Result :=
  engineOp t (b != 0) (fun s =>
    if 12 < a.toNat then engFault t .regrange s
    else admitHost t (s.modEng t fun e =>
      (match e.inbox with
      | [] => { e with z := true }.wr d 0
      | m :: ms => { e with z := false }.receive d a m ms).seq)) s

/-! ### Control (R184, R188, R193) -/

def execSleep (t : TileId) (d a b : Reg4) (s : State) : Result :=
  engineOp t (d != 0 || a != 0 || b != 0) (fun s => s.modEng t fun e =>
    { e.seq with st := .sleeping, stall := some .sleep }) s
/-- HALT: HALTED once earlier stores and SENDs have left (R184). -/
def execHalt (t : TileId) (d a b : Reg4) (s : State) : Result :=
  engineOp t (d != 0 || a != 0 || b != 0) (fun s =>
    if (s.tiles[t].eng.outbox).isEmpty then engineHalt t s
    else s.modEng t fun e => { e with stall := some (.drain true) }) s
/-- FENCE: completes when every earlier store and SEND has left (R188). -/
def execFence (t : TileId) (d a b : Reg4) (s : State) : Result :=
  engineOp t (d != 0 || a != 0 || b != 0) (fun s => s.modEng t fun e =>
    if e.outbox.isEmpty then e.fenced.seq else { e with stall := some (.drain false) }) s
def execReti (t : TileId) (d a b : Reg4) (s : State) : Result :=
  engineOp t (d != 0 || a != 0 || b != 0) (fun s => s.modEng t fun e =>
    { e.goto e.epc with ien := e.ien ||| 0x80000000#32 }) s

/-- MFS d, sr: a must be e0 and imm18[17:8] 0; SYSL latches SYSH (R190). -/
def execMfs (t : TileId) (d a : Reg4) (imm : Imm18) (s : State) : Result :=
  engineOp t (a != 0 || (readSpecial s t imm.toNat).isNone) (fun s =>
    let v := (readSpecial s t imm.toNat).getD 0
    let hi : Word := (s.aon.sysNow >>> 32).setWidth 32
    s.modEng t fun e => ((if imm = 9 then { e with sysh := hi } else e).wr d v).seq) s
/-- MTS a, sr: d must be e0 and imm18[17:8] 0 (R190). -/
def execMts (t : TileId) (d a : Reg4) (imm : Imm18) (s : State) : Result :=
  engineOp t (d != 0 || (writeSpecial imm.toNat 0 s.tiles[t].eng).isNone) (fun s =>
    s.modEng t fun e => ((writeSpecial imm.toNat (e.rd a) e).getD e).seq) s

end Sys2Proof.Machine
end

