-- ==== Sys2Proof/Machine/EngineEvents.lean ====
section
/-!
DEFINITION. What happens to an engine of itself: a stalled instruction completes, a WAIT gives up, an interrupt is taken, an
ARM action falls due, a message travels (R187, R192, R193, R195, R202, R207). A step that the state does not call for leaves
it as it is (log 2).
-/
namespace Sys2Proof.Machine

open Sys2Proof

/-- The engine's clock runs and the tile is in service. -/
def State.engineClock (s : State) (t : TileId) : Bool :=
  s.fastOn && s.tileLive t && !(s.tiles[t]).fenced && !(s.tiles[t]).inReset

/-- Entry to an interrupt (R193). -/
def Engine.interrupt (e : Engine) : Engine :=
  { e with epc := e.pc, ien := e.ien &&& 0x7FFFFFFF#32, pc := e.ivec &&& 0xFFFFFFFC#32, st := .running, stall := none }

def Engine.ie (e : Engine) : Bool := e.ien.getLsbD 31
def Engine.resume (e : Engine) : Engine := { e with st := .running, stall := none }

/-- The stalled instruction completes if what it waits for has come (R187). -/
def execEngineStallResume (t : TileId) (s : State) : Result :=
  .next (if s.engineClock t then
    let x := s.tiles[t]
    let e := x.eng
    match e.stall with
    | none => s
    | some (.waitEv m d _) =>
      if e.evmNow &&& m ≠ 0 then s.modEng t fun e => (e.resume.takeEvents m d).seq else s
    | some .sleep =>
      if x.irqPending then s.modEng t fun e => if e.ie then e.interrupt else e.resume else s
    | some (.adcp d) =>
      match e.adcFifo with
      | [] => s
      | w :: ws => s.modEng t fun e => ({ e.resume with adcFifo := ws }.wr d w).seq
    | some (.recv d a) =>
      match e.inbox with
      | [] => s
      | m :: ms => admitHost t (s.modEng t fun e => (e.resume.receive d a m ms).seq)
    | some (.outbox a b) =>
      if 4 ≤ e.outbox.length then s
      else
        let m := sendMsg s t a b
        let run := s.aon.run
        s.modEng t fun e => (e.resume.posts run m).seq
    | some (.drain halt) =>
      if !e.outbox.isEmpty then s
      else if halt then engineHalt t s else s.modEng t fun e => e.resume.fenced.seq
  else s)

/-- A WAIT whose b engine cycles have passed writes 0 to d and completes (R192). -/
def execWaitTimeout (t : TileId) (s : State) : Result :=
  .next (if s.engineClock t then
    match (s.tiles[t]).eng.stall with
    | some (.waitEv _ d (some 0)) => s.modEng t fun e => (e.resume.wr d 0).seq
    | _ => s
  else s)

/-- An enabled interrupt is taken between instructions, or out of SLEEP (R193). -/
def execEngineInterrupt (t : TileId) (s : State) : Result :=
  .next (
    let x := s.tiles[t]
    let between := s.engineRuns t || (s.engineClock t && x.eng.st == .sleeping && x.eng.stall == some .sleep)
    if between && x.eng.ie && x.irqPending then s.modEng t Engine.interrupt else s)

/-- The pending ARM action is performed once SYSTIME[31:0] has reached its time (R195). -/
def execArmAction (t : TileId) (s : State) : Result :=
  .next (if s.engineClock t then
    match (s.tiles[t]).eng.arm with
    | none => s
    | some (time, acts) =>
      if reached (s.aon.sysNow.setWidth 32) time then
        let s := s.modEng t fun e => { e with arm := none }
        let s := if acts.getLsbD 0 then trigPulse t s else s
        let s := if acts.getLsbD 1 then setEvm t 7 s else s
        let s := if acts.getLsbD 2 then adcTrigger t s else s
        if acts.getLsbD 3 then dacsPlay t .armDacs (Fin.ofNat 16 (Word.field acts 7 4)) s else s
      else s
  else s)

/-- A drop counts against the sender (R202). -/
def messageDrop (t : TileId) (s : State) : State :=
  s.modEng t fun e => { e with msgDrop := e.msgDrop + 1, status := e.status ||| 16#5 }

/-- The 28 bytes of a host-bound message (R202). -/
def messagePayload (m : Msg) : List Byte :=
  natLe 6 m.time.toNat ++ natLe 2 m.src.toNat ++ natLe 1 m.words.length ++ [m.tag, 0, 0] ++
    (m.words ++ List.replicate (4 - m.words.length) 0).flatMap u32

/-- The message reaches its destination (R202): the host's ring, an inbox with room, or a drop; none where it waits. -/
def deliver (t : TileId) (m : Msg) (s : State) : Option State :=
  let n := m.dst.toNat
  if h : n < 512 then
    let u : TileId := ⟨n, h⟩
    let run := s.aon.run
    if (s.tiles[u]).fenced then some (messageDrop t s)
    else if (s.tiles[u]).sheet != (s.tiles[t]).sheet then none
    else if (s.tiles[u]).eng.inbox.length < 8 then some (s.modEng u fun e => e.accepts run m)
    else none
  else if n = 1023 then
    match s.ringOf .message with
    | some _ => some (emitStaged .message 5 (messagePayload m) s).2
    | none => some (messageDrop t s)
  else some (messageDrop t s)

/-- The oldest message of the outbox of tile `t` travels (R202); a flit that fails its parity twice drops it (R319). -/
def execMessageDelivery (t : TileId) (flit : Attempt) (s : State) : Result :=
  .next (if s.fastOn then
    match (s.tiles[t]).eng.outbox with
    | [] => s
    | m :: rest =>
      let run := s.aon.run
      let popped := s.modEng t fun e => e.posted run rest
      let parity := fun cls s => log cls 0x0A (srcTile t) (arg t.val) (m.dst.setWidth 32) 0 s
      if m.epoch ≠ (s.tiles[t]).epoch then staleSpeaker t m.epoch popped
      else match flit with
        | .failed => messageDrop t (parity .lasting popped)
        | .clean => (deliver t m popped).getD s
        | .second => (deliver t m (parity .transient popped)).getD s
  else s)

/-- The destination inbox has been full for 4,800 FCK cycles of the oldest message's time at the front (R202). -/
def State.inboxStuck (s : State) (t : TileId) : Bool :=
  match (s.tiles[t]).eng.outbox with
  | [] => false
  | m :: _ =>
    if h : m.dst.toNat < 512 then
      let u := (s.tiles[(⟨m.dst.toNat, h⟩ : TileId)]).eng
      decide (8 ≤ u.inbox.length) && decide (max u.fullAt (s.tiles[t]).eng.outAt + 4800 ≤ s.aon.run)
    else false

/-- INBOX_FULL_TIMEOUT: the oldest message is dropped (R202). -/
def execInboxFullTimeout (t : TileId) (s : State) : Result :=
  .next (if s.inboxStuck t then
      let run := s.aon.run
      messageDrop t (s.modEng t fun e => e.posted run e.outbox.tail)
    else s)

/-- ENGINE_MESSAGE_TIMEOUT: the oldest host message has waited at a full inbox for 1 ms: BUSY (R207). -/
def execEngineMessageTimeout (t : TileId) (s : State) : Result :=
  .next (match (s.tiles[t]).eng.hostMsgs with
    | [] => s
    | (d, _) :: rest =>
      if (s.tiles[t]).eng.hostAt + usFck 1000 ≤ s.aon.fck then refuse 0x33 d .busy (s.modEng t fun e => { e with hostMsgs := rest })
      else s)

end Sys2Proof.Machine
end

