-- ==== Sys2Proof/Machine/EngineCommands.lean ====
section
/-!
DEFINITION. The engine commands (R204 to R207): LOAD_PROGRAM, START_ENGINE, STOP_ENGINE, ENGINE_MESSAGE, and the fresh start
that placement shares with them.
-/
namespace Sys2Proof.Machine

open Sys2Proof

/-! ### Starting and stopping (R205, R206) -/

/-- T_ENG.STATE as commands see it: HELD while the tile is fenced or in reset (R178, R242), and without power in a panel that is OFF
(DESIGN CHOICE, log 40). -/
def State.engHeld (s : State) (t : TileId) : Bool :=
  (s.tiles[t]).fenced || (s.tiles[t]).inReset || s.pstate (panelOf t) == .off

/-- The state that a fresh start clears: e3 to e15, acc, FLAGS, STATUS, IEN, IVEC, EPC, CYCLE, the EVM edge bits, the loop
levels and the ADC and capture FIFOs (R205). -/
def Engine.cleared (e : Engine) : Engine :=
  { e with
    regs := ((Vector.replicate 16 (0 : Word)).set 1 e.regs[1]).set 2 e.regs[2], acc := 0
    z := false, n := false, c := false, v := false, av := false
    status := 0, ien := 0, ivec := 0, epc := 0, cycle := 0, evm := 0, loops := [], adcFifo := [], capFifo := [] }

/-- An engine memory image from address 0, the rest zero-filled (R204, R205). -/
def loadImage (t : TileId) (bs : List Byte) (s : State) : State :=
  let s := { s with mem := { s.mem with errs := s.mem.errs.filter fun e => !(e.loc.region == 0 && e.loc.unit == t.val) } }
  s.modTile t fun x => { x with engMem := Memory.putBytes [] 0 bs }

/-- The program of an id. -/
def State.program (s : State) (id : Nat) : Option Program :=
  if h : id < 64 then s.programs[id] else none

/-- A fresh start at ENTRY with e1 and e2 (R205). In a panel in RETAIN the logic is off, and the engine stays STOPPED (R267). -/
def freshStart (t : TileId) (arg1 arg2 : Word) (s : State) : State :=
  let id := (s.tiles[t]).eng.prog.toNat
  let s := match s.program id with
    | some p => (loadImage t p.bytes s).modEng t fun e => { e with entry := p.entry, stale := [] }
    | none => s
  let st : EngState := if s.tileLive t then .running else .stopped
  s.modEng t fun e =>
    let e := e.cleared
    { e with st, cause := 0, stall := none, pc := e.entry, regs := (e.regs.set 1 arg1).set 2 arg2 }

/-- Resume from HALTED. -/
def resumeEngine (t : TileId) (s : State) : State := s.modEng t fun e => { e with st := .running }

/-- The engine stops: WAIT, stall and ARM are cancelled, the outbox drains (R206). -/
def stopEngine (t : TileId) (clear : Bool) (s : State) : State :=
  s.modEng t fun e =>
    let e := if clear then e.cleared else e
    { e with st := .stopped, cause := 0, stall := none, arm := none, pc := e.nextPc }

/-- What an engine keeps while its logic is off (R208): HOST_EV, the program it holds and its messages, but no register. -/
def Engine.retained (e : Engine) : Engine :=
  { hostEv := e.hostEv, prog := e.prog, entry := e.entry, stale := e.stale, inbox := e.inbox, outbox := e.outbox,
    hostMsgs := e.hostMsgs, hostAt := e.hostAt, fullAt := e.fullAt, outAt := e.outAt }

/-- The conditions of START_ENGINE on one target (R205). -/
def State.startable (s : State) (resume : Bool) (t : TileId) : Bool :=
  let e := (s.tiles[t]).eng
  !s.engHeld t && e.st != .running && e.st != .sleeping && e.st != .held && e.prog != 0xFF#8 &&
    (e.prog == 0xFE#8 || (s.program e.prog.toNat).isSome) && (!resume || e.st == .halted)

/-! ### Targets (R205, R206) -/

/-- ENGINE stages of a placed chain. -/
def State.chainEngines (s : State) (c : Fin 256) : List TileId :=
  match s.chains[c].cdef, s.chains[c].placement with
  | some (stages, _), some pl =>
    pl.stages.filterMap fun p => match stages[p.stage]? with
      | some g => if g.kind = kEngine then some p.tile else none
      | none => none
  | _, _ => []

/-- The target: a tile, or with bit 31 every ENGINE stage of a chain. -/
def State.engineTargets (s : State) (d : Desc) : List TileId :=
  if d.target.getLsbD 31 then s.chainEngines (Fin.ofNat 256 d.target.toNat)
  else [Fin.ofNat 512 d.target.toNat]

/-- The header of START_ENGINE and STOP_ENGINE: bits [8:0], or bit 31 and a chain below 256 in [15:0]. -/
def engineHeader (d : Desc) (c : CoatUse) (rs : List (Nat × Nat)) : Option Nat :=
  if d.target.getLsbD 31 then
    headerFault { d with target := d.target &&& 0x7FFFFFFF#32 } 8 .none c rs
  else headerFault d 9 .none c rs

/-! ### Rows -/

/-- LOAD_PROGRAM's own checks of its fields. -/
def loadProgramFault (d : Desc) : Option Nat :=
  if 1 < d.u 24 1 then some 24
  else if d.len < 4 ∨ 32768 < d.len ∨ d.len % 4 ≠ 0 then some 16
  else if d.u 28 4 % 4 ≠ 0 ∨ d.len ≤ d.u 28 4 then some 28
  else none

/-- Bytes of the program store in use, without program `id`. -/
def State.storeUsed (s : State) (id : Nat) : Nat :=
  ((List.finRange 64).map fun k => if k.val = id then 0 else match s.programs[k] with
    | some p => p.bytes.length
    | none => 0).sum

/-- A placed ENGINE stage uses the program. -/
def State.programUsed (s : State) (id : Nat) : Bool :=
  (List.finRange 256).any fun c => match s.chains[c].cdef, s.chains[c].placement with
    | some (stages, _), some pl => pl.stages.any fun p => match stages[p.stage]? with
      | some g => g.kind == kEngine && g.byte 0 == id
      | none => false
    | _, _ => false

def execLoadProgram (d : Desc) (s : State) : Result :=
  runDesc 0x30 d (headerFault d (if d.u 24 1 = 1 then 9 else 6) .buffer .unbound [(25, 3), (36, 28)]) true (fun s =>
    match loadProgramFault d with
    | some off => badField 0x30 d off s
    | none => withBuffer 0x30 d (fun bs s =>
      let t : TileId := Fin.ofNat 512 d.target.toNat
      let entry := BitVec.ofNat 32 (d.u 28 4)
      if (crc32c bs).toNat ≠ d.u 32 4 then refuse 0x30 d .integrity s
      else if d.u 24 1 = 0 then
        let id : Fin 64 := Fin.ofNat 64 d.target.toNat
        if 2 * 2 ^ 20 < s.storeUsed id.val + bs.length then refuse 0x30 d .noResource s
        else if s.programUsed id.val then refuse 0x30 d .state s
        else okayRead 0x30 d 0 { s with programs := s.programs.set id (some ⟨bs, entry⟩) }
      else
        let st := (s.tiles[t]).eng.st
        if s.engHeld t || !(st == .stopped || st == .halted || st == .fault) then refuse 0x30 d .state s
        else okayRead 0x30 d 0
          ((loadImage t bs s).modEng t fun e => { e with prog := 0xFE#8, entry := entry, stale := [] })) s) s

/-- Starts every target at one edge; none if any of them may not start. -/
def startEngines (ts : List TileId) (resume : Bool) (a1 a2 : Word) (s : State) : Option State :=
  if !ts.isEmpty && ts.all (s.startable resume) then
    some (ts.foldl (fun s t => if resume then resumeEngine t s else freshStart t a1 a2 s) s)
  else none

/-- A bound descriptor joins the open coat it names, or completes with STATE (R233). -/
def joinCoat (op : Byte) (d : Desc) (b : Bound) (s : State) : State :=
  match s.coat with
  | some c =>
    if !c.own && c.number == d.coat.setWidth 16 then { s with coat := some { c with bound := c.bound ++ [b] } }
    else refuse op d .state s
  | none => refuse op d .state s

def execStartEngine (d : Desc) (s : State) : Result :=
  runDesc 0x31 d (engineHeader d .bindable [(25, 3), (36, 28)]) true (fun s =>
    if 1 < d.u 24 1 then badField 0x31 d 24 s
    else
      let ts := s.engineTargets d
      let resume := d.u 24 1 == 1
      let a1 := BitVec.ofNat 32 (d.u 28 4)
      let a2 := BitVec.ofNat 32 (d.u 32 4)
      match startEngines ts resume a1 a2 s with
      | none => refuse 0x31 d .state s
      | some s' => if d.bound then joinCoat 0x31 d (.startEngine d ts resume a1 a2) s else okay 0x31 d 0 s') s

/-- PC of a single target in the result; 0 in SEALED (R206, R339). -/
def execStopEngine (d : Desc) (s : State) : Result :=
  runDesc 0x32 d (engineHeader d .unbound [(25, 39)]) true (fun s =>
    if 1 < d.u 24 1 then badField 0x32 d 24 s
    else
      let ts := s.engineTargets d
      if ts.isEmpty || ts.any s.engHeld then refuse 0x32 d .state s
      else
        let pc := match ts with
          | [t] => if s.sec.lifecycle = .closed then 0 else (s.tiles[t]).eng.nextPc.toNat
          | _ => 0
        okay 0x32 d pc (ts.foldl (fun s t => stopEngine t (d.u 24 1 == 1) s) s)) s

/-- The message of an ENGINE_MESSAGE: source 1023, epoch 0 (R207). -/
def hostMessage (d : Desc) (s : State) : Msg :=
  { src := 1023, dst := d.target.setWidth 10, epoch := 0, tag := BitVec.ofNat 8 (d.u 25 1),
    words := (List.range (d.u 24 1)).map fun k => BitVec.ofNat 32 (d.u (28 + 4 * k) 4), time := s.stamp }

def execEngineMessage (d : Desc) (s : State) : Result :=
  runDesc 0x33 d (headerFault d 9 .none .unbound [(26, 2), (44, 20)]) true (fun s =>
    if d.u 24 1 = 0 ∨ 4 < d.u 24 1 then badField 0x33 d 24 s
    else
      let t : TileId := Fin.ofNat 512 d.target.toNat
      let m := hostMessage d s
      if s.engHeld t then refuse 0x33 d .state s
      else if (s.tiles[t]).eng.inbox.length < 8 ∧ (s.tiles[t]).eng.hostMsgs.isEmpty then
        let run := s.aon.run
        okay 0x33 d 0 (s.modEng t fun e => e.accepts run m)
      else
        let now := s.aon.fck
        s.modEng t fun e =>
          { e with hostMsgs := e.hostMsgs ++ [(d, m)], hostAt := if e.hostMsgs.isEmpty then now else e.hostAt }) s

end Sys2Proof.Machine
end

