-- ==== Sys2Proof/Machine/Fence.lean ====
section
/-!
DEFINITION. Epochs, fences and buddy takeover (R98, R99, R229 to R231, R241 to R245): what a fence does at its edge, chains that
become BROKEN, and the commands and events around it.
-/
namespace Sys2Proof.Machine

open Sys2Proof

/-! ### Buddy takeover (R98) -/

/-- The tile's partner may take over: the number under R324 of the first condition that fails, if one does. -/
def State.buddyFails (s : State) (t : TileId) : Option Nat :=
  let u := partner t
  let x := s.tiles[u]
  let sameHead := match s.headOf u with
    | none => true
    | some h => s.headOf t == some h && x.trowel.waveIdx == (s.tiles[t]).trowel.waveIdx
  if !x.trowel.buddyEn then some 2
  else if x.trowel.stays || x.fenced || x.trowel.buddyAct then some 3
  else if !sameHead then some 4
  else if x.trowel.ilim < Config.peakCurrent t.val + Config.peakCurrent u.val then some 5
  else none

def logBuddy (cls : LClass) (t : TileId) (what : Nat) (s : State) : State :=
  log cls 0x15 (srcTile t) (arg t.val) (arg (partner t).val) (arg what) s

/-- The trowel of a tile that drives a group of a defined head has failed: takeover is scheduled, or refused (R98). -/
def askBuddy (t : TileId) (s : State) : State :=
  if (s.headOf t).isNone then s
  else match s.buddyFails t with
    | some k => logBuddy .lasting t k s
    | none => s.modTrowel t fun w => { w with takeover := some true }

/-- The failed tile has returned to service: takeover ends at the next boundary (R99). -/
def endBuddy (t : TileId) (s : State) : State :=
  let w := (s.tiles[t]).trowel
  if w.taken then s.modTrowel t fun w => { w with takeover := some false }
  else s.modTrowel t fun w => { w with takeover := none }

/-- A head is at a fire-period boundary: on no trowel that may drive its groups, a spare partner's in takeover among them, does
a waveform play or a listen window stay open, and no group of the column in hand has fired while another is still due (R82). A head with no armed job always is. -/
def State.atBoundary (s : State) (h : HeadId) : Bool :=
  match s.heads[h].hdef, s.heads[h].armed with
  | some d, some _ =>
    d.reach.all fun t =>
      let w := (s.tiles[t]).trowel
      w.play == .idle && w.listen.isNone && match w.due with
        | some f => d.reach.all fun u => (s.tiles[u]).trowel.lastCol != some (f.seq, f.col)
        | none => true
  | _, _ => true

/-- The tile's head is at a fire-period boundary. -/
def State.tileBoundary (s : State) (t : TileId) : Bool :=
  match s.headOf t with
  | some h => s.atBoundary h
  | none => true

/-! ### Crossbar sinks that lose their source (R239, R242) -/

/-- HOLD of the chain link whose route drives a sink; 0 where none declares one. -/
def State.holdLevel (s : State) (p : PanelId) (k : Nat) : Bool :=
  match s.links.find? (fun v => v.routes.any fun r =>
      r.panel == p && ((r.kind == 2 && r.item == k) || (r.kind == 3 && r.item + 192 == k))) with
  | some v => v.link.hold
  | none => false

/-- A sink is disconnected and takes its HOLD level. -/
def dropSink (p : PanelId) (k : Fin 256) (s : State) : State :=
  let lvl := s.holdLevel p k.val
  let r := sinkTo p k lvl (s.modPanel p fun x => { x with sinks := x.sinks.set k 256 })
  works 1024 r.1 r.2

/-- Every sink of the tile's own panel that takes one of its sources is disconnected; lanes carry the level on. -/
def dropSources (t : TileId) (s : State) : State :=
  let p := panelOf t
  let own := [2 * localOf t, 2 * localOf t + 1, 128 + localOf t]
  (List.finRange 256).foldl (fun s k => if own.contains (s.panels[p]).sinks[k] then dropSink p k s else s) s

/-! ### Broken chains (R230) -/

/-- Stages of a placement that sit on a tile. -/
def stagesOn (stages : List Stage) (pl : Placement) (t : TileId) : List Nat :=
  (pl.stages.filter fun p => p.tile == t && match stages[p.stage]? with
    | some g => g.onTile
    | none => false).map (·.stage)

/-- Chains with stages on a tile. -/
def State.chainsOn (s : State) (t : TileId) : List (Fin 256) :=
  (List.finRange 256).filter fun c => match s.chains[c].cdef, s.chains[c].placement with
    | some (stages, _), some pl => !(stagesOn stages pl t).isEmpty
    | _, _ => false

/-- T_STATE.PLACED: at least one stage is placed on the tile (R231). -/
def State.isPlaced (s : State) (t : TileId) : Bool := !(s.chainsOn t).isEmpty
def refreshPlaced (t : TileId) (s : State) : State := s.modTile t fun x => { x with placed := s.isPlaced t }

/-- The stages of a chain on a tile stay unplaced: the chain is BROKEN (R230). -/
def breakChain (t : TileId) (c : Fin 256) (s : State) : State :=
  match s.chains[c].cdef, s.chains[c].placement with
  | some (stages, links), some pl =>
    let gone := stagesOn stages pl t
    let cut := ((withIndex links).filter fun l => gone.contains l.2.src || gone.contains l.2.dst).map (·.1)
    let pl' : Placement :=
      { stages := pl.stages.filter fun p => !gone.contains p.stage,
        routes := pl.routes.filter fun r => !cut.contains r.link, aps := pl.aps.filter fun a => a.tile != t }
    let s := s.modChain c fun x => { x with placement := some pl', broken := true }
    let s := log .lasting 0x2E srcModule (arg c.val) (arg (gone.headD 0)) 0 s
    raiseEvent .chainBroken (arg c.val) s
  | _, _ => s

def breakChains (t : TileId) (s : State) : State :=
  refreshPlaced t ((s.chainsOn t).foldl (fun s c => breakChain t c s) s)

/-- Placement is in hardware (FN_MODE.PLACEMENT 0, R302). -/
def State.hwPlaces (s : State) : Bool := Word.field (s.fnMode.setWidth 32) 1 0 == 0

/-- The stages of a tile are re-placed under R230, or their chains become BROKEN. -/
def askMove (t : TileId) (by_ : Option (Byte × Desc)) (s : State) : State :=
  if !s.isPlaced t then s
  else if s.hwPlaces then { s with moves := s.moves ++ [(t, by_)] }
  else breakChains t s

/-! ### The fence (R242) -/

/-- Waiting host messages of a tile that is HELD complete with STATE (R207). -/
def dropHostMsgs (t : TileId) (s : State) : State :=
  let ms := (s.tiles[t]).eng.hostMsgs
  ms.foldl (fun s m => refuse 0x33 m.1 .state s) (s.modEng t fun e => { e with hostMsgs := [] })

/-- The engine is HELD: FIFOs, inbox and outbox emptied, ARM cancelled (R203). -/
def holdEngine (t : TileId) (s : State) : State :=
  dropHostMsgs t (s.modEng t fun e =>
    { e with st := .held, cause := 0, stall := none, arm := none, adcFifo := [], capFifo := [], inbox := [], outbox := [] })

/-- The trowel stops: what it plays, and a listen on it, are over; a fire in hand does not complete. -/
def haltTrowel (t : TileId) (s : State) : State :=
  s.modTrowel t fun w => { w with play := .idle, current := none, listen := none, phase := .none, chopOn := false, cut := false }

/-- The SAR of a joined pair carries on alone when its partner is fenced (R140). -/
def soloPartner (t : TileId) (s : State) : State :=
  let u := partner t
  if t.val % 2 = 1 ∧ (s.tiles[u]).sar.ilv then
    sarSolo u s
  else s

/-- The fence of R242: epoch, sources, reset and engine, all at one edge. -/
def fenceEdge (t : TileId) (s : State) : State :=
  let last := (s.tiles[t]).epoch == 255
  let s := dropSources t s
  let s := s.modTile t fun x =>
    { x with fenced := true, epoch := x.epoch + 1, retired := x.retired || last, bistPass := false, ready := false }
  soloPartner t (haltTrowel t (holdEngine t (recClose t s)))

/-- A fence with its ledger entry and the takeover it asks for (R98, R242, R324). -/
def fence (cls : LClass) (cause : Byte) (t : TileId) (s : State) : State :=
  if (s.tiles[t]).fenced then s
  else
    let s := fenceEdge t s
    let s := log cls 0x2C (srcTile t) (arg t.val) (cause.setWidth 32) ((s.tiles[t]).epoch.setWidth 32) s
    askBuddy t s

/-- A fence that a fault causes: its stages are re-placed (R230). -/
def faultFence (cause : Byte) (t : TileId) (s : State) : State := askMove t none (fence .lasting cause t s)

/-- What a reader of the keep region of a tile meets (R309): a lasting failure fences the tile. Answers whether it goes on. -/
def keepRead (t : TileId) (s : State) : Bool × State :=
  let r := wordsBad 1 (some t.val) s
  if r.1 then (false, faultFence 0x02 t r.2) else (true, r.2)

/-! ### Rows: fences -/

/-- FENCE_TILE (R244); the cause in the entry of a fence that no fault causes is 0 (log 26). -/
def execFenceTile (d : Desc) (s : State) : Result :=
  runDesc 0x26 d (headerFault d 9 .none .unbound [(25, 39)]) true (fun s =>
    let t : TileId := Fin.ofNat 512 d.target.toNat
    if 1 < d.u 24 1 then badField 0x26 d 24 s
    else if (s.tiles[t]).fenced then refuse 0x26 d .state s
    else
      let s := fence .info 0 t s
      okay 0x26 d 0 (if d.u 24 1 = 0 then askMove t none s else breakChains t s)) s

/-- A fenced tile returns to service unplaced, with the current epoch as its own and its engine STOPPED (R245). -/
def readmit (t : TileId) (s : State) : State :=
  let s := breakChains t { s with moves := s.moves.filter fun m => m.1 != t }
  endBuddy t ((s.modTile t fun x => { x with fenced := false, ownEpoch := x.epoch }).modEng t fun e =>
    { e with st := .stopped })

/-- READMIT_TILE with a recorded pass completes at once; with byte 24 = 1 it runs the field BIST first (R245, R342). The
number of slices is that of MODE 0 (R343). -/
def execReadmitTile (d : Desc) (s : State) : Result :=
  runDesc 0x27 d (headerFault d 9 .none .unbound [(25, 39)]) true (fun s =>
    let t : TileId := Fin.ofNat 512 d.target.toNat
    let x := s.tiles[t]
    if 1 < d.u 24 1 then badField 0x27 d 24 s
    else if !x.fenced then refuse 0x27 d .state s
    else if x.retired then refuse 0x27 d .lasting s
    else if s.bist.any (fun r => r.tile == t) then refuse 0x27 d .busy s
    else if d.u 24 1 = 0 then
      if x.bistPass then okay 0x27 d 0 (readmit t s) else refuse 0x27 d .state s
    else { s with bist := s.bist ++ [{ desc := some d, tile := t, mode := 0, slices := 48, readmit := true }] }) s

/-- BUDDY_TAKEOVER_START: at the head's fire-period boundary the partner takes the failed tile's pin (R98). -/
def execBuddyTakeoverStart (t : TileId) (s : State) : Result :=
  .next (
    let w := (s.tiles[t]).trowel
    if w.takeover = some true ∧ !w.taken ∧ s.tileBoundary t then
      let s := s.modTrowel t fun w => { w with taken := true, takeover := none }
      let s := s.modTrowel (partner t) fun w => { w with buddyAct := true, evenFire := true }
      logBuddy .info t 0 s
    else s)

/-- BUDDY_TAKEOVER_END: each trowel drives its own pin again (R99). -/
def execBuddyTakeoverEnd (t : TileId) (s : State) : Result :=
  .next (
    let w := (s.tiles[t]).trowel
    if w.takeover = some false ∧ w.taken ∧ s.tileBoundary t then
      let s := s.modTrowel t fun w => { w with taken := false, takeover := none }
      let s := s.modTrowel (partner t) fun w => { w with buddyAct := false }
      logBuddy .info t 1 s
    else s)

/-! ### Rows: the heartbeat (R243) -/

def logHeartbeat (cls : LClass) (t : TileId) (s : State) : State :=
  log cls 0x2A (srcTile t) (arg t.val) ((s.tiles[t]).coat.setWidth 32) 0 s

/-- The tile is probed: placed, in service, with clocks running. -/
def State.probed (s : State) (t : TileId) : Bool :=
  let x := s.tiles[t]
  s.fastOn && s.isPlaced t && !x.fenced && !x.inReset

/-- The probe in hand has been answered: a second one with a transient entry. -/
def answered (t : TileId) (s : State) : State :=
  let s' := { s with probes := s.probes.filter fun p => p.1 != t }
  if s.probes.any fun p => p.1 == t && p.2.1 then tileTransient t (logHeartbeat .transient t s') else s'

/-- A probe of the tile is due: 32 ticks after the last (R243). -/
def State.probeDue (s : State) (t : TileId) : Bool := s.probed t && decide ((s.tiles[t]).probedAt + 32 ≤ s.aon.ticks)

/-- HEARTBEAT_PROBE: every 32 ticks a probe is sent; one still in hand has been answered (log 55). -/
def execHeartbeatProbe (t : TileId) (s : State) : Result :=
  .next (if s.probeDue t then
      let now := s.aon.ticks
      let s := (answered t s).modTile t fun x => { x with probedAt := now }
      { s with probes := (t, false, s.aon.run) :: s.probes }
    else s)

/-- HEARTBEAT_TIMEOUT: the probe in hand has no good answer: a second probe at once, or the fence. -/
def execHeartbeatTimeout (t : TileId) (s : State) : Result :=
  .next (if s.probed t then match s.probes.find? fun p => p.1 == t with
      | some p =>
        let rest := s.probes.filter fun p => p.1 != t
        if p.2.1 then faultFence 0x2A t (logHeartbeat .lasting t { s with probes := rest })
        else { s with probes := (t, true, s.aon.run) :: rest }
      | none => s
    else s)

/-- What the heartbeat of a tile does by itself: a due probe goes out, and a probe that 1,200 FCK cycles have not missed is
answered (R243, log 55). -/
def heartbeat (t : TileId) (s : State) : State :=
  let s := if (s.probes.any fun p => p.1 == t && decide (p.2.2 + 1200 ≤ s.aon.run)) then answered t s else s
  match execHeartbeatProbe t s with
  | .next s => s
  | _ => s

end Sys2Proof.Machine
end

