-- ==== Sys2Proof/Machine/ChainDef.lean ====
section
/-!
DEFINITION. DEFINE_CHAIN (R209 to R213): stage and link records and their checks.
-/
namespace Sys2Proof.Machine

open Sys2Proof

/-! ### Records -/

/-- A stage record (R210). -/
def stageOf (bs : List Byte) : Stage :=
  { kind := le bs 0 1, fixed := (bs.getD 1 0).getLsbD 0, grouped := (bs.getD 1 0).getLsbD 1, fix := le bs 2 2,
    group := le bs 4 1, heat := le bs 5 1, params := (bs.drop 8).take 24 }

/-- A link record (R213). -/
def linkOf (bs : List Byte) : LinkRec :=
  { src := le bs 0 1, srcPort := le bs 1 1, dst := le bs 2 1, dstPort := le bs 3 1, ty := le bs 4 1, budget := le bs 5 1,
    hold := (bs.getD 6 0).getLsbD 0 }

/-- `n` records of `k` bytes. -/
def chunks (k : Nat) : Nat → List Byte → List (List Byte)
  | 0, _ => []
  | n + 1, bs => bs.take k :: chunks k n (bs.drop k)

/-! ### The catalogue (R211) -/

/-- PARAMS bytes that a stage uses. -/
def paramBytes (kind : Nat) : Nat :=
  match kind with
  | 0 | 1 => 1 | 2 => 5 | 3 | 4 => 4 | 5 => 5 | 6 => 4 | 7 => 8 | 8 => 5 | 9 | 10 => 4 | 12 => 12 | 13 => 2 | 15 => 8
  | 16 => 20 | _ => 0

/-- Type of an output port: 0 analogue, 1 event, 2 data. -/
def Stage.outType (g : Stage) (port : Nat) : Option Nat :=
  match g.kind, port with
  | 0, 4 => some (if g.byte 0 = 1 then 1 else 0)
  | 2, 4 | 3, 4 | 9, 4 | 10, 4 | 11, 4 => some 0
  | 4, 4 | 5, 4 | 12, 5 => some 2
  | 6, 4 | 7, 4 | 7, 5 | 12, 4 | 13, 4 | 14, 4 | 14, 5 | 15, 4 => some 1
  | _, _ => none

/-- Type of an input port. -/
def Stage.inType (g : Stage) (port : Nat) : Option Nat :=
  match g.kind, port with
  | 1, 0 => some (if g.byte 0 = 1 then 1 else 0)
  | 2, 0 | 3, 0 | 4, 0 | 6, 0 | 7, 0 => some 0
  | 4, 1 | 8, 0 | 9, 0 | 10, 0 | 12, 0 | 12, 1 | 12, 2 | 13, 0 | 13, 1 | 13, 2 | 16, 1 => some 1
  | 5, 0 | 12, 3 | 13, 3 | 16, 0 => some 2
  | _, _ => none

/-- FIX lies in the range of what the stage names (R212). -/
def Stage.fixOk (g : Stage) : Bool :=
  if g.kind ≤ kPinOut then g.fix < (if g.byte 0 = 1 then 128 else 512)
  else if g.kind = kEncoder ∨ g.kind = kPort then g.fix < 8
  else if g.kind = kTimer then g.fix < 16
  else g.fix < 512

/-- The fields of DEFINE_HEAD that one port has, as a SELECT_PORT stage gives them (R26, R211): byte k of PARAMS is byte 24 + k of
the descriptor, so the last byte is one that R26 reserves. -/
def Stage.portOk (g : Stage) : Bool :=
  let b := g.byte 0
  decide (1 ≤ b ∧ b ≤ 4) && ([1, 2, 4, 8] : List Nat).contains (g.byte 1) && decide (g.byte 2 ≤ 3) && decide (g.byte 7 ≤ 1) &&
    decide (g.byte 8 ≤ 63) && decide (1 ≤ g.byte 9) && decide (1 ≤ g.byte 10) && decide (g.byte 11 ≤ 1) &&
    decide (g.byte 12 < 2 ^ b) && decide (g.byte 13 ≤ 15) && decide (g.byte 18 ≤ 7) && g.byte 19 == 0

/-- Parameter values that the catalogue allows. -/
def Stage.paramsOk (stages : List Stage) (g : Stage) : Bool :=
  match g.kind with
  | 0 | 1 => g.byte 0 ≤ 1
  | 2 => g.byte 4 ≤ 2
  | 5 => g.byte 4 ≤ 1
  | 8 => match stages[g.byte 4]? with
    | some c => c.kind == kCmp || c.kind == kWindow
    | none => false
  | 10 => let m := Word.field (g.word 0) 23 21; m == 1 || m == 4
  | 12 => g.byte 0 < 64 && g.byte 1 ≤ 1 && le g.params 2 2 == 0
  | 13 => g.byte 0 < 64 && g.byte 1 < 64
  | 15 => 2 ≤ le g.params 0 4 && le g.params 4 4 ≤ le g.params 0 4
  | 16 => g.portOk
  | _ => true

/-- Stages that must have FIXED set (R212). -/
def mustFix (kind : Nat) : Bool := ([0, 1, 10, 11, 14, 16] : List Nat).contains kind

/-- A stage record passes. -/
def stageRecOk (stages : List Stage) (bs : List Byte) : Bool :=
  let g := stageOf bs
  decide (g.kind ≤ 16) && (bs.getD 1 0 &&& 0xFC#8) == 0 && le bs 6 2 == 0 && decide (g.group ≤ 15 || !g.grouped) &&
    (g.params.drop (paramBytes g.kind)).all (· == 0) && (g.fixed || !mustFix g.kind) && (!g.fixed || g.fixOk) &&
    g.paramsOk stages

/-- A link record passes by itself. -/
def linkRecOk (stages : List Stage) (bs : List Byte) : Bool :=
  let l := linkOf bs
  match stages[l.src]?, stages[l.dst]? with
  | some a, some b =>
    a.outType l.srcPort == some l.ty && b.inType l.dstPort == some l.ty && (bs.getD 6 0 &&& 0xFE#8) == 0 &&
      bs.getD 7 0 == 0 && (l.ty == 1 || (l.budget == 0 && !l.hold))
  | _, _ => false

/-- No input takes two links, no analogue output feeds more than eight (R213). -/
def linksFit (links : List LinkRec) : Bool :=
  (links.map fun l => (l.dst, l.dstPort)).eraseDups.length == links.length &&
    links.all fun l => l.ty != 0 || decide ((links.filter fun m => m.src == l.src && m.srcPort == l.srcPort).length ≤ 8)

/-! ### The command -/

def execDefineChain (d : Desc) (s : State) : Result :=
  runDesc 0x20 d (headerFault d 8 .buffer .unbound [(26, 38)]) true (fun s =>
    let c : Fin 256 := Fin.ofNat 256 d.target.toNat
    let n := d.u 24 1
    let m := d.u 25 1
    if n = 0 ∨ 32 < n then badField 0x20 d 24 s
    else if 64 < m then badField 0x20 d 25 s
    else if d.len ≠ 32 * n + 8 * m then badField 0x20 d 16 s
    else if (s.chains[c].placement).isSome then refuse 0x20 d .state s
    else withBuffer 0x20 d (fun bs s =>
      let srecs := chunks 32 n bs
      let lrecs := chunks 8 m (bs.drop (32 * n))
      let stages := srecs.map stageOf
      let links := lrecs.map linkOf
      if srecs.all (stageRecOk stages) && lrecs.all (linkRecOk stages) && linksFit links then
        okayRead 0x20 d 0 (s.modChain c fun _ => { cdef := some (stages, links) })
      else badField 0x20 d inBuffer s) s) s

end Sys2Proof.Machine
end

