-- ==== Sys2Proof/Machine/Placer.lean ====
section
/-!
DEFINITION. The placer (R214 to R221) and the check of a host's placement record (R222): which units and items are taken, the
cost of R219, the choice of tiles, and the routing of links. R219 fixes the tiles; which of several free nets, lanes, sinks or
lines a route takes is open (`Config.routePick`, log 20).
-/
namespace Sys2Proof.Machine

open Sys2Proof

/-! ### Refusals (R221) -/

structure PlaceFail where
  reason : Nat
  idx : Nat
  link : Bool
  deriving DecidableEq, Repr

def PlaceFail.status (f : PlaceFail) : Status :=
  if f.reason = 5 then .budget else if f.reason = 10 then .badField else if f.reason = 11 then .state else .noResource
def PlaceFail.detail (f : PlaceFail) : Nat := f.reason + f.idx * 256 + if f.link then 65536 else 0

/-! ### What is taken -/

/-- A chain being placed, or placed: its stages, links and placement. -/
structure Laid where
  stages : List Stage
  links : List LinkRec
  pl : Placement

/-- Placed chains and the placements that wait for their coat, without chain `c`. -/
def State.laid (s : State) (c : Fin 256) : List Laid :=
  let of := fun (k : Fin 256) (pl : Placement) => match s.chains[k].cdef with
    | some (a, b) => some (Laid.mk a b pl)
    | none => none
  ((List.finRange 256).filterMap fun k => if k = c then none else (s.chains[k].placement).bind (of k)) ++
    (match s.coat with
      | some x => x.bound.filterMap fun b => match b with
        | .place _ k pl _ _ => if k = c then none else of k pl
        | _ => none
      | none => [])

/-- T_ADC.ILV of an ADC stage. -/
def Stage.ilv (g : Stage) : Bool := g.kind == kAdc && (g.word 0).getLsbD 14

/-- The output port 4 of an ENGINE or FABRIC stage leaves its tile, through TEO. -/
def usesTeo (stages : List Stage) (links : List LinkRec) (places : List StagePlace) (p : StagePlace) : Bool :=
  links.any fun l => l.src == p.stage && l.srcPort == 4 && l.ty == 1 && match stages[l.dst]?,
      places.find? (fun q => q.stage == l.dst) with
    | some b, some q => !(b.kind == kFabric && q.tile == p.tile)
    | _, _ => true

/-- Units that a placed stage holds: unit number (a tile, pin, channel or port) and unit code. -/
def unitsOf (stages : List Stage) (links : List LinkRec) (places : List StagePlace) (p : StagePlace) :
    List (Nat × Nat) :=
  let t := p.tile.val
  match stages[p.stage]? with
  | none => []
  | some g =>
    let teo := if usesTeo stages links places p then [(t, 10)] else []
    match g.kind with
    | 0 | 1 => if g.byte 0 = 1 then [(t, 21)] else [(t, 20)]
    | 2 => [(t, p.unit % 2)]
    | 3 => [(t, 2)]
    | 4 => if g.ilv then [(t, 3), ((partner p.tile).val, 3)] else [(t, 3)]
    | 5 => [(t, 4)]
    | 6 => [(t, 5 + p.unit % 2)]
    | 7 => [(t, 5), (t, 6)]
    | 8 => [(t, 11 + p.unit % 2)]
    | 10 => (t, 7) :: (if Word.field (g.word 0) 23 21 = 4 then [(t, 5 + Word.field (g.word 0) 11 11)] else [])
    | 9 | 11 => [(t, 7)]
    | 12 => (t, 8) :: teo
    | 13 => (t, 9) :: teo
    | 14 => [(t, 22)]
    | 15 => [(t, 23)]
    | _ => [(t, 24)]

def Laid.units (x : Laid) : List (Nat × Nat) := x.pl.stages.flatMap (unitsOf x.stages x.links x.pl.stages)

/-- A stage whose signal enters the crossbar through a pin event line. -/
def Stage.pinLike (g : Stage) : Bool := (g.kind == kPinIn && g.gpio) || g.kind == kEncoder || g.kind == kTimer

/-- An item of the fabric: net (0), trunk (1), sink (2), inbound lane (4) or pin event input line (6), its panel and
number. -/
abbrev FabricItem := Nat × Nat × Nat

/-- The item of a route entry; a tile-local entry and an output line name none of their own. -/
def routeItem (stages : List Stage) (links : List LinkRec) (r : Route) : Option FabricItem :=
  match r.kind with
  | 0 | 1 | 2 | 4 => some (r.kind, r.panel.val, r.item)
  | 3 => some (2, r.panel.val, 192 + r.item)
  | 6 => match links[r.link]? with
    | some l => match stages[l.src]? with
      | some g => if g.pinLike then some (6, r.panel.val, r.item) else none
      | none => none
    | none => none
  | _ => none

def Laid.items (x : Laid) : List FabricItem := x.pl.routes.filterMap (routeItem x.stages x.links)

/-! ### Tiles that R214 and R218 forbid -/

/-- A stage with a circular buffer: an ADC with no link from port 4, a DECIM with none and destination 0 (R218). -/
def hasBuffer (links : List LinkRec) (i : Nat) (g : Stage) : Bool :=
  let unlinked := !links.any fun l => l.src == i && l.srcPort == 4
  unlinked && (g.kind == kAdc || (g.kind == kDecim && g.byte 4 == 0))

/-- The reason why no stage may use a tile, nor, where it takes `sar`, the SAR of one; `spare` allows a reserved spare (R214, R218,
R230). -/
def State.tileBarred (s : State) (spare sar : Bool) (t : TileId) : Option Nat :=
  let x := s.tiles[t]
  if x.fenced || x.retired || (x.spare && !spare) then some 9 else if sar && (s.headOf t).isSome then some 7 else none

/-- The reason why a stage may not sit on a tile. An ADC with ILV takes the partner's SAR too. -/
def State.barred (s : State) (spare : TileId → Bool) (links : List LinkRec) (i : Nat) (g : Stage) (t : TileId) (unit : Nat) :
    Option Nat :=
  let x := s.tiles[t]
  let page := fun (f : Fin 16 → Bool) => s.mem.retired.any fun r => r.2.1 == t && f r.1
  let held := (s.headOf t).isSome
  let cm := x.trowel.modeField == 4 && (g.kind == kWindow || (g.kind == kCmp && unit % 2 == cmpNum x.trowel.cmCmp))
  if let some r := s.tileBarred (spare t) false t then some r
  else if (g.kind == kEngine && page (fun r => r == 0)) || (g.kind == kFabric && page (fun r => r == 5)) ||
      (hasBuffer links i g && page (fun r => decide (2 ≤ r.val ∧ r.val ≤ 4))) then some 9
  else if held && (g.kind == kAdc || g.kind == kDac || g.kind == kTrowel || g.kind == kListen) then some 7
  else if cm then some (if held then 7 else 1)
  else if g.ilv && t.val % 2 = 1 then some 1
  else if g.ilv then s.tileBarred (spare (partner t)) true (partner t)
  else none

/-! ### Costs (R215, R219) -/

/-- Panel of a stage's place: none for a GPIO pin, an encoder channel or a timer. -/
def placePanel (g : Stage) (p : StagePlace) : Option PanelId :=
  if g.onTile || g.tb then some (panelOf p.tile)
  else if g.kind = kPort then some (Fin.ofNat 8 p.tile.val) else none

/-- Input code by which a unit takes a signal of its own tile without the matrix (R125, R127, R130, R153). -/
def localCode (a : Stage) (pa : StagePlace) (b : Stage) (pb : StagePlace) : Option Nat :=
  if pa.tile ≠ pb.tile then none
  else
    let tap := a.kind = kTrowel ∨ a.kind = kListen
    let tb := a.kind = kPinIn ∧ a.tb
    match b.kind with
    | 2 => if tb then some 0 else if tap then some 7 else if a.kind = kPga ∧ pa.unit = 0 ∧ pb.unit = 1 then some 8
        else if a.kind = kFilter then some 9 else none
    | 3 => if a.kind = kPga then some (pa.unit % 2) else if tb then some 2 else none
    | 4 => if tb then some 0 else if a.kind = kPga then some (8 + pa.unit % 2) else if a.kind = kFilter then some 10
        else if tap then some 11 else none
    | 6 | 7 => if tb then some 0 else if tap then some 1 else if a.kind = kPga then some (4 + pa.unit % 2)
        else if a.kind = kFilter then some 6 else none
    | _ => none

/-- Neighbouring panels of the ring, as the panel whose trunks lead to the next (R228). -/
def trunkPanel (p q : PanelId) : Option PanelId := if q = p + 1 then some p else if p = q + 1 then some q else none

/-- An event or TRIG line into the same tile's fabric slice is tile-local (R215). -/
def localEvent (a : Stage) (pa : StagePlace) (b : Stage) (pb : StagePlace) : Bool :=
  pa.tile == pb.tile && b.kind == kFabric && (a.kind == kCmp || a.kind == kWindow || a.kind == kEngine)

/-- Route delay of an event link in FCK cycles (R215). -/
def eventDelay (a : Stage) (pa : StagePlace) (b : Stage) (pb : StagePlace) : Nat :=
  if localEvent a pa b pb then 1
  else match placePanel a pa, placePanel b pb with
    | some p, some q => if p = q then 3 else 9
    | _, _ => 3

/-- Cost of a link, none where no route exists: a switch at each end, at a trunk one on each side and 8 for crossing it (R219). `home`
and `away`: another link of the source port already has its net in the source's and in the destination's panel. -/
def linkCost (l : LinkRec) (home away : Bool) (a : Stage) (pa : StagePlace) (b : Stage) (pb : StagePlace) : Option Nat :=
  match l.ty with
  | 0 =>
    if (localCode a pa b pb).isSome then some 0
    else if a.kind = kTrowel ∨ a.kind = kListen then none
    else match placePanel a pa, placePanel b pb with
      | some p, some q =>
        if p = q then some (if home then 1 else 2)
        else if (trunkPanel p q).isSome then some (if away then 1 else if home then 11 else 12) else none
      | _, _ => none
  | 1 =>
    let n := eventDelay a pa b pb
    if l.budget ≠ 0 ∧ l.budget < n then none else some n
  | _ =>
    match placePanel a pa, placePanel b pb with
    | some p, some q => some (if pa.tile = pb.tile ∧ b.kind ≠ kPort then 0 else if p = q then 2 else 6)
    | _, _ => some 0

def placeOfStage (places : List StagePlace) (i : Nat) : Option StagePlace := places.find? fun p => p.stage == i

/-- An earlier placed link of the same source port goes through the matrix; with a panel, it ends there. -/
def sharedNet (stages : List Stage) (links : List LinkRec) (places : List StagePlace) (k : Nat) (l : LinkRec)
    (panel : Option PanelId) : Bool :=
  (withIndex links).any fun m => m.1 < k && m.2.src == l.src && m.2.srcPort == l.srcPort &&
    match stages[m.2.src]?, placeOfStage places m.2.src, stages[m.2.dst]?, placeOfStage places m.2.dst with
    | some a, some pa, some b, some pb => (localCode a pa b pb).isNone && (panel.isNone || placePanel b pb == panel)
    | _, _, _, _ => false

/-- Cost of the links between stage `i` and the stages placed so far; none names the first link without a route. -/
def linksCost (stages : List Stage) (links : List LinkRec) (places : List StagePlace) (i : Nat) : Nat ⊕ Nat :=
  (withIndex links).foldl (fun acc (k, l) =>
    match acc with
    | .inr f => .inr f
    | .inl n =>
      if l.src ≠ i ∧ l.dst ≠ i then .inl n
      else match stages[l.src]?, placeOfStage places l.src, stages[l.dst]?, placeOfStage places l.dst with
        | some a, some pa, some b, some pb =>
          match linkCost l (l.ty == 0 && sharedNet stages links places k l none)
            (l.ty == 0 && (placePanel b pb).isSome && sharedNet stages links places k l (placePanel b pb)) a pa b pb with
          | some c => .inl (n + c)
          | none => .inr k
        | _, _, _, _ => .inl n) (.inl 0)

/-- Heat weights placed in a panel and on a tile. -/
def heatAt (xs : List Laid) (t : TileId) : Nat × Nat :=
  xs.foldl (fun acc x => x.pl.stages.foldl (fun (acc : Nat × Nat) (p : StagePlace) => match x.stages[p.stage]? with
    | some g => if g.onTile then
        (acc.1 + (if panelOf p.tile = panelOf t then g.heat else 0), acc.2 + if p.tile = t then g.heat else 0)
      else acc
    | none => acc) acc) (0, 0)

/-- Heat and health terms (R219). -/
def State.placeCost (s : State) (xs : List Laid) (g : Stage) (t : TileId) : Nat :=
  if g.onTile then
    let (hp, ht) := heatAt xs t
    let h := (s.tiles[t]).health s.aon.ticks
    g.heat * hp / 64 + g.heat * ht / 16 + (if h = 1 then 32 else if h = 2 then 256 else 0)
  else 0

/-! ### Choosing tiles (R219) -/

/-- The tile on which a RAMP with FIXED holds its comparator (R211, R212). -/
def rampTile (stages : List Stage) (i : Nat) : Option Nat :=
  (stages.find? fun r => r.kind == kRamp && r.fixed && r.byte 4 == i).map (·.fix)

/-- Places that a stage could take. A RAMP sits on its comparator's tile, and with FIXED only on tile FIX. -/
def candidates (stages : List Stage) (places : List StagePlace) (i : Nat) (g : Stage) : List StagePlace :=
  let at_ := fun (n u : Nat) => StagePlace.mk i u (Fin.ofNat 512 n)
  let units := match g.kind with
    | 2 => if g.byte 4 = 1 then [0] else if g.byte 4 = 2 then [1] else [0, 1]
    | 6 => [0, 1]
    | _ => [0]
  if g.kind = kRamp then match placeOfStage places (g.byte 4) with
    | some p =>
      if g.fixed ∧ g.fix ≠ p.tile.val then []
      else [at_ p.tile.val (match stages[g.byte 4]? with
        | some c => if c.kind = kCmp then p.unit else 0
        | none => 0)]
    | none => []
  else if g.fixed then units.map (at_ g.fix)
  else if let some n := rampTile stages i then units.map (at_ n)
  else if g.kind = kTimer then (List.range 16).map fun k => at_ k 0
  else allTiles.flatMap fun t => units.map (at_ t.val)

/-- The panel that the placed stages of a group sit in. -/
def groupPanel (stages : List Stage) (places : List StagePlace) (g : Stage) : Option PanelId :=
  if g.grouped then
    places.findSome? fun p => match stages[p.stage]? with
      | some h => if h.grouped ∧ h.group = g.group then placePanel h p else none
      | none => none
  else none

/-- A placement problem: the chain, the units taken by others, the others' layouts, and tiles whose spares may be used. -/
structure Problem where
  stages : List Stage
  links : List LinkRec
  others : List Laid
  spare : TileId → Bool

/-- A GPIO pin, channel or port that may not be taken (R221 reason 6). -/
def State.pinBarred (s : State) (g : Stage) (p : StagePlace) : Bool :=
  if g.kind = kPinOut ∧ g.gpio then
    let x := s.gpio.pins[(Fin.ofNat 128 p.tile.val : PinId)]
    x.locked || (x.oselA != 0 && x.oselB != 0)
  else if g.kind = kPort then
    allHeads.any fun h => match s.heads[h].hdef with
      | some d => d.usesPort (Fin.ofNat 8 p.tile.val)
      | none => false
  else false

/-- Why a place may not be taken by stage `i`, and otherwise its cost: reason, and the link of reasons 2 and 5. -/
def State.judge (s : State) (j : Problem) (places : List StagePlace) (g : Stage) (p : StagePlace) : (Nat × Option Nat) ⊕ Nat :=
  let rest := places.filter fun q => q.stage != p.stage
  let now := rest ++ [p]
  let used := (j.others.flatMap Laid.units) ++ rest.flatMap (unitsOf j.stages j.links rest)
  let mine := unitsOf j.stages j.links now p
  let bar := if g.onTile then s.barred j.spare j.links p.stage g p.tile p.unit
    else if s.pinBarred g p then some 6 else none
  match bar with
  | some r => .inl (r, none)
  | none =>
    if mine.any used.contains then .inl (if g.onTile then 1 else 6, none)
    else if (placePanel g p).isSome && (groupPanel j.stages rest g).isSome && groupPanel j.stages rest g != placePanel g p then
      .inl (8, none)
    else match linksCost j.stages j.links now p.stage with
      | .inr k => .inl (match j.links[k]? with
          | some l => if l.ty = 1 then 5 else 2
          | none => 2, some k)
      | .inl n =>
        .inr (n + s.placeCost (Laid.mk j.stages j.links { stages := rest, routes := [] } :: j.others) g p.tile)

/-- The cheapest place; equal costs go to the lower tile, then unit, which is the order of the candidates. -/
def State.bestPlace (s : State) (j : Problem) (places : List StagePlace) (i : Nat) (g : Stage) :
    (Nat × Option Nat) ⊕ (StagePlace × Nat) :=
  (candidates j.stages places i g).foldl (fun best p =>
    match s.judge j places g p, best with
    | .inr c, .inr (q, n) => if c < n then .inr (p, c) else .inr (q, n)
    | .inr c, .inl _ => .inr (p, c)
    | .inl _, .inr b => .inr b
    | .inl f, .inl b => .inl (if b.1 = 1 ∨ (b.1 = 9 ∧ f.1 ≠ 1) then f else b)) (.inl (1, none))

/-- Whether the programs and netlists that the stages name are loaded (R221 reason 11). -/
def State.missingItem (s : State) (stages : List Stage) : Option Nat :=
  ((withIndex stages).find? fun x =>
    (x.2.kind == kEngine && (s.program (x.2.byte 0)).isNone) ||
    (x.2.kind == kFabric && (s.netlists[(Fin.ofNat 64 (x.2.byte 0) : Fin 64)]).isEmpty)).map (·.1)

/-- Stage order of R219: FIXED stages, then the others by index; a RAMP follows its comparator. -/
def placeOrder (stages : List Stage) : List Nat :=
  let ix := withIndex stages
  let pick := fun f => (ix.filter f).map (·.1)
  pick (fun x => x.2.fixed && x.2.kind != kRamp) ++ pick (fun x => !x.2.fixed && x.2.kind != kRamp) ++
    pick (fun x => x.2.kind == kRamp)

/-- Places the stages of `order` one after another. -/
def State.placeAll (s : State) (j : Problem) : List Nat → List StagePlace → PlaceFail ⊕ List StagePlace
  | [], places => .inr places
  | i :: is, places =>
    match j.stages[i]? with
    | none => s.placeAll j is places
    | some g => match s.bestPlace j places i g with
      | .inl (r, k) => .inl ⟨r, k.getD i, k.isSome⟩
      | .inr (p, _) => s.placeAll j is (places ++ [p])

/-- The pass of R219: each stage moves singly where that lowers the cost. -/
def State.improve (s : State) (j : Problem) (places : List StagePlace) : List StagePlace :=
  (withIndex j.stages).foldl (fun places (i, g) =>
    if g.fixed || g.kind == kRamp || j.stages.any (fun r => r.kind == kRamp && r.byte 4 == i) then places
    else match placeOfStage places i with
      | none => places
      | some p => match s.judge j places g p, s.bestPlace j places i g with
        | .inr c, .inr (q, n) => if n < c then places.map fun x => if x.stage = i then q else x else places
        | _, _ => places) places

/-! ### Routing -/

/-- Routes in the making: items held with their owner (source stage and port), entries, ports, and, for a host record, the
entries of the link in hand that are still to be matched. -/
structure Routing where
  mine : List (FabricItem × Nat) := []
  routes : List Route := []
  aps : List ApUse := []
  given : Option (List Route) := none

def ownerOf (l : LinkRec) : Nat := 8 * l.src + l.srcPort

/-- Adds an entry that leaves no choice; a host record must have it. -/
def Routing.note (link kind : Nat) (panel : PanelId) (item : Nat) (r : Routing) : Except Nat Routing :=
  let e : Route := ⟨link, kind, panel, item⟩
  match r.given with
  | none => .ok { r with routes := r.routes ++ [e] }
  | some (g :: gs) => if g = e then .ok { r with routes := r.routes ++ [e], given := some gs } else .error 10
  | some [] => .error 10

/-- Takes an item of class `kind` in a panel out of `allowed`: the one the source already holds there, else a free one.
`shift` is what a route entry of KIND `rkind` leaves off the number. -/
def Routing.take (taken : List FabricItem) (link rkind kind : Nat) (panel : PanelId) (allowed : List Nat) (shift owner : Nat)
    (share : Bool) (err : Nat) (r : Routing) : Except Nat (Nat × Routing) :=
  let shared := if share then
      (r.mine.find? fun m => m.1.1 == kind && m.1.2.1 == panel.val && m.2 == owner && allowed.contains m.1.2.2).map (·.1.2.2)
    else none
  let free := allowed.filter fun i => !taken.contains (kind, panel.val, i) && !r.mine.any fun m => m.1 == (kind, panel.val, i)
  let add := fun (i : Nat) (given : Option (List Route)) =>
    (i, { r with mine := ((kind, panel.val, i), owner) :: r.mine, routes := r.routes ++ [⟨link, rkind, panel, i - shift⟩],
                 given })
  match r.given with
  | some (g :: gs) =>
    let i := g.item + shift
    if g.link = link ∧ g.kind = rkind ∧ g.panel = panel ∧ (shared = some i ∨ free.contains i) then .ok (add i (some gs))
    else .error 10
  | some [] => .error 10
  | none => match shared with
    | some i => .ok (add i none)
    | none => match free[Config.routePick (link * 8 + rkind) % free.length]? with
      | some i => .ok (add i none)
      | none => .error err

/-- Takes an analogue port of a tile: the one the key already has, else a free one of `allowed`. -/
def Routing.port (taken : List (TileId × Nat)) (key : Nat) (t : TileId) (allowed : List Nat) (r : Routing) :
    Except Nat (Nat × Routing) :=
  match r.aps.find? fun a => a.key == key with
  | some a => .ok (a.ap, r)
  | none =>
    let free := allowed.filter fun i => !taken.contains (t, i) && !r.aps.any fun a => a.tile == t && a.ap == i
    match free[Config.routePick (key * 8 + 7) % free.length]? with
    | some i => .ok (i, { r with aps := r.aps ++ [⟨key, t, i⟩] })
    | none => .error 2

/-- Analogue ports from which a unit takes its input (R125, R127, R130, R153). -/
def inputPorts (kind : Nat) : List Nat :=
  match kind with
  | 2 | 4 => [0, 1, 2, 3, 4, 5]
  | 3 => [0]
  | _ => [0, 1]

/-- What others hold: items and analogue ports. -/
structure Taken where
  items : List FabricItem
  aps : List (TileId × Nat)

def routeAnalogue (tk : Taken) (i : Nat) (l : LinkRec) (a : Stage) (pa : StagePlace) (b : Stage) (pb : StagePlace)
    (r : Routing) : Except Nat Routing := do
  if (localCode a pa b pb).isSome then r.note i 5 (panelOf pb.tile) 0
  else
    let p := panelOf pa.tile
    let q := panelOf pb.tile
    let own := ownerOf l
    let r ← if a.onTile then (do
        let (_, r) ← r.port tk.aps (256 + 4 * l.src + (l.srcPort - 4)) pa.tile [4, 5]
        pure r) else pure r
    let r ← if b.onTile then (do
        let (_, r) ← r.port tk.aps i pb.tile (inputPorts b.kind)
        pure r) else pure r
    let (_, r) ← r.take tk.items i 0 0 p (List.range 32) 0 own true 2
    if p = q then pure r
    else match trunkPanel p q with
      | none => .error 2
      | some tp =>
        let (_, r) ← r.take tk.items i 1 1 tp (List.range 8) 0 own true 3
        let (_, r) ← r.take tk.items i 0 0 q (List.range 32) 0 own true 2
        pure r

/-- TEI lines that an event input of a stage may use. -/
def teiLines (kind port : Nat) : List Nat :=
  if kind = kEngine ∨ kind = kFabric then [port] else if kind = kRamp then [0, 1] else [0, 1, 2]

/-- The sink of the destination: a TEI line of its tile, or a pin event output line with its pin. -/
def routeSink (tk : Taken) (i : Nat) (l : LinkRec) (p : PanelId) (b : Stage) (pb : StagePlace) (r : Routing) :
    Except Nat Routing := do
  if b.kind = kPinOut then
    let (k, r) ← r.take tk.items i 2 2 p ((List.range 32).map (224 + ·)) 0 (ownerOf l) true 4
    r.note i 6 p (k - 224)
  else
    let (_, r) ← r.take tk.items i 2 2 p ((teiLines b.kind l.dstPort).map (3 * localOf pb.tile + ·)) 0 (ownerOf l) false 4
    pure r

/-- The panel that a link from a pin to a pin runs through: any (a host record names it). -/
def freePanel (i : Nat) (r : Routing) : PanelId :=
  match r.given with
  | some (g :: _) => g.panel
  | _ => Fin.ofNat 8 (Config.routePick i)

def routeEvent (tk : Taken) (i : Nat) (l : LinkRec) (a : Stage) (pa : StagePlace) (b : Stage) (pb : StagePlace)
    (r : Routing) : Except Nat Routing := do
  let own := ownerOf l
  if localEvent a pa b pb then r.note i 5 (panelOf pb.tile) 0
  else if a.pinLike then
    let q := (placePanel b pb).getD (freePanel i r)
    let (_, r) ← r.take tk.items i 6 6 q (List.range 32) 0 own true 4
    if b.kind = kPort then pure r else routeSink tk i l q b pb r
  else
    let p := panelOf pa.tile
    let q := (placePanel b pb).getD p
    if b.kind = kPort then pure r
    else if p = q then routeSink tk i l p b pb r
    else
      let (_, r) ← r.take tk.items i 3 2 p ((List.range 32).map (192 + ·)) 192 own true 4
      let (_, r) ← r.take tk.items i 4 4 q (List.range 32) 0 own true 4
      routeSink tk i l q b pb r

/-- One link; in a host record its entries must match to the last (R221 reason 10). -/
def routeLink (tk : Taken) (given : Option (List Route)) (stages : List Stage) (places : List StagePlace) (i : Nat)
    (l : LinkRec) (r : Routing) : Except Nat Routing :=
  match stages[l.src]?, placeOfStage places l.src, stages[l.dst]?, placeOfStage places l.dst with
  | some a, some pa, some b, some pb =>
    let r := { r with given := given.map fun rs => rs.filter fun e => e.link == i }
    let res := match l.ty with
      | 0 => routeAnalogue tk i l a pa b pb r
      | 1 => routeEvent tk i l a pa b pb r
      | _ => if pa.tile = pb.tile ∧ b.kind ≠ kPort then r.note i 5 (panelOf pb.tile) 0 else .ok r
    match res with
    | .ok r => if r.given.getD [] = [] then .ok r else .error 10
    | .error e => .error e
  | _, _, _, _ => .ok r

/-- Routes every link. -/
def routeAll (tk : Taken) (given : Option (List Route)) (j : Problem) (places : List StagePlace) :
    List (Nat × LinkRec) → Routing → PlaceFail ⊕ Placement
  | [], r => .inr { stages := places, routes := r.routes, aps := r.aps }
  | (i, l) :: ls, r =>
    match routeLink tk given j.stages places i l r with
    | .ok r => routeAll tk given j places ls r
    | .error e => .inl ⟨e, i, true⟩

/-- What the other layouts hold. -/
def takenBy (xs : List Laid) : Taken :=
  { items := xs.flatMap Laid.items, aps := xs.flatMap fun x => x.pl.aps.map fun a => (a.tile, a.ap) }

/-! ### Whole placements -/

/-- The placer's answer for a chain (R216 to R219). -/
def State.place (s : State) (c : Fin 256) (stages : List Stage) (links : List LinkRec) : PlaceFail ⊕ Placement :=
  let j : Problem := { stages, links, others := s.laid c, spare := fun _ => false }
  match s.missingItem stages with
  | some i => .inl ⟨11, i, false⟩
  | none => match s.placeAll j (placeOrder stages) [] with
    | .inl f => .inl f
    | .inr places => routeAll (takenBy j.others) none j (s.improve j places) (withIndex links) {}

/-- A host's placement is checked against R218, R215 and what is free (R222): one entry per stage, each allowed there. -/
def State.checkPlaces (s : State) (j : Problem) (places : List StagePlace) : Option PlaceFail :=
  (withIndex j.stages).findSome? fun (i, g) =>
    match places.filter fun p => p.stage == i with
    | [p] =>
      if !((candidates j.stages places i g).contains p) then some ⟨if g.fixed then 9 else 1, i, false⟩
      else match s.judge j places g p with
        | .inl (r, k) => some ⟨r, k.getD i, k.isSome⟩
        | .inr _ => none
    | _ => some ⟨1, i, false⟩

def State.checkRecord (s : State) (c : Fin 256) (stages : List Stage) (links : List LinkRec) (places : List StagePlace)
    (routes : List Route) : PlaceFail ⊕ Placement :=
  let j : Problem := { stages, links, others := s.laid c, spare := fun _ => false }
  match s.missingItem stages with
  | some i => .inl ⟨11, i, false⟩
  | none => match s.checkPlaces j places with
    | some f => .inl f
    | none => routeAll (takenBy j.others) (some routes) j places (withIndex links) {}

/-- The routes of a placement that a move leaves as they are. -/
def keptRoutes (stages : List Stage) (links : List LinkRec) (pl : Placement) (t : TileId) (cut : List Nat) : Routing :=
  let routes := pl.routes.filter fun r => !cut.contains r.link
  { mine := routes.filterMap fun r => match routeItem stages links r, links[r.link]? with
      | some it, some l => some (it, ownerOf l)
      | _, _ => none
    routes
    aps := pl.aps.filter fun a => a.tile != t && !cut.contains a.key }

/-- The re-placement of the stages on a tile (R230): a spare of the same panel if one meets R218, else R219; the other stages
stay. A stage that FIX binds to the tile cannot move. -/
def State.rePlace (s : State) (c : Fin 256) (t : TileId) (stages : List Stage) (links : List LinkRec) (pl : Placement) :
    PlaceFail ⊕ Placement :=
  let gone := stagesOn stages pl t
  let keep := pl.stages.filter fun p => !gone.contains p.stage
  let others := s.laid c
  let cut := (withIndex links).filter fun l => gone.contains l.2.src || gone.contains l.2.dst
  let kept := keptRoutes stages links pl t (cut.map (·.1))
  let order := (placeOrder stages).filter gone.contains
  let try_ := fun (ok : TileId → Bool) (spare : Bool) =>
    let j : Problem := { stages, links, others, spare := fun u => spare && ok u }
    match s.placeAll j order keep with
    | .inr places =>
      if places.all fun p => !gone.contains p.stage || (ok p.tile && p.tile != t) then
        routeAll (takenBy others) none j places cut kept
      else .inl ⟨1, gone.headD 0, false⟩
    | .inl f => .inl f
  let onSpare := (tilesOf (panelOf t)).filter fun u => (s.tiles[u]).spare
  let viaSpare := onSpare.findSome? fun u =>
    let j : Problem := { stages, links, others, spare := fun v => v == u }
    let places := order.foldl (fun (acc : Option (List StagePlace)) i => match acc, stages[i]? with
      | some ps, some g =>
        match ((candidates stages ps i g).filter fun p => p.tile == u).find? fun p => (s.judge j ps g p).isRight with
        | some p => some (ps ++ [p])
        | none => none
      | _, _ => none) (some keep)
    match places with
    | some ps => match routeAll (takenBy others) none j ps cut kept with
      | .inr pl => some pl
      | .inl _ => none
    | none => none
  match viaSpare with
  | some pl => .inr pl
  | none => try_ (fun _ => true) false

end Sys2Proof.Machine
end

