-- ==== Sys2Proof/Machine/Place.lean ====
section
/-!
DEFINITION. What a placement, a release and a coat's items do when they go live (R211, R217, R222, R223, R230, R236): registers of
the stages, routes in the crossbars, programs and netlists.
-/
namespace Sys2Proof.Machine

open Sys2Proof

/-! ### Registers of a stage (R211) -/

/-- What a stage's links say of it: the input code of port 0, the TEI line of an event port, and whether a port is linked. -/
structure StageView where
  g : Stage
  p : StagePlace
  links : List LinkView
  pl : Placement

/-- Links into a port. -/
def StageView.into (v : StageView) (port : Nat) : Option LinkView :=
  v.links.find? fun l => l.link.dst == v.p.stage && l.link.dstPort == port
def StageView.outOf (v : StageView) (port : Nat) : List LinkView :=
  v.links.filter fun l => l.link.src == v.p.stage && l.link.srcPort == port

/-- The analogue input: a code of the unit's own tile, or the AP port the placement took. -/
def StageView.input (v : StageView) : Option (Nat ⊕ Nat) :=
  match v.into 0 with
  | none => none
  | some l => match localCode l.src l.srcAt l.dst l.dstAt with
    | some c => some (.inl c)
    | none => ((v.pl.aps.find? fun a => a.key == l.idx).map (·.ap)).map .inr

/-- The TEI line of an event port. -/
def StageView.line (v : StageView) (port : Nat) : Option Nat :=
  (v.into port).bind fun l =>
    ((l.routes.find? fun r => r.kind == 2 && r.panel == panelOf v.p.tile && r.item < 192).map fun r =>
      r.item - 3 * localOf v.p.tile)

/-- A linked stage of a kind on the same tile. -/
def StageView.feeds (v : StageView) (port kind : Nat) : Bool :=
  (v.outOf port).any fun l => l.dst.kind == kind && l.dstAt.tile == v.p.tile

/-- TEO_SRC and TEO_OUT of a stage whose port 4 leaves the tile. -/
def StageView.teo (v : StageView) (src out : Nat) : List (TReg × Word × Word) :=
  if (v.outOf 4).any fun l => !localEvent l.src l.srcAt l.dst l.dstAt then
    [(.ctrl, Word.put src 24 ||| Word.put out 18, 0x03FC0000#32)]
  else []

/-- Fields of tile registers that a stage sets: register, value and mask. -/
def StageView.regs (v : StageView) : List (TReg × Word × Word) :=
  let w := v.g.word 0
  let inp := fun (loc : Nat → Nat) (ap : Nat → Nat) (none_ : Nat) => match v.input with
    | some (.inl c) => loc c
    | some (.inr a) => ap a
    | none => none_
  match v.g.kind with
  | 2 =>
    let i := inp id (1 + ·) 15
    let gain := Word.field w 31 28
    if v.p.unit % 2 = 0 then [(.pga, Word.put gain 28 ||| Word.put i 24 ||| Word.flag true 15, 0xFF008000#32)]
    else [(.pga, Word.put gain 20 ||| Word.put i 16 ||| Word.flag true 14, 0x00FF4000#32)]
  | 3 => [(.flt, (w &&& 0x001FF000#32) ||| Word.put (inp id (fun _ => 3) 0) 10 ||| Word.flag true 9, 0x001FFE00#32)]
  | 4 =>
    let mux := inp id (1 + ·) 0x3F
    let route := if v.feeds 4 kDecim then 2 else if (v.outOf 4).isEmpty then 1 else 0
    let fifo := w.getLsbD 15 || v.feeds 4 kEngine
    let trig := match v.line 1 with
      | some k => [(.ctrl, Word.put (k + 1) 30, 0xC0000000#32)]
      | none => []
    trig ++ [(.adc, (w &&& 0x03FC7F02#32) ||| Word.put mux 26 ||| Word.put route 16 ||| Word.flag fifo 15 |||
      Word.flag (mux != 0x3F) 0, 0xFFFFFF03#32)]
  | 5 =>
    let dest := if !(v.outOf 4).isEmpty then 2 else v.g.byte 4
    [(.flt, (w &&& 0xFF800000#32) ||| Word.put dest 21, 0xFFE00000#32)]
  | 6 =>
    let i := inp id (2 + ·) 0
    [(.cmp (if v.p.unit % 2 = 0 then .a else .b), (w &&& 0x0FFF1FF8#32) ||| Word.put i 13 ||| 1#32, 0x0FFFFFFD#32)]
  | 7 =>
    let i := inp id (2 + ·) 0
    [(.cmp .b, (v.g.word 4 &&& 0x0FFF1FF8#32) ||| Word.put i 13 ||| 1#32, 0x0FFFFFF9#32),
     (.cmp .a, (w &&& 0x0FFF1FF8#32) ||| Word.put i 13 ||| 5#32, 0x0FFFFFFD#32)]
  | 8 =>
    let rper := match v.line 0 with
      | some k => 2 + k % 2
      | none => if v.p.unit % 2 = 0 then Word.field w 15 14 else Word.field w 13 12
    if v.p.unit % 2 = 0 then [(.dac, (w &&& 0xFF000800#32) ||| Word.put rper 14, 0xFF00C800#32)]
    else [(.dac, (w &&& 0x00FF0400#32) ||| Word.put rper 12, 0x00FF3400#32)]
  | 9 => [(.trwl, (w &&& 0x0F000000#32) ||| Word.put 2 21, 0x0FE00000#32)]
  | 10 => [(.trwl, w &&& 0x0FFFF800#32, 0x0FFFF800#32)]
  | 11 => [(.trwl, Word.put 3 21, 0x00E00000#32)]
  | 12 => v.teo 1 0
  | 13 => v.teo 2 (v.g.byte 1)
  | _ => []

/-- Reset values of the RW fields of a tile register (R405). -/
def TReg.resetWord : TReg → Word
  | .pga => 0x0F0F0000#32
  | .adc => 0xFC000D00#32
  | .flt => 0xB0400000#32
  | .trwl => 0x001F3000#32
  | _ => 0

/-- The stored fields of a tile register. -/
def Tile.regWord (x : Tile) : TReg → Word
  | .ctrl => x.ctrl | .pga => x.pga | .adc => x.adc | .cmp c => (x.cmp c).cfg | .dac => x.dac | .trwl => x.trowel.cfg
  | .flt => x.flt | _ => 0

/-- Fields change where they differ, in a panel that is powered (R395). -/
def setFields (t : TileId) (f : TReg × Word × Word) (s : State) : State :=
  let old := (s.tiles[t]).regWord f.1
  if s.pstate (panelOf t) = .off || Word.merge old f.2.1 f.2.2 = old then s else setReg (.tile t f.1) f.2.1 f.2.2 s

/-! ### Views of a placed chain -/

def stageViews (c : Fin 256) (stages : List Stage) (links : List LinkRec) (pl : Placement) : List StageView :=
  let ls := linkViews c stages links pl
  pl.stages.filterMap fun p => (stages[p.stage]?).map fun g => { g, p, links := ls, pl }

/-! ### Routes (R169, R222, R366) -/

/-- A sink takes a source: it is inactive for 2 FCK cycles, and then follows it; the grant carries the epoch that the source's
tile has now (R169). -/
def setSink (p : PanelId) (k : Nat) (src : Nat) (s : State) : State :=
  let k : Fin 256 := Fin.ofNat 256 k
  if (s.panels[p]).sinks[k] = src then s
  else
    let e : Byte := match Launch.tile ⟨p, src, false⟩ with
      | some t => (s.tiles[t]).epoch
      | none => 0
    let until_ := s.aon.fck + 2
    let r := sinkTo p k false (s.modPanel p fun x =>
      { x with sinks := x.sinks.set k src, sinkEpoch := x.sinkEpoch.set k e
               sinkHold := x.sinkHold.filter (·.1 != k.val) ++ [(k.val, until_)] })
    works 1024 r.1 r.2

/-- A sink has no source any more. -/
def clearSink (p : PanelId) (k : Nat) (s : State) : State :=
  let k : Fin 256 := Fin.ofNat 256 k
  let r := sinkTo p k false (s.modPanel p fun x => { x with sinks := x.sinks.set k 256 })
  works 1024 r.1 r.2

/-- Code under which a GPIO source feeds an event line (log 21). -/
def lineCode (g : Stage) (p : StagePlace) (port : Nat) : Nat :=
  if g.kind = kTimer then 129 + p.tile.val % 16
  else if g.kind = kEncoder then (if port = 5 then 153 else 145) + p.tile.val % 8 else p.tile.val % 128

/-- A pin takes, or drops, a pin event output line as an output source: OSEL_A where that is free, else OSEL_B. -/
def setOsel (pin : PinId) (code : Nat) (s : State) : State :=
  let x := s.gpio.pins[pin]
  if x.oselA = code ∨ x.oselB = code then s
  else if x.oselA = 0 then pincfgSet pin (Word.put code 20) 0x1FF00000#32 s
  else pincfgSet pin (Word.put code 11) 0x000FF800#32 s
def dropOsel (pin : PinId) (code : Nat) (s : State) : State :=
  let x := s.gpio.pins[pin]
  if x.oselA = code then pincfgSet pin 0 0x1FF00000#32 s
  else if x.oselB = code then pincfgSet pin 0 0x000FF800#32 s else s

/-- The routes of one link go live, from source to sink: `cur` is the crossbar source in hand, `lane` the outbound lane. -/
def linkRoutes (v : LinkView) : List Route → Option (PanelId × Nat) → Nat → State → State
  | [], _, _, s => s
  | r :: rs, cur, lane, s =>
    match r.kind with
    | 6 =>
      if v.src.pinLike && cur.isNone then
        let k : Fin 32 := Fin.ofNat 32 r.item
        let s := s.modPanel r.panel fun x => { x with pinLine := x.pinLine.set k (lineCode v.src v.srcAt v.link.srcPort) }
        linkRoutes v rs (some (r.panel, 224 + k.val)) lane s
      else linkRoutes v rs cur lane
        (setOsel (Fin.ofNat 128 v.dstAt.tile.val) (0x100 + 32 * r.panel.val + r.item % 32) s)
    | 2 => linkRoutes v rs cur lane (match cur with
        | some c => setSink r.panel r.item c.2 s
        | none => s)
    | 3 =>
      let l := 32 * r.panel.val + r.item % 32
      linkRoutes v rs cur l (match cur with
        | some c => setSink r.panel (192 + r.item % 32) c.2 s
        | none => s)
    | 4 =>
      let k : Fin 32 := Fin.ofNat 32 r.item
      linkRoutes v rs (some (r.panel, 192 + k.val)) lane
        (s.modPanel r.panel fun x => { x with spineIn := x.spineIn.set k lane })
    | _ => linkRoutes v rs cur lane s

/-- The routes of a placement go live. -/
def putRoutes (c : Fin 256) (stages : List Stage) (links : List LinkRec) (pl : Placement) (s : State) : State :=
  (linkViews c stages links pl).foldl (fun s v =>
    linkRoutes v v.routes (if v.src.pinLike then none else v.source) 256 s) s

/-- The routes of a placement that are not among `keep` go. -/
def dropRoutes (c : Fin 256) (stages : List Stage) (links : List LinkRec) (pl : Placement) (keep : List Route) (s : State) :
    State :=
  (linkViews c stages links pl).foldl (fun s v =>
    v.routes.foldl (fun s r =>
      if keep.contains r then s
      else match r.kind with
        | 2 => clearSink r.panel r.item s
        | 3 => clearSink r.panel (192 + r.item % 32) s
        | 4 => s.modPanel r.panel fun x => { x with spineIn := x.spineIn.set (Fin.ofNat 32 r.item) 256 }
        | 6 =>
          if v.dst.kind = kPinOut ∧ v.routes.getLast? = some r then
            dropOsel (Fin.ofNat 128 v.dstAt.tile.val) (0x100 + 32 * r.panel.val + r.item % 32) s
          else s.modPanel r.panel fun x => { x with pinLine := x.pinLine.set (Fin.ofNat 32 r.item) 128 }
        | _ => s) s) s

/-! ### Stages go live -/

/-- The bytes of slice frames 22 to 37: the initial LUT-RAM contents (R224). -/
def lutRamOf (frames : List (Nat × List Byte)) : Memory :=
  frames.foldl (fun m f => if 22 ≤ f.1 ∧ f.1 < 38 then m.putBytes (128 * (f.1 - 22)) f.2 else m) []

/-- A netlist's frames are written into a tile's slice (R224). -/
def putNetlist (t : TileId) (frames : List (Nat × List Byte)) (s : State) : State :=
  sliceReset t (s.modTile t fun x => { x with frames, lutRam := lutRamOf frames })

/-- e2 of an ENGINE stage: the destination tile of its lowest-numbered link from port 5, else ARG2 (R211). -/
def StageView.arg2 (v : StageView) : Word :=
  match (v.outOf 5).head? with
  | some l => BitVec.ofNat 32 l.dstAt.tile.val
  | none => v.g.word 8

/-- A stage that is set up anew: its program, netlist or timer, and a fresh start where it asks for one or moves. -/
def stageUp (moved : Bool) (v : StageView) (s : State) : State :=
  let t := v.p.tile
  match v.g.kind with
  | 12 =>
    let s := s.modEng t fun e => { e with prog := BitVec.ofNat 8 (v.g.byte 0) }
    if (v.g.byte 1 = 1 || moved) && !s.engHeld t then freshStart t (v.g.word 4) v.arg2 s else s
  | 13 => putNetlist t (s.netlists[(Fin.ofNat 64 (v.g.byte 0) : Fin 64)]) s
  | 15 => timerUp (Fin.ofNat 16 t.val) (BitVec.ofNat 32 (le v.g.params 0 4)) (BitVec.ofNat 32 (le v.g.params 4 4)) s
  | _ => s

/-- A stage leaves its place: registers back to reset, the engine stopped, the timer free (R223). -/
def stageDown (v : StageView) (s : State) : State :=
  let t := v.p.tile
  let s := v.regs.foldl (fun s f => setFields t (f.1, f.1.resetWord, f.2.2) s) s
  match v.g.kind with
  | 12 => (if s.engHeld t then s else stopEngine t true s).modEng t fun e => { e with prog := 0xFF#8 }
  | 13 => sliceReset t (s.modTile t fun x => { x with frames := [] })
  | 15 => timerDown (Fin.ofNat 16 t.val) s
  | 16 => s.modPanel (Fin.ofNat 8 v.g.fix) fun x => { x with portWords := [] }
  | _ => s

/-- Spares of a panel. -/
def State.spares (s : State) (p : PanelId) : Nat := ((tilesOf p).filter fun t => (s.tiles[t]).spare).length

/-- A spare that a re-placement took (R230). -/
def spareUsed (t : TileId) (s : State) : State :=
  if (s.tiles[t]).spare then
    let s := s.modTile t fun x => { x with spare := false }
    log .info 0x2D (srcTile t) (arg t.val) (arg (s.spares (panelOf t))) ((s.tiles[t]).epoch.setWidth 32) s
  else s

/-- Tiles that a placement's stages sit on. -/
def Placement.tiles (stages : List Stage) (pl : Placement) : List TileId :=
  (pl.stages.filterMap fun p => match stages[p.stage]? with
    | some g => if g.onTile then some p.tile else none
    | none => none).eraseDups

/-- A placement of a chain goes live: stages `sets` are set up at their new places (R217, R230). -/
def goLive (c : Fin 256) (pl : Placement) (sets : List Nat) (s : State) : State :=
  match s.chains[c].cdef with
  | none => s
  | some (stages, links) =>
    let moved := (s.chains[c].placement).isSome
    let s := match s.chains[c].placement with
      | some old =>
        let s := dropRoutes c stages links old pl.routes s
        ((stageViews c stages links old).filter fun v : StageView => sets.contains v.p.stage).foldl (fun s v => stageDown v s) s
      | none => s
    let was := ((s.chains[c].placement).map (Placement.tiles stages)).getD []
    let s := s.modChain c fun x =>
      { x with placement := some pl, broken := decide (pl.stages.length < stages.length) }
    let views : List StageView := stageViews c stages links pl
    let s := views.foldl (fun (s : State) (v : StageView) => v.regs.foldl (fun s f => setFields v.p.tile f s) s) s
    let s := putRoutes c stages links pl s
    let s := (views.filter fun v => sets.contains v.p.stage).foldl (fun (s : State) (v : StageView) => stageUp moved v s) s
    let ts := pl.tiles stages
    let s := ts.foldl (fun s t => spareUsed t s) s
    (ts ++ was).foldl (fun s t => refreshPlaced t s) s

/-- A chain is released (R223). -/
def goDown (c : Fin 256) (s : State) : State :=
  match s.chains[c].cdef, s.chains[c].placement with
  | some (stages, links), some pl =>
    let s := dropRoutes c stages links pl [] s
    let s := (stageViews c stages links pl).foldl (fun s v => stageDown v s) s
    let s := s.modChain c fun x => { x with placement := none, broken := false }
    (pl.tiles stages).foldl (fun s t => refreshPlaced t s) s
  | _, _ => s

/-! ### The record of a placement (R222) -/

def StagePlace.bytes (p : StagePlace) : List Byte :=
  natLe 1 p.stage ++ natLe 1 p.unit ++ natLe 2 p.tile.val ++ [0, 0, 0, 0]
def Route.bytes (r : Route) : List Byte :=
  natLe 1 r.link ++ natLe 1 r.kind ++ natLe 1 r.panel.val ++ [0] ++ natLe 2 r.item ++ [0, 0]
def Placement.bytes (c : Fin 256) (pl : Placement) : List Byte :=
  natLe 1 c.val ++ natLe 1 pl.stages.length ++ natLe 2 pl.routes.length ++ [0, 0, 0, 0] ++
    pl.stages.flatMap StagePlace.bytes ++ pl.routes.flatMap Route.bytes

/-- A record's stage and route entries; none where a length, a number or a reserved byte is wrong. -/
def recordOf (c : Fin 256) (bs : List Byte) : Option (List StagePlace × List Route) :=
  let n := le bs 1 1
  let m := le bs 2 2
  if le bs 0 1 ≠ c.val ∨ bs.length ≠ 8 + 8 * n + 8 * m ∨ le bs 4 4 ≠ 0 then none
  else
    let ss := chunks 8 n (bs.drop 8)
    let rs := chunks 8 m (bs.drop (8 + 8 * n))
    if (ss.all fun b => decide (le b 1 1 ≤ 1) && decide (le b 2 2 < 512) && le b 4 4 == 0) &&
        (rs.all fun b => decide (le b 2 1 < 8) && le b 3 1 == 0 && le b 6 2 == 0) then
      some (ss.map fun b => ⟨le b 0 1, le b 1 1, Fin.ofNat 512 (le b 2 2)⟩,
        rs.map fun b => ⟨le b 0 1, le b 1 1, Fin.ofNat 8 (le b 2 1), le b 4 2⟩)
    else none

end Sys2Proof.Machine
end

