-- ==== Sys2Proof/Machine/Prime.lean ====
section
/-!
DEFINITION. The primer on a panel (R312): what a panel that goes OFF, or that a full load disables, loses (R267, R333).
-/
namespace Sys2Proof.Machine

open Sys2Proof

/-- A primed tile: memories zero and registers at reset. Fence, epochs, health and the spare mark are held outside the
tile and stay. -/
def Tile.primed (x : Tile) : Tile :=
  { fenced := x.fenced, spare := x.spare, degraded := x.degraded, retired := x.retired, epoch := x.epoch,
    ownEpoch := x.ownEpoch, bistPass := x.bistPass, transients := x.transients,
    eng := { st := if x.fenced then .held else .stopped } }

/-- Retired lanes stay retired until module reset (R319). -/
def Panel.primed (x : Panel) : Panel := { lanes := x.lanes }

/-- The word lies in a memory that a panel powers. -/
def Loc.inPanel (l : Loc) (p : PanelId) : Bool :=
  (decide (l.region.val ≤ 6) && l.unit / 64 == p.val) ||
    ((l.region.val == 7 || l.region.val == 12) && l.unit == p.val)

/-- The panel's calibration goes with its keep regions and registers (R346). -/
def dropCal (p : PanelId) (s : State) : State :=
  let keep := fun e : CalEntry => s.entryPanel e != some p
  { s with cal := { s.cal with
    live := s.cal.live.filter keep
    override := s.cal.override.filter fun k => keep { code := k.1, sub := k.2.1, unit := k.2.2, value := 0 } } }

/-- The primer runs on a panel. Host messages that wait for its engines complete first (R207). -/
def primePanel (p : PanelId) (s : State) : State :=
  let s := (tilesOf p).foldl (fun s t => dropHostMsgs t s) s
  let s := dropCal p s
  let s := { s with mem := { s.mem with errs := s.mem.errs.filter fun e => !e.loc.inPanel p } }
  (tilesOf p).foldl (fun s t => s.modTile t Tile.primed) (s.modPanel p Panel.primed)

/-- Every pad that the module drives from a register or a routed line is sampled again. -/
def resamplePins (s : State) : State := (List.finRange 128).foldl (fun s p => pinSample p s) s

end Sys2Proof.Machine
end

