-- ==== Sys2Proof/Machine/Spares.lean ====
section
/-!
DEFINITION. RESERVE_SPARES and the default reservation (R229).
-/
namespace Sys2Proof.Machine

open Sys2Proof

/-- A tile that can be reserved: not placed, fenced or RETIRED. -/
def State.sparable (s : State) (t : TileId) : Bool :=
  let x := s.tiles[t]
  !s.isPlaced t && !x.fenced && !x.retired

/-- The count rule: the free tiles of a panel with the highest local indices that no head holds. -/
def State.spareChoice (s : State) (p : PanelId) (n : Nat) : List TileId :=
  ((tilesOf p).reverse.filter fun t => s.sparable t && (s.headOf t).isNone).take n

/-- The spare tiles are exactly those listed. -/
def setSpares (ts : List TileId) (s : State) : State :=
  { s with tiles := Vector.ofFn fun (t : TileId) => { s.tiles[t] with spare := ts.contains t } }

/-- After module reset: one spare per panel. -/
def defaultSpares (s : State) : State := setSpares (allPanels.flatMap fun p => s.spareChoice p 1) s

/-- The map form: bit n for tile n. -/
def mapTiles (bs : List Byte) : List TileId := allTiles.filter fun t => (bs.getD (t.val / 8) 0).getLsbD (t.val % 8)

def execReserveSpares (d : Desc) (s : State) : Result :=
  runDesc 0x28 d (headerFault d 0 .buffer .unbound [(32, 32)]) true (fun s =>
    if d.len = 0 then
      match (List.finRange 8).find? fun p => decide (8 < d.u (24 + p.val) 1) with
      | some p => badField 0x28 d (24 + p.val) s
      | none =>
        let lists := allPanels.map fun p => (d.u (24 + p.val) 1, s.spareChoice p (d.u (24 + p.val) 1))
        if lists.any fun l => decide (l.2.length < l.1) then refuse 0x28 d .noResource s
        else okay 0x28 d 0 (setSpares (lists.flatMap (·.2)) s)
    else if d.len ≠ 64 then badField 0x28 d 16 s
    else withBuffer 0x28 d (fun bs s =>
      let ts := mapTiles bs
      if ts.all s.sparable then okayRead 0x28 d 0 (setSpares ts s) else refuse 0x28 d .noResource s) s) s

end Sys2Proof.Machine
end

