-- ==== Sys2Proof/Machine/Images.lean ====
section
/-!
DEFINITION. The serial store (R327, R328), configuration images and their loads (R329 to R338), the boot load (R335) and the
dust sheet (R238 to R240).
-/
namespace Sys2Proof.Machine

open Sys2Proof

/-! ### The store (R319, R327, R328) -/

def slotBytes : Nat := 0x00E00000
def storeBytes : Nat := 0x04000000

/-- Area of a store offset: 0 to 3 a slot, 4 calibration, 5 user, 6 module. -/
def storeArea (off : Nat) : Nat :=
  if off < 4 * slotBytes then off / slotBytes else if off < 0x03C00000 then 4 else if off < 0x03F00000 then 5 else 6

/-- A word of a store read failed once or twice (R319): an entry of region 13, at a place inside the range read. -/
def logStore (cls : LClass) (off n : Nat) (s : State) : State :=
  let (w, s) := s.drawWord
  logMem cls 0x02 ⟨13, 0, off / 8 + w.toNat % max 1 (n / 8)⟩ 0 s

/-- Offset of the first offending byte of a store command. -/
def storeFault (d : Desc) : Option Nat :=
  let off := d.u 24 4
  if d.len % 8 ≠ 0 ∨ d.len < 8 ∨ 2 ^ 20 < d.len then some 16
  else if off % 8 ≠ 0 ∨ storeBytes ≤ off then some 24
  else if storeBytes < off + d.len ∨ storeArea (off + d.len - 1) ≠ storeArea off then some 16
  else none

def execStoreWrite (d : Desc) (s : State) : Result :=
  runDesc 0x12 d (headerFault d 0 .buffer .unbound [(28, 36)]) true (fun s =>
    match storeFault d with
    | some off => badField 0x12 d off s
    | none =>
      if storeArea (d.u 24 4) ≠ 5 then refuse 0x12 d .state s
      else withBuffer 0x12 d (fun bs s =>
        okayRead 0x12 d 0 { s with sec := { s.sec with store := s.sec.store.putBytes (d.u 24 4) bs } }) s) s

def execStoreRead (d : Desc) (store : Attempt) (s : State) : Result :=
  let a := storeArea (d.u 24 4)
  runDesc 0x13 d (headerFault d 0 .buffer .unbound [(28, 36)]) (s.sec.lifecycle != .closed || decide (5 ≤ a)) (fun s =>
    match storeFault d with
    | some off => badField 0x13 d off s
    | none =>
      if a = 6 then refuse 0x13 d .state s
      else
        let out := writeOut 0x13 d [store] (s.sec.store.bytes (d.u 24 4) d.len) 0
        match store with
        | .clean => out s
        | .second => out (logStore .transient (d.u 24 4) d.len s)
        | .failed => refuse 0x13 d .integrity (logStore .lasting (d.u 24 4) d.len s)) s

/-! ### The image format (R329 to R332) -/

def ImgFrame.space (f : ImgFrame) : Nat := Word.field f.addr 31 28
def ImgFrame.unit (f : ImgFrame) : Nat := Word.field f.addr 24 16
def ImgFrame.idx (f : ImgFrame) : Nat := Word.field f.addr 15 0
def ImgFrame.tile (f : ImgFrame) : TileId := Fin.ofNat 512 f.unit
def ImgFrame.panel (f : ImgFrame) : PanelId := Fin.ofNat 8 f.unit
/-- The frame holds settings items. -/
def ImgFrame.settings (f : ImgFrame) : Bool := (f.space == 0 && 38 ≤ f.idx) || f.space == 1
/-- The panel that a frame concerns; none in the netlist store. -/
def ImgFrame.home (f : ImgFrame) : Option PanelId :=
  if f.space = 1 then some f.panel else if f.space = 4 then none else some (panelOf f.tile)

/-- The address lies in a space (R331). -/
def addrOk (a : Word) : Bool :=
  let f : ImgFrame := ⟨a, []⟩
  Word.field a 27 25 == 0 && match f.space with
    | 0 => decide (f.idx ≤ 45)
    | 1 => decide (f.unit < 8 ∧ f.idx ≤ 15)
    | 2 => decide (f.idx ≤ 255)
    | 3 => decide (128 ≤ f.idx ∧ f.idx ≤ 511)
    | 4 => decide (f.unit < 64 ∧ f.idx ≤ 37)
    | 5 => decide (f.idx ≤ 47)
    | _ => false

/-- Items of a settings frame, at absolute offsets. -/
def ImgFrame.items (f : ImgFrame) : List Item :=
  let base := if f.space = 1 then 0x4000 + 0x100 * f.unit else 0x8000 + 0x40 * f.unit
  (chunks 12 10 f.data).map fun b =>
    { off := base + le b 0 4, value := BitVec.ofNat 32 (le b 4 4), mask := BitVec.ofNat 32 (le b 8 4) }
/-- Offsets inside the block, reserved bytes 0. -/
def ImgFrame.itemsOk (f : ImgFrame) : Bool :=
  (chunks 12 10 f.data).all (fun b => decide (le b 0 4 ≤ (if f.space = 1 then 0xFC else 0x3C))) && le f.data 120 8 == 0

/-- KIND and the region permit the frame (R337, R338). -/
def ImgFrame.permitted (kind : Nat) (region : List TileId) (f : ImgFrame) : Bool :=
  match kind with
  | 1 => (f.space == 0 || f.space == 2 || f.space == 3 || f.space == 5) && region.contains f.tile
  | 2 => f.space == 4
  | _ => true

/-- Cause of R334 for one frame. -/
def frameCause (kind : Nat) (region : List TileId) (f : ImgFrame) : Option Nat :=
  if !addrOk f.addr || (f.settings && !f.itemsOk) then some 6
  else if !f.permitted kind region then some 7 else none

/-- One record: the frames it writes and its length; none where it is malformed (R330). -/
def recordFrames (last : Option (List Byte)) (bs : List Byte) : Option (List ImgFrame × Nat) :=
  let n := le bs 2 2
  match le bs 0 1 with
  | 1 => if bs.length < 136 ∨ le bs 1 3 ≠ 0 then none
      else some ([⟨BitVec.ofNat 32 (le bs 4 4), (bs.drop 8).take 128⟩], 136)
  | 2 => match last with
    | some dat =>
      if n = 0 ∨ 1024 < n ∨ le bs 1 1 ≠ 0 ∨ bs.length < 4 + 4 * n then none
      else some ((List.range n).map fun k => ⟨BitVec.ofNat 32 (le bs (4 + 4 * k) 4), dat⟩, 4 + 4 * n)
    | none => none
  | 3 => if n = 0 ∨ le bs 1 1 ≠ 0 ∨ bs.length < 12 then none
      else some ((List.range n).map fun k =>
        ⟨BitVec.ofNat 32 (le bs 4 4 + k), (List.replicate 32 ((bs.drop 8).take 4)).flatten⟩, 12)
  | _ => none

/-- The body from image offset `off`: its frames, and the cause and record offset of a failure. -/
def parseBody (kind : Nat) (region : List TileId) : Nat → Nat → List Byte → List ImgFrame → List ImgFrame × Option (Nat × Nat)
  | 0, _, _, acc => (acc, none)
  | _, _, [], acc => (acc, none)
  | k + 1, off, bs, acc =>
    match recordFrames (acc.getLast?.map (·.data)) bs with
    | none => (acc, some (6, off))
    | some (fs, n) =>
      let good := fs.takeWhile fun f => (frameCause kind region f).isNone
      match fs.findSome? (frameCause kind region) with
      | some c => (acc ++ good, some (c, off))
      | none => parseBody kind region k (off + n) (bs.drop n) (acc ++ fs)

/-- CRC-32C over the decompressed plaintext (R332). -/
def framesCrc (fs : List ImgFrame) : Word :=
  ~~~(fs.foldl (fun c f => crcFold (crcFold c (u32 f.addr)) f.data) 0xFFFFFFFF#32)

/-- A key as the AES engine may use it: programmed and not disabled (R340). -/
def State.imageKey (s : State) (slot : Nat) : Option (BitVec 256) :=
  if s.sec.keysOff then none
  else match slot with
    | 0 => s.sec.keys[0]
    | 1 => s.sec.keys[1]
    | _ => none

/-- Tiles of REGION. -/
def imageRegion (img : List Byte) : List TileId := mapTiles ((img.drop 64).take 64)

/-- The header's cause, if any (R334, R339). `bound`: the load joins a coat. -/
def State.headerCause (s : State) (bound : Bool) (img : List Byte) : Option Nat :=
  let kind := le img 6 1
  let lcs := le img 7 1
  let plain := le img 8 1 == 0xFF
  let lc := s.sec.lifecycle
  if le img 0 4 ≠ 0x4D59584C then some 1
  else if le img 4 2 ≠ 1 ∨ 2 < kind ∨ 16 ≤ lcs ∨ le img 9 3 ≠ 0 ∨ le img 40 24 ≠ 0 ∨ (kind ≠ 1 ∧ le img 64 64 ≠ 0) ∨
      (bound ∧ kind ≠ 1) then some 2
  else if !(lcs.testBit lc.code) || (plain && lc == .closed) || (!plain && (lc == .blank || lc == .returned)) then some 3
  else if !plain && (s.imageKey (le img 8 1)).isNone then some 4
  else if img.length ≠ 128 + le img 24 4 + 24 ∨ slotBytes < img.length ∨ le img 24 4 % 4 ≠ 0 then some 5
  else none

/-- What an image holds, as far as its checks let it be read. -/
structure ImgRead where
  kind : Nat
  region : List TileId
  frames : List ImgFrame
  crc : Word
  fail : Option (Nat × Nat)

/-- The waveform records that frames write over what tiles hold, or over nothing: tile, index and 384 bytes. -/
def State.waveRecords (s : State) (blank : Bool) (fs : List ImgFrame) : List (TileId × Fin 16 × List Byte) :=
  let keys := ((fs.filter fun f => f.space == 5).map fun f => (f.tile, (Fin.ofNat 16 (f.idx / 3) : Fin 16))).eraseDups
  keys.map fun k =>
    let old := (if blank then ({} : Waveform) else (s.tiles[k.1]).waves[k.2]).record
    (k.1, k.2, fs.foldl (fun r f =>
      if f.space = 5 ∧ f.tile = k.1 ∧ f.idx / 3 = k.2.val then
        r.take (128 * (f.idx % 3)) ++ f.data ++ r.drop (128 * (f.idx % 3) + 128)
      else r) old)

/-- The whole check of an image (R333 steps 2 to 4), frame read-back aside. -/
def State.readImage (s : State) (bound : Bool) (img : List Byte) : ImgRead :=
  let kind := le img 6 1
  let region := imageRegion img
  match s.headerCause bound img with
  | some c => { kind, region, frames := [], crc := 0, fail := some (c, 0) }
  | none =>
    let n := le img 24 4
    let stored := (img.drop 128).take n
    let slot := le img 8 1
    let iv := (img.drop 12).take 12
    let key := (s.imageKey slot).getD 0
    let body := if slot = 0xFF then stored else Config.gcmPlain key iv stored
    let r := parseBody kind region (n / 4 + 1) 128 body []
    let fin := 128 + n
    let crc := framesCrc r.1
    let tag := if slot = 0xFF then List.replicate 16 0 else Config.gcmTag key iv (img.take 128) stored
    let fail :=
      if r.2.isSome then r.2
      else if r.1.length ≠ le img 28 4 ∨ le img fin 1 ≠ 0x0F ∨ le img (fin + 1) 3 ≠ 0 then some (6, fin)
      else if crc.toNat ≠ le img (fin + 4) 4 then some (8, fin)
      else if (img.drop (fin + 8)).take 16 ≠ tag then some (9, fin)
      else if (s.waveRecords (kind == 0) r.1).any fun w => !recordOk w.2.2 then some (9, fin)
      else none
    { kind, region, frames := r.1, crc, fail }

/-! ### Writing frames (R331, R333) -/

/-- Whole words of a memory are written. -/
def cleanWords (region : Fin 16) (unit first n : Nat) (s : State) : State :=
  (List.range n).foldl (fun s k => checkWrite ⟨region, unit, first + k⟩ 0 8 s) s

/-- A numbered frame takes its place among others. -/
def putFrame (k : Nat) (bs : List Byte) (l : List (Nat × List Byte)) : List (Nat × List Byte) :=
  (l.filter fun f => f.1 != k) ++ [(k, bs)]

/-- A frame goes where its address says; settings and waveforms wait for release. -/
def writeFrame (f : ImgFrame) (s : State) : State :=
  let t := f.tile
  match f.space with
  | 0 =>
    if 38 ≤ f.idx then s
    else
      let s := s.modTile t fun x => { x with frames := putFrame f.idx f.data x.frames }
      if 22 ≤ f.idx then
        (cleanWords 5 t.val (16 * (f.idx - 22)) 16 s).modTile t fun x =>
          { x with lutRam := x.lutRam.putBytes (128 * (f.idx - 22)) f.data }
      else s
  | 2 => (cleanWords 0 t.val (16 * f.idx) 16 s).modTile t fun x => { x with engMem := x.engMem.putBytes (128 * f.idx) f.data }
  | 3 => (cleanWords (Fin.ofNat 16 (1 + f.idx / 128)) t.val (16 * (f.idx % 128)) 16 s).modTile t fun x =>
      { x with buffer := x.buffer.putBytes (128 * f.idx) f.data }
  | 4 =>
    let k : Fin 64 := Fin.ofNat 64 f.unit
    { s with netlists := s.netlists.set k (putFrame f.idx f.data s.netlists[k]) }
  | _ => s

/-- A settings item goes live (R232, R333, R236): the masked bits of a register whose panel is powered; mask bits over
read-only and W1C fields are ignored. -/
def applyItem (i : Item) (s : State) : State :=
  match regAt i.off with
  | some r =>
    match r.panelOf with
    | some p => if s.pstate p = .off then s else setReg r i.value (i.mask &&& r.rw) s
    | none => s
  | none => s

/-- Release: settings items and waveforms go live, and the engine memory written counts as loaded directly (R333, R337). -/
def releaseFrames (fs : List ImgFrame) (s : State) : State :=
  let s := (s.waveRecords false fs).foldl (fun s w => s.modTile w.1 fun x =>
    { x with waves := x.waves.set w.2.1 (waveOfRecord w.2.2), shadowWaves := x.shadowWaves.set w.2.1 (waveOfRecord w.2.2) }) s
  let s := ((fs.filter fun f => f.settings).flatMap ImgFrame.items).foldl (fun s i => applyItem i s) s
  ((fs.filter fun f => f.space == 2).map ImgFrame.tile).eraseDups.foldl (fun s t =>
    s.modEng t fun e => { e with prog := 0xFE#8 }) s

/-- The frame whose read-back failed once or twice; which one is not the manual's to say. -/
def logFrame (cls : LClass) (src : Nat) (fs : List ImgFrame) (s : State) : State :=
  let (w, s) := s.drawWord
  log cls 0x41 srcModule (arg src) (((fs[w.toNat % max 1 fs.length]?).map (·.addr)).getD 0) 0 s

/-- An IMAGE entry: ARG0 slot or 0xFF, ARG1 cause, ARG2 record offset (R334). -/
def logImage (cls : LClass) (src cause off : Nat) (s : State) : State :=
  log cls 0x40 srcModule (arg src) (arg cause) (arg off) s

/-- A load has failed: cause and entry (R334). -/
def imageFailed (src cause off : Nat) (s : State) : State :=
  logImage .lasting src cause off { s with sec := { s.sec with imgCause := BitVec.ofNat 4 cause } }

/-! ### Full images (R333, R334) -/

/-- Panels that the frames write. -/
def framePanels (fs : List ImgFrame) : Vector Bool 8 := Vector.ofFn fun p => fs.any fun f => f.home == some p

/-- Step 1, and the end of a failed load: every panel is primed and off, its drives and HLV down. -/
def disableAll (s : State) : State :=
  let s := allPanels.foldl (fun s p => primePanel p s) s
  { s with pwr := { s.pwr with
    panels := Vector.replicate 8 .off, hlvOk := false, hrstHold := true, ioOff := true
    pvhEn := Vector.replicate 8 false } }

/-- SOURCE of IMG_STATUS. -/
def imgSource (src : Nat) : BitVec 3 := if src = 0xFF then 4 else BitVec.ofNat 3 src

/-- A full load that fails (R334). -/
def fullFailed (src cause off : Nat) (s : State) : State :=
  let s := disableAll s
  let s := { s with pwr := { s.pwr with nfault := true, imagePanels := Vector.replicate 8 false },
                    sec := { s.sec with imgResult := 2, imgSource := imgSource src, imageId := 0, imgVersion := 0 } }
  resamplePins (imageFailed src cause off s)

/-- A full load that passes: frames, panels in RETAIN or OFF, release. -/
def fullLoaded (src : Nat) (img : List Byte) (r : ImgRead) (s : State) : State :=
  let ps := framePanels r.frames
  let s := disableAll s
  let s := r.frames.foldl (fun s f => writeFrame f s) s
  let s := { s with
    pwr := { s.pwr with
      panels := ps.map fun b => if b then .retain else .off
      ioOff := false, nfault := false, imagePanels := ps }
    sec := { s.sec with
      imgResult := 1, imgSource := imgSource src, imageId := BitVec.ofNat 32 (le img 32 4)
      imgVersion := BitVec.ofNat 32 (le img 36 4) } }
  let ts := ((r.frames.filter fun f => f.space == 0).map ImgFrame.tile).eraseDups
  resamplePins (logImage .info src 0 0 (ts.foldl (fun s t => sliceReset t s) (releaseFrames r.frames s)))

/-- A full load into the device; answers the cause and offset of a failure. -/
def fullLoad (src : Nat) (img : List Byte) (r : ImgRead) (rb : Attempt) (s : State) : Option (Nat × Nat) × State :=
  match r.fail with
  | some f => (some f, fullFailed src f.1 f.2 s)
  | none => match rb with
    | .clean => (none, fullLoaded src img r s)
    | .second => (none, fullLoaded src img r (logFrame .transient src r.frames s))
    | .failed => (some (11, 0), fullFailed src 11 0 (logFrame .lasting src r.frames s))

/-! ### Partial images and the dust sheet (R237 to R240, R337) -/

/-- Every sink that the dust sheet cuts off from its source takes its HOLD level, or follows its source again. -/
def sheetSinks (s : State) : State :=
  allPanels.foldl (fun s p => (List.finRange 256).foldl (fun s k =>
    let src := (s.panels[p]).sinks[k]
    if src < 256 && s.sheeted ⟨p, src, true⟩ k then
      let r := sinkTo p k (s.holdLevel p k.val) s
      works 1024 r.1 r.2
    else s) s) s

/-- A region tile enters reset (R238). -/
def enterReset (t : TileId) (s : State) : State :=
  haltTrowel t (holdEngine t ((recClose t s).modTile t fun x => { x with inReset := true, sheet := true }))

/-- The region enters reset behind the dust sheet. -/
def enterRegion (ts : List TileId) (s : State) : State := sheetSinks (ts.foldl (fun s t => enterReset t s) s)

/-- The region leaves reset at one edge: engines STOPPED, the dust sheet stays for 2 cycles more (R239, R240). -/
def releaseRegion (ts : List TileId) (fs : List ImgFrame) (s : State) : State :=
  let now := s.aon.fck
  let s := ts.foldl (fun s t => s.modTile t fun x =>
    { x with inReset := false, sheetAt := now, eng := { x.eng with st := .stopped } }) s
  let s := releaseFrames fs s
  ts.foldl (fun s t => sliceReset t s) s

/-- DUST_SHEET_RELEASE: 2 FCK cycles after their release the ports of tiles open again (R239). -/
def execDustSheetRelease (s : State) : Result :=
  .next (
    let open_ := fun t : TileId =>
      (s.tiles[t]).sheet && !(s.tiles[t]).inReset && decide ((s.tiles[t]).sheetAt + 2 ≤ s.aon.fck)
    let cut := allPanels.flatMap fun p => ((List.finRange 256).filter fun k =>
      let src := (s.panels[p]).sinks[k]
      src < 256 && s.sheeted ⟨p, src, true⟩ k).map fun k => (p, k)
    let s := (allTiles.filter open_).foldl (fun s t => s.modTile t fun x => { x with sheet := false }) s
    cut.foldl (fun s c =>
      sinkFollow c.1 c.2 s) s)

/-! ### Completions -/

/-- Status of a cause (R334). -/
def imgCauseStatus (c : Nat) : Status :=
  match c with
  | 3 | 4 => .lifecycle
  | 8 | 9 | 10 | 11 => .integrity
  | 12 => .state
  | 13 => .aborted
  | _ => .badField

/-- Completion of a failed load: cause in detail [15:8]; for BAD_FIELD the offset in [7:0], 1 for a bound load of a full or
netlist image (R279, R281). -/
def imgRefuse (op : Byte) (d : Desc) (kind cause : Nat) (s : State) : State :=
  let low := if imgCauseStatus cause ≠ .badField then 0
    else if d.bound ∧ cause = 2 ∧ (kind = 0 ∨ kind = 2) then 1 else inBuffer
  finish op d (imgCauseStatus cause) (256 * cause + low) 0 s

/-- Completion of a load: FRAMES and the CRC (R336). -/
def imgDone (op : Byte) (d : Desc) (l : List Attempt) (frames : Nat) (crc : Word) (s : State) : State :=
  finish op d (okOf l) 0 (frames + crc.toNat * 2 ^ 32) s

/-! ### LOAD_IMAGE and LOAD_IMAGE_FROM_STORE (R336) -/

/-- A FABRIC stage that is placed holds the netlist (R338). -/
def State.netlistUsed (s : State) (id : Nat) : Bool :=
  (List.finRange 256).any fun c => match s.chains[c].cdef, s.chains[c].placement with
    | some (stages, _), some pl => pl.stages.any fun p => match stages[p.stage]? with
      | some g => g.kind == kFabric && g.byte 0 == id
      | none => false
    | _, _ => false

/-- T_STATE.PRINT (R214, R231). -/
def State.printTile (s : State) (t : TileId) : Bool := (s.headOf t).isSome

/-- A full image, from the buffer or a slot. -/
def deviceFull (op : Byte) (d : Desc) (l : List Attempt) (src : Nat) (img : List Byte) (r : ImgRead) (rb : Attempt)
    (s : State) : State :=
  let ps := (framePanels r.frames).map fun b => if b then PState.retain else .off
  if !s.pwr.mode.up || s.anyArmed || s.anyPlaced || s.coat.isSome then refuse op d .state s
  else if s.pwr.grant.toNat < s.allocFor s.pwr.mode ps s.pwr.hlvCtrl then refuse op d .power s
  else
    let e := fullLoad src img r rb s
    match e.1 with
    | none => imgDone op d (rb :: l) r.frames.length r.crc (reRequest false e.2)
    | some f => imgRefuse op d 0 f.1 (reRequest false e.2)

/-- A partial image: frames that passed are written into the region in reset; then release, or the coat. -/
def devicePartial (op : Byte) (d : Desc) (l : List Attempt) (src : Nat) (r : ImgRead) (rb : Attempt) (s : State) : State :=
  let ts := r.region
  let bad := fun (c off : Nat) (s : State) => imgRefuse op d 1 c (imageFailed src c off s)
  let coatOk := !d.bound || match s.coat with
    | some c => !c.own && c.number == d.coat.setWidth 16
    | none => false
  if !s.pwr.mode.up || !coatOk || ts.any (fun t => s.printTile t || s.pstate (panelOf t) == .off) then refuse op d .state s
  else match r.fail with
    | some (c, off) =>
      if c < 6 then bad c off s else bad c off (r.frames.foldl (fun s f => writeFrame f s) (enterRegion ts s))
    | none =>
      let s := r.frames.foldl (fun s f => writeFrame f s) (enterRegion ts s)
      if rb = .failed then bad 11 0 (logFrame .lasting src r.frames s)
      else
        let s := if rb = .second then logFrame .transient src r.frames s else s
        if ts.any fun t => (s.tiles[t]).fenced then bad 13 0 s
        else if d.bound then
          joinCoat op d (.image d ts rb r.frames) (ts.foldl (fun s t => s.modTile t fun x => { x with ready := true }) s)
        else imgDone op d (rb :: l) r.frames.length r.crc (releaseRegion ts r.frames s)

/-- A netlist image. -/
def deviceNetlist (op : Byte) (d : Desc) (l : List Attempt) (src : Nat) (r : ImgRead) (rb : Attempt) (s : State) : State :=
  let bad := fun (c off : Nat) (s : State) => imgRefuse op d 2 c (imageFailed src c off s)
  if !s.pwr.mode.up then refuse op d .state s
  else match r.fail with
    | some (c, off) => bad c off s
    | none =>
      if r.frames.any fun f => s.netlistUsed f.unit then refuse op d .state s
      else if rb = .failed then bad 11 0 (logFrame .lasting src r.frames s)
      else
        let s := if rb = .second then logFrame .transient src r.frames s else s
        imgDone op d (rb :: l) r.frames.length r.crc (r.frames.foldl (fun s f => writeFrame f s) s)

/-- An image goes into the device under the rules of DEST 0. -/
def deviceLoad (op : Byte) (d : Desc) (l : List Attempt) (src : Nat) (img : List Byte) (rb : Attempt) (s : State) : State :=
  let r := s.readImage d.bound img
  match r.fail with
  | some (1, off) => imgRefuse op d r.kind 1 (imageFailed src 1 off s)
  | some (2, off) => imgRefuse op d r.kind 2 (imageFailed src 2 off s)
  | _ => match r.kind with
    | 0 => deviceFull op d l src img r rb s
    | 1 => devicePartial op d l src r rb s
    | _ => deviceNetlist op d l src r rb s

/-- An image goes into a slot: checked whole, VALID cleared, written and read back (R336). -/
def slotLoad (op : Byte) (d : Desc) (l : List Attempt) (slot : Fin 4) (img : List Byte) (rb : Attempt) (s : State) : State :=
  let r := s.readImage false img
  let base := slotBytes * slot.val
  match r.fail with
  | some (c, off) => imgRefuse op d r.kind c (imageFailed 0xFF c off s)
  | none =>
    let written := { s with sec := { s.sec with
      store := (s.sec.store.clear base slotBytes).putBytes base img, slots := s.sec.slots.set slot {} } }
    let valid := fun s : State => { s with sec := { s.sec with
      slots := s.sec.slots.set slot { valid := true, len := img.length, imageId := BitVec.ofNat 32 (le img 32 4) } } }
    match rb with
    | .clean => imgDone op d l r.frames.length r.crc (valid written)
    | .second => imgDone op d (rb :: l) r.frames.length r.crc (valid (logStore .transient base img.length written))
    | .failed => imgRefuse op d r.kind 10 (imageFailed 0xFF 10 0 (logStore .lasting base img.length written))

/-- BOUND passes the header check with DEST 0 only (R279). -/
def loadImageHeader (d : Desc) : Option Nat :=
  headerFault d 0 .buffer (if d.u 24 1 = 1 then .unbound else .bindable) [(26, 38)]

def execLoadImage (d : Desc) (frames : Attempt) (s : State) : Result :=
  runDesc 0x10 d (loadImageHeader d) true (fun s =>
    if 1 < d.u 24 1 then badField 0x10 d 24 s
    else if 3 < d.u 25 1 ∨ (d.u 24 1 = 0 ∧ d.u 25 1 ≠ 0) then badField 0x10 d 25 s
    else withBuffer 0x10 d (fun bs s =>
      if d.u 24 1 = 1 then slotLoad 0x10 d [d.rd] (Fin.ofNat 4 (d.u 25 1)) bs frames s
      else deviceLoad 0x10 d [d.rd] 0xFF bs frames s) s) s

/-- The image of a slot. -/
def State.slotImage (s : State) (k : Fin 4) : List Byte := s.sec.store.bytes (slotBytes * k.val) (s.sec.slots[k]).len

def execLoadImageFromStore (d : Desc) (store frames : Attempt) (s : State) : Result :=
  runDesc 0x11 d (headerFault d 0 .none .unbound [(25, 39)]) true (fun s =>
    if 3 < d.u 24 1 then badField 0x11 d 24 s
    else
      let k : Fin 4 := Fin.ofNat 4 (d.u 24 1)
      let n := (s.sec.slots[k]).len
      let base := slotBytes * k.val
      if !(s.sec.slots[k]).valid then imgRefuse 0x11 d 3 12 (imageFailed k.val 12 0 s)
      else match store with
        | .clean => deviceLoad 0x11 d [] k.val (s.slotImage k) frames s
        | .second => deviceLoad 0x11 d [store] k.val (s.slotImage k) frames (logStore .transient base n s)
        | .failed => imgRefuse 0x11 d 3 10 (imageFailed k.val 10 0 (logStore .lasting base n s))) s

/-! ### The boot load (R335) -/

/-- One slot at boot: whether it loads, and the state. -/
def bootSlot (k : Fin 4) (store rb : Attempt) (s : State) : Bool × State :=
  let base := slotBytes * k.val
  let n := (s.sec.slots[k]).len
  let try_ := fun s : State =>
    let img := s.slotImage k
    let r := s.readImage false img
    let r := if r.fail.isNone ∧ r.kind ≠ 0 then { r with fail := some (2, 0) } else r
    let e := fullLoad k.val img r rb s
    (e.1.isNone, e.2)
  if !(s.sec.slots[k]).valid then (false, fullFailed k.val 12 0 s)
  else match store with
    | .clean => try_ s
    | .second => try_ (logStore .transient base n s)
    | .failed => (false, fullFailed k.val 10 0 (logStore .lasting base n s))

/-- BOOT_IMAGE_LOAD: the boot slot, or the fallback once; the module ends in STANDBY with the default spares and sends its
request (R229, R259, R335). -/
def execBootImageLoad (boot fallback frames : Attempt) (s : State) : Result :=
  .next (if s.aon.up && s.pwr.mode == .booting && !s.pwr.bursarFail && s.aon.resetDue.isNone then
    let k : Fin 4 := Fin.ofNat 4 (Word.field s.aon.pwrCtrl 1 0)
    let f : Fin 4 := Fin.ofNat 4 (Word.field s.aon.secBoot 1 0)
    let s :=
      if s.aon.secBoot.getLsbD 31 then s
      else
        let a := bootSlot k boot frames s
        if a.1 || !s.aon.secBoot.getLsbD 4 || f == k then a.2
        else
          let b := bootSlot f fallback frames a.2
          if b.1 then { b.2 with sec := { b.2.sec with fallbackUsed := true } } else b.2
    reRequest true (defaultSpares { s with pwr := { s.pwr with mode := .standby } })
  else s)

end Sys2Proof.Machine
end

