-- ==== Sys2Proof/Machine/Calib.lean ====
section
/-!
DEFINITION. Calibration (R349 to R360): CALIBRATE and its measurements, the pending set, APPLY_CAL, interpolation, and reading and
writing sets.
-/
namespace Sys2Proof.Machine

open Sys2Proof

/-! ### Keys and changes (R355 to R357) -/

abbrev CalKey := Nat × Nat × Nat
def CalEntry.key (e : CalEntry) : CalKey := (e.code, e.sub, e.unit)
def CalChange.key (c : CalChange) : CalKey := (c.code, c.sub, c.unit)
def keyEntry (k : CalKey) (v : Int) : CalEntry := ⟨k.1, k.2.1, k.2.2, v⟩

/-- A live entry changes. -/
def applyChange (c : CalChange) (s : State) : State :=
  let e := keyEntry c.key (c.value.getD 0)
  let rest := s.cal.override.filter (· != c.key)
  { s with cal := { s.cal with
    live := if c.value.isSome then calPut e s.cal.live else s.cal.live.filter fun x => !x.same e
    override := if c.mark then c.key :: rest else rest } }

/-- The head whose fire-period boundary the change waits for (R356). -/
def State.changeHead (s : State) (c : CalChange) : Option HeadId := (s.entryTile (keyEntry c.key 0)).bind s.headOf

/-- The change may be made now. -/
def State.changeDue (s : State) (c : CalChange) : Bool :=
  match s.changeHead c with
  | some h => s.atBoundary h
  | none => true

/-- Waiting changes whose edge is here are made; an APPLY_CAL whose last change is made completes (R356). -/
def calSettle (s : State) : State :=
  let ws := s.cal.waits
  ws.foldl (fun s w =>
    let s' := (w.changes.filter s.changeDue).foldl (fun s c => applyChange c s) s
    let rest := w.changes.filter fun c => !s.changeDue c
    if rest.isEmpty then match w.desc with
      | some d => okay 0x63 d 0 s'
      | none => s'
    else { s' with cal := { s'.cal with waits := s'.cal.waits ++ [{ w with changes := rest }] } })
    { s with cal := { s.cal with waits := [] } }

/-- Changes are to be made at their unbound edges. -/
def calAsk (d : Option Desc) (cs : List CalChange) (s : State) : State :=
  calSettle { s with cal := { s.cal with waits := s.cal.waits ++ [{ desc := d, changes := cs }] } }

/-! ### Interpolation (R358, R359) -/

/-- The stored sets that are present and valid, by point. -/
def State.calSets (s : State) : List (Nat × List CalEntry) :=
  (List.range 5).filterMap fun i => (storedSet s.sec.store i).map fun l => (i, l)

/-- A stored set that is written but fails its header or CRC is ledgered (R358). -/
def checkSets (s : State) : State :=
  (List.range 5).foldl (fun s i =>
    if (storedSet s.sec.store i).isNone && (s.sec.store.bytes (calSetBase i) 64).any (· != 0) then
      logStore .lasting (calSetBase i) 64 s
    else s) s

/-- The value of an entry at temperature `t` in 0.1 degC from the points that hold it, rising. -/
def interpolate (t : Int) : List (Nat × Int) → Option Int
  | [] => none
  | [(_, v)] => some v
  | (i, v) :: (j, w) :: rest =>
    if t ≤ calPoint i then some v
    else if t ≤ calPoint j then
      some (divRound (v * (calPoint j - calPoint i) + (t - calPoint i) * (w - v)) (calPoint j - calPoint i).toNat)
    else interpolate t ((j, w) :: rest)

def calValue (sets : List (Nat × List CalEntry)) (k : CalKey) (t : Int) : Option Int :=
  interpolate t (sets.filterMap fun s => (lookEntry s.2 k.1 k.2.1 k.2.2).map fun v => (s.1, v))

/-- Keys of a panel that the sets or the live set hold. -/
def State.panelKeys (s : State) (p : PanelId) : List CalKey :=
  (((s.calSets.flatMap (·.2)) ++ s.cal.live).filter fun e => s.entryPanel e == some p).map CalEntry.key |>.eraseDups

/-- A waiting change will mark the entry. -/
def State.markDue (s : State) (k : CalKey) : Bool := s.cal.waits.any fun w => w.changes.any fun c => c.mark && c.key == k

/-- The interpolated changes of a panel at a temperature: every entry that carries no override mark. -/
def State.interpChanges (s : State) (p : PanelId) (t : Int) : List CalChange :=
  let sets := s.calSets
  ((s.panelKeys p).filter fun k => !s.cal.override.contains k && !s.markDue k).map fun k =>
    { code := k.1, sub := k.2.1, unit := k.2.2, value := calValue sets k t, mark := false }

/-- TEMP_INTERPOLATION: every 64 ticks, or when the panel has left OFF, the readings, and a recomputation on a change of 1.0 degC or
after the panel has left OFF, which reads the tiles' entries in their keep regions (R309). The sensors are read while the service
domain runs. -/
def execTempInterpolation (p : PanelId) (sensor hottest core : BitVec 16) (s : State) : Result :=
  .next (if !s.serving || !((s.panels[p]).calDue || (s.panels[p]).tempAt.all fun k => decide (k + 64 ≤ s.aon.ticks)) then s else
    let higher := fun a b : BitVec 16 => if a.toInt < b.toInt then b else a
    let peak := higher (higher (higher s.pwr.peakTemp core) sensor) hottest
    let s := { s with pwr := { s.pwr with coreTemp := core, peakTemp := peak } }
    if s.pstate p = .off then s
    else
      let x := s.panels[p]
      let due := x.calInterp && (x.calDue || decide (10 ≤ (sensor.toInt - x.tLast.toInt).natAbs))
      let now := s.aon.ticks
      let s := s.modPanel p fun x => { x with tempSensor := sensor, tempMax := hottest, tempAt := some now }
      if due then
        let s := (tilesOf p).foldl (fun s t => if (s.tiles[t]).fenced then s else (keepRead t s).2) s
        let s := checkSets (s.modPanel p fun x => { x with tLast := sensor, calDue := false })
        calAsk none (s.interpChanges p sensor.toInt) s
      else s)

/-! ### APPLY_CAL (R356) -/

/-- The temperature that an APPLY_CAL interpolates at: the last interpolation's, or the present reading with INTERP clear. -/
def Panel.calTemp (x : Panel) : Int := if x.calInterp then x.tLast.toInt else x.tempSensor.toInt

/-- What each action changes: pending values with their marks, or interpolated values where marks go; panels with INTERP
clear are recomputed at both (R357, R359). -/
def State.calChanges (s : State) (action : Nat) : List CalChange :=
  let stand := fun (s : State) => (allPanels.filter fun p => !(s.panels[p]).calInterp).flatMap fun p =>
    s.interpChanges p (s.panels[p]).calTemp
  match action with
  | 0 =>
    let pend := s.cal.pending.map fun e => (⟨e.code, e.sub, e.unit, some e.value, s.cal.marks.contains e.key⟩ : CalChange)
    (stand s).filter (fun c => !(pend.any fun q => q.key == c.key)) ++ pend
  | 2 =>
    let free := { s with cal := { s.cal with override := [] } }
    let marked := s.cal.override.map fun k =>
      let t := match s.entryPanel (keyEntry k 0) with
        | some p => (s.panels[p]).calTemp
        | none => 0
      (⟨k.1, k.2.1, k.2.2, calValue s.calSets k t, false⟩ : CalChange)
    (stand free).filter (fun c => !s.cal.override.contains c.key) ++ marked
  | _ => []

/-- The pending set loses entries; marks follow. -/
def dropPending (gone : CalEntry → Bool) (s : State) : State :=
  let rest := s.cal.pending.filter fun e => !gone e
  { s with cal := { s.cal with
    pending := rest, marks := s.cal.marks.filter fun k => rest.any fun e => e.key == k } }

/-- An action at a coat's edge E_c: everything changes there; ACTION 1 discards what was pending at execution. -/
def calAtEdge (action : Nat) (old : List CalEntry) (s : State) : State :=
  let cs := s.calChanges action
  let s := cs.foldl (fun s c => applyChange c s) s
  match action with
  | 0 => dropPending (fun _ => true) s
  | 1 => dropPending (fun e => old.contains e) s
  | _ => s

def execApplyCal (d : Desc) (s : State) : Result :=
  runDesc 0x63 d (headerFault d 0 .none .bindable [(25, 39)]) true (fun s =>
    let a := d.u 24 1
    if 2 < a then badField 0x63 d 24 s
    else if d.bound then joinCoat 0x63 d (.applyCal d a s.cal.pending) s
    else
      let cs := s.calChanges a
      calAsk (some d) cs (if a ≤ 1 then dropPending (fun _ => true) s else s)) s

/-! ### READ_CAL_SET and WRITE_CAL_SET (R360) -/

/-- The entries of a set. -/
def State.calSet (s : State) (set : Nat) : List CalEntry :=
  if set < 5 then (storedSet s.sec.store set).getD [] else if set = 5 then s.cal.live else s.cal.pending

def execReadCalSet (d : Desc) (s : State) : Result :=
  runDesc 0x61 d (headerFault d 0 .buffer .unbound [(30, 34)]) true (fun s =>
    if 6 < d.u 24 1 then badField 0x61 d 24 s
    else
      let s := if d.u 24 1 < 5 then checkSets s else s
      let first := d.u 26 2
      let count := d.u 28 2
      let hits := (s.calSet (d.u 24 1)).filter fun e =>
        (d.u 25 1 == 0 || e.code == d.u 25 1) && decide (first ≤ e.unit) && (count == 0 || decide (e.unit < first + count))
      let out := hits.take (d.len / 8)
      writeOut 0x61 d [] (out.flatMap CalEntry.bytes) (out.length + hits.length * 2 ^ 32) s) s

/-- Entries join the pending set, with the override mark or without. -/
def addPending (mark : Bool) (es : List CalEntry) (s : State) : State :=
  let keys := es.map CalEntry.key
  let rest := s.cal.marks.filter fun k => !keys.contains k
  { s with cal := { s.cal with pending := calMerge es s.cal.pending, marks := if mark then keys ++ rest else rest } }

def execWriteCalSet (d : Desc) (s : State) : Result :=
  runDesc 0x62 d (headerFault d 0 .buffer .unbound [(25, 1), (26, 2), (28, 2), (30, 34)]) (s.sec.lifecycle != .closed || decide (5 ≤ d.u 24 1)) (fun s =>
    let set := d.u 24 1
    if 6 < set then badField 0x62 d 24 s
    else if d.len % 8 ≠ 0 ∨ 2 ^ 20 ≤ d.len then badField 0x62 d 16 s
    else withBuffer 0x62 d (fun bs s =>
      let es := calEntries (d.len / 8) bs
      match (withIndex es).find? fun e => !s.calEntryOk (decide (set < 5)) e.2 with
      | some e => finish 0x62 d .badField (256 * (e.1 % 65536) + inBuffer) 0 s
      | none =>
        if set < 5 then
          let new := calMerge es (s.calSet set)
          if 0xC0000 < 64 + 8 * new.length then refuse 0x62 d .noResource s
          else okayRead 0x62 d 0 { s with sec := { s.sec with store := putStoredSet set new s.sec.store } }
        else okayRead 0x62 d 0 (addPending true es s)) s) s

/-! ### CALIBRATE (R351 to R354) -/

/-- Quantities measured on tiles, as SCOPE 0 takes them; 0xF0 stands for all ten. -/
def calTileCode (q : Nat) : Bool := (1 ≤ q && q ≤ 0x0A) || q == 0xF0
def calNozzleCode (q : Nat) : Bool := 0x12 ≤ q && q ≤ 0x16

/-- CALFIT of FN_MODE (R302). -/
def State.hostFits (s : State) : Bool := Word.field (s.fnMode.setWidth 32) 7 6 == 1

/-- BAD_FIELD of CALIBRATE's own fields: the offset. -/
def calFault (n : Nat) (calfit : Bool) (d : Desc) : Option Nat :=
  let q := d.u 24 1
  let scope := d.u 25 1
  let top := if scope = 0 then 512 else n
  if 1 < scope then some 25
  else if !(if scope = 0 then calTileCode q || q == 0x18 else calNozzleCode q) then some 24
  else if top ≤ d.u 26 2 then some 26
  else if d.u 28 2 = 0 ∨ top < d.u 26 2 + d.u 28 2 then some 28
  else if 1 < d.u 30 1 ∨ (d.u 30 1 = 1 ∧ calfit) then some 30
  else none

/-- Tiles in scope of a tile quantity, or of the nozzles of a head. -/
def calTiles (hd : Option HeadDef) (d : Desc) : List TileId :=
  if d.u 25 1 = 0 then allTiles.filter fun t => d.u 26 2 ≤ t.val ∧ t.val < d.u 26 2 + d.u 28 2
  else match hd with
    | some x => (((x.nozzles.drop (d.u 26 2)).take (d.u 28 2)).map (·.tile)).eraseDups
    | none => []

/-- Entry groups in scope, as code and unit; the three listen baselines of a nozzle are one group (R347). -/
def calUnits (hd : Option HeadDef) (d : Desc) : List (Nat × Nat) :=
  let q := d.u 24 1
  let ts := calTiles hd d
  if q = 0x18 then (ts.map panelOf).eraseDups.map fun p => (q, p.val)
  else if q = 0x12 then ts.map fun t => (q, t.val)
  else if calNozzleCode q then (List.range (d.u 28 2)).map fun k => (if 0x14 ≤ q then 0x14 else q, d.u 26 2 + k)
  else (if q = 0xF0 then (List.range 10).map (1 + ·) else [q]).flatMap fun c =>
    (ts.filter fun t => c != 9 || t.val % 2 == 0).map fun t => (c, t.val)

/-- The unit is skipped (R349, R352). -/
def State.calSkips (s : State) (h : HeadId) (inclOut : Bool) (u : Nat × Nat) : Bool :=
  if u.1 = 0x18 then false
  else if calTileCode u.1 then
    let t : TileId := Fin.ofNat 512 u.2
    (s.tiles[t]).fenced || s.isPlaced t || s.armedTile t
  else if u.1 = 0x12 then false
  else match s.heads[h].hdef with
    | none => true
    | some x => match x.nozzles[u.2]? with
      | none => true
      | some z =>
        let mode := (s.tiles[z.tile]).trowel.modeField
        let out := (s.heads[h].stats[u.2]?).any fun (st : NozzleStat) => st.status == 2
        (out && !inclOut) || (if u.1 = 0x13 then mode != 4 else mode != 1 && mode != 2)

/-- Distance of a temperature from the nearest point, and that point. -/
def nearestPoint (t : Int) : Nat × Nat :=
  (List.range 5).foldl (fun b i => if (t - calPoint i).natAbs < b.1 then ((t - calPoint i).natAbs, i) else b)
    ((t - calPoint 0).natAbs, 0)

/-- The fields of PNL_CALQ of a panel after a CALIBRATE, for the quantities it measured; what the manual leaves to rounding
is free. -/
def calQuality (p : PanelId) (r : CalRun) (q : Nat) (s : State) : State :=
  let mine := fun (codes : List Nat) => (r.good.filter fun f =>
    codes.contains f.code && s.entryPanel ⟨f.code, f.sub, f.unit, f.value⟩ == some p).map (·.residual)
  let top := fun (l : List Nat) => l.foldl max 0
  let did := fun (codes : List Nat) => codes.any fun c => c == q || (q == 0xF0 && c ≤ 0x0A)
  let old := s.panels[p].calq
  let (w, s) := s.drawWord
  let gain := let g := top (mine [2, 3, 5]); min 255 (g / 100 + (if g % 100 ≠ 0 && w.getLsbD 0 then 1 else 0))
  let set := fun (on : Bool) (lo v : Nat) (x : Word) => if on then Word.merge x (Word.put v lo) (Word.put 0xFF lo) else x
  let new := set (did [8]) 24 (Config.calQuality 0 s.free).toNat old
  let new := set (did [2, 3, 5]) 16 gain new
  let new := set (did [1]) 8 (min 255 (top (mine [1]))) new
  let new := set (did [0x14, 0x15, 0x16]) 0 (Config.calQuality 1 s.free).toNat new
  s.modPanel p fun x => { x with calq := new }

/-- CALIBRATE completes when no unit is left (R353, R354). -/
def calFinish (r : CalRun) (s : State) : State :=
  let s := { s with cal := { s.cal with run := none } }
  let s := if s.hostFits then s else allPanels.foldl (fun s p => calQuality p r (r.desc.u 24 1) s) s
  let n := r.raw.length / 16
  let result := r.accepted % 65536 + (r.kept % 65536) * 2 ^ 16 + (r.skipped % 65536) * 2 ^ 32 + (n % 65536) * 2 ^ 48
  if r.kept ≠ 0 then finish 0x60 r.desc .lasting 0 result s
  else if r.desc.len = 0 then okay 0x60 r.desc result s
  else writeOut 0x60 r.desc [] r.raw result s

/-- The run goes on, or completes. -/
def calNext (r : CalRun) (s : State) : State :=
  if r.left.isEmpty then calFinish r s else { s with cal := { s.cal with run := some r } }

/-- CALIBRATE's header and the bytes that R351 and R354 reserve: REPS must be 0 for a tile quantity and LENGTH with CALFIT 0, and
both count among them (R6). -/
def calHeader (calfit : Bool) (d : Desc) : Option Nat :=
  (headerFault d (if d.u 25 1 = 1 then 3 else 0) (if calfit then .buffer else .empty) .unbound (if calTileCode (d.u 24 1) then [(31, 1)] else [])).or
    ((if 1 < d.u 32 1 then some 32 else none).or (reservedFault d [(33, 31)]))

def execCalibrate (d : Desc) (s : State) : Result :=
  let scope1 := d.u 25 1 == 1
  runDesc 0x60 d (calHeader s.hostFits d) true (fun s =>
    let h : HeadId := Fin.ofNat 8 d.target.toNat
    let hd := s.heads[h].hdef
    let panels := ((calTiles hd d).map panelOf).eraseDups
    let stored := d.u 30 1 == 1
    match calFault ((hd.map HeadDef.n).getD 8192) s.hostFits d with
    | some off => badField 0x60 d off s
    | none =>
      if s.cal.run.isSome || (scope1 && s.heads[h].pass.isSome) then refuse 0x60 d .busy s
      else if !s.pwr.mode.up || (scope1 && hd.isNone) || panels.any (fun p => !(s.pstate p).live) then refuse 0x60 d .state s
      else if stored && panels.any (fun p => decide (30 < (nearestPoint (s.panels[p]).tempSensor.toInt).1)) then
        refuse 0x60 d .state s
      else if s.pwr.grant.toNat < s.alloc then refuse 0x60 d .power s
      else
        let us := calUnits hd d
        let skip := fun u => s.calSkips h (d.u 32 1 == 1) u
        let r : CalRun := { desc := d, head := h, store := stored, left := us.filter fun u => !skip u,
                            skipped := (us.filter skip).length }
        calNext r s) s

/-- A head is in a product gap: every product that has been detected has fired its last column (R115). -/
def State.headGap (s : State) (h : HeadId) : Bool := s.heads[h].products.all (·.done)

/-- The entries of a group: code and SUB of each. -/
def groupEntries (h : HeadId) (u : Nat × Nat) : List (Nat × Nat) :=
  if u.1 = 0x14 then [0x14, 0x15, 0x16].map fun c => (c, headSub h)
  else if u.1 = 0x13 then [(0x13, headSub h)]
  else (calSubs u.1).map fun k => (u.1, k)

/-- The fits are those of the group, one for each entry. -/
def fitsGroup (h : HeadId) (u : Nat × Nat) (fs : List CalFit) : Bool :=
  fs.map (fun f => (f.code, f.sub)) == groupEntries h u && fs.all fun f => f.unit == u.2

def fitEntry (f : CalFit) : CalEntry := ⟨f.code, f.sub, f.unit, f.value⟩
/-- A fit passes: plausible, verified within 1/8 of the plausible range, steady (R350). -/
def fitPasses (f : CalFit) : Bool :=
  let r := calRange f.code f.sub
  (fitEntry f).plausible && decide (8 * f.residual ≤ (r.2 - r.1).toNat) && f.steady

/-- A CAL entry: quantity, tile, failing value (R350). -/
def logCal (cls : LClass) (fs : List CalFit) (s : State) : State :=
  match fs.find? fun f => !fitPasses f with
  | none => s
  | some f =>
    let at_ := match s.entryTile (fitEntry f) with
      | some t => (srcTile t, t.val)
      | none => (srcPanel (Fin.ofNat 8 f.unit), f.unit)
    log cls 0x42 at_.1 (arg f.code) (arg at_.2) (BitVec.ofInt 32 f.value) s

/-- A group is accepted: the pending set, and the nearest stored set where STORE asks for it (R351, R355). -/
def calAccept (r : CalRun) (fs : List CalFit) (s : State) : CalRun × State :=
  let es := fs.map fitEntry
  let s := addPending (!r.store) es s
  let s := if r.store then match (es.head?).bind s.entryPanel with
      | some p =>
        let i := (nearestPoint (s.panels[p]).tempSensor.toInt).2
        let new := calMerge es (s.calSet i)
        if 0xC0000 < 64 + 8 * new.length then s
        else { s with sec := { s.sec with store := putStoredSet i new s.sec.store } }
      | none => s
    else s
  ({ r with accepted := r.accepted + 1, good := r.good ++ fs }, s)

/-- A raw record (R354): the stimulus is free. -/
def rawRecord (f : CalFit) (s : State) : List Byte × State :=
  let (w, s) := s.drawWord
  (natLe 1 f.code ++ natLe 1 f.sub ++ natLe 2 f.unit ++ u32 (w.setWidth 32) ++ intLe 4 f.value ++ natLe 4 f.residual, s)

/-- The measurement may run now: nozzle and group quantities in a product gap when a job is armed (R352). -/
def State.calRuns (s : State) (r : CalRun) (u : Nat × Nat) : Bool := !calNozzleCode u.1 || s.headGap r.head

/-- CALIBRATION_MEASUREMENT: the next entry group is measured, fitted and verified, once more where the first fit fails. With
CALFIT 1 each fit given stands for one stimulus, its value the reading and its residual the spread. -/
def execCalibrationMeasurement (first again : List CalFit) (s : State) : Result :=
  .next (match s.cal.run with
    | none => s
    | some r => match r.left with
      | [] => s
      | u :: rest =>
        if !s.calRuns r u then s
        else
          let r := { r with left := rest }
          if s.hostFits then
            let a := first.foldl (fun (a : List Byte × State) f =>
              let b := rawRecord f a.2
              (a.1 ++ b.1, b.2)) ([], s)
            calNext { r with raw := (r.raw ++ a.1).take (16 * (r.desc.len / 16)) } a.2
          else if !fitsGroup r.head u first then s
          else if first.all fitPasses then
            let a := calAccept r first s
            calNext a.1 a.2
          else if !fitsGroup r.head u again then s
          else if again.all fitPasses then
            let a := calAccept r again (logCal .transient first s)
            calNext a.1 a.2
          else calNext { r with kept := r.kept + 1 } (logCal .lasting again s))

end Sys2Proof.Machine
end

