-- ==== Sys2Proof/Machine/Bist.lean ====
section
/-!
DEFINITION. Logic BIST (R342 to R344): RUN_BIST and its slices, which READMIT_TILE also runs (R245).
-/
namespace Sys2Proof.Machine

open Sys2Proof

/-- Slices of a run (R342, R343): 48, PATTERNS in slices of 4,096, or the one scan of mode 2. -/
def bistSlices (d : Desc) : Nat :=
  match d.u 24 1 with
  | 0 => 48
  | 1 => ceilDiv (d.u 36 4) 4096
  | _ => 1

def execRunBist (d : Desc) (s : State) : Result :=
  let mode := d.u 24 1
  runDesc 0x80 d (headerFault d 9 (if mode = 2 then .buffer else .none) .unbound [(25, 3), (40, 24)])
    (!(s.sec.lifecycle == .closed && (mode == 1 || mode == 2))) (fun s =>
    let t : TileId := Fin.ofNat 512 d.target.toNat
    if 2 < mode then badField 0x80 d 24 s
    else if mode = 1 ∧ d.u 28 8 = 0 then badField 0x80 d 28 s
    else if mode = 1 ∧ (d.u 36 4 = 0 ∨ 2 ^ 24 < d.u 36 4) then badField 0x80 d 36 s
    else if mode = 2 ∧ d.len ≠ 12288 then badField 0x80 d 16 s
    else if !(s.tiles[t]).fenced then refuse 0x80 d .state s
    else if s.bist.any (fun r => r.tile == t) then refuse 0x80 d .busy s
    else { s with bist := s.bist ++ [{ desc := some d, tile := t, mode, slices := bistSlices d }] }) s

/-- A slice runs only in a gap of every head with a group in the tile's panel (R343). -/
def State.bistGap (s : State) (t : TileId) : Bool :=
  allHeads.all fun h => match s.heads[h].hdef with
    | some d => !d.panels.contains (panelOf t) || s.headGap h
    | none => true

def logBist (cls : LClass) (t : TileId) (slice : Nat) (misr : BitVec 64) (s : State) : State :=
  log cls 0x30 (srcTile t) (arg t.val) (arg slice) (misr.setWidth 32) s

/-- Result of a run: slices run, failing slice or 0xFF, MISR[31:0] (R342). -/
def bistResult (done failing : Nat) (misr : BitVec 64) : Nat :=
  done % 65536 + (failing % 256) * 2 ^ 16 + misr.toNat % 2 ^ 32 * 2 ^ 32

/-- The run ends with every slice passed. -/
def bistEnds (r : BistRun) (misr : BitVec 64) (s : State) : State :=
  let s := { s with bist := s.bist.filter fun q => q.tile != r.tile }
  let s := if r.mode = 0 then s.modTile r.tile fun x => { x with bistPass := true } else s
  let st := okOf (if r.again then [.second] else [])
  match r.desc with
  | none => s
  | some d =>
    if r.readmit then finish 0x27 d st 0 0 (readmit r.tile s)
    else if r.mode = 2 then
      withBuffer 0x80 d (fun bs s =>
        let k := s.free
        let out := (List.range bs.length).map fun i => Config.scanCapture (16384 * k + i)
        writeOut 0x80 d [d.rd] out (bistResult r.done 0xFF misr) { s with free := k + 1 }) s
    else finish 0x80 d st 0 (bistResult r.done 0xFF misr) s

/-- A mode 0 slice failed twice: the tile is RETIRED (R344). -/
def bistFails (r : BistRun) (misr : BitVec 64) (s : State) : State :=
  let s := { s with bist := s.bist.filter fun q => q.tile != r.tile }
  let s := logBist .lasting r.tile r.done misr (s.modTile r.tile fun x => { x with retired := true })
  match r.desc with
  | none => s
  | some d => finish (if r.readmit then 0x27 else 0x80) d .lasting 0
      (if r.readmit then 0 else bistResult (r.done + 1) r.done misr) s

/-- BIST_SLICE: the next slice of the tile's run. -/
def execBistSlice (t : TileId) (run : Attempt) (misr : BitVec 64) (s : State) : Result :=
  .next (match s.bist.find? fun r => r.tile == t with
    | none => s
    | some r =>
      if !s.tileLive t || !s.bistGap t then s
      else
        let a := if r.mode = 0 then run else .clean
        if a = .failed then bistFails r misr s
        else
          let s := if a = .second then tileTransient t (logBist .transient t r.done misr s) else s
          let r := { r with done := r.done + 1, again := r.again || a == .second }
          if r.slices ≤ r.done then bistEnds r misr s
          else { s with bist := s.bist.map fun q => if q.tile = t then r else q })

end Sys2Proof.Machine
end

