-- ==== Sys2Proof/Machine/Coats.lean ====
section
/-!
DEFINITION. Coats (R217, R230, R232 to R237): placements and releases, staging, commit points, the switch at E_c, re-placement
and read-back; SET_FUNCTION_MODE (R303), which a coat can carry.
-/
namespace Sys2Proof.Machine

open Sys2Proof

/-! ### Affected units (R234) -/

/-- Tiles of a placed chain that are in service. -/
def State.liveTiles (s : State) (c : Fin 256) : List TileId :=
  match s.chains[c].cdef, s.chains[c].placement with
  | some (stages, _), some pl => (pl.tiles stages).filter fun t => !(s.tiles[t]).fenced
  | _, _ => []

/-- Panels through which a placed chain is routed. -/
def State.livePanels (s : State) (c : Fin 256) : List PanelId :=
  match s.chains[c].placement with
  | some pl => pl.routes.map (·.panel)
  | none => []

/-- Tiles and panels that a bound descriptor changes; a tile that a re-placement leaves because it is fenced is none. -/
def State.boundUnits (s : State) : Bound → List TileId × List PanelId
  | .place _ c pl _ _ => match s.chains[c].cdef with
    | some (stages, _) => (pl.tiles stages ++ s.liveTiles c, pl.routes.map (·.panel) ++ s.livePanels c)
    | none => ([], [])
  | .release _ c => (s.liveTiles c, s.livePanels c)
  | .image _ ts _ _ => (ts, [])
  | _ => ([], [])

/-- The unit of an item. -/
def Item.units (i : Item) : List TileId × List PanelId :=
  match regAt i.off with
  | some (.tile t _) => ([t], [])
  | some (.panel p _) => ([], [p])
  | _ => ([], [])

def State.coatUnits (s : State) (c : Coat) : List TileId × List PanelId :=
  let us := c.items.map Item.units ++ c.bound.map s.boundUnits
  ((us.flatMap (·.1)).eraseDups, (us.flatMap (·.2)).eraseDups)

/-- Tiles that a bound image holds in reset itself. -/
def Coat.imageTiles (c : Coat) : List TileId := c.bound.flatMap fun b => match b with
  | .image _ ts _ _ => ts
  | _ => []

/-- Affected units that are not ready: fenced, held in reset by something other than the coat's own image, or without power. -/
def State.notReady (s : State) (c : Coat) : Nat :=
  let u := s.coatUnits c
  (u.1.filter fun t => (s.tiles[t]).fenced || ((s.tiles[t]).inReset && !c.imageTiles.contains t) ||
      s.pstate (panelOf t) == .off).length +
    (u.2.filter fun p => s.pstate p == .off).length

/-- T_STATE.READY of every tile follows the open coat (R231, R234). -/
def markReady (s : State) : State :=
  let ts := match s.coat with
    | some c => (s.coatUnits c).1
    | none => []
  { s with tiles := s.tiles.mapFinIdx fun i x h =>
    let on := ts.contains ⟨i, h⟩ && !x.fenced
    if x.ready = on then x else { x with ready := on } }

/-- A new coat takes the next number. -/
def openCoat (own : Bool) (s : State) : State :=
  { s with coatNo := s.coatNo + 1, coat := some { number := s.coatNo + 1, own } }

def addBound (b : Bound) (s : State) : State :=
  { s with coat := s.coat.map fun c => { c with bound := c.bound ++ [b] } }

/-! ### Abort (R236) -/

/-- A bound descriptor completes with ABORTED; a bound image leaves its region behind the dust sheet with cause 13 (R334). -/
def boundAborts (b : Bound) (s : State) : State :=
  match b with
  | .place (some (op, d)) _ _ _ _ => refuse op d .aborted s
  | .place none _ _ _ _ => s
  | .release d _ => refuse 0x23 d .aborted s
  | .startEngine d _ _ _ _ => refuse 0x31 d .aborted s
  | .image d _ _ _ => imgRefuse 0x10 d 1 13 (imageFailed 0xFF 13 0 s)
  | .applyCal d _ _ => refuse 0x63 d .aborted s
  | .fnMode d => refuse 0x85 d .aborted s

/-- The coat is aborted: no unit switches. -/
def abortCoat (c : Coat) (detail : Nat) (s : State) : State :=
  let s := markReady { s with coat := none }
  let s := c.bound.foldl (fun s b => boundAborts b s) s
  match c.point with
  | some (d, _, _) => finish 0x25 d .aborted detail 0 s
  | none => s

/-! ### SET_FUNCTION_MODE (R302, R303) -/

/-- Mask of the selected fields. -/
def fnMask (select : Nat) : Nat := ((List.range 8).map fun f => if select.testBit f then 3 * 4 ^ f else 0).sum
def fnField (v f : Nat) : Nat := v / 4 ^ f % 4

/-- FN_MODE changes: the scrubber's copies follow, and CLASSIFY at 1 clears PENDING. -/
def setFnMode (new : BitVec 16) (s : State) : State :=
  let to1 := fnField new.toNat 1 == 1 && fnField s.fnMode.toNat 1 != 1
  let s := { s with fnMode := new }.setScrub fun c => { c with mode := BitVec.ofNat 2 (fnField new.toNat 4) }
  let s := noteRails s
  if to1 then { s with heads := s.heads.map fun h => { h with stats := h.stats.map fun x => { x with pending := false } } }
  else s

/-- FN_MODE after the command. -/
def fnNew (old : BitVec 16) (d : Desc) : BitVec 16 :=
  let m := BitVec.ofNat 16 (fnMask (d.u 24 1))
  (old &&& ~~~m) ||| (BitVec.ofNat 16 (d.u 26 2) &&& m)

def execSetFunctionMode (d : Desc) (s : State) : Result :=
  runDesc 0x85 d (headerFault d 0 .none .bindable [(25, 1), (28, 36)]) true (fun s =>
    let sel := d.u 24 1
    match (List.range 8).find? fun f => sel.testBit f && decide (2 ≤ fnField (d.u 26 2) f) with
    | some f => badField 0x85 d (26 + f / 4) s
    | none =>
      if sel.testBit 7 && allPanels.any fun p => (s.pstate p).live then refuse 0x85 d .state s
      else if !d.bound && s.anyArmed then refuse 0x85 d .state s
      else if d.bound then joinCoat 0x85 d (.fnMode d) s
      else
        let new := fnNew s.fnMode d
        okay 0x85 d new.toNat (setFnMode new s)) s

/-! ### The switch at E_c (R236) -/

/-- Completion of a placement: tiles and time in the result, the record in the buffer where it was asked for (R216). -/
def placeDone (by_ : Byte × Desc) (c : Fin 256) (pl : Placement) (us : Nat) (s : State) : State :=
  let (op, d) := by_
  if op = 0x21 then
    let n := match s.chains[c].cdef with
      | some (stages, _) => (pl.tiles stages).length
      | none => 0
    let result := n % 65536 + (us % 65536) * 65536
    if d.u 24 1 = 1 then writeOut op d [] (pl.bytes c) result s else okay op d result s
  else if op = 0x22 then okayRead op d 0 s
  else okay op d 0 s

/-- What a bound descriptor does at E_c. -/
def boundActs (b : Bound) (s : State) : State :=
  match b with
  | .place by_ c pl sets us =>
    let s := goLive c pl sets s
    match by_ with
    | some x => placeDone x c pl us s
    | none => s
  | .release d c => okay 0x23 d 0 (goDown c s)
  | .startEngine d ts resume a1 a2 =>
    match startEngines ts resume a1 a2 s with
    | some s' => okay 0x31 d 0 s'
    | none => refuse 0x31 d .state s
  | .image d ts rb fs => imgDone 0x10 d [rb, d.rd] fs.length (framesCrc fs) (releaseRegion ts fs s)
  | .applyCal d a old => okay 0x63 d 0 (calAtEdge a old s)
  | .fnMode d =>
    let new := fnNew s.fnMode d
    okay 0x85 d new.toNat (setFnMode new s)

/-- The coat commits, or aborts where a unit is not ready; its tiles read back within 256 FCK cycles (R237). -/
def commitCoat (c : Coat) (s : State) : State :=
  let bad := s.notReady c
  if bad ≠ 0 then abortCoat c (bad % 65536) s
  else
    let ts := (s.coatUnits c).1
    let s := { s with coat := none, coatLast := c.number, readback := s.readback.filter (fun r => !ts.contains r.1) ++ ts.map fun t => (t, s.aon.fck + 256) }
    let s := c.items.foldl (fun s i => applyItem i s) s
    let s := c.bound.foldl (fun s b => boundActs b s) s
    let s := markReady (ts.foldl (fun s t => s.modTile t fun x => { x with coat := c.number }) s)
    match c.point with
    | some (d, _, _) => okay 0x25 d s.aon.sysNow.toNat s
    | none => s

/-! ### Placing and releasing (R216, R217, R222, R223) -/

/-- The chain has a placement, live or waiting in the open coat. -/
def State.chainBusy (s : State) (c : Fin 256) : Bool :=
  (s.chains[c].placement).isSome || match s.coat with
    | some x => x.bound.any fun b => match b with
      | .place _ k _ _ _ => k == c
      | _ => false
    | none => false

/-- A descriptor that changes placement joins the coat it names, or opens a coat of the module's own (R217). -/
def stageBound (op : Byte) (d : Desc) (b : Bound) (s : State) : State :=
  markReady (if d.bound then joinCoat op d b s else addBound b (openCoat true s))

/-- A command that needs the placement database of the module services (R22, R309). -/
def withServices (op : Byte) (d : Desc) (k : State → State) (s : State) : State :=
  let r := wordsBad 11 none s
  if r.1 then refuse op d .integrity r.2 else k r.2

/-- A found placement is staged, or its refusal completes the command (R221). -/
def placed (op : Byte) (d : Desc) (c : Fin 256) (r : PlaceFail ⊕ Placement) (s : State) : State :=
  match r with
  | .inl f => finish op d f.status f.detail 0 s
  | .inr pl =>
    if op = 0x21 ∧ d.u 24 1 = 1 ∧ d.len < (pl.bytes c).length then badField op d 16 s
    else
      let us := Config.placerTime s.free
      stageBound op d (.place (some (op, d)) c pl (pl.stages.map (·.stage)) us) { s with free := s.free + 1 }

def execPlaceChain (d : Desc) (s : State) : Result :=
  runDesc 0x21 d ((headerFault d 8 .buffer .bindable []).or
      ((if 1 < d.u 24 1 then some 24 else none).or (reservedFault d [(25, 39)]))) true (fun s =>
    let c : Fin 256 := Fin.ofNat 256 d.target.toNat
    match s.chains[c].cdef with
    | none => refuse 0x21 d .state s
    | some (stages, links) =>
      if s.chainBusy c || !s.hwPlaces then refuse 0x21 d .state s
      else if !d.bound && s.coat.isSome then refuse 0x21 d .busy s
      else withServices 0x21 d (fun s => placed 0x21 d c (s.place c stages links) s) s) s

def execApplyPlacement (d : Desc) (s : State) : Result :=
  runDesc 0x22 d (headerFault d 8 .buffer .bindable [(24, 40)]) true (fun s =>
    let c : Fin 256 := Fin.ofNat 256 d.target.toNat
    match s.chains[c].cdef with
    | none => refuse 0x22 d .state s
    | some (stages, links) =>
      if s.chainBusy c then refuse 0x22 d .state s
      else if !d.bound && s.coat.isSome then refuse 0x22 d .busy s
      else withBuffer 0x22 d (fun bs s =>
        match recordOf c bs with
        | none => badField 0x22 d inBuffer s
        | some (places, routes) =>
          withServices 0x22 d (fun s => placed 0x22 d c (s.checkRecord c stages links places routes) s) s) s) s

def execReleaseChain (d : Desc) (s : State) : Result :=
  runDesc 0x23 d (headerFault d 8 .none .bindable [(24, 40)]) true (fun s =>
    let c : Fin 256 := Fin.ofNat 256 d.target.toNat
    if (s.chains[c].placement).isNone then refuse 0x23 d .state s
    else if !d.bound && s.coat.isSome then refuse 0x23 d .busy s
    else withServices 0x23 d (stageBound 0x23 d (.release d c)) s) s

/-! ### STAGE_COAT and COMMIT_COAT (R232, R235) -/

def coatItems (n : Nat) (bs : List Byte) : List Item :=
  (chunks 12 n bs).map fun b =>
    { off := le b 0 4, value := BitVec.ofNat 32 (le b 4 4), mask := BitVec.ofNat 32 (le b 8 4) }

/-- The offset lies in a panel or tile block. -/
def Item.inBlocks (i : Item) : Bool := decide (0x4000 ≤ i.off ∧ i.off < 0x4800) || decide (0x8000 ≤ i.off ∧ i.off < 0x10000)

/-- A shadow write that failed its read-back once or twice: an entry for the unit of one of the items. -/
def logShadow (cls : LClass) (items : List Item) (s : State) : State :=
  let (w, s) := s.drawWord
  match (items[w.toNat % max 1 items.length]?).map Item.units with
  | some (t :: _, _) => log cls 0x2B (srcTile t) (arg t.val) (s.coatNo.setWidth 32) 0 s
  | some (_, p :: _) => log cls 0x2B (srcPanel p) (arg p.val) (s.coatNo.setWidth 32) 0 s
  | _ => log cls 0x2B srcModule 0 (s.coatNo.setWidth 32) 0 s

def execStageCoat (d : Desc) (shadow : Attempt) (s : State) : Result :=
  runDesc 0x24 d (headerFault d 0 .buffer .unbound [(26, 38)]) true (fun s =>
    let n := d.u 24 2
    if 1024 < n then badField 0x24 d 24 s
    else if d.len ≠ 12 * n then badField 0x24 d 16 s
    else withBuffer 0x24 d (fun bs s =>
      let items := coatItems n bs
      if !items.all Item.inBlocks then badField 0x24 d inBuffer s
      else if s.coat.isSome then refuse 0x24 d .busy s
      else
        let a := if items.isEmpty then .clean else shadow
        let s := openCoat false s
        let s := { s with coat := s.coat.map fun c => { c with items } }
        match a with
        | .failed => refuse 0x24 d .integrity (logShadow .lasting items { s with coat := none })
        | .second => finish 0x24 d .okTransient 0 s.coatNo.toNat (markReady (logShadow .transient items s))
        | .clean => okayRead 0x24 d s.coatNo.toNat (markReady s)) s) s

/-- The commit point that the command names. -/
def commitPoint (d : Desc) : CommitPoint :=
  match d.u 24 1 with
  | 0 => .product (Fin.ofNat 8 (d.u 25 1))
  | 1 => .firePeriod (Fin.ofNat 8 (d.u 25 1))
  | 2 => .time (BitVec.ofNat 64 (d.u 32 8))
  | _ => .now

def execCommitCoat (d : Desc) (s : State) : Result :=
  runDesc 0x25 d (headerFault d 32 .none .commit [(26, 2), (40, 24)]) true (fun s =>
    let kind := d.u 24 1
    if 4 < kind then badField 0x25 d 24 s
    else if kind ≤ 1 ∧ 7 < d.u 25 1 then badField 0x25 d 25 s
    else match s.coat with
      | none => refuse 0x25 d .state s
      | some c =>
        if c.own || c.number != d.coat.setWidth 16 then refuse 0x25 d .state s
        else if kind = 4 then okay 0x25 d 0 (abortCoat c 0 s)
        else if kind = 2 ∧ d.u 32 8 < s.aon.sysNow.toNat + 32000 then refuse 0x25 d .state s
        else if c.point.isSome then refuse 0x25 d .busy s
        else
          let wait := d.u 28 4
          let limit := if kind ≤ 1 ∧ wait ≠ 0 then some (s.aon.fck + usFck (1000 * wait)) else none
          let c := { c with point := some (d, commitPoint d, limit) }
          let s := { s with coat := some c }
          if kind = 0 ∧ (s.heads[(Fin.ofNat 8 (d.u 25 1) : HeadId)]).armed.isNone then commitCoat c s else s) s

/-! ### Commit rows (R217, R230, R235) -/

/-- The commit point is here. A product boundary comes with DETECT_ACCEPT. -/
def State.pointHere (s : State) (p : CommitPoint) : Bool :=
  match p with
  | .product h => (s.heads[h]).armed.isNone
  | .firePeriod h => s.atBoundary h
  | .time t => decide (t.toNat ≤ s.aon.sysNow.toNat)
  | .now => true

/-- MAX_WAIT has passed: a point that comes now comes too late. -/
def overWait (limit : Option Nat) (s : State) : Bool := limit.any fun n => decide (n ≤ s.aon.fck)

/-- COAT_COMMIT: the open coat's commit point, at an edge of the fast clock. -/
def execCoatCommit (s : State) : Result :=
  .next (match s.coat with
    | some c => match c.point with
      | some (_, p, limit) =>
        if overWait limit s then abortCoat c 0 s else if s.fastOn && s.pointHere p then commitCoat c s else s
      | none => s
    | none => s)

/-- COAT_MAX_WAIT_EXPIRY: the point has not come within MAX_WAIT. -/
def execCoatMaxWaitExpiry (s : State) : Result :=
  .next (match s.coat with
    | some c => match c.point with
      | some (_, _, limit) => if overWait limit s then abortCoat c 0 s else s
      | none => s
    | none => s)

/-- A coat waiting for the product boundary of a head commits there (R236, R45). -/
def commitAtProduct (h : HeadId) (s : State) : State :=
  match s.coat with
  | some c => match c.point with
    | some (_, .product k, limit) => if k ≠ h then s else if overWait limit s then abortCoat c 0 s else commitCoat c s
    | _ => s
  | none => s

/-- A coat that re-places stages (R230), and the heads whose tiles it touches. -/
def Bound.moves : Bound → Bool
  | .place (some (op, _)) _ _ _ _ => op != 0x21 && op != 0x22
  | .place none _ _ _ _ => true
  | _ => false
def State.coatHeads (s : State) (c : Coat) : List HeadId := ((s.coatUnits c).1.filterMap s.headOf).eraseDups

/-- Fenced tiles that still hold stages are to be re-placed again after their coat was aborted. -/
def requeueMoves (s : State) : State :=
  (allTiles.filter fun t => (s.tiles[t]).fenced && s.isPlaced t && !(s.moves.any fun m => m.1 == t)).foldl
    (fun s t => { s with moves := s.moves ++ [(t, none)] }) s

/-- PLACEMENT_READY_COMMIT: the module's own coat commits once every affected tile is ready, a re-placement at the
fire-period boundary of the heads it touches; a unit that was fenced meanwhile aborts it. -/
def execPlacementReadyCommit (s : State) : Result :=
  .next (match s.coat with
    | some c =>
      let move := c.bound.any Bound.moves
      if !c.own || !s.fastOn || (move && !(s.coatHeads c).all s.atBoundary) then s
      else
        let failed := s.notReady c != 0
        let s := commitCoat c s
        if move && failed then requeueMoves s else s
    | none => s)

/-! ### Re-placement and read-back (R230, R237) -/

/-- The stages of one chain on a fenced tile: a place in the own coat, or a BROKEN chain. -/
def moveChain (t : TileId) (by_ : Option (Byte × Desc)) (c : Fin 256) (s : State) : State :=
  match s.chains[c].cdef, s.chains[c].placement with
  | some (stages, links), some pl =>
    match s.rePlace c t stages links pl with
    | .inr new =>
      let first := match s.coat with
        | some x => x.bound.isEmpty
        | none => true
      addBound (.place (if first then by_ else none) c new (stagesOn stages pl t) 0) s
    | .inl _ => refreshPlaced t (breakChain t c s)
  | _, _ => s

/-- TILE_REPLACEMENT: the stages of a tile are re-placed in a coat of the module's own, once no other coat is open. -/
def execTileReplacement (t : TileId) (s : State) : Result :=
  .next (match s.moves.find? fun m => m.1 == t with
    | some m =>
      if s.coat.isSome then s
      else
        let no := s.coatNo
        let s := openCoat true { s with moves := s.moves.filter fun m => m.1 != t }
        let s := (s.chainsOn t).foldl (fun s c => moveChain t m.2 c s) s
        match s.coat with
        | some c =>
          if c.bound.isEmpty then
            let s := { s with coat := none, coatNo := no }
            match m.2 with
            | some (op, d) => okay op d 0 s
            | none => s
          else markReady s
        | none => s
    | none => s)

/-- A tile's configuration words are read (R237, R309): whether all of them can be used. -/
def checkConfig (t : TileId) (s : State) : Bool × State :=
  (s.mem.errs.filter fun e => e.loc.region == 6 && e.loc.unit == t.val).foldl (fun (a : Bool × State) e =>
    let r := checkRead e.loc a.2
    (a.1 && r.1, r.2.2)) (true, s)

/-- COAT_READBACK: the tile reads back its coat number and its configuration. -/
def execCoatReadback (t : TileId) (rb : Attempt) (s : State) : Result :=
  .next (if s.readback.any (·.1 == t) && !(s.tiles[t]).fenced then
    let s := { s with readback := s.readback.filter fun r => r.1 != t }
    let entry := fun cls s => log cls 0x2B (srcTile t) (arg t.val) ((s.tiles[t]).coat.setWidth 32) 0 s
    let s := match rb with
      | .clean => s
      | .second => tileTransient t (entry .transient s)
      | .failed => faultFence 0x2B t (entry .lasting s)
    let r := checkConfig t s
    if r.1 then r.2 else faultFence 0x02 t r.2
  else s)

end Sys2Proof.Machine
end

