-- ==== Sys2Proof/Machine/Jobs.lean ====
section
/-!
DEFINITION. Heads, jobs, glyph tables, date slots and counters as the host defines them (R26 to R42), and the nozzle status map
(R110, R112, R113, R118).
-/
namespace Sys2Proof.Machine

open Sys2Proof

/-! ### Date slots (R39, R40, R42) -/

/-- SYSTIME units in a minute. -/
def minuteUnits : Nat := 60 * 16 * 10 ^ 9

/-- The non-empty slot of the latest EXPIRY; the lowest index of equal ones. -/
def Dates.latest (x : Dates) : Option (Fin 32) :=
  (List.finRange 32).foldl (fun best i =>
    if (x.slots[i]).expiry = 0 then best
    else match best with
      | none => some i
      | some b => if (x.slots[b]).expiry.toNat < (x.slots[i]).expiry.toNat then some i else best) none

/-- The latest EXPIRY lies less than the warning lead ahead; a table with no slot counts as passed (R42). -/
def State.dateShort (s : State) : Bool :=
  match s.dates.latest with
  | none => true
  | some i => decide ((s.dates.slots[i]).expiry.toNat < s.aon.sysNow.toNat + s.dates.lead * minuteUnits)

/-- DATE_LOW: once, until SET_DATE_SLOTS has moved the latest expiry beyond the lead. -/
def execDateLow (s : State) : Result :=
  .next (if s.aon.up && s.pwr.mode != .booting && s.pwr.mode != .dormant && s.dates.lowArmed && s.dateShort then
      let e := match s.dates.latest with
        | some i => (i.val, (s.dates.slots[i]).expiry)
        | none => (0, 0)
      raiseEvent .dateLow noUnit (log .info 0x1A srcModule (arg e.1) (loHalf64 e.2) (hiHalf64 e.2)
        { s with dates := { s.dates with lowArmed := false } })
    else s)
where
  loHalf64 (x : BitVec 64) : Word := x.setWidth 32
  hiHalf64 (x : BitVec 64) : Word := (x >>> 32).setWidth 32

/-- A slot record. -/
def dateSlotOf (bs : List Byte) : DateSlot :=
  { effective := BitVec.ofNat 64 (le bs 0 8), expiry := BitVec.ofNat 64 (le bs 8 8),
    strings := (List.range 4).map fun k => (bs.drop (16 + 16 * k)).take 16 }

/-- Writes slots from an index, each with its ledger entry. -/
def writeSlots : Nat → List DateSlot → State → State
  | _, [], s => s
  | i, x :: xs, s =>
    let s := { s with dates := { s.dates with slots := s.dates.slots.set (Fin.ofNat 32 i) x } }
    writeSlots (i + 1) xs
      (log .info 0x19 (unitSrc 0 i) (arg i) (x.expiry.setWidth 32) ((x.expiry >>> 32).setWidth 32) s)

/-- One write of slots takes effect and its command completes. -/
def applySlots (w : SlotWrite) (s : State) : State :=
  let s := writeSlots w.index w.slots { s with dates := { s.dates with lead := w.lead } }
  let s := if s.dateShort then s else { s with dates := { s.dates with lowArmed := true } }
  okayRead 0x44 w.desc 0 s

/-- DATE_SLOT_APPLY: the waiting writes take effect, in order (R39). -/
def execDateSlotApply (s : State) : Result :=
  .next (s.dates.wait.foldl (fun s w => applySlots w s) { s with dates := { s.dates with wait := [] } })

def execSetDateSlots (d : Desc) (s : State) : Result :=
  runDesc 0x44 d (headerFault d 0 .buffer .unbound [(28, 36)]) true (fun s =>
    let i := d.u 24 1
    let n := d.u 25 1
    if d.len ≠ 80 * n then badField 0x44 d 16 s
    else if 31 < i then badField 0x44 d 24 s
    else if n = 0 ∨ 32 < i + n then badField 0x44 d 25 s
    else withBuffer 0x44 d (fun bs s =>
      let w : SlotWrite := { desc := d, index := i, slots := (chunks 80 n bs).map dateSlotOf, lead := d.u 26 2 }
      { s with dates := { s.dates with wait := s.dates.wait ++ [w] } }) s) s

/-! ### Glyph tables (R35, R36) -/

/-- Bytes of a column bitmap. -/
def bitmapBytes (height : Nat) : Nat := ceilDiv (height * 4) 32 * 4

/-- The 4-bit levels of a column; the padding bits after the last level are not looked at (DESIGN CHOICE, log 48). -/
def levelsOf (height : Nat) (bs : List Byte) : List Nat :=
  (List.range height).map fun i => leNat bs / 16 ^ i % 16

/-- Parses `n` glyph records from the code `c` on; none where a value is out of range or the bytes do not fit. -/
def glyphsOf (height : Nat) : Nat → Nat → List Byte → Option (List (Byte × Glyph))
  | 0, _, bs => if bs.isEmpty then some [] else none
  | n + 1, c, bs =>
    let w := le bs 0 1
    let a := le bs 1 1
    let k := bitmapBytes height
    if bs.length < 4 + w * k ∨ w = 0 ∨ 32 < w ∨ a = 0 ∨ 64 < a ∨ le bs 2 2 ≠ 0 then none
    else
      let cols := (chunks k w (bs.drop 4)).map (levelsOf height)
      (glyphsOf height n (c + 1) (bs.drop (4 + w * k))).map fun l => (BitVec.ofNat 8 c, { advance := a, cols }) :: l

/-- Bytes a table takes in the print store: its records (log 27). -/
def GlyphTable.bytes (x : GlyphTable) : Nat := (x.glyphs.map fun g => 4 + g.2.cols.length * bitmapBytes x.height).sum

/-- Print store bytes in use: jobs and glyph tables (R29). -/
def State.printUsed (s : State) : Nat :=
  ((s.jobs.toList.map fun j => match j.jdef with
    | some d => d.used
    | none => 0).sum) + (s.glyphs.toList.map GlyphTable.bytes).sum
def printStore : Nat := 0x1000000

def execLoadGlyphs (d : Desc) (s : State) : Result :=
  runDesc 0x43 d (headerFault d 2 .buffer .unbound [(29, 35)]) true (fun s =>
    let first := d.u 24 2
    let n := d.u 26 2
    let h := d.u 28 1
    if 255 < first then badField 0x43 d 24 s
    else if n = 0 ∨ 256 < first + n then badField 0x43 d 26 s
    else if h = 0 ∨ 64 < h then badField 0x43 d 28 s
    else withBuffer 0x43 d (fun bs s =>
      match glyphsOf h n first bs with
      | none => badField 0x43 d inBuffer s
      | some l =>
        let k : Fin 4 := Fin.ofNat 4 d.target.toNat
        let old := s.glyphs[k]
        let kept := if old.height = h then old.glyphs.filter fun g => !(l.any fun x => x.1 == g.1) else []
        let new : GlyphTable := { height := h, glyphs := kept ++ l }
        if printStore < s.printUsed + new.bytes then refuse 0x43 d .noResource s
        else okayRead 0x43 d 0 { s with glyphs := s.glyphs.set k new }) s) s

/-! ### Heads (R26 to R28) -/

/-- A placed SELECT_PORT stage holds the port (R211). -/
def State.portPlaced (s : State) (p : PanelId) : Bool :=
  s.chains.toList.any fun c => match c.cdef, c.placement with
    | some (stages, _), some pl => pl.stages.any fun x => match stages[x.stage]? with
      | some g => g.kind == kPort && g.fix == p.val
      | none => false
    | _, _ => false

/-- Offset of the first field of DEFINE_HEAD out of range. -/
def headFieldFault (s : State) (h : HeadId) (d : Desc) : Option Nat :=
  let b := d.u 24 1
  let inLanes := ([1, 2, 4, 8] : List Nat).contains (d.u 25 1)
  let taken := allPanels.any fun p => (d.u 30 1).testBit p.val &&
    ((allHeads.any fun k => k != h && match s.heads[k].hdef with
      | some x => x.usesPort p
      | none => false) || s.portPlaced p)
  if b = 0 ∨ 4 < b then some 24 else if !inLanes then some 25 else if 3 < d.u 26 1 then some 26
  else if d.u 27 1 = 0 ∨ 8 < d.u 27 1 then some 27 else if d.u 28 2 = 0 ∨ 8192 < d.u 28 2 then some 28
  else if d.len ≠ 32 + 16 * d.u 28 2 then some 16
  else if taken then some 30 else if 1 < d.u 31 1 then some 31 else if 63 < d.u 32 1 then some 32
  else if d.u 33 1 = 0 then some 33 else if d.u 34 1 = 0 then some 34 else if 1 < d.u 35 1 then some 35
  else if 2 ^ b ≤ d.u 36 1 then some 36 else if 15 < d.u 37 1 then some 37 else if 4 < d.u 40 1 then some 40
  else if 7 < d.u 42 1 then some 42 else none
/-- A nozzle record (R27); none where a value is out of its field's range. -/
def nozzleOf (rows : Nat) (bs : List Byte) : Option Nozzle :=
  let w := le bs 0 2
  let port := w / 4096
  let slot := w % 4096
  if h : port < 8 ∧ le bs 2 2 < 512 then
    if 1023 < slot ∨ rows ≤ le bs 4 1 ∨ le bs 5 3 ≠ 0 then none
    else some { port := ⟨port, h.1⟩, slot, tile := ⟨le bs 2 2, h.2⟩, row := le bs 4 1,
                neighbours := (List.range 4).map fun k => leInt bs (8 + 2 * k) 2 }
  else none

/-- The definition in the descriptor and the map; none where a record is out of range. -/
def headDefOf (d : Desc) (bs : List Byte) : Option HeadDef :=
  let n := d.u 28 2
  let recs := (chunks 16 n (bs.drop 32)).map (nozzleOf (d.u 27 1))
  if recs.all Option.isSome then
    some { selBits := d.u 24 1, lanes := d.u 25 1, rate := d.u 26 1, rows := d.u 27 1, ports := BitVec.ofNat 8 (d.u 30 1),
           echoEn := d.u 31 1 == 1, echoDelay := d.u 32 1, latchSetup := d.u 33 1, latchWidth := d.u 34 1,
           ckCont := d.u 35 1 == 1, listenCode := d.u 36 1, echoPhase := d.u 37 1, tLf := d.u 38 2,
           neighbours := d.u 40 1, dInvert := BitVec.ofNat 8 (d.u 41 1), ctlInvert := BitVec.ofNat 8 (d.u 42 1),
           rowOffsets := (List.range 8).map fun k => leInt bs (4 * k) 4, nozzles := recs.filterMap id }
  else none

/-- Slots of a port (R57): one more than the highest the map assigns; 0 where it assigns none. -/
def HeadDef.slots (x : HeadDef) (p : PanelId) : Nat :=
  (x.nozzles.filter fun n => n.port == p).foldl (fun m n => max m (n.slot + 1)) 0

/-- The neighbour offsets that the mapper uses for a nozzle. -/
def HeadDef.near (x : HeadDef) (n : Nozzle) : List Int := (n.neighbours.take x.neighbours).filter (· != 0)

/-- The map breaks a rule of R27 or R28. -/
def headMapBad (s : State) (h : HeadId) (x : HeadDef) : Bool :=
  let group := fun t => x.nozzles.filter fun n => n.tile == t
  let foreign := fun t => allHeads.any fun k => k != h && match s.heads[k].hdef with
    | some y => y.drives t
    | none => false
  let places := x.nozzles.map fun n => (n.port, n.slot)
  ((x.rowOffsets.drop x.rows).any (· != 0)) ||
    x.tiles.any (fun t => 64 < (group t).length || ((group t).map (·.row)).eraseDups.length != 1 || foreign t) ||
    x.nozzles.any (fun n => panelOf n.tile != n.port || !x.usesPort n.port) ||
    places.eraseDups.length != places.length ||
    (withIndex x.nozzles).any fun p => (x.near p.2).any fun o =>
      (p.1 : Int) + o < 0 || (x.n : Int) ≤ (p.1 : Int) + o

/-- The head as a definition leaves it (R28, R52, R102): pointers and the status map start anew. -/
def Head.defined (x : Head) (d : HeadDef) : Head :=
  { x with hdef := some d, pointers := [], stats := List.replicate d.n {} }

def execDefineHead (d : Desc) (s : State) : Result :=
  runDesc 0x41 d (headerFault d 3 .buffer .unbound [(43, 21)]) true (fun s =>
    let h : HeadId := Fin.ofNat 8 d.target.toNat
    if (s.heads[h]).armed.isSome then refuse 0x41 d .state s
    else match headFieldFault s h d with
      | some off => badField 0x41 d off s
      | none => withBuffer 0x41 d (fun bs s =>
        match headDefOf d bs with
        | none => badField 0x41 d inBuffer s
        | some x =>
          if headMapBad s h x then badField 0x41 d inBuffer s
          else okayRead 0x41 d 0 (s.modHead h fun y => y.defined x)) s) s

/-! ### Jobs (R29 to R33, R37, R375) -/

/-- Bytes of a column record (R32). -/
def columnBytes (n b : Nat) : Nat := ceilDiv (n * b) 32 * 4

/-- The codes of a column record. -/
def codesOf (n b : Nat) (bs : List Byte) : List Nat :=
  let v := leNat bs
  (List.range n).map fun i => v / 2 ^ (i * b) % 2 ^ b

/-- A column as its record. -/
def columnRecord (b : Nat) (codes : List Nat) : List Byte :=
  natLe (columnBytes codes.length b) ((withIndex codes).foldl (fun v p => v + p.2 * 2 ^ (p.1 * b)) 0)

/-- DEFINE_JOB's header: beside its reserved bytes, FLAGS [7:6] and TRIGGER [13:0] with kind 3 must be 0 (R6, R30). -/
def jobHeader (d : Desc) : Option Nat :=
  (headerFault d 6 .buffer .unbound []).or ((if 63 < d.u 25 1 then some 25 else none).or
    ((if d.u 37 1 / 64 = 3 then (if d.u 36 1 ≠ 0 then some 36 else if d.u 37 1 % 64 ≠ 0 then some 37 else none) else none).or
      (reservedFault d [(54, 2), (60, 4)])))

/-- Offset of the first offending byte among the job's own fields (R30, R375). -/
def jobFieldFault (d : Desc) : Option Nat :=
  let kind := d.u 36 2 / 0x4000
  let num := d.u 36 2 % 0x4000
  if 7 < d.u 24 1 then some 24
  else if d.u 26 2 = 0 then some 26
  else if 2 ^ 31 ≤ d.u 32 4 then some 32
  else if 2 ^ 31 * 65536 ≤ d.u 32 4 * 65536 + d.u 26 2 * d.u 28 4 then some 26
  else if (kind = 0 ∧ 127 < num) ∨ ((kind = 1 ∨ kind = 2) ∧ 511 < num) then some 36
  else if 7 < d.u 38 1 then some 38
  else if 127 < d.u 39 1 ∧ d.u 39 1 ≠ 255 then some 39
  else if 2 ^ 31 ≤ d.u 40 4 then some 40
  else if 2 ^ 31 ≤ d.u 44 4 then some 44
  else if d.u 48 2 = 0 then some 48
  else if 16 < d.u 52 1 then some 52
  else if 8 < d.u 53 1 then some 53 else none

/-- Bytes of the job block (R31). -/
def jobBlockLen (d : Desc) (x : HeadDef) : Nat :=
  d.u 52 1 * 32 + d.u 53 1 * 16 + d.u 26 2 * columnBytes x.n x.selBits

def fieldOf (bs : List Byte) : FieldRec :=
  { ty := le bs 0 1, table := le bs 1 1, source := le bs 2 1, orMode := le bs 3 1 % 2 == 1, column := le bs 4 2,
    nozzle := le bs 6 2, glyphs := le bs 8 1, fill := BitVec.ofNat 8 (le bs 9 1), string := (bs.drop 16).take 16 }
/-- A field record is in range (R33). -/
def fieldOk (counters : Nat) (bs : List Byte) : Bool :=
  let ty := le bs 0 1
  let src := le bs 2 1
  decide (ty ≤ 3) && decide (le bs 1 1 ≤ 3) &&
    (if ty = 0 then decide (src < counters) else if ty = 1 then decide (src ≤ 2) else src == 0) &&
    decide (le bs 3 1 ≤ 1) && decide (1 ≤ le bs 8 1 ∧ le bs 8 1 ≤ 16) && le bs 10 6 == 0 && (ty == 2 || le bs 16 16 == 0)

def counterOf (bs : List Byte) : CounterRec :=
  let start := BitVec.ofNat 32 (le bs 4 4)
  { decimal := le bs 0 1 == 1, digits := le bs 1 1, down := le bs 2 1 == 1, start, limit := BitVec.ofNat 32 (le bs 8 4),
    step := le bs 12 4, value := start }
/-- A counter record is in range (R37). -/
def counterOk (bs : List Byte) : Bool :=
  decide (le bs 0 1 ≤ 1) && decide (1 ≤ le bs 1 1 ∧ le bs 1 1 ≤ (if le bs 0 1 = 0 then 8 else 10)) &&
    decide (le bs 2 1 ≤ 1) && le bs 3 1 == 0 && decide (1 ≤ le bs 12 4 ∧ le bs 12 4 ≤ 65535)

/-- The job in a descriptor and its block; none where a record is out of range. -/
def jobOfBlock (x : HeadDef) (d : Desc) (bs : List Byte) : Option JobDef :=
  let f := chunks 32 (d.u 52 1) bs
  let c := chunks 16 (d.u 53 1) (bs.drop (32 * d.u 52 1))
  if f.all (fieldOk (d.u 53 1)) && c.all counterOk then
    some { head := Fin.ofNat 8 (d.u 24 1), flags := BitVec.ofNat 8 (d.u 25 1), columns := d.u 26 2, pitch := d.u 28 4,
           delay := BitVec.ofNat 32 (d.u 32 4), trigger := BitVec.ofNat 16 (d.u 36 2), encoder := Fin.ofNat 8 (d.u 38 1),
           rejectPin := BitVec.ofNat 8 (d.u 39 1), minPitch := BitVec.ofNat 32 (d.u 40 4),
           rejectDist := BitVec.ofNat 32 (d.u 44 4), rejectWidth := d.u 48 2, coverMin := d.u 50 2,
           fields := f.map fieldOf, counters := c.map counterOf,
           template := bs.drop (32 * d.u 52 1 + 16 * d.u 53 1), maxRate := BitVec.ofNat 32 (d.u 56 4),
           used := ceilDiv d.len 64 * 64 + 256, nozzles := x.n, bits := x.selBits }
  else none

/-- DEFINE_JOB (R29). The job starts anew, its DETECT_SUPPRESSED count at 0 (DESIGN CHOICE, log 48). -/
def execDefineJob (d : Desc) (s : State) : Result :=
  runDesc 0x42 d (jobHeader d) true (fun s =>
    let j : Fin 64 := Fin.ofNat 64 d.target.toNat
    let hd := if d.u 24 1 ≤ 7 then (s.heads[(Fin.ofNat 8 (d.u 24 1) : HeadId)]).hdef else none
    if s.jobArmed j || (d.u 24 1 ≤ 7 && hd.isNone) then refuse 0x42 d .state s
    else match jobFieldFault d, hd with
      | some off, _ => badField 0x42 d off s
      | none, none => badField 0x42 d 24 s
      | none, some x =>
        if d.len ≠ jobBlockLen d x then badField 0x42 d 16 s
        else withBuffer 0x42 d (fun bs s =>
          match jobOfBlock x d bs with
          | none => badField 0x42 d inBuffer s
          | some new =>
            let old := match (s.jobs[j]).jdef with
              | some o => o.used
              | none => 0
            if printStore < s.printUsed - old + new.used then refuse 0x42 d .noResource s
            else okayRead 0x42 d new.used (s.modJob j fun _ => { jdef := some new })) s) s

/-- A counter's value is replaced. -/
def JobDef.setCounter (x : JobDef) (k : Nat) (v : Word) : JobDef :=
  { x with counters := x.counters.modify k fun c => { c with value := v } }

def execSetCounter (d : Desc) (s : State) : Result :=
  runDesc 0x48 d (headerFault d 6 .none .unbound [(25, 3), (32, 32)]) true (fun s =>
    let j : Fin 64 := Fin.ofNat 64 d.target.toNat
    match (s.jobs[j]).jdef with
    | none => refuse 0x48 d .state s
    | some x =>
      if x.counters.length ≤ d.u 24 1 then badField 0x48 d 24 s
      else okay 0x48 d 0 (s.modJob j fun y => { y with jdef := some (x.setCounter (d.u 24 1) (BitVec.ofNat 32 (d.u 28 4))) })) s

/-! ### The nozzle status map (R110, R112, R113, R118) -/

/-- The nozzle lacks one of its listen baselines (R109, R110). -/
def State.noBase (s : State) (h : HeadId) (n : Nat) : Bool :=
  ([0x14, 0x15, 0x16] : List Nat).any fun c => (s.skim c (headSub h) n).isNone

def statEntry (s : State) (h : HeadId) (n : Nat) (x : NozzleStat) : List Byte :=
  natLe 1 (x.status.toNat + 4 * x.pending.toNat + 8 * (s.noBase h n).toNat + 16 * x.last.toNat) ++ [x.transients]

/-- Every nozzle of a range changes. -/
def modStats (first count : Nat) (f : NozzleStat → NozzleStat) (x : Head) : Head :=
  { x with stats := (withIndex x.stats).map fun p => if first ≤ p.1 ∧ p.1 < first + count then f p.2 else p.2 }

/-- FIRST and COUNT lie in the head: the offset of the first offending byte. -/
def rangeFault (n first count : Nat) : Option Nat :=
  if n ≤ first then some 24 else if count = 0 ∨ n < first + count then some 26 else none

def execSetNozzleStatus (d : Desc) (s : State) : Result :=
  runDesc 0x50 d ((headerFault d 3 .none .unbound []).or
      ((if 1 < d.u 29 1 then some 29 else none).or (reservedFault d [(30, 34)]))) true (fun s =>
    let h : HeadId := Fin.ofNat 8 d.target.toNat
    match (s.heads[h]).hdef with
    | none => refuse 0x50 d .state s
    | some x =>
      match rangeFault x.n (d.u 24 2) (d.u 26 2) with
      | some off => badField 0x50 d off s
      | none =>
        if 3 < d.u 28 1 ∨ d.u 28 1 = 2 then badField 0x50 d 28 s
        else
          let st := BitVec.ofNat 2 (d.u 28 1)
          let clear := d.u 29 1 == 1
          let s := s.modHead h (modStats (d.u 24 2) (d.u 26 2) fun y =>
            { y with status := st, pending := false, byHost := true, transients := if clear then 0 else y.transients })
          okay 0x50 d 0 (x.panels.foldl (fun s p => purgeCheck p s) s)) s

def execReadNozzleMap (d : Desc) (s : State) : Result :=
  runDesc 0x51 d (headerFault d 3 .buffer .unbound [(28, 36)]) true (fun s =>
    let h : HeadId := Fin.ofNat 8 d.target.toNat
    match (s.heads[h]).hdef with
    | none => refuse 0x51 d .state s
    | some x =>
      match rangeFault x.n (d.u 24 2) (d.u 26 2) with
      | some off => badField 0x51 d off s
      | none =>
        if d.len ≠ 2 * d.u 26 2 then badField 0x51 d 16 s
        else
          let es := (withIndex s.heads[h].stats).map fun p => statEntry s h p.1 p.2
          writeOut 0x51 d [] ((es.drop (d.u 24 2)).take (d.u 26 2)).flatten 0 s) s

end Sys2Proof.Machine
end

