-- ==== Sys2Proof/Machine/Print.lean ====
section
/-!
DEFINITION. What a product is made of: rendered fields (R33, R34, R37), date slots (R40, R41), the stipple mapper (R50, R53),
and where its columns lie on the line (R73 to R78).
-/
namespace Sys2Proof.Machine

open Sys2Proof

/-! ### Counters (R37, R38) -/

def CounterRec.base (c : CounterRec) : Nat := if c.decimal then 10 else 16

/-- The value after the present one. -/
def CounterRec.next (c : CounterRec) : Word :=
  if c.down then
    if c.value.toNat < c.limit.toNat + c.step then c.start else c.value - BitVec.ofNat 32 c.step
  else
    let v := c.value.toNat + c.step
    if c.limit.toNat < v ∨ c.base ^ c.digits ≤ v ∨ 2 ^ 32 ≤ v then c.start else BitVec.ofNat 32 v

/-- Every counter of a job steps. -/
def JobDef.step (x : JobDef) : JobDef := { x with counters := x.counters.map fun c => { c with value := c.next } }

/-- Digits of a value, most significant first, at least one. -/
def digitsOf (base : Nat) : Nat → Nat → List Nat → List Nat
  | 0, _, acc => acc
  | n + 1, v, acc => if v < base then v :: acc else digitsOf base n (v / base) (v % base :: acc)

def digitGlyph (n : Nat) : Byte := BitVec.ofNat 8 (if n < 10 then 0x30 + n else 0x37 + n)

/-! ### Fields (R33, R34) -/

/-- A string up to its 0x00. -/
def untilZero (bs : List Byte) : List Byte := bs.takeWhile (· != 0)

/-- The glyph codes of a field's content. -/
def FieldRec.content (f : FieldRec) (counters : List CounterRec) (slot : Option DateSlot) : List Byte :=
  let str := fun k => match slot with
    | some x => untilZero (x.strings.getD k [])
    | none => []
  match f.ty with
  | 0 => match counters[f.source]? with
    | some c => (digitsOf c.base 10 c.value.toNat []).map digitGlyph
    | none => []
  | 1 => str f.source
  | 2 => untilZero f.string
  | _ => str 3

/-- Right-aligned in the positions: leading positions take FILL, and of longer content the last glyphs stay. -/
def FieldRec.positions (f : FieldRec) (content : List Byte) : List Byte :=
  let c := content.drop (content.length - f.glyphs)
  List.replicate (f.glyphs - c.length) f.fill ++ c

/-- The glyphs drawn, each with its first box column, and the width of the box. -/
def layGlyphs (tab : GlyphTable) : Nat → List Byte → List (Nat × Glyph) × Nat
  | x, [] => ([], x)
  | x, c :: cs =>
    match tab.glyphs.find? fun g => g.1 == c with
    | none => layGlyphs tab x cs
    | some g =>
      let r := layGlyphs tab (x + g.2.advance) cs
      ((x, g.2) :: r.1, r.2)

/-- The level at a cell of the box: the largest that a glyph drawn there gives. -/
def boxLevel (gs : List (Nat × Glyph)) (c r : Nat) : Nat :=
  gs.foldl (fun m g => if g.1 ≤ c then max m (((g.2.cols.getD (c - g.1) []).getD r 0)) else m) 0

/-- Rightmost column of a box that holds a cell. -/
def boxWidth (gs : List (Nat × Glyph)) (w : Nat) : Nat := gs.foldl (fun m g => max m (g.1 + g.2.cols.length)) w

/-- One field drawn on the raster. -/
def drawField (tables : Vector GlyphTable 4) (b : Nat) (counters : List CounterRec) (slot : Option DateSlot)
    (cols : List (List Nat)) (f : FieldRec) : List (List Nat) :=
  let tab := tables[(Fin.ofNat 4 f.table)]
  let r := layGlyphs tab 0 (f.positions (f.content counters slot))
  let w := boxWidth r.1 r.2
  (withIndex cols).map fun col =>
    if f.column ≤ col.1 ∧ col.1 < f.column + w then
      (withIndex col.2).map fun z =>
        if f.nozzle ≤ z.1 ∧ z.1 < f.nozzle + tab.height then
          let v := min (boxLevel r.1 (col.1 - f.column) (z.1 - f.nozzle)) (2 ^ b - 1)
          if f.orMode then max z.2 v else v
        else z.2
    else col.2

/-- A column in the head's present layout: a job defined for another map of the head is cut or padded with code 0. -/
def fitColumn (n b : Nat) (codes : List Nat) : List Nat := (List.range n).map fun i => codes.getD i 0 % 2 ^ b

/-- The template in the layout of the head. -/
def JobDef.columnsFor (j : JobDef) (hd : HeadDef) : List (List Nat) :=
  let k := columnBytes j.nozzles j.bits
  (List.range j.columns).map fun c => fitColumn hd.n hd.selBits (codesOf j.nozzles j.bits ((j.template.drop (c * k)).take k))

/-- The merged raster of a product: fields in slot order, a later one over what the earlier ones left (DESIGN CHOICE, log 70). -/
def State.render (s : State) (j : JobDef) (hd : HeadDef) (slot : Option DateSlot) : List (List Nat) :=
  j.fields.foldl (drawField s.glyphs hd.selBits j.counters slot) (j.columnsFor hd)

/-! ### Date slots (R40, R41) -/

/-- The job has date or shift fields. -/
def JobDef.dated (j : JobDef) : Bool := j.fields.any fun f => f.ty == 1 || f.ty == 3

/-- The best slot under an order, the lower index of equal ones. -/
def bestSlot (slots : Vector DateSlot 32) (ok : DateSlot → Bool) (key : DateSlot → Nat) : Option (Fin 32) :=
  (List.finRange 32).foldl (fun best i =>
    if !ok slots[i] then best
    else match best with
      | none => some i
      | some b => if key slots[b] < key slots[i] then some i else best) none

/-- The slot in force at a time: the greatest EFFECTIVE not after it (R40). -/
def Dates.chosen (x : Dates) (t : Nat) : Option (Fin 32) :=
  bestSlot x.slots (fun y => y.expiry != 0 && decide (y.effective.toNat ≤ t)) fun y => y.effective.toNat

/-- The most recently expired slot (R41). -/
def Dates.expired (x : Dates) (t : Nat) : Option (Fin 32) :=
  bestSlot x.slots (fun y => y.expiry != 0 && decide (y.effective.toNat < y.expiry.toNat) && decide (y.expiry.toNat ≤ t))
    fun y => y.expiry.toNat

/-- What the date rules give a product of a dated job: the slot and DATE_STALE, or none where HOLD_PRINT skips it. -/
def State.dateFor (s : State) (j : JobDef) (t : Nat) : Option (Option (Fin 32) × Bool) :=
  if !j.dated then some (none, false)
  else
    let live := if s.aon.ptmAligned then
        (s.dates.chosen t).filter fun i => decide (t < ((s.dates.slots[i]).expiry).toNat)
      else none
    match live with
    | some i => some (some i, false)
    | none =>
      if j.flags.getLsbD 0 && s.aon.ptmAligned then (s.dates.expired t).map fun i => (some i, true) else none

/-! ### The stipple mapper (R50 to R53) -/

/-- The mapper counts the nozzle as OUT: its status, or a failing word of the status map (R51, R309). -/
def State.outNozzle (s : State) (h : HeadId) (n : Nat) : Bool :=
  (match s.heads[h].stats[n]? with
    | some x => decide (2 ≤ x.status.toNat)
    | none => false) ||
  s.mem.errs.any fun e => e.loc.region == 11 && e.loc.word == Config.statWord h.val (n / 4) &&
    (e.poison || decide (3 ≤ popcount e.flips))

/-- The dot of an OUT nozzle: moved to the first free neighbour, or boosting one, or lost. `took`: nozzles that have taken a
dot of this column. -/
def moveDot (hd : HeadDef) (cp : Comp) (out : Nat → Bool) (codes : List Nat) (z : Nat × Nozzle)
    (acc : List Cell × List Nat) : List Cell × List Nat :=
  let c := codes.getD z.1 0
  let near := (hd.near z.2).map fun o => ((z.1 : Int) + o).toNat
  let free := fun m => !out m && !acc.2.contains m
  let put := fun (m : Nat) (cell : Cell) => ((acc.1.set m cell, m :: acc.2) : List Cell × List Nat)
  match near.find? fun m => free m && codes.getD m 0 == 0 with
  | some m => put m ⟨c, 1, cp.wMove.toNat⟩
  | none =>
    if hd.selBits = 1 ∨ !cp.grey then acc
    else match near.find? fun m => free m && decide (codes.getD m 0 < 2 ^ hd.selBits - 1) with
      | some m =>
        let old := acc.1.getD m ⟨0, 0, 0⟩
        put m ⟨old.code + 1, old.dots + 1, old.weight + cp.wBoost.toNat⟩
      | none => acc

/-- A column as the mapper hands it to the select ports. OUT nozzles give their dots away in ascending index (DESIGN CHOICE,
log 70). -/
def mapColumn (hd : HeadDef) (cp : Comp) (compens : Bool) (out : Nat → Bool) (codes : List Nat) : List Cell :=
  let own := (withIndex codes).map fun z =>
    if out z.1 || z.2 == 0 then (⟨0, 0, 0⟩ : Cell) else ⟨z.2, 1, 65536⟩
  if cp.mapper && compens then
    ((withIndex hd.nozzles).foldl (fun acc z =>
      if out z.1 && codes.getD z.1 0 != 0 then moveDot hd cp out codes z acc else acc) (own, ([] : List Nat))).1
  else own

/-- The cells move or boost a dot. -/
def cellsHelp (cs : List Cell) : Bool := cs.any fun c => c.dots != 0 && c.weight != 65536 * c.dots

/-- The codes of stitch ranges the module does not own are 0 (R385). -/
def State.stitchMask (s : State) (h : HeadId) (codes : List Nat) : List Nat :=
  (withIndex codes).map fun z =>
    if s.tally.ranges.toList.any fun r => match r with
      | some x => x.head == h && !x.owned && decide (x.first ≤ z.1 ∧ z.1 < x.first + x.count)
      | none => false
    then 0 else z.2

/-! ### Positions (R73 to R78, R375) -/

/-- A difference of counts read as signed (R375). -/
def countDiff (a b : Word) : Int := (a - b).toInt

/-- Row stagger at arming: whole columns and remainder in 16.16 counts; none where SCALE is not set or the stagger is out of
range (R72, R77). -/
def rowStagger (scale : Word) (pitch : Nat) (offset : Int) : Option (Nat × Int) :=
  if offset = 0 then some (0, 0)
  else if scale = 0 ∨ pitch = 0 then none
  else
    let o := divRound (offset * scale.toNat) 10000
    let q := divRound (o * 256) pitch
    let d := q / 256
    if d < 0 ∨ 255 < d then none else some (d.toNat, o - d * pitch)

/-- The stagger of every row of a head. -/
def State.staggerFor (s : State) (hd : HeadDef) (j : JobDef) : Option (List (Nat × Int)) :=
  let rows := (hd.rowOffsets.take hd.rows).map fun o => rowStagger (s.aon.enc[j.encoder]).scale j.pitch o
  if rows.all Option.isSome then some (rows.filterMap id) else none

def maxStagger (l : List (Nat × Int)) : Nat := l.foldl (fun m r => max m r.1) 0
def minRem (l : List (Nat × Int)) : Int := l.foldl (fun m r => min m r.2) 0

/-- Columns of strokes that a product takes: the last row's last image column ends it (R54). -/
def Product.strokes (p : Product) : Nat := p.jdef.columns + maxStagger p.stagger

/-- P_k in 16.16 counts from C0 (R73). -/
def JobDef.pos (j : JobDef) (k : Nat) : Nat := j.delay.toNat * 65536 + k * j.pitch

def Product.row (p : Product) (r : Nat) : Nat × Int := p.stagger.getD r (0, 0)

/-- The row of a tile's group. -/
def HeadDef.rowOf (d : HeadDef) (t : TileId) : Nat :=
  match d.nozzles.find? fun n => n.tile == t with
  | some n => n.row
  | none => 0

/-- T_est as a sum of FCK cycles over a number of counts (R74); none while the line has not been seen to move. -/
def Encoder.test (e : Encoder) : Option (Nat × Nat) :=
  if e.intervals.isEmpty then
    let n := e.tickCounts.sum
    if n = 0 then none else some (64 * 36621, n)
  else some (e.intervals.sum, e.intervals.length)

/-- FCK cycles from now until the encoder is predicted to reach a position; none while the rate is not known. -/
def State.cyclesTo (s : State) (e : Encoder) (c0 : Word) (pos : Int) : Option Int :=
  e.test.map fun r =>
    let since : Nat := s.aon.fck - e.lastAt.getD s.aon.fck
    (pos - countDiff e.count c0 * 65536) * r.1 / (65536 * r.2 : Nat) - since

/-! ### Lead time (R58, R76) -/

/-- Bit time in FCK cycles: FCK / 2^(RATE + 1); twice that before changeover (R56, R62). -/
def HeadDef.bitFck (d : HeadDef) (qck : Bool) : Nat := 2 ^ (d.rate + 1) * (if qck then 2 else 1)

/-- Bit times of a frame on a port (R57, R58). -/
def HeadDef.frameBits (d : HeadDef) (p : PanelId) : Nat :=
  ceilDiv (d.slots p) d.lanes * d.selBits + (if d.echoEn then d.echoDelay else 0) + d.latchSetup + d.latchWidth

/-- Ports that carry slots. -/
def HeadDef.portList (d : HeadDef) : List PanelId := allPanels.filter d.usesPort

/-- The most negative nozzle trim of the head, in vernier steps. -/
def State.minTrim (s : State) (h : HeadId) (n : Nat) : Int :=
  (List.range n).foldl (fun m k => min m (s.skim0 0x10 (headSub h) k)) 0

/-- L in FCK cycles (R76): the longest frame, T_LF, the largest advance at MAX_RATE, 64 cycles, rounded up. -/
def State.leadFor (s : State) (h : HeadId) (hd : HeadDef) (j : JobDef) (st : List (Nat × Int)) : Nat :=
  let frame := hd.portList.foldl (fun m p => max m (hd.frameBits p * hd.bitFck false)) 0
  -- in units of 1/(40 * 65536 * MAX_RATE) cycles: T_LF is 6/5 cycles a ns, a step 1/8 cycle, a count 1.2e9 / MAX_RATE cycles
  let u := 40 * 65536 * max 1 j.maxRate.toNat
  let adv : Int := -(minRem st * (40 * 1200000000) + s.minTrim h hd.n * (5 * 65536 * max 1 j.maxRate.toNat : Nat))
  let rest : Int := (hd.tLf * 48 * 65536 * max 1 j.maxRate.toNat : Nat) + max 0 adv
  frame + 64 + ceilDiv rest.toNat u

end Sys2Proof.Machine
end

