-- ==== Sys2Proof/Machine/Arming.lean ====
section
/-!
DEFINITION. Arming, swapping and disarming jobs (R44, R47, R48, R76, R77), what waits for a product boundary (R52, R91, R96,
R123, R236, R386), and the commands that may wait for one.
-/
namespace Sys2Proof.Machine

open Sys2Proof

/-! ### The arming table (R44) -/

/-- MAX_RATE / PITCH is above 120,000 columns per second. -/
def JobDef.tooFast (j : JobDef) : Bool := decide (120000 * j.pitch < j.maxRate.toNat * 65536) || j.pitch == 0

/-- W_MIN of a panel in us (R106). -/
def Panel.wMin (x : Panel) : Nat := max 2 (Word.field x.listen 24 20)

/-- Two frames and the shortest window fit the shortest column period on every port (R59, R62). -/
def State.framesFit (s : State) (hd : HeadDef) (j : JobDef) : Bool :=
  hd.portList.all fun p =>
    decide ((2 * (hd.frameBits p * hd.bitFck false) + usFck (s.panels[p]).wMin) * (65536 * j.maxRate.toNat) ≤
      j.pitch * 1200000000)

/-- The state with the job on the head, for the power check. -/
def withJob (h : HeadId) (j : Fin 64) (hd : HeadDef) (jd : JobDef) (hlv : Bool) (s : State) : State :=
  s.modHead h fun x => { x with armed := some j, hlvShare := hlv, power := s.powerFor hd jd hlv }

/-- The checks of R44 below the first two rows: a status with its detail, or the row stagger. -/
def State.armPlan (s : State) (h : HeadId) (hd : HeadDef) (j : Fin 64) (jd : JobDef) (hlv : Bool) :
    (Status × Nat) ⊕ List (Nat × Int) :=
  if !s.pwr.mode.up || hd.portList.any (fun p => !(s.pstate p).live) then .inl (.state, 0)
  else if jd.tooFast then .inl (.badField, inBuffer)
  else match s.staggerFor hd jd with
    | none => .inl (.badField, inBuffer)
    | some st =>
      if 64 * jd.minPitch.toNat < jd.rejectDist.toNat then .inl (.budget, 0)
      else if !s.framesFit hd jd then .inl (.budget, 0)
      else if s.pwr.grant.toNat < (withJob h j hd jd hlv s).alloc then .inl (.power, 0)
      else .inr st

/-! ### Clipping (R88) -/

/-- WAVE_CLIP of idle levels, once per arming (R88). -/
def clipCheck (ts : List TileId) (s : State) : State :=
  match ts.find? s.clips with
  | some t => logClip t ts s
  | none => s

/-! ### Arming -/

def JobDef.freeRun (j : JobDef) : Bool := j.trigger.toNat / 0x4000 == 3

/-- The job acts on the head from here on. -/
def armHead (h : HeadId) (j : Fin 64) (hd : HeadDef) (jd : JobDef) (hlv : Bool) (st : List (Nat × Int)) (s : State) : State :=
  let old := s
  let lead := s.leadFor h hd jd st
  let s := (withJob h j hd jd hlv s).modHead h fun x =>
    { x with edges := [], lastC0 := none, column := none, freeRunWait := jd.freeRun, freeRunC0 := none,
             colsSinceSteal := none, stealNext := false, spitCount := 0, stagger := st, lead }
  let s := hd.reach.foldl (fun s t => s.modTrowel t fun w => { w with armedWarned := false, clipWarned := false }) s
  rejectsFollow old (reRequest false (clipCheck hd.tiles s))

def execArmJob (d : Desc) (s : State) : Result :=
  runDesc 0x45 d (headerFault d 6 .none .unbound [(24, 40)]) true (fun s =>
    let j : Fin 64 := Fin.ofNat 64 d.target.toNat
    match (s.jobs[j]).jdef with
    | none => refuse 0x45 d .state s
    | some jd =>
      if s.jobArmed j then refuse 0x45 d .state s
      else match (s.heads[jd.head]).hdef with
        | none => refuse 0x45 d .state s
        | some hd =>
          if (s.heads[jd.head]).armed.isSome then refuse 0x45 d .state s
          else
            let hlv := !s.anyArmed
            match s.armPlan jd.head hd j jd hlv with
            | .inl f => finish 0x45 d f.1 f.2 0 s
            | .inr st => okay 0x45 d 0 (armHead jd.head j hd jd hlv st s)) s

/-! ### What waits for a product boundary -/

/-- Settings of SET_COMPENSATION act and their commands complete, in order (R52). -/
def applyComps (h : HeadId) (s : State) : State :=
  let ws := (s.heads[h]).compWait
  ws.foldl (fun s w => okay 0x53 w.1 0 (s.modHead h fun x => { x with comp := w.2 }))
    (s.modHead h fun x => { x with compWait := [] })

/-- Shadow copies become live (R91). -/
def waveLive (k : Fin 16) (ts : List TileId) (s : State) : State :=
  ts.foldl (fun s t => s.modTile t fun x => { x with waves := x.waves.set k x.shadowWaves[k] }) s

/-- Completion of LOAD_WAVEFORM: one read of its buffer, one shadow read-back. -/
def waveDone (d : Desc) (a : Attempt) (s : State) : State := finish 0x40 d (okOf [d.rd, a]) 0 0 s

/-- Waveforms that wait for the boundary of a head go live and their commands complete. -/
def applyWaves (h : HeadId) (s : State) : State :=
  let ws := (s.heads[h]).waveWait
  ws.foldl (fun s w => waveDone w.1 w.2.1 (waveLive w.2.2.1 w.2.2.2 s))
    (s.modHead h fun x => { x with waveWait := [] })

/-- The trowel, its TRIP cleared, is on again and returns toward its idle level (R96); takeover ends (R99). -/
def reenable (t : TileId) (s : State) : State :=
  if (s.tiles[t]).trowel.reenable then
    endBuddy t (s.modTrowel t fun w => { w with reenable := false, phase := .recovering })
  else s

def HeadDef.each (hd : HeadDef) (f : TileId → State → State) (s : State) : State := hd.tiles.foldl (fun s t => f t s) s

/-- Ownership changes of the head's stitch ranges (R386). -/
def applyStitch (h : HeadId) (s : State) : State :=
  { s with tally := { s.tally with ranges := s.tally.ranges.map fun r => r.map fun x =>
    if x.head = h then { x with owned := x.change.getD x.owned, change := none } else x } }

/-- A phase found by a search acts (R123). -/
def applyPhase (h : HeadId) (s : State) : State :=
  match (s.heads[h]).phaseWait with
  | some (t, v) =>
    (s.modTrowel t fun w => { w with phaseSteps := v }).modHead h fun x => { x with phaseWait := none }
  | none => s

/-- Everything but a swap and a coat that takes effect at a head's product boundary. -/
def boundaryActs (h : HeadId) (s : State) : State :=
  let s := applyWaves h (applyComps h s)
  let s := match (s.heads[h]).hdef with
    | some hd => hd.each reenable s
    | none => s
  applyPhase h (applyStitch h s)

/-- A swap that waits takes effect; its completion carries the first sequence number under the new job (R47). The definition and the
row stagger are those of the boundary; a stagger that fails there is empty (DESIGN CHOICE, log 70). -/
def swapActs (h : HeadId) (s : State) : State :=
  match (s.heads[h]).swap, (s.heads[h]).hdef with
  | some w, some hd =>
    match (s.jobs[w.job]).jdef with
    | some jd =>
      let st := (s.staggerFor hd jd).getD []
      let seq := (s.heads[h]).nextSeq.toNat
      okay 0x46 w.desc seq (armHead h w.job hd jd (s.heads[h]).hlvShare st (s.modHead h fun x => { x with swap := none }))
    | none => s
  | _, _ => s

/-- The product boundary of a head (R45). -/
def productBoundary (h : HeadId) (s : State) : State := commitAtProduct h (boundaryActs h (swapActs h s))

/-! ### Disarming (R48, R52) -/

/-- A swap that has not taken effect is aborted. -/
def abortSwap (h : HeadId) (s : State) : State :=
  match (s.heads[h]).swap with
  | some w => refuse 0x46 w.desc .aborted (s.modHead h fun x => { x with swap := none })
  | none => s

/-- Waiting DISARMs complete once no product is left. -/
def disarmDone (h : HeadId) (s : State) : State :=
  if (s.heads[h]).products.isEmpty then
    (s.heads[h]).disarm.foldl (fun s d => okay 0x47 d 0 s) (s.modHead h fun x => { x with disarm := [] })
  else s

/-- The head has no armed job any more. -/
def endJob (h : HeadId) (s : State) : State :=
  let old := s
  let s := abortSwap h s
  let s := s.modHead h fun x =>
    { x with armed := none, hlvShare := false, power := 0, edges := [], freeRunWait := false, freeRunC0 := none,
             search := x.search.filter fun y => y.desc.isSome, pass := x.pass.filter fun y => y.desc.isSome }
  disarmDone h (boundaryActs h (reRequest false (rejectsFollow old s)))

/-- A DISARM whose products have all ended takes effect. -/
def disarmSettle (h : HeadId) (s : State) : State :=
  let x := s.heads[h]
  if !x.disarm.isEmpty && x.products.isEmpty then endJob h s else s

/-- Products in flight are stopped with a cause; a column taken up does not fire any more. -/
def stopProducts (h : HeadId) (c : Cause) (s : State) : State :=
  let mine := fun d : DueFire => d.head == h && d.by_ == .column
  let s : State := match (s.heads[h]).hdef with
    | some hd => hd.reach.foldl (fun (s : State) t => s.modTrowel t fun w => { w with due := w.due.filter (!mine ·) }) s
    | none => s
  s.modHead h fun x => { x with column := none, products := x.products.map fun p =>
    if p.done then p else { p with cause := if p.cause = .none then c else p.cause, done := true } }

/-- DISARM (R48). A SWAP_JOB that waits on the job completes with ABORTED at once (DESIGN CHOICE, log 70). -/
def execDisarm (d : Desc) (s : State) : Result :=
  runDesc 0x47 d (headerFault d 6 .none .unbound [(25, 39)]) true (fun s =>
    let j : Fin 64 := Fin.ofNat 64 d.target.toNat
    if 1 < d.u 24 1 then badField 0x47 d 24 s
    else match allHeads.find? fun h => (s.heads[h]).armed == some j with
      | none => refuse 0x47 d .state s
      | some h =>
        let s := abortSwap h (s.modHead h fun x => { x with disarm := x.disarm ++ [d], edges := [] })
        disarmSettle h (if d.u 24 1 = 1 then stopProducts h .disarmed s else s)) s

/-! ### SWAP_JOB (R47) -/

def execSwapJob (d : Desc) (s : State) : Result :=
  runDesc 0x46 d (headerFault d 6 .none .unbound [(25, 39)]) true (fun s =>
    let new : Fin 64 := Fin.ofNat 64 d.target.toNat
    let old : Fin 64 := Fin.ofNat 64 (d.u 24 1)
    if 63 < d.u 24 1 then badField 0x46 d 24 s
    else match (s.jobs[new]).jdef, allHeads.find? fun h => (s.heads[h]).armed == some old with
      | some jd, some h =>
        match (s.heads[h]).hdef with
        | some hd =>
          if s.jobArmed new || jd.head != h || !(s.heads[h]).disarm.isEmpty then refuse 0x46 d .state s
          else match s.armPlan h hd new jd (s.heads[h]).hlvShare with
            | .inl f => finish 0x46 d f.1 f.2 0 s
            | .inr _ => (abortSwap h s).modHead h fun x => { x with swap := some { desc := d, job := new } }
        | none => refuse 0x46 d .state s
      | _, _ => refuse 0x46 d .state s) s

/-! ### SET_COMPENSATION (R52) -/

def execSetCompensation (d : Desc) (s : State) : Result :=
  runDesc 0x53 d (headerFault d 3 .none .unbound [(26, 2), (32, 32)]) true (fun s =>
    let h : HeadId := Fin.ofNat 8 d.target.toNat
    let c : Comp := { mapper := d.u 24 1 == 1, grey := d.u 25 1 == 1, wMove := BitVec.ofNat 16 (d.u 28 2),
                      wBoost := BitVec.ofNat 16 (d.u 30 2) }
    if 1 < d.u 24 1 then badField 0x53 d 24 s
    else if 1 < d.u 25 1 then badField 0x53 d 25 s
    else if (s.heads[h]).hdef.isNone then refuse 0x53 d .state s
    else if (s.heads[h]).armed.isSome then s.modHead h fun x => { x with compWait := x.compWait ++ [(d, c)] }
    else okay 0x53 d 0 (s.modHead h fun x => { x with comp := c })) s

/-! ### LOAD_WAVEFORM (R89 to R91) -/

/-- Tiles that the command writes, none where the head is not defined. -/
def State.waveTiles (s : State) (d : Desc) : Option (List TileId) :=
  if d.u 25 1 = 1 then ((s.heads[(Fin.ofNat 8 d.target.toNat : HeadId)]).hdef).map HeadDef.tiles
  else some [Fin.ofNat 512 d.target.toNat]

/-- WAVE_READBACK of some tile of the scope. -/
def logShadowWave (cls : LClass) (k : Fin 16) (ts : List TileId) (s : State) : State :=
  let (w, s) := s.drawWord
  match ts[w.toNat % max 1 ts.length]? with
  | some t => log cls 0x1D (srcTile t) (arg t.val) (arg k.val) 0 s
  | none => s

/-- The head whose product boundary the tiles wait for: that of an armed job using one of them. -/
def State.waveHead (s : State) (ts : List TileId) : Option HeadId :=
  (ts.find? s.armedTile).bind s.headOf

def execLoadWaveform (d : Desc) (shadow : Attempt) (s : State) : Result :=
  let head := d.u 25 1 == 1
  runDesc 0x40 d (headerFault d (if head then 3 else 9) .buffer .unbound [(28, 36)]) true (fun s =>
    let n := d.u 27 1
    let k : Fin 16 := Fin.ofNat 16 (d.u 24 1)
    if 15 < d.u 24 1 then badField 0x40 d 24 s
    else if 1 < d.u 25 1 then badField 0x40 d 25 s
    else if 2 < d.u 26 1 then badField 0x40 d 26 s
    else if n = 0 ∨ 32 < n then badField 0x40 d 27 s
    else if d.len ≠ 8 * n then badField 0x40 d 16 s
    else match s.waveTiles d with
      | none => refuse 0x40 d .state s
      | some ts =>
        if ts.any fun t => s.pstate (panelOf t) == .off then refuse 0x40 d .state s
        else withBuffer 0x40 d (fun bs s =>
          if !segsOk (d.u 26 1) n bs then badField 0x40 d inBuffer s
          else
            let w : Waveform := { domain := BitVec.ofNat 2 (d.u 26 1), segs := segsOf n bs }
            let put := fun s : State =>
              ts.foldl (fun s t => s.modTile t fun x => { x with shadowWaves := x.shadowWaves.set k w }) s
            match shadow with
            | .failed => refuse 0x40 d .integrity (logShadowWave .lasting k ts s)
            | _ =>
              let s := if shadow = .second then logShadowWave .transient k ts s else s
              match s.waveHead ts with
              | some h => (put s).modHead h fun x => { x with waveWait := x.waveWait ++ [(d, shadow, k, ts)] }
              | none => waveDone d shadow (waveLive k ts (put s))) s) s

end Sys2Proof.Machine
end

