-- ==== Sys2Proof/Machine/Rings.lean ====
section
/-!
DEFINITION. Doorbells, descriptor fetch, stream rings and MSI-X (R285 to R301), NOP and QUERY_STATUS (R304), the endpoint's
resets and link (R254 to R257, R399).
-/
namespace Sys2Proof.Machine

open Sys2Proof

/-! ### Doorbells (R285) -/

/-- A write to BAR2: a wake source; a doorbell takes a single 4-byte write. -/
def doorbell (size : Nat) (f : State → State) (s : State) : State :=
  if s.decodes && s.pwr.mode != .dormant then
    let s := doorbellWake s
    if size = 4 then f s else s
  else s

/-- A doorbell value at or above the entry count: ERR 1 and QUEUE_ERROR. -/
def cqBad (n : Fin 16) (s : State) : State :=
  raiseEvent .queueError (arg n.val) (s.modCq n fun q => { q with err := 1 })

def execCqTailDoorbell (n : Fin 16) (v : Word) (size : Nat) (s : State) : Result :=
  .next (doorbell size (fun s =>
    if !(s.cqs[n]).en then s
    else if (s.cqs[n]).slots ≤ v.toNat then cqBad n s
    else s.modCq n fun q => { q with tail := v.setWidth 16 }) s)

def execCpHeadDoorbell (n : Fin 16) (v : Word) (size : Nat) (s : State) : Result :=
  .next (doorbell size (fun s =>
    if !(s.cqs[n]).en then s
    else if (s.cqs[n]).slots ≤ v.toNat then cqBad n s
    else s.modCq n fun q => { q with cpHead := v.setWidth 16 }) s)

/-- A consumed offset the ring accepts: a multiple of 8 inside the ring and the unconsumed span. -/
def Stream.consumes (r : Stream) (v : Nat) : Bool :=
  v % 8 == 0 && decide (v < r.bytes) && decide ((v + r.bytes - r.consumed.toNat) % r.bytes ≤ r.used)

/-- Records have been written since the last message and reach the threshold: the re-armed ring fires (R296). -/
def rearmRing (n : Fin 32) (s : State) : State :=
  let s := s.modSt n fun r => { r with signalled := false }
  let r := s.sts[n]
  if r.firstAt.isSome && r.used != 0 && decide (64 * r.thresh.toNat ≤ r.used) then fireRing n s else s

def execStConsumedDoorbell (n : Fin 32) (v : Word) (size : Nat) (s : State) : Result :=
  .next (doorbell size (fun s =>
    let r := s.sts[n]
    if !r.isOpen then s
    else if r.consumes v.toNat then rearmRing n (s.modSt n fun r => { r with consumed := v.setWidth 26 })
    else log .info 0x24 srcModule (arg (0x80000000 + 0x1000 + 0x40 * n.val)) v 0 s) s)

/-- Entries of a print queue (R297). -/
def Pq.slots (q : Pq) : Nat := 16 * 2 ^ min q.size.toNat 12

def execPqTailDoorbell (n : Fin 8) (v : Word) (size : Nat) (s : State) : Result :=
  .next (doorbell size (fun s =>
    if !(s.pqs[n]).en then s
    else if (s.pqs[n]).slots ≤ v.toNat then
      raiseEvent .queueError (arg n.val) (s.modPq n fun q => { q with err := 1 })
    else s.modPq n fun q => { q with tail := v.setWidth 16 }) s)

/-! ### Descriptor fetch (R286, R289) -/

/-- Descriptors in progress across the module. -/
def State.inProgress (s : State) : Nat := (s.cqs.toList.map Cq.inProgress).sum

/-- The queue has a descriptor waiting that may be fetched. -/
def State.fetchable (s : State) (n : Fin 16) : Bool :=
  let q := s.cqs[n]
  q.en && q.err == 0 && q.tail != q.head && decide (q.inProgress + q.unconsumed < q.slots - 1) &&
    decide (s.inProgress < 256)

/-- It is the queue's turn: no fetchable queue of a higher rank, none of its rank served less recently. -/
def State.turn (s : State) (n : Fin 16) : Bool :=
  let q := s.cqs[n]
  s.fetchable n && (List.finRange 16).all fun m =>
    let r := s.cqs[m]
    !s.fetchable m || (q.prio && !r.prio) || (q.prio == r.prio && decide (q.served ≤ r.served))

/-- The descriptor in 64 bytes of host memory (R278). -/
def descOf (queue : Fin 16) (bs : List Byte) : Fetched :=
  { opcode := bs.headD 0,
    desc := { queue, flags := BitVec.ofNat 8 (le bs 1 1), tag := BitVec.ofNat 16 (le bs 2 2),
              target := BitVec.ofNat 32 (le bs 4 4), buffer := BitVec.ofNat 64 (le bs 8 8),
              length := BitVec.ofNat 32 (le bs 16 4), coat := BitVec.ofNat 32 (le bs 20 4),
              body := BitVec.ofNat 320 (le bs 24 40) } }

/-- A DESC_FETCH entry (R289, R324). -/
def logFetch (cls : LClass) (n : Fin 16) (op : Word) (s : State) : State :=
  let (c, s) := readFailure s
  log cls 0x0C (unitSrc 6 n.val) (arg n.val) op c s

/-- What of the command is in transit lies in ring staging: a lasting failure there makes it complete with INTEGRITY (R309, log 8). -/
def inStaging (f : Fetched) (s : State) : State :=
  let r := wordsBad 9 none s
  if r.1 then refuse f.opcode f.desc .integrity (r.2.modCq f.desc.queue fun q => q.start f.opcode f.desc) else r.2

/-- DESCRIPTOR_FETCH: the ring engine takes the next descriptor of the queue whose turn it is. The opcode of a descriptor
that could not be read is free (log 11). -/
def execDescriptorFetch (n : Fin 16) (fetch : Attempt) (s : State) : Result :=
  .next (if s.serving && s.turn n then
    let q := s.cqs[n]
    let f := descOf n (s.hostMem.bytes (q.base.toNat + 64 * q.head.toNat) 64)
    let next : BitVec 16 := BitVec.ofNat 16 ((q.head.toNat + 1) % q.slots)
    let taken := fun s : State =>
      let t := s.turns + 1
      ({ s with turns := t }).modCq n fun q => { q with head := next, fetched := q.fetched ++ [f], served := t }
    match s.transfer fetch with
    | .clean => inStaging f (taken s)
    | .second => inStaging f (logFetch .transient n (f.opcode.setWidth 32) (taken s))
    | .failed =>
      let (op, s) := s.drawWord
      raiseEvent .queueError (arg n.val)
        (logFetch .lasting n (op.setWidth 8 |>.setWidth 32) (s.modCq n fun q => { q with err := 2 }))
  else s)

/-- BAD_OPCODE_DESCRIPTOR: an opcode outside the index (R283). -/
def execBadOpcodeDescriptor (opcode : Byte) (d : Desc) (s : State) : Result :=
  .next (if s.runs d && !opcodes.contains opcode then
      refuse opcode d .badOpcode (s.modCq d.queue fun q => q.start opcode d)
    else s)

/-! ### NOP and QUERY_STATUS (R304) -/

def execNop (d : Desc) (s : State) : Result :=
  runDesc 0x01 d (headerFault d 32 .none .unbound [(24, 40)]) true (okay 0x01 d 0) s

/-- Bit j of ARMED: job j is armed. -/
def State.armedBits (s : State) : Nat :=
  ((List.finRange 64).filter fun j => s.jobArmed j).foldl (fun n j => n + 2 ^ j.val) 0

/-- The status block (R304). -/
def statusBlock (s : State) : List Byte :=
  natLe 8 s.aon.sysNow.toNat ++ u32 s.pwrStatus ++ u32 s.pwrBudget ++ u32 s.pwrMeas ++ natLe 4 s.ev.status.toNat ++
    natLe 2 s.fnMode.toNat ++ natLe 1 s.coat.isSome.toNat ++ natLe 1 s.sec.lifecycle.code ++
    natLe 2 s.coatShown.toNat ++ natLe 2 0 ++ u32 s.ledger.seq ++ natLe 4 0 ++ natLe 8 s.armedBits ++ natLe 16 0

def execQueryStatus (d : Desc) (s : State) : Result :=
  runDesc 0x04 d (headerFault d 0 .buffer .unbound [(24, 40)]) true (fun s =>
    let t := s.aon.sysNow.toNat
    if d.len = 0 then okay 0x04 d t s
    else if d.len ≠ 64 then badField 0x04 d 16 s
    else writeOut 0x04 d [] (statusBlock s) t s) s

/-! ### OPEN_STREAM and CLOSE_STREAM (R290, R291) -/

/-- The sources that a descriptor names. -/
def streamSources (kind first count : Nat) : List Source :=
  match kind with
  | 0 => (allTiles.filter fun t => first ≤ t.val ∧ t.val < first + count).map Source.tile
  | 1 => (allHeads.filter fun h => first ≤ h.val ∧ h.val < first + count).map Source.listen
  | 2 => (allHeads.filter fun h => first ≤ h.val ∧ h.val < first + count).map Source.verdict
  | 3 => [.message]
  | 4 => [.status]
  | _ => [.ledger]

/-- A power of two from 4,096 to 67,108,864, as SIZE. -/
def ringSize (n : Nat) : Option (BitVec 4) :=
  ((List.range 15).find? fun k => 4096 * 2 ^ k == n).map (BitVec.ofNat 4 ·)

/-- FIRST and COUNT of a kind. -/
def streamSpan (kind first count : Nat) : Option Nat :=
  let n := if kind = 0 then 512 else 8
  if 2 < kind then none
  else if n ≤ first then some 26 else if count = 0 ∨ n < first + count then some 28 else none

/-- OPEN_STREAM's header and the bytes that R290 reserves; those marked 0 in MODE 1, and FIRST and COUNT of the kinds that take
none, count among them (R6). -/
def openHeader (d : Desc) : Option Nat :=
  let wide := if 3 ≤ d.u 24 1 ∧ d.u 24 1 ≤ 5 then [(26, 4)] else []
  if d.u 25 1 = 1 then headerFault d 5 .zero .unbound (wide ++ [(30, 10), (40, 8), (48, 16)])
  else headerFault d 5 .buffer .unbound (wide ++ [(34, 6), (48, 16)])

/-- Offset of the first offending byte of OPEN_STREAM's own fields. -/
def openFault (d : Desc) : Option Nat :=
  let ring :=
    if d.u 25 1 = 1 then none
    else if d.buffer.toNat % 4096 ≠ 0 then some 8 else if (ringSize d.len).isNone then some 16 else none
  ring.or ((if 5 < d.u 24 1 then some 24 else if 1 < d.u 25 1 then some 25 else none).or
    ((streamSpan (d.u 24 1) (d.u 26 2) (d.u 28 2)).or
      (if 63 < d.u 30 1 then some 30 else if 4095 < d.u 32 2 then some 32
       else if d.u 40 8 % 8 ≠ 0 then some 40 else none)))

def execOpenStream (d : Desc) (s : State) : Result :=
  runDesc 0x70 d (openHeader d) true (fun s =>
    match openFault d with
    | some off => badField 0x70 d off s
    | none =>
      let n : Fin 32 := Fin.ofNat 32 d.target.toNat
      let src := streamSources (d.u 24 1) (d.u 26 2) (d.u 28 2)
      let mode0 := d.u 25 1 == 0
      if (s.sts[n]).isOpen == mode0 || src.any fun x => (s.ringOf x).isSome then refuse 0x70 d .state s
      else
        let s := if mode0 then
            s.modSt n fun _ =>
              { base := d.buffer, mirror := BitVec.ofNat 64 (d.u 40 8), isOpen := true,
                size := (ringSize d.len).getD 0, vector := Fin.ofNat 64 (d.u 30 1),
                timeout := BitVec.ofNat 8 (d.u 31 1), thresh := BitVec.ofNat 12 (d.u 32 2) }
          else s
        okay 0x70 d 0 (s.modSt n fun r => { r with sources := r.sources ++ src })) s

/-- The mirror: WRITE and the RSEQ of the next record (R294). -/
def writeMirror (n : Fin 32) (s : State) : State :=
  let r := s.sts[n]
  let s := if s.linkUp then s.hostWrite r.mirror.toNat (u32 (r.write.setWidth 32) ++ u32 r.rseq) else s
  s.modSt n fun r => { r with mirrorDue := false, mirrorAt := some s.aon.fck }

/-- A GAP record that is due and fits (R295, R291). -/
def flushGap (n : Fin 32) (s : State) : State :=
  let r := s.sts[n]
  match r.gap with
  | some g =>
    if s.linkUp && decide (r.cost r.write.toNat 32 + 8 ≤ r.bytes - r.used) then
      (putRecord n 1 (gapPayload g) s).modSt n fun r => { r with gap := none }
    else s
  | none => s

def execCloseStream (d : Desc) (s : State) : Result :=
  runDesc 0x71 d (headerFault d 5 .none .unbound [(24, 40)]) true (fun s =>
    let n : Fin 32 := Fin.ofNat 32 d.target.toNat
    if !(s.sts[n]).isOpen then refuse 0x71 d .state s
    else
      let s := writeMirror n (flushGap n s)
      let r := s.sts[n]
      okay 0x71 d (r.write.toNat + r.lost.toNat * 2 ^ 32)
        (s.modSt n fun r => { r with isOpen := false, sources := [], signalled := false, firstAt := none })) s

/-- The mirror is due and 1 us has passed since it was last written (R294). -/
def State.mirrorReady (s : State) (n : Fin 32) : Bool :=
  let r := s.sts[n]
  r.isOpen && r.mirrorDue && s.linkUp && r.mirrorAt.all fun k => decide (k + usFck 1 ≤ s.aon.fck)

/-- MIRROR_WRITE: the mirror follows a record, at most once per 1 us (R294). -/
def execMirrorWrite (n : Fin 32) (s : State) : Result := .next (if s.mirrorReady n then writeMirror n s else s)

/-- STREAM_INTERRUPT_TIMEOUT (R296). -/
def execStreamInterruptTimeout (n : Fin 32) (s : State) : Result :=
  .next (
    let r := s.sts[n]
    match r.firstAt with
    | some f =>
      if r.isOpen && !r.signalled && r.timeout != 0 && decide (f + usFck (8 * r.timeout.toNat) ≤ s.aon.fck) then
        fireRing n s
      else s
    | none => s)

/-! ### MSI-X (R301) -/

/-- The pending message of a vector that is no longer masked. -/
def msixRelease (v : Fin 64) (s : State) : State :=
  if (s.msix[v]).pba && !(s.msix[v]).masked && !s.link.fnMask then
    raiseMsix v (s.modMsix v fun m => { m with pba := false })
  else s

/-- MSIX_UNMASK: a write of the vector's control word; bit 0 is the mask. -/
def execMsixUnmask (v : Fin 64) (control : Word) (s : State) : Result :=
  .next (if s.decodes && s.pwr.mode != .dormant then
      msixRelease v ((doorbellWake s).modMsix v fun m => { m with masked := control.getLsbD 0 })
    else s)

/-- MSIX_GAP_END: the causes held back by the gap send one message. -/
def execMsixGapEnd (v : Fin 64) (s : State) : Result :=
  .next (if (s.msix[v]).held && decide ((s.msix[v]).gapUntil ≤ s.aon.fck) then
      raiseMsix v (s.modMsix v fun m => { m with held := false })
    else s)

/-! ### The endpoint (R254 to R257, R280, R399) -/

/-- PERST or a hot reset: the endpoint, configuration space, BARs, rings and MSI-X state, with the registers of R396. -/
def endpointReset (s : State) : State :=
  { s with
    link := { s.link with speed := 0, width := 0, ptmEn := false, ecrcEn := false, aspmL1 := false, l12En := false,
                          fnMask := false, d3hot := false, inL1 := false }
    cqs := Vector.replicate 16 {}
    sts := Vector.replicate 32 {}
    pqs := Vector.replicate 8 {}
    msix := Vector.replicate 64 {}
    ev := { status := s.ev.status } }

def execPerst (s : State) : Result := .next (endpointReset s)
def execHotReset (s : State) : Result := .next (endpointReset s)

/-- D3HOT_ENTRY: memory decoding stops, or starts again; nothing else changes (R256). An endpoint without power takes no
configuration access (log 2). -/
def execD3hotEntry (enter : Bool) (s : State) : Result :=
  .next (if s.aon.up then { s with link := { s.link with d3hot := enter } } else s)

/-- LINK_DOWN: SPEED reads 0 (R399). -/
def execLinkDown (s : State) : Result := .next { s with link := { s.link with speed := 0, width := 0, inL1 := false } }

/-- LINK_TRAINED: the link reports speed and width, and L1_ENTRIES restarts (R399). A module whose endpoint is down or
held in PERST trains no link. -/
def execLinkTrained (speed width : BitVec 4) (s : State) : Result :=
  .next (if s.aon.up && !s.link.perst && !s.pwr.bursarFail && s.pwr.mode != .dormant then
      { s with link := { s.link with speed, width, l1Entries := 0, inL1 := false } }
    else s)

/-- CONFIG_SPACE_WRITE: the settings that the module's behaviour depends on (R257, R258, R301). -/
def execConfigSpaceWrite (item : CfgItem) (on : Bool) (s : State) : Result :=
  .next (if !s.aon.up then s else match item with
    | .aspmL1 => { s with link := { s.link with aspmL1 := on } }
    | .l12 => { s with link := { s.link with l12En := on } }
    | .ptm => { s with link := { s.link with ptmEn := on } }
    | .ecrc => { s with link := { s.link with ecrcEn := on } }
    | .msixFunctionMask =>
      let s := { s with link := { s.link with fnMask := on } }
      (List.finRange 64).foldl (fun s v => msixRelease v s) s)

/-- LINK_L1_ENTRY: with ASPM L1 enabled, only in STANDBY and ARMED, and only with no transaction pending (R257). The module
releases CLKREQ where L1.2 is enabled. -/
def execLinkL1Entry (s : State) : Result :=
  .next (
    let idle := s.inProgress == 0
    if s.link.aspmL1 && s.linkUp && !s.link.inL1 && idle && (s.pwr.mode == .standby || s.pwr.mode == .armed) &&
        s.pwr.change.isNone then
      let l1 : BitVec 2 := if s.link.l12En then 3 else 1
      let s := { s with link := { s.link with inL1 := true, lastL1 := l1, l1Entries := s.link.l1Entries + 1 } }
      if s.link.l12En && s.link.clkreq then jsbSend (clkreqFrame false) { s with link := { s.link with clkreq := false } } else s
    else s)

end Sys2Proof.Machine
end

