-- ==== Sys2Proof/Machine/Products.lean ====
section
/-!
DEFINITION. Products: detects (R45, R46, R69, R70), rasters from the host (R49, R299), rendering (R43), verdicts (R53, R63 to R65),
reject pulses (R66) and encoders (R373, R374).
-/
namespace Sys2Proof.Machine

open Sys2Proof

/-! ### Host rasters (R298, R299) -/

/-- The queue of a head. -/
def State.pqOf (s : State) (h : HeadId) : Option (Fin 8) :=
  (List.finRange 8).find? fun n => (s.pqs[n]).en && (s.pqs[n]).headId == h

/-- What the entries of a queue give a product. -/
inductive Entry49 where
  | none | bad | taken (addr : BitVec 64)
  deriving DecidableEq, Repr

def Pq.next (q : Pq) : Pq :=
  { q with rdidx := if q.rdidx.toNat + 1 < q.slots then q.rdidx + 1 else 0 }

/-- Examines entries from RDIDX on, at most `fuel` of them. -/
def examine (n : Fin 8) (seq : Word) (len : Nat) : Nat → State → Entry49 × State
  | 0, s => (.none, s)
  | k + 1, s =>
    let q := s.pqs[n]
    if q.rdidx = q.tail ∨ !s.linkUp then (.none, s)
    else
      let e := s.hostMem.bytes (q.base.toNat + 32 * q.rdidx.toNat) 32
      let want := BitVec.ofNat 32 (le e 16 4)
      let drop := s.modPq n fun q => { q.next with bad := q.bad + 1 }
      if le e 12 1 ≠ 0 ∨ le e 13 3 ≠ 0 ∨ (e.drop 20).any (· != 0) ∨ le e 8 4 ≠ len ∨ le e 0 8 % 8 ≠ 0 then (.bad, drop)
      else if want = 0xFFFFFFFF#32 ∨ want = seq then (.taken (BitVec.ofNat 64 (le e 0 8)), s.modPq n Pq.next)
      else if (want - seq).toInt < 0 then examine n seq len k drop
      else (.bad, s)

/-- The raster that the head's queue gives a product: `awaited` while no entry has been posted. -/
def hostRaster (h : HeadId) (seq : Word) (hd : HeadDef) (jd : JobDef) (s : State) : Option Raster × State :=
  match s.pqOf h with
  | none => (some .awaited, s)
  | some n =>
    match examine n seq (jd.columns * columnBytes hd.n hd.selBits) (s.pqs[n]).slots s with
    | (.none, s) => (some .awaited, s)
    | (.bad, s) => (none, s)
    | (.taken a, s) => (some (.host a n [] false), s)

/-! ### A product's start -/

/-- Some uncorrectable word of the print store (region 8) lies in what a product uses: free for each such word (log 10). -/
def storeBad (s : State) : Bool × State := wordsBad 8 none s

/-- Column 0 would fall before the last column of an earlier product on the same channel (R46); a product on another channel is
judged when its column 0 comes (overtaken). -/
def Product.collides (p : Product) (jd : JobDef) (c0 : Word) : Bool :=
  !p.done && p.jdef.encoder == jd.encoder &&
    decide (countDiff c0 p.c0 * 65536 + jd.delay.toNat * 65536 < ((p.jdef.pos (p.strokes - 1) : Nat) : Int))

/-- The reject rule of a job may ask for a pulse. -/
def JobDef.rejects (j : JobDef) : Bool := j.rejectPin != 255 && (j.flags.getLsbD 1 || j.flags.getLsbD 2)

/-- A pulse that the product may need, at the detect count plus REJECT_DIST (R66). -/
def Product.rejectOf (p : Product) (h : HeadId) : Reject :=
  { head := h, job := p.job, seq := p.seq, pin := Fin.ofNat 128 p.jdef.rejectPin.toNat,
    channel := p.jdef.encoder, dueAt := p.c0 + p.jdef.rejectDist, width := p.jdef.rejectWidth }

/-- The product joins the head's list, its pulse the AON domain's. -/
def addProduct (h : HeadId) (p : Product) (s : State) : State :=
  let s := s.modHead h fun x => { x with products := x.products ++ [p], nextSeq := x.nextSeq + 1 }
  if p.jdef.rejects then { s with aon := { s.aon with rejects := s.aon.rejects ++ [p.rejectOf h] } } else s

/-- A product with nothing decided yet. -/
def State.bareProduct (s : State) (h : HeadId) (j : Fin 64) (jd : JobDef) (c0 : Word) (counts : List Word)
    (time : BitVec 64) : Product :=
  { seq := (s.heads[h]).nextSeq, job := j, jdef := jd, time, c0, counts, slot := none, stale := false, raster := .merged [],
    rendered := false, merge := Word.field (s.fnMode.setWidth 32) 11 10 == 1,
    compens := Word.field (s.fnMode.setWidth 32) 5 4 == 1, classify := Word.field (s.fnMode.setWidth 32) 3 2 == 1,
    faultcls := Word.field (s.fnMode.setWidth 32) 13 12 == 1, stagger := (s.heads[h]).stagger }

def Product.stop (p : Product) (c : Cause) : Product := { p with cause := c, done := true }

/-- The counters step, except for a skipped product without FLAGS bit 5 (R38). -/
def stepCounters (j : Fin 64) (jd : JobDef) (skipped : Bool) (s : State) : State :=
  if skipped && !jd.flags.getLsbD 5 then s else s.modJob j fun x => { x with jdef := x.jdef.map JobDef.step }

/-- An accepted detect gives a product of the armed job: date, collision, counters, raster (R38, R40, R41, R46, R49). Where the date
rules and a collision both stop it, the cause is DATE_EXPIRED (DESIGN CHOICE, log 70). -/
def startProduct (h : HeadId) (j : Fin 64) (hd : HeadDef) (jd : JobDef) (c0 : Word) (counts : List Word) (time : BitVec 64)
    (s : State) : State :=
  let p := s.bareProduct h j jd c0 counts time
  let hit := (s.heads[h]).products.any fun q => q.collides jd c0
  match if p.merge then some (none, false) else s.dateFor jd time.toNat with
  | none => addProduct h (p.stop .dateExpired) (stepCounters j jd true s)
  | some (slot, stale) =>
    let p := { p with slot, stale }
    let printed := fun p : Product => if hit then p.stop .collision else p
    let s := stepCounters j jd hit s
    if p.merge then
      match hostRaster h p.seq hd jd s with
      | (none, s) => addProduct h (if hit then p.stop .collision else p.stop .noRaster) s
      | (some r, s) => addProduct h (printed { p with raster := r, rendered := true }) s
    else
      let r := storeBad s
      if r.1 && !hit then addProduct h (p.stop .integrity) r.2
      else
        addProduct h (printed { p with raster := .merged (s.render jd hd (slot.map fun i => s.dates.slots[i])) }) r.2

/-! ### Detects (R45, R69, R70) -/

/-- Products between detect and last column. -/
def Head.inFlight (x : Head) : Nat := (x.products.filter fun p => !p.done).length

/-- Windows of a pass that would close later than L before the predicted column 0 are closed and discarded (R115). -/
def closeLate (h : HeadId) (hd : HeadDef) (jd : JobDef) (c0 : Word) (s : State) : State :=
  match s.cyclesTo (s.aon.enc[jd.encoder]) c0 ((jd.pos 0 : Nat) : Int) with
  | none => s
  | some c =>
    let limit : Int := s.aon.fck + c - (s.heads[h]).lead
    hd.tiles.foldl (fun s t => match (s.tiles[t]).trowel.listen with
      | some l =>
        if (l.kind == 2 || l.kind == 3) && l.openNow && decide (limit < ((l.opened + 60 * l.window : Nat) : Int)) then
          let now := s.aon.fck
          s.modTrowel t fun w =>
            { w with listen := none, closedAt := now, play := if w.play = .listening then .idle else w.play }
        else s
      | none => s) s

/-- A detect that passes: the product boundary, and the product under the job armed after it (R45, R47). A swap from or to a
free-run job starts no product at its boundary. -/
def acceptDetect (h : HeadId) (old : JobDef) (counts : List Word) (c0 : Word) (time : BitVec 64) (s : State) : State :=
  let swapped := (s.heads[h]).swap.isSome
  let s := productBoundary h (s.modHead h fun x => { x with lastC0 := some c0 })
  match (s.heads[h]).armed, s.jobOf h, (s.heads[h]).hdef with
  | some j, some jd, some hd =>
    let s := hd.each (fun t s => setEvm t 8 s) s
    if swapped && (old.freeRun || jd.freeRun) then s
    else
      let c0 := if jd.freeRun then c0 else counts.getD jd.encoder.val 0
      closeLate h hd jd c0 (startProduct h j hd jd c0 counts time (s.modHead h fun x => { x with lastC0 := some c0 }))
  | _, _, _ => s

/-- A detect beyond the 16th in flight: suppressed, counted, MISSING with cause OVERFLOW (R45). -/
def overflowDetect (h : HeadId) (j : Fin 64) (jd : JobDef) (counts : List Word) (c0 : Word) (time : BitVec 64) (s : State) :
    State :=
  addProduct h ((s.bareProduct h j jd c0 counts time).stop .overflow)
    (s.modJob j fun x => { x with suppressed := x.suppressed + 1 })

/-- One detect of an armed job. -/
def detect (h : HeadId) (j : Fin 64) (jd : JobDef) (counts : List Word) (c0 : Word) (time : BitVec 64) (s : State) : State :=
  let near := !jd.freeRun && match (s.heads[h]).lastC0 with
    | some l => decide (countDiff c0 l < ((jd.minPitch.toNat : Nat) : Int))
    | none => false
  if near then s.modJob j fun x => { x with suppressed := x.suppressed + 1 }
  else if 16 ≤ (s.heads[h]).inFlight then overflowDetect h j jd counts c0 time s
  else acceptDetect h jd counts c0 time s

/-- DETECT_ACCEPT: the oldest waiting trigger edge, or the free-run start, is accepted or suppressed. -/
def execDetectAccept (h : HeadId) (s : State) : Result :=
  .next (match (s.heads[h]).armed, s.jobOf h with
    | some j, some jd =>
      if !s.pwr.mode.up || !(s.heads[h]).disarm.isEmpty then s
      else if jd.freeRun then
        match (s.heads[h]).freeRunC0 with
        | some c0 => detect h j jd s.counts c0 s.aonTime (s.modHead h fun x => { x with freeRunC0 := none })
        | none => s
      else match (s.heads[h]).edges with
        | (time, counts) :: rest =>
          detect h j jd counts (counts.getD jd.encoder.val 0) time (s.modHead h fun x => { x with edges := rest })
        | [] => s
    | _, _ => s)

/-- Updates the product with a sequence number. -/
def modProduct (h : HeadId) (seq : Word) (f : Product → Product) (s : State) : State :=
  s.modHead h fun x => { x with products := x.products.map fun p => if p.seq = seq then f p else p }

def State.product (s : State) (h : HeadId) (seq : Word) : Option Product := (s.heads[h]).products.find? fun p => p.seq == seq

/-- PRINT_QUEUE_ENTRY_ARRIVAL: entries posted after the detect are examined for the products that await one. -/
def execPrintQueueEntryArrival (h : HeadId) (s : State) : Result :=
  .next (match (s.heads[h]).hdef with
    | some hd =>
      ((s.heads[h]).products.filter fun p => !p.done && p.raster == .awaited).foldl (fun s p =>
        match hostRaster h p.seq hd p.jdef s with
        | (none, s) => modProduct h p.seq (·.stop .noRaster) s
        | (some r, s) => modProduct h p.seq (fun p => { p with raster := r }) s) s
    | none => s)

/-- FIELD_RENDER_DONE: the merger has rendered the product's fields. -/
def execFieldRenderDone (h : HeadId) (seq : Word) (s : State) : Result :=
  .next (modProduct h seq (fun p => if p.done then p else { p with rendered := true }) s)

/-- Columns that ring staging may hold ahead of the one being printed: 512 KiB (R299). -/
def stagingColumns (hd : HeadDef) : Nat := max 1 (0x80000 / max 1 (columnBytes hd.n hd.selBits))

/-- A column of a host raster. -/
def State.hostColumn (s : State) (hd : HeadDef) (addr : BitVec 64) (c : Nat) : List Nat :=
  let k := columnBytes hd.n hd.selBits
  codesOf hd.n hd.selBits (s.hostMem.bytes (addr.toNat + c * k) k)

/-- RASTER_READ_COMPLETION: the oldest raster with columns still to come takes all that staging has room for, or fails on both
attempts (R299). -/
def execRasterReadCompletion (h : HeadId) (read : Attempt) (s : State) : Result :=
  .next (
    let want := fun p : Product => !p.done && match p.raster with
      | .host _ _ cols failed => !failed && decide (cols.length < p.jdef.columns)
      | _ => false
    match (s.heads[h]).hdef, (s.heads[h]).products.find? want with
    | some hd, some p =>
      match p.raster with
      | .host a n cols _ =>
        let top := min p.jdef.columns (p.col + stagingColumns hd)
        let new := cols ++ (List.range (top - cols.length)).map fun k => s.hostColumn hd a (cols.length + k)
        let put := fun (r : Raster) (s : State) => modProduct h p.seq (fun p => { p with raster := r }) s
        match s.transfer read with
        | .clean => put (.host a n new false) s
        | .second => put (.host a n new false) (hostDmaRead .transient n.val 0 s)
        | .failed => put (.host a n cols true) (hostDmaRead .lasting n.val 0 s)
      | _ => s
    | _, _ => s)

/-! ### Reject pulses (R66, R363) -/

/-- The pin's reject source follows the pulses that run on it. -/
def rejectPinLevel (p : PinId) (s : State) : State :=
  let on := s.aon.rejects.any fun r => r.pin == p && r.ends.isSome
  pinSample p (s.modPin p fun x => { x with reject := on })

/-- The pulse starts. -/
def pulseStart (r : Reject) (s : State) : State :=
  let due := s.aon.ticks + r.width
  rejectPinLevel r.pin { s with aon := { s.aon with rejects := s.aon.rejects.map fun x =>
    if x = r then { x with ends := some due } else x } }

/-- REJECT_PULSE_START: the encoder has reached the reject count, and no function hold of the pin puts the pulse off (R364); a pulse whose verdict is not known yet starts early. -/
def execRejectPulseStart (h : HeadId) (seq : Word) (s : State) : Result :=
  .next (match s.aon.rejects.find? fun r => r.head == h && r.seq == seq && r.ends.isNone with
    | some r =>
      if s.aon.up && !(s.gpio.pins[r.pin]).hold && decide (0 ≤ countDiff (s.aon.enc[r.channel]).count r.dueAt) then
        let s := pulseStart r s
        if r.call.isNone then modProduct h seq (fun p => { p with rejectEarly := true }) s else s
      else s
    | none => s)

/-- REJECT_PULSE_END: pulses of the pin that have lasted REJECT_WIDTH ticks are over. -/
def execRejectPulseEnd (p : PinId) (s : State) : Result :=
  .next (
    let ended := fun r : Reject => r.pin == p && match r.ends with
      | some e => decide (e ≤ s.aon.ticks)
      | none => false
    if s.aon.up && s.aon.rejects.any ended then
      rejectsFollow s (rejectPinLevel p { s with aon := { s.aon with rejects := s.aon.rejects.filter fun r => !ended r } })
    else s)

/-! ### Verdicts (R53, R63 to R65) -/

/-- Coverage in 1/65,536 (R53). -/
def Product.coverage (p : Product) : Nat := if p.dots = 0 then 65535 else min 65535 (p.weight / p.dots)
def Product.lostDots (p : Product) : Nat := p.dots - p.fired

/-- 0 GOOD, 1 DEGRADED, 2 MISSING (R64). -/
def Product.verdict (p : Product) : Nat :=
  if p.cause ≠ .none then 2 else if p.coverage < p.jdef.coverMin ∨ p.unreliable then 1 else 0

/-- The verdict calls for a reject (R30 FLAGS, R66). -/
def Product.calls (p : Product) : Bool :=
  p.jdef.rejectPin != 255 && match p.verdict with
    | 1 => p.jdef.flags.getLsbD 1
    | 2 => p.jdef.flags.getLsbD 2
    | _ => false

def Cause.code : Cause → Nat
  | .none => 0 | .dateExpired => 1 | .collision => 2 | .lateRender => 3 | .disarmed => 4 | .fault => 5 | .noRaster => 6
  | .integrity => 7 | .overflow => 8

/-- FLAGS of the verdict record (R65). REJECT_SENT stands for a call or an early pulse, though the pulse may still be to come (DESIGN
CHOICE, log 70). -/
def Product.flags (p : Product) : Nat :=
  p.prelock.toNat + 2 * p.compensated.toNat + 4 * (p.calls || p.rejectEarly).toNat + 8 * p.echoFault.toNat +
    16 * p.merge.toNat + 32 * p.stale.toNat + 64 * p.unreliable.toNat + 128 * p.rejectEarly.toNat

/-- Non-zero codes of the merged columns that the product has not reached: they count in D and are lost (R53, R65). -/
def State.restDots (s : State) (h : HeadId) (hd : HeadDef) (p : Product) : Nat :=
  let n := p.mapped.length
  let count := fun c : List Nat => ((s.stitchMask h c).filter (· != 0)).length
  match p.raster with
  | .merged cols => ((cols.drop n).map count).sum
  | .host a _ _ _ => ((List.range (p.jdef.columns - n)).map fun k => count (s.hostColumn hd a (n + k))).sum
  | .awaited => 0

/-- The verdict record (R65). -/
def verdictPayload (h : HeadId) (p : Product) : List Byte :=
  natLe 6 (p.time.setWidth 48).toNat ++ natLe 1 p.job.val ++ natLe 1 h.val ++ u32 p.seq ++ natLe 1 p.verdict ++
    natLe 1 p.flags ++ natLe 1 p.cause.code ++
    natLe 1 (match p.slot with
      | some i => i.val
      | none => 255) ++
    u32 (if p.started then ~~~p.crc else 0) ++ natLe 2 p.coverage ++ natLe 2 (min 65535 p.lostDots) ++
    natLe 4 p.dots ++ u32 ((p.jdef.counters[0]?.map (·.value)).getD 0)

/-- The fire is one of the head's strokes or slots. -/
def DueFire.isOf (d : DueFire) (h : HeadId) : Bool :=
  (d.by_ == .column || d.by_ == .spit || d.by_ == .slot || d.by_ == .test) && d.head == h

/-- No group of the head still fires or listens for the product. -/
def State.quietFor (s : State) (hd : HeadDef) (h : HeadId) (seq : Word) : Bool :=
  hd.reach.all fun t =>
    let w := (s.tiles[t]).trowel
    let mine := fun d : Option DueFire => match d with
      | some d => d.isOf h && d.seq == seq
      | none => false
    !mine w.due && !mine w.current && match w.listen with
      | some l => !(l.head == h && l.seq == seq)
      | none => true

/-- The product's pulse learns its call: dropped where the verdict calls for none and it has not started (R66). -/
def tellReject (h : HeadId) (p : Product) (s : State) : State :=
  let told := fun r : Reject =>
    if r.head = h ∧ r.seq = p.seq then
      (if p.calls ∨ r.ends.isSome then some { r with call := some p.calls } else none)
    else some r
  rejectsFollow s { s with aon := { s.aon with rejects := s.aon.rejects.filterMap told } }

/-- The head's lowest-numbered panel, which holds its head-wide fields (R106). -/
def HeadDef.lowPanel (hd : HeadDef) : PanelId := (allPanels.find? hd.panels.contains).getD 0

/-- A spit-and-listen pass of every nozzle is due (R114); a pass still running goes on in its place. -/
def HeadDef.ownPass (hd : HeadDef) : Pass :=
  { desc := none, spit := false, first := 0, count := hd.n, fires := 1, code := 2 ^ hd.selBits - 1, listens := true,
    period := 0, inclOut := false, own := true, left := List.range hd.n }

/-- After every SPIT_EVERY-th product a pass starts (R106, R114). -/
def spitEvery (h : HeadId) (s : State) : State :=
  match (s.heads[h]).hdef, (s.heads[h]).armed with
  | some hd, some _ =>
    let every := Word.field (s.panels[hd.lowPanel]).listen 7 4
    let n := (s.heads[h]).spitCount + 1
    if every = 0 then s
    else if n < every then s.modHead h fun x => { x with spitCount := n }
    else s.modHead h fun x => { x with spitCount := 0, pass := x.pass.or (some hd.ownPass) }
  | _, _ => s

/-- VERDICT: the oldest product that has ended and whose last window has closed gets its record. -/
def execVerdict (h : HeadId) (s : State) : Result :=
  .next (match (s.heads[h]).hdef with
    | some hd =>
      match (s.heads[h]).products.find? fun p => p.done && s.quietFor hd h p.seq with
      | some p =>
        let p := { p with dots := p.dots + s.restDots h hd p }
        let s := tellReject h p s
        let s := (emitStaged (.verdict h) 4 (verdictPayload h p) s).2
        let s := s.modHead h fun x => { x with products := x.products.filter fun q => q.seq != p.seq }
        disarmSettle h (spitEvery h s)
      | none => s
    | none => s)

/-! ### Encoders (R373, R374) -/

/-- Direction and count of a transition: none where it does not count; `some none` where it is illegal. -/
def Encoder.transition (e : Encoder) (a b : Bool) : Option (Option Bool) :=
  match Word.field e.cfg 29 28 with
  | 1 =>
    if a != e.lvlA && b != e.lvlB then some none
    else if a != e.lvlA then some (some (a != b))
    else if b != e.lvlB then some (some (a == b)) else none
  | 2 => if a && !e.lvlA then some (some (!b)) else none
  | 3 => if a && !e.lvlA then some (some true) else none
  | _ => none

/-- An overspeed or illegal transition. -/
def Encoder.alarm (e : Encoder) : Encoder := { e with ovs := true, ovsNow := true, legalRun := 0 }
/-- A legal count at least 40 ns after the one before; the 16th in a row ends overspeed. -/
def Encoder.legal (e : Encoder) : Encoder :=
  { e with legalRun := min 16 (e.legalRun + 1), ovsNow := e.ovsNow && decide (e.legalRun + 1 < 16) }

/-- A count: position, direction, the interval measured while fast clocks run, the counts of this tick. -/
def Encoder.counted (e : Encoder) (up : Bool) (fast : Bool) (now : Nat) : Encoder :=
  let ivs := match e.lastAt with
    | some l => if fast then ((now - l) :: e.intervals).take 4 else e.intervals
    | none => e.intervals
  { e with count := if up then e.count + 1 else e.count - 1, dir := up, intervals := ivs,
           lastAt := if fast then some now else none,
           tickCounts := match e.tickCounts with
             | n :: ns => (n + 1) :: ns
             | [] => [1] }

/-- A product in flight on the channel still has columns to fire (R67, R277). -/
def State.paused (s : State) (n : Fin 8) : Bool :=
  allHeads.any fun h => (s.heads[h]).products.any fun p => !p.done && p.jdef.encoder == n

/-- Free-run jobs of the channel that wait for their first count take it (R70). -/
def freeRunTake (n : Fin 8) (s : State) : State :=
  allHeads.foldl (fun s h => match s.jobOf h with
    | some j =>
      if j.encoder = n ∧ (s.heads[h]).freeRunWait then
        s.modHead h fun x => { x with freeRunWait := false, freeRunC0 := some (s.aon.enc[n]).count }
      else s
    | none => s) s

/-! ### Instants of a column (R74, R75) -/

/-- The instant of a column's fire as the counts stand, worked out when the column is taken up and at every count (R75): from the
measured arrival of count c, else from the take-up, by f * T_est; without a rate only the count itself is an instant. A count c + 1
that comes first gives an instant within 2 FCK cycles of it (log 10). -/
def retime (d : DueFire) (s : State) : DueFire × State :=
  let e := s.aon.enc[d.chan]
  let now := s.aon.fck
  let c := d.pos / 65536
  let f := d.pos % 65536
  let seen := countDiff e.count d.c0
  if seen < c then ({ d with nominal := none }, s)
  else if seen = c then
    let t : Nat := if c = 0 then d.take else e.lastAt.getD d.take
    let n : Option Int := if f = 0 then some (8 * t)
      else e.test.map fun r => 8 * t + divRound (f * r.1 * 8) (65536 * r.2)
    ({ d with nominal := n, earliest := max d.earliest t }, s)
  else if (match d.nominal with | some n => decide (n ≤ 8 * (now : Int)) | none => false) then (d, s)
  else
    let (w, s) := s.drawWord
    ({ d with nominal := some ((8 * now + w.toNat % 17 : Nat) : Int), earliest := max d.earliest now }, s)

/-- The fires and the column of a head that follow channel `n` are worked out again. -/
def retimeHead (n : Fin 8) (h : HeadId) (s : State) : State :=
  match (s.heads[h]).hdef, (s.heads[h]).column with
  | some hd, some c =>
    if c.chan = n then
      let r := retime c s
      hd.reach.foldl (fun s t => match (s.tiles[t]).trowel.due with
        | some d =>
          if d.by_ == .column && d.head == h then
            let r := retime d s
            r.2.modTrowel t fun w => { w with due := some r.1 }
          else s
        | none => s) (r.2.modHead h fun x => { x with column := some r.1 })
    else s
  | _, _ => s

def retimes (n : Fin 8) (s : State) : State := allHeads.foldl (fun s h => retimeHead n h s) s

/-- The generators take their columns up again once fast clocks run: counts that came while they were stopped were not measured
(R75). -/
def retake (s : State) : State :=
  let now := s.aon.fck
  let again := fun d : DueFire => if d.by_ == .column && d.nominal.isNone then { d with take := now } else d
  let s := allHeads.foldl (fun s h => match (s.heads[h]).hdef with
    | some hd =>
      if (s.heads[h]).column.isSome then
        hd.reach.foldl (fun s t => s.modTrowel t fun w => { w with due := w.due.map again })
          (s.modHead h fun x => { x with column := x.column.map again })
      else s
    | none => s) s
  (List.finRange 8).foldl (fun s n => retimes n s) s

/-- ENCODER_TRANSITION: a held transition of the inputs. -/
def execEncoderTransition (n : Fin 8) (a b : Bool) (gapNs : Nat) (s : State) : Result :=
  .next (if !s.aon.up then s
    else
      let e := s.aon.enc[n]
      let s' := s.modEnc n fun e => { e with lvlA := a, lvlB := b }
      match e.transition a b with
      | none => s'
      | some none => s'.modEnc n fun e => { e.alarm with illegal := satInc e.illegal }
      | some (some up) =>
        let up := up != e.cfg.getLsbD 27
        let fast := s.fastOn
        let now := s.aon.fck
        let s := s'.modEnc n fun e => (if gapNs < 40 then e.alarm else e.legal).counted up fast now
        let s := retimes n (freeRunTake n s)
        let s := if s.paused n then wake 8 s else s
        let s := if e.dir != up then launches (lineLaunches s (153 + n.val) up) s else s
        let s := launches (lineLaunches s (145 + n.val) true) s
        launches (lineLaunches s (145 + n.val) false) s)

end Sys2Proof.Machine
end

