-- ==== Sys2Proof/Machine/Select.lean ====
section
/-!
DEFINITION. The select ports on the wire (R56 to R58, R60): lanes and their bits, CK and LT bit time by bit time, idle levels, and
the comparison of the echo.
-/
namespace Sys2Proof.Machine

open Sys2Proof

/-! ### Data bits (R57) -/

/-- The `b` bits of a code, msb first. -/
def codeBits (b c : Nat) : List Bool := (List.range b).map fun i => c.testBit (b - 1 - i)

/-- F, the bits that every lane sends. -/
def HeadDef.dataBits (hd : HeadDef) (p : PanelId) : Nat := ceilDiv (hd.slots p) hd.lanes * hd.selBits

/-- Lane `k` carries slots k, k + L, k + 2L and so on; a lane with fewer slots sends zero bits first. -/
def HeadDef.laneBits (hd : HeadDef) (p : PanelId) (codes : List Nat) (k : Nat) : List Bool :=
  let slots := (List.range (hd.slots p)).filter fun i => i % hd.lanes == k
  let bits := slots.flatMap fun i => codeBits hd.selBits (codes.getD i 0)
  List.replicate (hd.dataBits p - bits.length) false ++ bits

/-! ### Levels (R56, R58) -/

/-- The lines of a port: CK at bit 0, lanes D0 to D7 at bits 1 to 8, LT at bit 9, after the inversions of the head. Lanes beyond
LANES stay low. -/
def HeadDef.lineWord (hd : HeadDef) (ck : Bool) (lane : Nat → Bool) (lt : Bool) : BitVec 10 :=
  let d := (List.range 8).map fun k => if k < hd.lanes then lane k != hd.dInvert.getLsbD k else false
  let bits := ((ck != hd.ctlInvert.getLsbD 0) :: d) ++ [lt != hd.ctlInvert.getLsbD 1]
  BitVec.ofNat 10 (bits.foldr (fun b n => b.toNat + 2 * n) 0)

/-- The idle levels of a port that a head owns, and of one that none owns. -/
def HeadDef.idleLine (hd : HeadDef) : BitVec 10 := hd.lineWord false (fun _ => false) false
def State.idleLine (s : State) (p : PanelId) : BitVec 10 :=
  match allHeads.find? fun h => match s.heads[h].hdef with
    | some d => d.usesPort p
    | none => false with
  | some h => ((s.heads[h].hdef).map HeadDef.idleLine).getD 0
  | none => 0

/-- Bit times before LT rises: data, echo delay where the echo is in use, latch setup. -/
def HeadDef.echoBits (hd : HeadDef) : Nat := if hd.echoEn then hd.echoDelay else 0
def HeadDef.riseBits (hd : HeadDef) (p : PanelId) : Nat := hd.dataBits p + hd.echoBits + hd.latchSetup

/-- The lines in each bit time of a frame. CK is shown by its level after the edge at the bit's centre: in burst mode it toggles
through the last data or echo bit, else through the whole frame. `lt`: LT is not withheld. -/
def HeadDef.frameLines (hd : HeadDef) (p : PanelId) (codes : List Nat) (lt : Bool) : List (BitVec 10) :=
  let lanes := (List.range hd.lanes).map (hd.laneBits p codes)
  let toggles := hd.dataBits p + hd.echoBits
  (List.range (hd.riseBits p + hd.latchWidth)).map fun i =>
    hd.lineWord (i % 2 == 0 && (hd.ckCont || decide (i < toggles))) (fun k => (lanes.getD k []).getD i false)
      (lt && decide (hd.riseBits p ≤ i))

/-! ### The echo (R60) -/

/-- The XOR of the lanes in each data bit. -/
def HeadDef.xorBits (hd : HeadDef) (p : PanelId) (codes : List Nat) : List Bool :=
  (List.range (hd.dataBits p)).map fun i =>
    (List.range hd.lanes).foldl (fun b k => b != (hd.laneBits p codes k).getD i false) false

/-- The level of a line that starts low and changes at each of the given instants. -/
def levelAt (changes : List Nat) (t : Nat) : Bool := (changes.filter fun c => decide (c ≤ t)).length % 2 == 1

/-- When the module samples EC for bit `j`: the CK edge at bit time j + ED, delayed by ECHO_PHASE; in vernier steps from the
frame's first bit. -/
def HeadDef.echoTime (hd : HeadDef) (onQck : Bool) (j : Nat) : Nat :=
  (2 * (j + hd.echoDelay) + 1) * 4 * hd.bitFck onQck + hd.echoPhase

/-- The echo matches what was sent, where it is in use; `ec`: the instants at which EC changed. -/
def HeadDef.echoMatches (hd : HeadDef) (p : PanelId) (onQck : Bool) (codes : List Nat) (ec : List Nat) : Bool :=
  !hd.echoEn || (withIndex (hd.xorBits p codes)).all fun z =>
    (levelAt ec (hd.echoTime onQck z.1) != hd.ctlInvert.getLsbD 2) == z.2

end Sys2Proof.Machine
end

