-- ==== Sys2Proof/Machine/Stroke.lean ====
section
/-!
DEFINITION. Strokes: the columns of a product (R50 to R55, R75 to R78, R102, R105), select frames (R57 to R61), fires (R75, R79 to
R82, R88, R91, R93, R96) and how a head settles after each. A column is taken up at its stroke boundary, its frames shift and
latch, and each group fires at the instant that R75 to R80 give it.
-/
namespace Sys2Proof.Machine

open Sys2Proof

/-- Product number of a fire outside products (R119). -/
def noProduct : Word := 0xFFFFFFFF#32

/-! ### A column's codes -/

/-- Codes of image column `c` as merged, before the stitch mask: none where they have not arrived (R299). -/
def Product.column (p : Product) (c : Nat) : Option (List Nat) :=
  match p.raster with
  | .merged cols => cols[c]?
  | .host _ _ cols _ => cols[c]?
  | .awaited => none

/-- A late or failed column goes out as code 0; its dots still count in D (R53, R299). -/
def lateColumn (h : HeadId) (hd : HeadDef) (p : Product) (s : State) : State :=
  match p.raster with
  | .host a n _ failed =>
    let lost := ((s.stitchMask h (s.hostColumn hd a p.col)).filter (· != 0)).length
    let s := if failed then s else s.modPq n fun q => { q with late := q.late + 1 }
    modProduct h p.seq (fun p => { p with dots := p.dots + lost }) s
  | _ => s

/-- The snapshot of the head's nozzle status: the words of the map are read, and a host write has had its precedence (R51, R112,
R309). -/
def readStats (h : HeadId) (hd : HeadDef) (s : State) : State :=
  let s := s.modHead h fun x => { x with stats := x.stats.map fun y => { y with byHost := false } }
  (s.mem.errs.filter fun e => e.loc.region == 11 &&
    (List.range (ceilDiv hd.n 4)).any fun k => e.loc.word == Config.statWord h.val k).foldl
      (fun s e => (checkReadBy false e.loc s).2.2) s

/-- Word of a panel's line buffer that holds a slot of an image column: 256 columns of 1,024 slots of 4 bits (R54). -/
def lineWord (p : PanelId) (c slot : Nat) : Loc := ⟨12, p.val, 64 * (c % 256) + slot / 16⟩

/-- A mapped column is written into the line buffers. -/
def writeLines (hd : HeadDef) (c : Nat) (s : State) : State :=
  hd.portList.foldl (fun s p =>
    ((List.range (hd.slots p)).filter (· % 16 == 0)).foldl (fun s k => checkWrite (lineWord p c k) 0 8 s) s) s

/-- The mapping of the product's next image column (R50 to R53, R63): D, the cells, the checksum, COMPENSATED. It uses the settings
and the nozzle map of the present, also for a product detected before they changed (DESIGN CHOICE, log 70). -/
def mapNext (h : HeadId) (hd : HeadDef) (p : Product) (s : State) : State :=
  if p.jdef.columns ≤ p.col then s
  else
    let s := readStats h hd s
    let (codes, s) := match p.column p.col with
      | some c => (s.stitchMask h c, s)
      | none => (List.replicate hd.n 0, lateColumn h hd p s)
    let cells := mapColumn hd (s.heads[h]).comp (!p.compens) (s.outNozzle h) codes
    let d := (codes.filter (· != 0)).length
    let rec_ := columnRecord hd.selBits (cells.map (·.code))
    writeLines hd p.col (modProduct h p.seq (fun p =>
      { p with dots := p.dots + d, mapped := cells :: p.mapped, crc := crcFold p.crc rec_,
               compensated := p.compensated || cellsHelp cells }) s)

/-- The cell of a nozzle in stroke column `k`: that of image column k - D_r (R54). -/
def Product.cellAt (p : Product) (k : Nat) (i : Nat) (z : Nozzle) : Cell :=
  let dr := (p.row z.row).1
  let n := p.mapped.length
  if dr ≤ k ∧ k - dr < n then (p.mapped.getD (n - 1 - (k - dr)) []).getD i ⟨0, 0, 0⟩ else ⟨0, 0, 0⟩

/-- Words of the line buffers that the FIRE frames of stroke column `k` read and that hold an error. -/
def State.lineErrs (s : State) (hd : HeadDef) (p : Product) (k : Nat) : List WordErr :=
  s.mem.errs.filter fun e => e.loc.region == 12 && hd.nozzles.any fun z =>
    let dr := (p.row z.row).1
    decide (dr ≤ k) && decide (lineWord z.port (k - dr) z.slot = e.loc)

/-- The parity of a line-buffer word fails (R55). -/
def WordErr.parityFails (e : WordErr) : Bool := e.poison || lightFails e.flips

/-- A LINE_PARITY entry: the port, the image column modulo the buffer's 256 columns, the word's first slot. -/
def logLine (cls : LClass) (e : WordErr) (s : State) : State :=
  log cls 0x0F (unitSrc 2 e.loc.unit) (arg e.loc.unit) (arg (e.loc.word / 64)) (arg (16 * (e.loc.word % 64))) s

/-- The words are read for the frames (R55): where the parity fails the mapper recomputes the column once, and the second read
passes or fails (log 11); flips that the parity does not see stay. Answers the words that are lost. -/
def readLines (es : List WordErr) (s : State) : List Loc × State :=
  (es.filter WordErr.parityFails).foldl (fun (a : List Loc × State) e =>
    let (again, s) := a.2.drawBit
    if again then (a.1, (logLine .transient e s).dropErr e.loc)
    else (e.loc :: a.1, (logLine .lasting e s).dropErr e.loc)) ([], s)

/-- The cells that the FIRE frames carry, in nozzle order: a lost word's slots are code 0 and their dots are lost. -/
def strokeCells (hd : HeadDef) (p : Product) (k : Nat) (s : State) : List Cell × State :=
  let es := s.lineErrs hd p k
  let r := readLines es s
  ((withIndex hd.nozzles).map fun z =>
    let dr := (p.row z.2.row).1
    let loc := lineWord z.2.port (k - dr) z.2.slot
    let c := p.cellAt k z.1 z.2
    if k < dr then c
    else if r.1.contains loc then ⟨0, 0, 0⟩
    else match es.find? fun e => e.loc == loc && !e.parityFails with
      | some e => { c with code := (c.code ^^^ ((e.flips >>> (4 * (z.2.slot % 16))).toNat % 16)) % 2 ^ hd.selBits }
      | none => c, r.2)

/-! ### Frames and fires of a stroke -/

/-- Codes of a port's slots from codes in nozzle order (R57). -/
def portCodes (hd : HeadDef) (p : PanelId) (codes : List Nat) : List Nat :=
  (withIndex hd.nozzles).foldl (fun l z => if z.2.port = p then l.set z.2.slot (codes.getD z.1 0) else l)
    (List.replicate (hd.slots p) 0)

/-- What a stroke asks of one tile: the nozzles that fire, and the one to listen to. -/
structure GroupFire where
  tile : TileId
  fires : List Nat
  listen : Option Nat
  deriving DecidableEq, Repr

/-- Mean nozzle trim, halves rounded away from zero (R78). -/
def State.groupTrim (s : State) (h : HeadId) (fires : List Nat) : Int :=
  if fires.isEmpty then 0 else divRound ((fires.map fun n => s.skim0 0x10 (headSub h) n).sum) fires.length

/-- The tile whose trowel drives the group's pin: the partner in takeover (R98). -/
def State.driver (s : State) (t : TileId) : TileId := if (s.tiles[t]).trowel.taken then partner t else t

/-- A fire carries its cells: their number, dots and weights (R53). -/
def DueFire.carrying (d : DueFire) (cells : List (Nat × Cell)) : DueFire :=
  { d with cells, nFired := cells.length, dots := (cells.map (·.2.dots)).sum, weight := (cells.map (·.2.weight)).sum }

/-- The fire of a stroke on the tiles that share a trowel: own group, and the taken group in takeover; its listen nozzle is
that of the own group on even fires and of the taken group on odd ones (R98). `base`: what the groups' fires have in common;
`rem`: the remainder of a tile's row. -/
def dueOf (base : DueFire) (rem : TileId → Int) (cells : List Cell) (gs : List GroupFire) (t : TileId) (s : State) :
    Option DueFire :=
  let mine := gs.filter fun (g : GroupFire) => s.driver g.tile == t
  let fires := mine.flatMap (·.fires)
  if fires.isEmpty then none
  else
    let even := (s.tiles[t]).trowel.evenFire
    let turn := if (s.tiles[t]).trowel.buddyAct then mine.find? fun g => (g.tile == t) == even else mine.head?
    some ({ base with
      listen := turn.bind (·.listen), trim := s.groupTrim base.head fires
      pos := base.pos + rem (((mine.head?.map fun (g : GroupFire) => g.tile).getD t)) }.carrying (fires.map fun n => (n, cells.getD n ⟨0, 0, 0⟩)))

/-- Cycles of two bit times, which LT stays low before the next frame (R58). -/
def HeadDef.ltGap (hd : HeadDef) (onQck : Bool) : Nat := 2 * hd.bitFck onQck

/-- The next frame of the port starts as soon as LT has been low for two bit times (R58, R62). -/
def startFrame (hd : HeadDef) (p : PanelId) (s : State) : State :=
  let pre := s.prelock
  let now := s.aon.fck
  s.modPanel p fun x => { x with frames := match x.frames with
    | f :: r => { f with start := max now (x.ltLow + hd.ltGap pre), onQck := pre } :: r
    | [] => [] }

/-- A frame joins the port's frames; the first starts at once. -/
def queueFrame (hd : HeadDef) (p : PanelId) (f : Frame) (s : State) : State :=
  let idle := (s.panels[p]).frames.isEmpty
  let s := s.modPanel p fun x => { x with frames := x.frames ++ [f] }
  if idle then startFrame hd p s else s

/-- A stroke: a FIRE frame on every port of the head, and the groups' fires. -/
def stroke (base : DueFire) (rem : TileId → Int) (hd : HeadDef) (cells : List Cell) (gs : List GroupFire) (s : State) :
    State :=
  let s := hd.portList.foldl (fun s p => queueFrame hd p
    { fire := true, head := base.head, seq := base.seq, col := base.col, codes := portCodes hd p (cells.map (·.code)) } s) s
  ((gs.map fun (g : GroupFire) => s.driver g.tile).eraseDups).foldl (fun s t =>
    match dueOf base rem cells gs t s with
    | some d =>
      let r := if d.by_ = .column then retime d s else (d, s)
      r.2.modTrowel t fun w => { w with due := some r.1 }
    | none => s.modTrowel t fun w => { w with due := none }) s

/-! ### Listen nozzles (R102) -/

def Head.pointer (x : Head) (t : TileId) : Nat :=
  match x.pointers.find? fun p => p.1 == t with
  | some p => p.2
  | none => 0

/-- Every group's pointer moves on at a column of the head. -/
def advancePointers (h : HeadId) (hd : HeadDef) (s : State) : State :=
  s.modHead h fun x => { x with pointers := hd.tiles.map fun t => (t, (x.pointer t + 1) % max 1 (hd.group t).length) }

def Head.pendingRetry (x : Head) (n : Nat) : Bool :=
  match x.stats[n]? with
  | some st => st.pending
  | none => false

/-- The designated nozzle of a group, if it fires: a retry, the lower index first, or the pointer's (R102, R122). -/
def State.designate (s : State) (h : HeadId) (hd : HeadDef) (t : TileId) (fires : List Nat) : Option Nat :=
  let x := s.heads[h]
  let mode := (s.tiles[t]).trowel.modeField
  if !(s.panels[panelOf t]).listen.getLsbD 1 || (mode != 1 && mode != 2) then none
  else match fires.find? x.pendingRetry with
    | some n => some n
    | none => ((hd.group t)[x.pointer t]?).filter fires.contains

/-! ### How a head settles -/

/-- A group of the head has a fire due. -/
def State.strokeDue (s : State) (h : HeadId) (hd : HeadDef) : Bool :=
  hd.reach.any fun t => match (s.tiles[t]).trowel.due with
    | some d => d.isOf h
    | none => false

/-- The trowel has nothing in hand for the head. -/
def State.atRest (s : State) (h : HeadId) (t : TileId) : Bool :=
  let w := (s.tiles[t]).trowel
  let mine := fun d : Option DueFire => match d with
    | some d => d.isOf h
    | none => false
  !mine w.due && !mine w.current && match w.listen with
    | some l => l.head != h
    | none => true

/-- The column last taken up is over: its instant has come, and no group of it is still due (R75). -/
def State.columnOver (s : State) (h : HeadId) (hd : HeadDef) : Bool :=
  !s.strokeDue h hd && match (s.heads[h]).column with
    | some c => match c.nominal with
      | some n => decide (n ≤ 8 * (s.aon.fck : Int) + 7)
      | none => false
    | none => true

/-- A FIRE frame of the head is still on one of its ports. -/
def State.firing (s : State) (h : HeadId) (hd : HeadDef) : Bool :=
  hd.portList.any fun p => (s.panels[p]).frames.any fun f => f.fire && f.head == h

/-- A product whose last column has fired is done; where it is a product of the armed free-run job, the next starts from the count
there (R30, R70). One that has been stopped without printing has no last column, and no product follows it (DESIGN CHOICE,
log 70). -/
def columnsDone (h : HeadId) (hd : HeadDef) (s : State) : State :=
  match (s.heads[h]).products.find? fun p => !p.done with
  | some p =>
    if p.col = p.strokes ∧ s.columnOver h hd ∧ !s.firing h hd then
      let s := (modProduct h p.seq (fun p => { p with done := true }) s).modHead h fun x => { x with column := none }
      match s.jobOf h with
      | some j =>
        if j.freeRun && (s.heads[h]).armed == some p.job && !(s.heads[h]).freeRunWait && (s.heads[h]).disarm.isEmpty then
          s.modHead h fun x => { x with freeRunC0 := some (s.aon.enc[j.encoder]).count }
        else s
      | none => s
    else s
  | none => s

/-- A SPIT or pass whose nozzles have all been visited and heard completes (R116, R117). -/
def passDone (h : HeadId) (hd : HeadDef) (s : State) : State :=
  match (s.heads[h]).pass with
  | some p =>
    if p.left.isEmpty && p.again.isEmpty && hd.reach.all (s.atRest h) then
      let bad := (p.results.filter fun r => r.2 != 0 && r.2 != 7).length
      let s := s.modHead h fun x => { x with pass := none }
      match p.desc with
      | some d => okay (if p.spit then 0x49 else 0x52) d (bad % 65536) s
      | none => s
    else s
  | none => s

def headSettle (h : HeadId) (s : State) : State :=
  match (s.heads[h]).hdef with
  | some hd => calSettle (passDone h hd (columnsDone h hd s))
  | none => s

/-! ### COLUMN_STROKE_BOUNDARY -/

def countOverspeed (p : PanelId) (s : State) : State := s.modPanel p fun x => { x with overspeed := x.overspeed + 1 }

/-- What the fires of a product's column have in common: where the column lies, when the generator took it up, which clock ran. -/
def Product.columnFire (p : Product) (h : HeadId) (k : Nat) (s : State) : DueFire :=
  { head := h, seq := p.seq, col := k, by_ := .column, nFired := 0, latched := false, listen := none, chan := p.jdef.encoder,
    c0 := p.c0, pos := p.jdef.pos k, take := s.aon.fck, earliest := s.aon.fck, onQck := s.prelock }

/-- The product's stroke column is taken up, and placed or skipped under R105. -/
def strokeColumn (h : HeadId) (hd : HeadDef) (p : Product) (s : State) : State :=
  let s := mapNext h hd p s
  match s.product h p.seq with
  | none => s
  | some p =>
    let k := p.col
    let steal := (s.heads[h]).stealNext
    let since := (s.heads[h]).colsSinceSteal
    let base := p.columnFire h k s
    let unreliable := (s.aon.enc[p.jdef.encoder]).ovsNow && !steal
    let pre := s.prelock
    let s := modProduct h p.seq (fun p =>
      { p with col := k + 1, started := true, unreliable := p.unreliable || unreliable, prelock := p.prelock || pre }) s
    let r := retime base s
    let s := r.2.modHead h fun x =>
      { x with column := some r.1, stealNext := false, colsSinceSteal := if steal then some 0 else since.map (· + 1) }
    let s :=
      if steal then s
      else
        let c := strokeCells hd p k s
        let s := c.2
        let gs := hd.tiles.map fun t =>
          let fires := (hd.group t).filter fun n => (c.1.getD n ⟨0, 0, 0⟩).code != 0
          (⟨t, fires, s.designate h hd t fires⟩ : GroupFire)
        stroke base (fun t => (p.row (hd.rowOf t)).2) hd c.1 gs s
    advancePointers h hd (hd.each (fun t s => strokeEdge t s) s)

/-- The product whose column is next. -/
def Head.printing (x : Head) : Option Product := x.products.find? fun p => !p.done

/-- The encoder has reached column `k`, as T_est tells the fraction (R73 to R75). -/
def State.columnCame (s : State) (p : Product) (k : Nat) : Bool :=
  let e := s.aon.enc[p.jdef.encoder]
  let pos := p.jdef.pos k
  let seen := countDiff e.count p.c0
  let c : Int := (pos / 65536 : Nat)
  decide (c < seen) || (decide (c = seen) && match s.cyclesTo e p.c0 (pos : Nat) with
    | some x => decide (x ≤ 0)
    | none => pos % 65536 == 0)

/-- The stroke boundary of column `k`: the predicted t_k less L (R76); without a rate, the arrival of count c. -/
def State.boundaryCame (s : State) (h : HeadId) (p : Product) (k : Nat) : Bool :=
  let e := s.aon.enc[p.jdef.encoder]
  match s.cyclesTo e p.c0 ((p.jdef.pos k : Nat) : Int) with
  | some x => decide (x ≤ ((s.heads[h]).lead : Nat))
  | none => decide (((p.jdef.pos k / 65536 : Nat) : Int) ≤ countDiff e.count p.c0)

/-- A column whose FIRE frame has not latched when the next is due is skipped: none of its groups fire, and the ports that held
the frame count an OVERSPEED (R59, R76, log 67). -/
def skipColumn (h : HeadId) (hd : HeadDef) (s : State) : State :=
  let s := hd.reach.foldl (fun s t => match (s.tiles[t]).trowel.due with
    | some d => if d.isOf h then s.modTrowel t fun w => { w with due := none } else s
    | none => s) s
  hd.portList.foldl (fun s p =>
    if (s.panels[p]).frames.any fun f => f.fire && f.head == h then
      startFrame hd p (countOverspeed p (s.modPanel p fun x =>
        { x with frames := x.frames.filter fun f => !(f.fire && f.head == h) }))
    else s) s

/-- A later product whose column 0 comes while an earlier one, on another encoder channel, still has columns to go is not printed
(R46). -/
def overtaken (h : HeadId) (p : Product) (s : State) : State :=
  s.modHead h fun x => { x with products := x.products.map fun q =>
    if !q.done && !q.started && q.seq != p.seq && q.jdef.encoder != p.jdef.encoder && s.columnCame q 0 then q.stop .collision
    else q }

/-- COLUMN_STROKE_BOUNDARY: the head's next column is taken up once the one before has fired or been skipped and the boundary has
come (R75, R76); a changeover that is due takes place there (R14). -/
def execColumnStrokeBoundary (h : HeadId) (s : State) : Result :=
  .next (match (s.heads[h]).hdef, (s.heads[h]).printing with
    | some hd, some p =>
      if !s.fastOn || !s.pwr.mode.up then s
      else
        let s := overtaken h p s
        if p.strokes ≤ p.col then headSettle h s
        else
          let late := s.firing h hd && s.columnCame p p.col
          if !late && (s.firing h hd || !s.columnOver h hd || !s.boundaryCame h p p.col) then s
          else if p.col = 0 ∧ !p.started ∧ !p.rendered then headSettle h (modProduct h p.seq (·.stop .lateRender) s)
          else if p.col = 0 ∧ !p.started ∧ p.raster = .awaited then headSettle h (modProduct h p.seq (·.stop .noRaster) s)
          else
            let s := changeover s
            headSettle h (strokeColumn h hd p (if late then skipColumn h hd s else s))
    | _, _ => s)


/-! ### SELECT_FRAME_LATCH (R58 to R61) -/

/-- Tiles of a port of the frame's head. -/
def frameTiles (hd : HeadDef) (p : PanelId) : List TileId := hd.reach.filter fun t => panelOf t == p

/-- The fire belongs to the frame. -/
def Frame.matches (f : Frame) (d : DueFire) : Bool := d.head == f.head && d.seq == f.seq && d.col == f.col

/-- Trowels of the port, those that play for a partner's group included, whose due fire belongs to the frame. -/
def State.frameDues (s : State) (hd : HeadDef) (p : PanelId) (f : Frame) : List TileId :=
  (frameTiles hd p).filter fun t =>
    match (s.tiles[t]).trowel.due with
    | some d => d.isOf f.head && f.matches d
    | none => false

/-- T_LF in FCK cycles. -/
def HeadDef.settle (hd : HeadDef) : Nat := ceilDiv (hd.tLf * 6) 5

/-- Cycles of LT's high time, and of a whole frame (R58). -/
def Frame.ltHigh (f : Frame) (hd : HeadDef) : Nat := hd.latchWidth * hd.bitFck f.onQck
def Frame.length (f : Frame) (hd : HeadDef) (p : PanelId) : Nat := hd.riseBits p * hd.bitFck f.onQck + f.ltHigh hd

/-- FCK count at which LT would fall if nothing but the frame's own bits held it. -/
def Frame.soonest (f : Frame) (hd : HeadDef) (p : PanelId) : Nat := f.start + f.length hd p

/-- The port still has to wait for a tile before a frame may latch: a FIRE frame for an open listen window, a LISTEN frame for the
fires and waveforms of its column (R59). -/
def State.ltHeld (s : State) (hd : HeadDef) (p : PanelId) (f : Frame) : Bool :=
  (frameTiles hd p).any fun t =>
    let w := (s.tiles[t]).trowel
    let mine := fun d : Option DueFire => match d with
      | some d => d.isOf f.head && f.matches d
      | none => false
    if f.fire then w.play == .listening || w.listen.any fun l => !l.closed else mine w.due || mine w.current

/-- FCK count at which LT falls (R59): a FIRE frame's LT rises no sooner than the windows of the port have closed, a LISTEN frame's
falls at listen start, the latest of the port's groups (log 67). -/
def State.ltFall (s : State) (hd : HeadDef) (p : PanelId) (f : Frame) : Nat :=
  (frameTiles hd p).foldl (fun m t =>
    let w := (s.tiles[t]).trowel
    if f.fire then max m (w.closedAt + f.ltHigh hd)
    else match w.listen with
      | some l => if l.head = f.head ∧ l.seq = f.seq then max m w.listenAt else m
      | none => m) (f.soonest hd p)

/-- The LISTEN frame of a column: LISTEN_CODE for each listen nozzle of the port, 0 for every other slot (R59). -/
def listenFrame (hd : HeadDef) (p : PanelId) (f : Frame) (s : State) : Frame :=
  let ns := (s.frameDues hd p f).filterMap fun t =>
    if (s.tiles[t]).trowel.modeField == 4 then none
    else match (s.tiles[t]).trowel.due with
      | some d => d.listen
      | none => none
  let codes := (List.range hd.n).map fun n => if ns.contains n then hd.listenCode else 0
  { f with fire := false, again := false, codes := portCodes hd p codes }

def logEcho (cls : LClass) (p : PanelId) (f : Frame) (s : State) : State :=
  log cls 0x0E (unitSrc 4 p.val) (arg p.val) (arg f.col) (arg (if f.fire then 0 else 1)) s

/-- A skipped listen (R104). -/
def countSkipped (t : TileId) (s : State) : State := s.modPanel (panelOf t) fun x => { x with skipped := satInc x.skipped }

/-- The fire belongs to the frame and listens. -/
def Frame.hears (f : Frame) (d : Option DueFire) : Bool :=
  match d with
  | some d => f.matches d && d.listen.isSome
  | none => false

/-- The fire without its listen, where it belongs to the frame. -/
def Frame.unheard (f : Frame) (d : Option DueFire) : Option DueFire :=
  if f.hears d then d.map fun (d : DueFire) => { d with listen := none } else d

/-- The trowel's listen belongs to the frame and its window has not closed. -/
def Frame.holds (f : Frame) (w : Trowel) : Bool :=
  match w.listen with
  | some l => l.head == f.head && l.seq == f.seq && !l.closed
  | none => false

/-- The trowel without the frame's listens; an open window closes now. -/
def Frame.silence (f : Frame) (now : Nat) (w : Trowel) : Trowel :=
  let ends : Bool := f.holds w && w.play == .listening
  { w with due := f.unheard w.due, current := f.unheard w.current, listen := if f.holds w then none else w.listen,
           closedAt := if ends then now else w.closedAt, play := if ends then .idle else w.play }

/-- The listens that a failed LISTEN frame was to hold are discarded (R61, R104). -/
def dropListens (ts : List TileId) (f : Frame) (s : State) : State :=
  let now := s.aon.fck
  ts.foldl (fun s t =>
    let w := (s.tiles[t]).trowel
    let s' := s.modTrowel t (f.silence now)
    if f.hears w.due || f.hears w.current || f.holds w then countSkipped t s' else s') s

/-- The frame leaves the port; the next one starts when LT has been low long enough. -/
def framePop (hd : HeadDef) (p : PanelId) (fall : Nat) (s : State) : State :=
  startFrame hd p (s.modPanel p fun x => { x with frames := x.frames.drop 1, ltLow := fall })

/-- The fires of a port whose due fires belong to the frame. -/
def modDues (hd : HeadDef) (p : PanelId) (f : Frame) (g : DueFire → Option DueFire) (s : State) : State :=
  (s.frameDues hd p f).foldl (fun s t => s.modTrowel t fun w => { w with due := w.due.bind g }) s

/-- LT falls: the groups of a FIRE frame may fire from T_LF on, and the LISTEN frame follows it (R59, R76). -/
def frameLatched (hd : HeadDef) (p : PanelId) (f : Frame) (fall : Nat) (s : State) : State :=
  let s := s.send (.frame p f.fire f.codes true (hd.frameLines p f.codes true))
  let next := listenFrame hd p f s
  let s := framePop hd p fall s
  if f.fire then
    queueFrame hd p next
      (modDues hd p f (fun d => some { d with latched := true, earliest := max d.earliest (fall + hd.settle) }) s)
  else s

/-- The frame goes out with LT withheld (R61). -/
def frameUnlatched (hd : HeadDef) (p : PanelId) (f : Frame) (s : State) : State :=
  s.send (.frame p f.fire f.codes false (hd.frameLines p f.codes false))

/-- LT stays low for good: a FIRE frame's groups do not fire, a LISTEN frame's samples are discarded (R61). -/
def frameLost (hd : HeadDef) (p : PanelId) (f : Frame) (s : State) : State :=
  let s := s.modPanel p fun x => { x with echoLasting := satInc x.echoLasting }
  let s := framePop hd p (s.panels[p]).ltLow (logEcho .lasting p f s)
  if f.fire then
    modProduct f.head f.seq (fun p => { p with echoFault := true }) (modDues hd p f (fun _ => none) s)
  else dropListens (frameTiles hd p) f s

/-- LT can still fall at `fall`: for a FIRE frame T_LF before every instant of its fires that is known (R61). -/
def State.roomFor (s : State) (hd : HeadDef) (p : PanelId) (f : Frame) (fall : Nat) : Bool :=
  !f.fire || (s.frameDues hd p f).all fun t => match (s.tiles[t]).trowel.due with
    | some d => match d.nominal with
      | some n => decide ((8 * (fall + hd.settle) : Nat) ≤ n + d.trim + (s.tiles[t]).trowel.phaseSteps)
      | none => true
    | none => true

/-- Words of the line buffer of the port that fail while the column shifts: their slots go out as code 0 and their dots are lost
(R55). -/
def shiftErrs (hd : HeadDef) (p : PanelId) (f : Frame) (s : State) : Frame × State :=
  match s.product f.head f.seq with
  | none => (f, s)
  | some q =>
    let bad := (s.lineErrs hd q f.col).filter fun e => e.parityFails && e.loc.unit == p.val
    if !f.fire || bad.isEmpty then (f, s)
    else
      let lost := fun z : Nozzle => z.port == p && bad.any fun e =>
        e.loc == lineWord p (f.col - (q.row z.row).1) z.slot
      let f := { f with codes := (withIndex f.codes).map fun c =>
        if hd.nozzles.any fun z => lost z && z.slot == c.1 then 0 else c.2 }
      let s := bad.foldl (fun s e => (logLine .lasting e s).dropErr e.loc) s
      let s := s.modPanel p fun x => { x with frames := match x.frames with
        | _ :: r => f :: r
        | [] => [] }
      (f, modDues hd p f (fun d =>
        let cells := d.cells.filter fun c => !(hd.nozzles[c.1]?.any lost)
        if cells.isEmpty then none else some (d.carrying cells)) s)

/-- A frame that has shifted: it latches, goes out once more, or is lost (R59 to R61). -/
def frameShifted (hd : HeadDef) (p : PanelId) (f : Frame) (ec : List Nat) (s : State) : State :=
  if hd.echoMatches p f.onQck f.codes ec then
    let fall := s.ltFall hd p f
    if s.ltHeld hd p f || decide (s.aon.fck < fall) then s
    else if !f.again then frameLatched hd p f fall s
    else if s.roomFor hd p f fall then
      frameLatched hd p f fall ((logEcho .transient p f s).modPanel p fun x =>
        { x with echoTransient := satInc x.echoTransient })
    else frameLost hd p f (frameUnlatched hd p f s)
  else
    let s := frameUnlatched hd p f s
    let again := f.soonest hd p
    if f.again || !s.roomFor hd p f (again + f.length hd p) then frameLost hd p f s
    else s.modPanel p fun x => { x with frames := match x.frames with
      | f :: r => { f with start := again, again := true } :: r
      | [] => [] }

/-- SELECT_FRAME_LATCH: the port's frame has shifted out, and its LT pulse latches it after the echo check. `ec`: the instants, in
vernier steps from the frame's first bit, at which the head changed EC. -/
def execSelectFrameLatch (p : PanelId) (ec : List Nat) (s : State) : Result :=
  .next (match (s.panels[p]).frames with
    | [] => s
    | f :: _ =>
      match (s.heads[f.head]).hdef with
      | none => s.modPanel p fun x => { x with frames := x.frames.drop 1 }
      | some hd =>
        if !s.fastOn || decide (s.aon.fck < f.soonest hd p) then s
        else
          let r := shiftErrs hd p f s
          headSettle f.head (frameShifted hd p r.1 ec r.2))

/-! ### FIRE -/

/-- A drop period in vernier steps: the longest waveform of the head's groups other than the charge group (R123). -/
def State.dropPeriod (s : State) (hd : HeadDef) (charge : TileId) : Nat :=
  (hd.tiles.filter (· != charge)).foldl (fun m t =>
    max m (64 * ((s.tiles[t]).waves[(s.tiles[t]).trowel.waveIdx]).length)) 0

/-- The fire charges a test drop of a phase search that runs: every fire of the charge group in a search that LISTEN_SWEEP asked
for, the search's own fires in tracking (R123, log 68). -/
def PhaseSearch.tests (y : PhaseSearch) (t : TileId) (d : DueFire) : Bool :=
  y.chargeTile == t && y.dropsLeft != 0 && y.charged.isNone && (d.by_ == .test || (d.by_ == .column && y.desc.isSome))

/-- What the phase search adds to a group's instant: the phase found, or the delay of the step under test (R123). -/
def State.phaseDelay (s : State) (t : TileId) (d : DueFire) : Int :=
  match (s.heads[d.head]).hdef, (s.heads[d.head]).search with
  | some hd, some y =>
    if y.tests t d then divRound (y.step * s.dropPeriod hd t) y.steps else (s.tiles[t]).trowel.phaseSteps
  | _, _ => (s.tiles[t]).trowel.phaseSteps

/-- A test drop has been charged at an FCK count; its window at the detector runs from there. -/
def phaseCharged (t : TileId) (d : DueFire) (at_ : Nat) (s : State) : State :=
  s.modHead d.head fun x => { x with search := x.search.map fun y => if y.tests t d then { y with charged := some at_ } else y }

/-- The instant of a due fire in vernier steps (R75, R76, R78, R123): the column's, its group trim and phase added, and not
before its count, nor before LT's fall and T_LF. -/
def State.fireInstant (s : State) (t : TileId) (d : DueFire) : Option Nat :=
  d.nominal.map fun n => (max (n + d.trim + s.phaseDelay t d) ((8 * d.earliest : Nat) : Int)).toNat

/-- FCK cycle and vernier tap of an instant (R79); a stroke begun on QCK is placed on a QCK cycle and uses no tap (R80). -/
def State.firePlace (s : State) (d : DueFire) (i : Nat) : Nat × Nat :=
  if d.onQck then (s.clk.qckAt + 4 * ceilDiv (ceilDiv i 8 - s.clk.qckAt) 4, 0) else (i / 8, i % 8)

/-- Why a due fire is not played. -/
inductive Withheld where
  | quiet | overspeed | mismatch | powerCap
  deriving DecidableEq, Repr

/-- The fire of the tile at FCK cycle `at_` is withheld. -/
def State.withheld (s : State) (t : TileId) (idx : Fin 16) (at_ : Nat) : Option Withheld :=
  let x := s.tiles[t]
  let mode := s.trowelMode t
  if mode = 0 ∨ mode = 3 ∨ x.trowel.off ∨ x.trowel.phase = .returning ∨ x.inhibited ∨ !(s.panels[panelOf t]).pvhOk then some .quiet
  else if !s.spacedAt t at_ then some .overspeed
  else if !s.playable t idx then some .mismatch
  else if s.overShare t then some .powerCap
  else none

/-- The fire does not happen: its dots are lost; the counter or entry its rule names (R81, R91, R95). -/
def fireLost (t : TileId) (idx : Fin 16) (hd : Option HeadDef) (why : Withheld) (s : State) : State :=
  match why with
  | .quiet => s
  | .overspeed => countOverspeed (panelOf t) s
  | .powerCap => s.modPanel (panelOf t) fun x => { x with powerCap := x.powerCap + 1 }
  | .mismatch =>
    if (s.tiles[t]).trowel.armedWarned then s
    else
      let ts := match hd with
        | some hd => hd.tiles
        | none => [t]
      log .info 0x18 (srcTile t) (arg t.val) (arg idx.val) 0
        (ts.foldl (fun s u => s.modTrowel u fun w => { w with armedWarned := true }) s)

/-- The trowel plays the fire: onto both pins in takeover (R98). -/
def fireNow (t : TileId) (idx : Fin 16) (place : Nat × Nat) (d : DueFire) (hd : Option HeadDef) (s : State) : State :=
  let s := match hd with
    | some hd => clipCheck hd.tiles s
    | none => s
  let s := s.modTrowel t fun w =>
    { w with current := some d, lastCol := if hd.isSome then some (d.seq, d.col) else w.lastCol,
             phase := if w.phase = .awaiting then .second else w.phase, evenFire := !w.evenFire }
  let s := s.send (.fire t t idx.val place.1 place.2)
  let s := if (s.tiles[t]).trowel.buddyAct then s.send (.fire (partner t) t idx.val place.1 place.2) else s
  startPlay t idx.val place.1 place.2 s

/-- A fire that is due is played at its place or lost; the waveform is read from the keep region (R91, R309). -/
def playDue (t : TileId) (d : DueFire) (hd : Option HeadDef) (place : Nat × Nat) (s : State) : State :=
  let idx := d.wave.getD (s.tiles[t]).trowel.waveIdx
  let s := phaseCharged t d place.1 (s.modTrowel t fun w => { w with due := none })
  match s.withheld t idx place.1 with
  | some why => fireLost t idx hd why s
  | none =>
    let r := keepRead t s
    if r.1 then fireNow t idx place d hd r.2 else r.2

/-- A FIRE frame of the fire's column is still on a port of its head: the column may yet be skipped (R59). -/
def State.columnWaits (s : State) (hd : HeadDef) (d : DueFire) : Bool :=
  hd.portList.any fun p => (s.panels[p]).frames.any fun f => f.fire && f.matches d

/-- FIRE: the instant of the tile's due fire. A play asked for by an engine or a stage starts at vernier tap 0 (R198). -/
def execFire (t : TileId) (s : State) : Result :=
  .next (match (s.tiles[t]).trowel.due with
    | none => s
    | some d =>
      if !s.fastOn then s
      else match d.by_ with
        | .dacs | .armDacs | .stage => playDue t d none (s.aon.fck, 0) s
        | _ =>
          match (s.heads[d.head]).hdef with
          | none => s.modTrowel t fun w => { w with due := none }
          | some hd =>
            if s.columnWaits hd d then s
            else if !d.latched then headSettle d.head (s.modTrowel t fun w => { w with due := none })
            else match s.fireInstant t d with
              | none => s
              | some i =>
                let place := s.firePlace d i
                if s.aon.fck < place.1 then s else headSettle d.head (playDue t d (some hd) place s))

end Sys2Proof.Machine
end

