-- ==== Sys2Proof/Machine/Listen.lean ====
section
/-!
DEFINITION. Listening to nozzles (R100 to R123): the group monitor, listen windows, the classifier and its retry rule, SPIT, sweeps and
phase searches, and the trowel's protection (R92, R96, R97).
-/
namespace Sys2Proof.Machine

open Sys2Proof

/-! ### Records (R119) -/

/-- What a listen record carries. -/
structure ListenRec where
  time : BitVec 48
  head : HeadId
  kind : Nat
  nozzle : Nat
  tile : TileId
  cls : Nat
  flags : Nat := 0
  window : Nat := 0
  fr : Nat := 0
  tau : Nat := 0
  a1 : Nat := 0
  vOff : Int := 0
  q : Nat := 0
  seq : Word
  trace : List (BitVec 14) := []
  deriving DecidableEq, Repr

def ListenRec.bytes (r : ListenRec) : List Byte :=
  let tr := if r.flags.testBit 3 then padTo 4 (r.trace.flatMap fun c => natLe 2 c.toNat) else []
  natLe 6 r.time.toNat ++ natLe 1 r.head.val ++ natLe 1 r.kind ++ natLe 2 r.nozzle ++ natLe 2 r.tile.val ++
    natLe 1 r.cls ++ natLe 1 r.flags ++ natLe 2 r.window ++ natLe 2 (min 65535 r.fr) ++ natLe 2 (min 65535 r.tau) ++
    natLe 2 (min 65535 r.a1) ++ intLe 2 (max (-32768) (min 32767 r.vOff)) ++ natLe 4 r.q ++ u32 r.seq ++ tr

def emitListen (r : ListenRec) (s : State) : State := (emitStaged (.listen r.head) 3 r.bytes s).2

/-! ### Nozzle status (R110, R111) -/

def modStat (h : HeadId) (n : Nat) (f : NozzleStat → NozzleStat) (s : State) : State :=
  s.modHead h fun x => { x with stats := x.stats.modify n f }

def logNozzle (cls : LClass) (h : HeadId) (n first second : Nat) (s : State) : State :=
  log cls 0x10 (srcHead h) (arg n) (arg first) (arg second) s

/-- A class under the retry rule: the record's TRANSIENT and LASTING flags, and whether a second attempt is now due. A host write
since the last snapshot has precedence over the class (R112). -/
def retryRule (h : HeadId) (n c : Nat) (p : PanelId) (s : State) : Nat × Bool × State :=
  let st := (s.heads[h]).stats.getD n {}
  let last := BitVec.ofNat 3 c
  if st.byHost then (0, false, s)
  else if 2 ≤ st.status.toNat then (0, false, purgeCheck p (modStat h n (fun x => { x with last }) s))
  else if st.pending then
    if c = 0 then
      (2, false, logNozzle .transient h n st.last.toNat c
        (modStat h n (fun x => { x with last, pending := false, transients := satInc x.transients }) s))
    else
      let weak := c == 1 && !(s.panels[p]).listen.getLsbD 2
      (4, false, purgeCheck p (logNozzle .lasting h n st.last.toNat c
        (modStat h n (fun x => { x with last, pending := false, status := if weak then 1 else 2 }) s)))
  else (0, c != 0, modStat h n (fun x => { x with last, pending := c != 0 }) s)

/-- The nozzle status of a class that the module does not act on (R121). -/
def noteClass (h : HeadId) (n c : Nat) (p : PanelId) (s : State) : State :=
  if ((s.heads[h]).stats.getD n {}).byHost then s
  else purgeCheck p (modStat h n (fun x => { x with last := BitVec.ofNat 3 c }) s)

/-- A class reaches its pass or SPIT: the latest result of the nozzle, and a second attempt in the next slot (R114). -/
def passResult (h : HeadId) (kind n c : Nat) (again : Bool) (s : State) : State :=
  if kind < 2 then s
  else s.modHead h fun x => { x with pass := x.pass.map fun p =>
    { p with results := (n, c) :: p.results.filter fun r => r.1 != n,
             again := if again && kind == 2 then p.again ++ [n] else p.again } }

/-- A class has been formed: LISTENED, the retry rule and the record (R111, R119, R121). `faultcls`: host-assisted. -/
def classFormed (r : ListenRec) (faultcls : Bool) (s : State) : State :=
  let p := panelOf r.tile
  let s := s.modPanel p fun x => { x with listened := x.listened + 1 }
  let (fl, again, s) := if faultcls then (0, false, noteClass r.head r.nozzle r.cls p s) else retryRule r.head r.nozzle r.cls p s
  let s := passResult r.head r.kind r.nozzle r.cls again s
  if r.cls ≠ 0 ∨ fl ≠ 0 ∨ 1 ≤ r.kind then emitListen { r with flags := r.flags + fl } s else s

/-- Host-assisted classification: a record with the trace and CLASS 7 (R120). -/
def hostListen (r : ListenRec) (s : State) : State :=
  passResult r.head r.kind r.nozzle 7 false (emitListen { r with cls := 7, flags := r.flags + 8 } s)

/-- CLASSIFY and FAULTCLS for a result: the product's own settings, else FN_MODE (R303). -/
def State.classModes (s : State) (h : HeadId) (seq : Word) : Bool × Bool :=
  match s.product h seq with
  | some p => (p.classify, p.faultcls)
  | none => (Word.field (s.fnMode.setWidth 32) 3 2 == 1, Word.field (s.fnMode.setWidth 32) 13 12 == 1)

/-! ### The classifier (R107 to R109) -/

/-- A number rounded down, or up where it is not whole and a free bit says so (log 10). -/
def roundOpen (num : Int) (den : Nat) (s : State) : Int × State :=
  if num % den = 0 then (num / den, s)
  else
    let (b, s) := s.drawBit
    (num / den + if b then 1 else 0, s)

/-- Extrema beyond the gate: twice the sample number and the amplitude, in time order. A run of equal samples between two
neighbours on one side is one extremum at its middle; a run at either end of the trace is none (log 64). `run`: where the run
of sample `i` began and whether it was entered rising. -/
def extrema (gate : Int → Bool) : Nat → Option (Nat × Bool) → List Int → List (Nat × Nat)
  | i, run, a :: b :: r =>
    if b = a then extrema gate (i + 1) run (b :: r)
    else
      let rest := extrema gate (i + 1) (some (i + 1, decide (a < b))) (b :: r)
      match run with
      | some (k, up) => if up != decide (a < b) && gate a then (k + i, a.natAbs) :: rest else rest
      | none => rest
  | _, _, _ => []

/-- Zero crossings with hysteresis: times in samples as numerator and positive denominator. -/
def crossings (gate : Int → Bool) : Nat → Option Bool → Int × Int → List Int → List (Int × Int)
  | i, sg, z, a :: b :: r =>
    let z := if a < 0 ∧ 0 ≤ b then ((i : Int) * (b - a) - a, b - a)
      else if 0 < a ∧ b ≤ 0 then ((i : Int) * (a - b) + a, a - b) else z
    if gate b then
      let up := decide (0 < b)
      let rest := crossings gate (i + 1) (some up) z (b :: r)
      if sg == some (!up) then z :: rest else rest
    else crossings gate (i + 1) sg z (b :: r)
  | _, _, _, _ => []

/-- A fixed-point number with 96 fraction bits. -/
def fix1 : Nat := 2 ^ 96

/-- y + y^3 / 3 + y^5 / 5 + ... for `n` terms from the power `p` = y^(2k + 1) on. -/
def atanhSum (y : Nat) : Nat → Nat → Nat → Nat
  | 0, _, _ => 0
  | n + 1, k, p => p / (2 * k + 1) + atanhSum y n (k + 1) (p * y / fix1 * y / fix1)

/-- ln m for m between 1 and 2, as 2 atanh ((m - 1) / (m + 1)); 40 terms leave less than 2^-90 out. -/
def lnUnit (m : Nat) : Nat :=
  let y := (m - fix1) * fix1 / (m + fix1)
  2 * atanhSum y 40 0 y

/-- ln (a / b) with 96 fraction bits, for a > b > 0 (log 18). -/
def lnRatio (a b : Nat) : Nat :=
  let x := a * fix1 / b
  let k := Nat.log2 x - 96
  k * lnUnit (2 * fix1) + lnUnit (x / 2 ^ k)

/-- The features of a trace, exact: with n samples of codes, mV = code * c / z. -/
structure Features where
  n : Nat
  c : Nat
  /-- n * z: the common denominator of the values below. -/
  nz : Nat
  /-- v_off in c-scaled units over nz. -/
  vOff : Int
  /-- A1 before scaling: |D| of the first extremum. -/
  a1 : Nat
  /-- f_r in 10 Hz as numerator and denominator. -/
  fr : Option (Nat × Nat)
  /-- tau in 10 ns as numerator and denominator (log 18). -/
  tau : Option (Nat × Nat)
  deriving DecidableEq, Repr

/-- The four features (R107): `c` uV per 16,384 codes at the pin, `g` the gate and `idle` the idle level in mV. -/
def featuresOf (trace : List (BitVec 14)) (c g idle : Nat) : Features :=
  let n := trace.length
  let nz := n * 16384000
  let sum := (trace.map (·.toNat)).sum
  let d := trace.map fun x => ((n * x.toNat : Nat) : Int) - sum
  let gate := fun x : Int => decide (g * nz ≤ x.natAbs * c)
  let half := fun x : Int => decide (g * nz ≤ 2 * x.natAbs * c && 0 < x.natAbs)
  let e := extrema gate 0 none d
  let start := match d with
    | x :: _ => if half x then some (decide (0 < x)) else none
    | [] => none
  let z := crossings half 0 start (0, 1) d
  let fr := match z.head?, z.getLast? with
    | some a, some b =>
      let num := b.1 * a.2 - a.1 * b.2
      if 3 ≤ z.length ∧ 0 < num then some ((z.length - 1) * 1000000 * (a.2 * b.2).toNat, num.toNat) else none
    | _, _ => none
  let tau := match e.head?, e.getLast? with
    | some a, some b => if 2 ≤ e.length ∧ b.2 < a.2 then some (if b.2 = 0 then (0, 1) else (25 * (b.1 - a.1) * fix1, 10 * lnRatio a.2 b.2)) else none
    | _, _ => none
  { n, c, nz, vOff := ((sum * c : Nat) : Int) - (idle * nz : Nat), a1 := (e.head?.map (·.2)).getD 0, fr, tau }

/-- Baselines of a nozzle; none where it carries NOBASE. -/
def State.baselines (s : State) (h : HeadId) (n : Nat) : Option (Nat × Nat × Nat) :=
  match s.skim 0x14 (headSub h) n, s.skim 0x15 (headSub h) n, s.skim 0x16 (headSub h) n with
  | some f, some t, some a => some (f.toNat, t.toNat, a.toNat)
  | _, _, _ => none

/-- The class (R108, R109). A test of the table that uses a feature of value none does not hold, whichever of its
comparisons would (log 63). -/
def classOf (f : Features) (base : Option (Nat × Nat × Nat)) (cls0 cls1 : Word) : Nat :=
  let below := fun (num : Nat) => decide (f.a1 * f.c * 256 < num * f.nz)
  if Word.field cls1 15 8 * 100 * f.nz < f.vOff.natAbs then 5
  else match base with
    | none => if f.a1 = 0 then 4 else 0
    | some (f0, t0, a0) =>
      let air := match f.fr with
        | some (u, v) => decide (u * 256 < f0 * (256 - Word.field cls0 31 24) * v)
        | none => false
      let clog := match f.fr, f.tau with
        | some (u, v), some (t, w) => decide (f0 * (256 + Word.field cls0 23 16) * v < u * 256) ||
            decide (t0 * Word.field cls1 31 24 * w < t * 64)
        | _, _ => false
      let weak := match f.tau with
        | some (t, w) => below (a0 * Word.field cls0 15 8) || decide (t * 256 < t0 * Word.field cls1 23 16 * w)
        | none => false
      if below (a0 * Word.field cls0 7 0) then 4 else if air then 2 else if clog then 3 else if weak then 1 else 0

/-- uV at the pin per 16,384 codes: through the 1/20 tap, or TB directly in mode 2 (R103, R107). -/
def State.tapScale (s : State) (t : TileId) : Nat :=
  (if (s.tiles[t]).trowel.modeField = 2 then 1 else 20) * s.vref (panelOf t)

/-! ### Listen windows (R103 to R105) -/

def Panel.wSet (x : Panel) : Nat := min 64 (max 2 (Word.field x.listen 31 25))

/-- The stroke column `k` of a product, or the one that follows its last among the head's products. -/
def Head.columnAt (x : Head) (p : Product) (k : Nat) : Option (Product × Nat) :=
  if k < p.strokes then some (p, k)
  else (x.products.find? fun q => !q.done && q.seq != p.seq).map fun q => (q, k - p.strokes)

/-- FCK cycles from now to the earliest fire of stroke column `k` on the port of a tile: the earliest of the port's groups, by row
and by the lowest trim of a group's nozzles, since the nozzles that will fire are not known yet (R104, log 69). -/
def State.nextFire (s : State) (h : HeadId) (hd : HeadDef) (t : TileId) (p : Product) (k : Nat) : Option Int :=
  match (s.heads[h]).columnAt p k with
  | none => none
  | some (q, k) =>
    let each := (hd.tiles.filter fun u => panelOf u == panelOf t).map fun u =>
      let trim := (hd.group u).foldl (fun (m : Option Int) n =>
        let v := s.skim0 0x10 (headSub h) n
        some (match m with
          | some m => min m v
          | none => v)) none
      (s.cyclesTo (s.aon.enc[q.jdef.encoder]) q.c0 ((q.jdef.pos k : Nat) + (q.row (hd.rowOf u)).2)).map fun c =>
        c + trim.getD 0 / 8
    each.foldl (fun m c => match m, c with
      | some m, some c => some (min m c)
      | _, c => c) none

/-- FCK count at which the window must have closed for the fire of stroke column `k` (R104): none where no such column is
predicted. -/
def State.freeUntil (s : State) (h : HeadId) (hd : HeadDef) (t : TileId) (p : Product) (k : Nat) : Option Int :=
  (s.nextFire h hd t p k).map fun c => s.aon.fck + c - ((hd.settle + hd.latchWidth * hd.bitFck false : Nat) : Int)

/-- FCK count by which the slots of a pass must be over: L before the predicted column 0 of every product already detected (R115). -/
def State.slotLimit (s : State) (h : HeadId) : Option Int :=
  (s.heads[h]).products.foldl (fun m p =>
    if p.done || p.started then m
    else match s.cyclesTo (s.aon.enc[p.jdef.encoder]) p.c0 ((p.jdef.pos 0 : Nat) : Int) with
      | some c =>
        let limit : Int := s.aon.fck + c - (s.heads[h]).lead
        some (match m with
          | some m => min m limit
          | none => limit)
      | none => m) none

/-- The window in FCK cycles from listen start `start` and whether it takes a steal: none where the listen is skipped. -/
def State.windowOf (s : State) (h : HeadId) (hd : HeadDef) (t : TileId) (l : Listen) (start : Nat) : Option (Nat × Bool) :=
  let pn := s.panels[panelOf t]
  let set : Nat := usFck pn.wSet
  let clip : Option Int → Nat := fun o => match o with
    | some a => min set (a - start).toNat
    | none => set
  let enough : Nat → Bool → Option (Nat × Bool) := fun w steal => if w < usFck pn.wMin then none else some (w, steal)
  match s.product h l.seq, (s.tiles[t]).trowel.lastCol with
  | some p, some (_, k) =>
    let x := s.heads[h]
    if x.stealNext then enough (clip (s.freeUntil h hd t p (k + 2))) false
    else
      let w : Nat := clip (s.freeUntil h hd t p (k + 1))
      let spacing := 2 ^ (Word.field (s.panels[hd.lowPanel]).listen 11 8 + 4)
      let may : Bool := p.jdef.flags.getLsbD 4 && (x.colsSinceSteal.all fun c => decide (spacing ≤ c))
      if Nat.blt w set && may then enough (clip (s.freeUntil h hd t p (k + 2))) true else enough w false
  | _, _ => if (s.slotLimit h).any fun m => decide (m < ((start + set : Nat) : Int)) then none else enough set false

/-- A steal: the head's next column will be skipped (R105). -/
def takeSteal (h : HeadId) (hd : HeadDef) (s : State) : State :=
  (s.modHead h fun x => { x with stealNext := true }).modPanel hd.lowPanel fun x => { x with stolen := satInc x.stolen }

/-- Listen start (R59, R103): GAP samples after the waveform, and not before the LISTEN frame's LT has fallen. -/
def State.listenStart (s : State) (t : TileId) : Nat := max (s.tiles[t]).trowel.listenAt (s.panels[panelOf t]).ltLow

/-- The port of the tile has yet to latch the LISTEN frame. -/
def State.awaitsFrame (s : State) (t : TileId) (l : Listen) : Bool :=
  (s.panels[panelOf t]).frames.any fun f => !f.fire && f.head == l.head && f.seq == l.seq

/-- LISTEN_START: the trowel lets go of the pin, or the listen is skipped. A slot's window that would close too late for a detected
product is discarded, and counts as no skip (R115). -/
def execListenStart (t : TileId) (s : State) : Result :=
  .next (match (s.tiles[t]).trowel.listen with
    | none => s
    | some l =>
      let w := (s.tiles[t]).trowel
      match (s.heads[l.head]).hdef with
      | none => s.modTrowel t fun w => { w with listen := none }
      | some hd =>
        let start := s.listenStart t
        if !s.fastOn || l.openNow || l.closed || w.play != .idle || s.awaitsFrame t l || decide (s.aon.fck < start) then s
        else
          let drop := s.modTrowel t fun w => { w with listen := none }
          let skip := headSettle l.head (if (s.slotLimit l.head).isSome && l.seq == noProduct then drop else countSkipped t drop)
          let mode := s.trowelMode t
          if s.prelock || (mode != 1 && mode != 2) then skip
          else match s.windowOf l.head hd t l start with
            | none => skip
            | some (c, steal) =>
              let at_ := s.stamp
              let s := if steal then takeSteal l.head hd s else s
              s.modTrowel t fun w =>
                { w with play := .listening,
                         listen := some { l with start := at_, opened := start, window := c / 60, openNow := true } })

/-- LISTEN_WINDOW_CLOSE: the window has lasted its samples, one every 60 FCK cycles; the codes of the whole window; the trowel returns to its idle level. -/
def execListenWindowClose (t : TileId) (trace : List (BitVec 14)) (s : State) : Result :=
  .next (match (s.tiles[t]).trowel.listen with
    | some l =>
      let close := l.opened + 60 * l.window
      if l.openNow && trace.length == l.window && decide (close ≤ s.aon.fck) then
        headSettle l.head (s.modTrowel t fun w =>
          { w with play := .idle, closedAt := close,
                   listen := some { l with openNow := false, closed := true, closedAt := close, trace } })
      else s
    | none => s)

/-- CLASSIFY_RESULT: 1,200 FCK cycles after window close, the class, its retry and its record (R109). The baselines are read from the
keep region (R309). -/
def execClassifyResult (t : TileId) (s : State) : Result :=
  .next (match (s.tiles[t]).trowel.listen with
    | some l =>
      if !l.closed || decide (s.aon.fck < l.closedAt + 1200) then s
      else
        let k := keepRead t s
        if !k.1 then headSettle l.head k.2 else
        let s := k.2
        let pn := s.panels[panelOf t]
        let f := featuresOf l.trace (s.tapScale t) (4 * Word.field pn.cls1 7 0) (s.tiles[t]).idleLevel
        let base := s.baselines l.head l.nozzle
        let (fr, s) := match f.fr with
          | some (u, v) => roundOpen u v s
          | none => (0, s)
        let (tau, s) := match f.tau with
          | some (u, v) => roundOpen u v s
          | none => (0, s)
        let (a1, s) := roundOpen ((f.a1 * f.c : Nat) : Int) f.nz s
        let (vOff, s) := roundOpen f.vOff f.nz s
        let r : ListenRec :=
          { time := l.start, head := l.head, kind := l.kind.toNat, nozzle := l.nozzle, tile := t,
            cls := classOf f base pn.cls0 pn.cls1, flags := base.isNone.toNat, window := l.trace.length, fr := fr.toNat,
            tau := tau.toNat, a1 := a1.toNat, vOff, seq := l.seq, trace := l.trace }
        let m := s.classModes l.head l.seq
        let s := s.modTrowel t fun w => { w with listen := none }
        headSettle l.head (if m.1 then hostListen r s else classFormed r m.2 s)
    | none => s)

/-! ### The end of a waveform: dots, trips, the group monitor (R53, R96, R100, R101, R122) -/

/-- The dots of the fire have fired (R53). -/
def creditDots (d : DueFire) (s : State) : State :=
  if d.by_ = .column then
    modProduct d.head d.seq (fun p => { p with fired := p.fired + d.dots, weight := p.weight + d.weight }) s
  else s

def logTrip (cls : LClass) (t : TileId) (s : State) : State :=
  let (w, s) := s.drawWord
  log cls 0x13 (srcTile t) (arg t.val) 0 (w.setWidth 32) s

/-- The second attempt has completed without a trip. -/
def tripOver (t : TileId) (s : State) : State :=
  if (s.tiles[t]).trowel.phase = .second then
    tileTransient t (logTrip .transient t (s.modTrowel t fun w => { w with phase := .none }))
  else s

/-- Full-duty charge and nozzle count of the groups the trowel drives: both in takeover (R98, R100); none where one was never
calibrated. -/
def State.monitored (s : State) (hd : HeadDef) (t : TileId) : Option (Nat × Nat) :=
  let own := if hd.drives t then [t] else []
  let ts := if (s.tiles[t]).trowel.buddyAct then own ++ [partner t] else own
  let qs := ts.map fun u => s.skim 0x12 0 u.val
  if ts.isEmpty ∨ qs.any Option.isNone then none
  else some ((qs.map fun q => (q.getD 0).toNat).sum, (ts.map fun u => (hd.group u).length).sum)

/-- The comparison of one fire: none where it is skipped, else GROUP_SHORT (some true), GROUP_OPEN (some false) or neither. -/
def State.monitor (s : State) (hd : HeadDef) (t : TileId) (d : DueFire) (q : Nat) : Option (Option Bool) :=
  let pn := s.panels[panelOf t]
  let mode := (s.tiles[t]).trowel.modeField
  if !pn.listen.getLsbD 0 || (mode != 1 && mode != 4) then none
  else match s.monitored hd t with
    | none => none
    | some (qg, ng) =>
      let exp := qg * d.nFired
      if exp < Word.field pn.gmon 15 8 * 10 * ng then none
      else if exp * (256 + Word.field pn.gmon 31 24) < q * 256 * ng then some (some true)
      else if q * 256 * ng < exp * (256 - Word.field pn.gmon 23 16) then some (some false) else some none

/-- A GROUP_SHORT or GROUP_OPEN entry: Q and Q_exp in nC. -/
def logGroup (cls : LClass) (short : Bool) (hd : HeadDef) (t : TileId) (d : DueFire) (q : Nat) (s : State) : State :=
  let e := match s.monitored hd t with
    | some (qg, ng) => (qg * d.nFired, max 1 ng)
    | none => (0, 1)
  let (exp, s) := roundOpen (e.1 : Int) e.2 s
  log cls (if short then 0x11 else 0x12) (srcTile t) (arg t.val) (arg q) (arg exp.toNat) s

/-- The group monitor's second attempt is the group's next compared fire (R101). -/
def groupMonitor (hd : HeadDef) (t : TileId) (d : DueFire) (q : Nat) (s : State) : State :=
  match s.monitor hd t d q with
  | none => s
  | some r =>
    let was := (s.tiles[t]).trowel.suspect
    let set := fun (v : Option Bool) (s : State) => s.modTrowel t fun w => { w with suspect := v }
    match was, r with
    | none, _ => set r s
    | some k, none => logGroup .transient k hd t d q (set none s)
    | some _, some k =>
      let s := logGroup .lasting k hd t d q (set none s)
      let s := raiseEvent .groupFault (arg t.val) s
      emitListen { time := s.stamp, head := d.head, kind := 4, nozzle := 0xFFFF, tile := t, cls := 7,
                   flags := if k then 16 else 32, q, seq := d.seq } s

/-- A thermal nozzle pulsed alone is classed by its charge (R122). -/
def thermalClass (s : State) (h : HeadId) (n : Nat) (t : TileId) (q : Nat) : Nat :=
  let pn := s.panels[panelOf t]
  match s.skim 0x13 (headSub h) n with
  | none => 0
  | some b =>
    if b.toNat * (256 + Word.field pn.gmon 31 24) < q * 256 then 5
    else if q * 256 < b.toNat * Word.field pn.cls0 7 0 then 4 else 0

/-- KIND of a listen: 2 for a slot, 3 for SPIT, else 1 for a retry and 0 (R119); host-assisted classification knows no retry
(R120). -/
def State.listenKind (s : State) (d : DueFire) (n : Nat) : BitVec 3 :=
  match d.by_ with
  | .slot => 2
  | .spit => 3
  | _ => if (s.heads[d.head]).pendingRetry n && !(s.classModes d.head d.seq).1 then 1 else 0

/-- After the fire: the pending listen, or the class of a thermal nozzle. -/
def afterFire (t : TileId) (d : DueFire) (q : Nat) (s : State) : State :=
  match d.listen with
  | none => s
  | some n =>
    let kind := s.listenKind d n
    if (s.tiles[t]).trowel.modeField = 4 then
      let m := s.classModes d.head d.seq
      let r : ListenRec :=
        { time := s.stamp, head := d.head, kind := kind.toNat, nozzle := n, tile := t, cls := thermalClass s d.head n t q,
          flags := (s.baselines d.head n).isNone.toNat, seq := d.seq }
      if m.1 then hostListen r s else classFormed r m.2 s
    else
      s.modTrowel t fun w =>
        { w with listen := some { head := d.head, seq := d.seq, nozzle := n, kind, retry := kind == 1, start := 0 } }

/-- WAVEFORM_END: the waveform that plays has driven its last sample for 8 FCK cycles, having sourced the charge `q` (R90). A play
that fire inhibit has cut short is over at its idle level; its dots are lost (R170). -/
def execWaveformEnd (t : TileId) (q : Nat) (s : State) : Result :=
  .next (
    let w := (s.tiles[t]).trowel
    match w.current with
    | some d =>
      if w.play != .playing || !s.playOver t then s
      else
        let s := (playOn t s).modTrowel t fun w => { w with play := .idle, current := none, chopOn := false, cut := false }
        if w.cut then (if d.isOf d.head then headSettle d.head s else s)
        else
          let s := tripOver t (creditDots d s)
          match (s.heads[d.head]).hdef with
          | some hd =>
            if d.isOf d.head then headSettle d.head (afterFire t d q (groupMonitor hd t d q s)) else s
          | none => s
    | none => s)

/-! ### SPIT and LISTEN_SWEEP (R114 to R117) -/

def State.belowArmed (s : State) (hd : HeadDef) : Bool :=
  !s.pwr.mode.up || (hd.panels ++ hd.portList).any fun p => !(s.pstate p).live

/-- The allocation exceeds the grant (R261). -/
def State.overGrant (s : State) : Bool := decide (s.pwr.grant.toNat < s.alloc)

/-- A pass, SPIT or single phase search runs on the head. -/
def Head.busy (x : Head) : Bool := x.pass.isSome || match x.search with
  | some y => y.desc.isSome
  | none => false

def execSpit (d : Desc) (s : State) : Result :=
  runDesc 0x49 d (headerFault d 3 .none .unbound [(34, 30)]) true (fun s =>
    let h : HeadId := Fin.ofNat 8 d.target.toNat
    match (s.heads[h]).hdef with
    | none => refuse 0x49 d .state s
    | some hd =>
      match rangeFault hd.n (d.u 24 2) (d.u 26 2) with
      | some off => badField 0x49 d off s
      | none =>
        if d.u 28 2 = 0 then badField 0x49 d 28 s
        else if d.u 30 1 = 0 ∨ 2 ^ hd.selBits ≤ d.u 30 1 then badField 0x49 d 30 s
        else if 1 < d.u 31 1 then badField 0x49 d 31 s
        else if d.u 32 2 < 9 then badField 0x49 d 32 s
        else if s.belowArmed hd then refuse 0x49 d .state s
        else if (s.heads[h]).busy then refuse 0x49 d .busy s
        else if s.overGrant then refuse 0x49 d .power s
        else
          let p : Pass :=
            { desc := some d, spit := true, first := d.u 24 2, count := d.u 26 2, fires := d.u 28 2, code := d.u 30 1,
              listens := d.u 31 1 == 1, period := d.u 32 2, inclOut := true,
              left := (List.range (d.u 26 2)).map (d.u 24 2 + ·) }
          s.modHead h fun x => { x with pass := some p }) s

/-- Reserved bytes of LISTEN_SWEEP by mode. Byte 25 is mode 0's INCL_OUT, which R116 does not call reserved in mode 1: mode 1 takes
no notice of it (DESIGN CHOICE, log 51). -/
def sweepReserved (d : Desc) : List (Nat × Nat) :=
  if d.u 24 1 = 0 then [(26, 2), (28, 20), (48, 16)] else [(26, 2), (33, 1), (44, 4), (48, 16)]

/-- Offset of the first field of a phase search out of range. -/
def searchFault (d : Desc) : Option Nat :=
  if 511 < d.u 28 2 then some 28 else if 511 < d.u 30 2 then some 30
  else if d.u 32 1 ≠ 8 ∧ d.u 32 1 ≠ 16 then some 32
  else if d.u 34 2 = 0 ∨ 4096 < d.u 34 2 then some 34
  else if d.u 36 2 = 0 ∨ d.u 34 2 < d.u 36 2 then some 36 else none

def execListenSweep (d : Desc) (s : State) : Result :=
  runDesc 0x52 d (headerFault d 3 .none .unbound (sweepReserved d)) true (fun s =>
    let h : HeadId := Fin.ofNat 8 d.target.toNat
    if 1 < d.u 24 1 then badField 0x52 d 24 s
    else if d.u 24 1 = 0 ∧ 1 < d.u 25 1 then badField 0x52 d 25 s
    else match (if d.u 24 1 = 1 then searchFault d else none) with
      | some off => badField 0x52 d off s
      | none =>
        match (s.heads[h]).hdef with
        | none => refuse 0x52 d .state s
        | some hd =>
          if s.belowArmed hd then refuse 0x52 d .state s
          else if (s.heads[h]).busy then refuse 0x52 d .busy s
          else if s.overGrant then refuse 0x52 d .power s
          else if d.u 24 1 = 0 then
            let p : Pass :=
              { desc := some d, spit := false, first := 0, count := hd.n, fires := 1, code := 2 ^ hd.selBits - 1,
                listens := true, period := 0, inclOut := d.u 25 1 == 1, left := List.range hd.n }
            s.modHead h fun x => { x with pass := some p }
          else
            let y : PhaseSearch :=
              { desc := some d, chargeTile := Fin.ofNat 512 (d.u 28 2), detectTile := Fin.ofNat 512 (d.u 30 2),
                steps := d.u 32 1, drops := d.u 34 2, hitsMin := d.u 36 2, flight := d.u 38 2, span := d.u 40 2,
                every := d.u 42 2 }
            s.modHead h fun x => { x with search := some y }) s

/-- A slot, SPIT fire or test drop may start: clocks run, no product is in flight, the head's trowels and ports are free, and the
fire spacing has passed (R81, R114, R115). -/
def State.gap (s : State) (h : HeadId) (hd : HeadDef) : Bool :=
  s.fastOn && s.pwr.mode.up && (s.heads[h]).printing.isNone &&
    hd.reach.all (fun t => s.atRest h t && s.spaced t) && hd.portList.all fun p => (s.panels[p]).frames.isEmpty

/-- What the fires of a slot or a test drop have in common: they are due at once. -/
def State.slotFire (s : State) (h : HeadId) (by_ : FireBy) : DueFire :=
  { head := h, seq := noProduct, col := 0, by_, nFired := 0, latched := false, listen := none,
    nominal := some ((8 * s.aon.fck : Nat) : Int), earliest := s.aon.fck, onQck := s.prelock }

/-- Fires one nozzle per group alone at a code. -/
def slotStroke (h : HeadId) (hd : HeadDef) (by_ : FireBy) (code : Nat) (listens : Bool) (picks : List (TileId × Nat))
    (s : State) : State :=
  let cells := (List.range hd.n).map fun n => if picks.any (·.2 == n) then (⟨code, 0, 0⟩ : Cell) else ⟨0, 0, 0⟩
  let gs := picks.map fun x => (⟨x.1, [x.2], if listens then some x.2 else none⟩ : GroupFire)
  stroke (s.slotFire h by_) (fun _ => 0) hd cells gs s

/-- The first nozzle of a list in each group. -/
def HeadDef.firsts (hd : HeadDef) (ns : List Nat) : List (TileId × Nat) :=
  hd.tiles.filterMap fun t => (ns.find? (hd.group t).contains).map fun n => (t, n)

/-- The pass takes an OUT nozzle too: INCL_OUT of LISTEN_SWEEP, or of the nozzle's own panel (R106, R114, R116). -/
def State.visits (s : State) (hd : HeadDef) (p : Pass) (n : Nat) : Bool :=
  if p.own then (hd.nozzles[n]?).any fun z => (s.panels[panelOf z.tile]).listen.getLsbD 3 else p.inclOut

/-- SPIT_LISTEN_SLOT: a slot of a pass; a nozzle whose second attempt is due comes before its group's next (R114). -/
def execSpitListenSlot (h : HeadId) (s : State) : Result :=
  .next (match (s.heads[h]).hdef, (s.heads[h]).pass with
    | some hd, some p =>
      if p.spit || !s.gap h hd then s
      else
        let left := p.left.filter fun n => s.visits hd p n || !s.outNozzle h n
        let picks := hd.firsts (p.again ++ left)
        let used := picks.map (·.2)
        let p' : Pass :=
          { p with again := p.again.filter fun n => !used.contains n,
                   left := left.filter fun n => !used.contains n || p.again.contains n }
        let s := s.modHead h fun x => { x with pass := some p' }
        headSettle h (slotStroke h hd .slot p.code true picks s)
    | _, _ => s)

/-- PERIOD has passed since each group's last fire. -/
def State.periodOver (s : State) (hd : HeadDef) (us : Nat) : Bool :=
  hd.tiles.all fun t => match (s.tiles[t]).trowel.lastFire with
    | some f => decide (f + usFck us ≤ s.aon.fck)
    | none => true

/-- SPIT_FIRE: every group fires the nozzle it is at; after FIRES fires it moves to its next (R117). -/
def execSpitFire (h : HeadId) (s : State) : Result :=
  .next (match (s.heads[h]).hdef, (s.heads[h]).pass with
    | some hd, some p =>
      if !p.spit || p.left.isEmpty || !s.gap h hd || !s.periodOver hd p.period then s
      else
        let picks := hd.firsts p.left
        let used := picks.map (·.2)
        let last := p.fired + 1 == p.fires
        let p' : Pass :=
          { p with fired := if last then 0 else p.fired + 1,
                   left := if last then p.left.filter fun n => !used.contains n else p.left }
        let s := s.modHead h fun x => { x with pass := some p' }
        headSettle h (slotStroke h hd .spit p.code (p.listens && last) picks s)
    | _, _ => s)

/-! ### The phase search (R123) -/

/-- Length of the run of passing steps that starts at `i`, going round. -/
def runFrom (ok : Nat → Bool) (n : Nat) : Nat → Nat → Nat
  | 0, _ => 0
  | k + 1, i => if ok (i % n) then 1 + runFrom ok n k (i + 1) else 0

/-- The first longest circular run: its start and length. -/
def longestRun (ok : Nat → Bool) (n : Nat) : Nat × Nat :=
  (List.range n).foldl (fun b i => if b.2 < runFrom ok n n i then (i, runFrom ok n n i) else b) (0, 0)

/-- The phase in vernier steps and the number of passing steps, if any step passes. -/
def State.phaseOf (s : State) (hd : HeadDef) (y : PhaseSearch) (hits : List Nat) : Option (Nat × Nat) :=
  let ok := fun i => decide (y.hitsMin ≤ hits.getD i 0)
  let n := ((List.range y.steps).filter ok).length
  if n = 0 then none
  else
    let r := longestRun ok y.steps
    let c := (2 * r.1 + r.2 - 1) % (2 * y.steps)
    some ((divRound (c * s.dropPeriod hd y.chargeTile) (2 * y.steps)).toNat, n)

/-- The search waits for its next run: tracking repeats every EVERY ms. -/
def PhaseSearch.rest (y : PhaseSearch) (now : Nat) : PhaseSearch :=
  { y with desc := none, step := 0, dropsLeft := 0, hits := [], charged := none, hit := false, again := false,
           nextAt := now + usFck (1000 * y.every) }

/-- A run of the search begins at the first step. -/
def PhaseSearch.begin_ (y : PhaseSearch) (again : Bool) : PhaseSearch :=
  { y with step := 0, dropsLeft := y.drops, hits := List.replicate y.steps 0, charged := none, hit := false, again }

/-- The search ends: tracking goes on without a completion of its own. -/
def searchEnds (h : HeadId) (y : PhaseSearch) (st : Status) (result : Nat) (s : State) : State :=
  let now := s.aon.fck
  let s := s.modHead h fun x => { x with search := if y.every = 0 then none else some (y.rest now) }
  match y.desc with
  | some d => finish 0x52 d st 0 result s
  | none => s

/-- A phase is taken: from the next product boundary, or at once on a head with no armed job. -/
def takePhase (h : HeadId) (y : PhaseSearch) (v : Nat × Nat) (s : State) : State :=
  let s := s.modHead h fun x => { x with phaseWait := some (y.chargeTile, (v.1 : Int)) }
  let s := if (s.heads[h]).armed.isSome then s else applyPhase h s
  searchEnds h y .ok (v.1 % 65536 + v.2 * 65536) s

def logPhase (cls : LClass) (h : HeadId) (y : PhaseSearch) (s : State) : State :=
  log cls 0x1C (srcHead h) (arg h.val) (BitVec.ofInt 32 (s.tiles[y.chargeTile]).trowel.phaseSteps) 0 s

/-- Every step has had its drops: the phase is taken, or the search runs once more, or it has failed. -/
def searchOver (h : HeadId) (hd : HeadDef) (y : PhaseSearch) (s : State) : State :=
  match s.phaseOf hd y y.hits with
  | some v => takePhase h y v (if y.again then logPhase .transient h y s else s)
  | none =>
    if y.again then searchEnds h y .lasting 0 (raiseEvent .phaseLost (arg h.val) (logPhase .lasting h y s))
    else s.modHead h fun x => { x with search := some (y.begin_ true) }

/-- A test drop's window has passed: its hit is counted, and the next drop or step follows. -/
def PhaseSearch.dropOver (y : PhaseSearch) : PhaseSearch :=
  let y := { y with hits := if y.hit then y.hits.modify y.step (· + 1) else y.hits, charged := none, hit := false }
  if 1 < y.dropsLeft then { y with dropsLeft := y.dropsLeft - 1 }
  else { y with step := y.step + 1, dropsLeft := if y.step + 1 < y.steps then y.drops else 0 }

/-- A test drop of a head at rest: the groups fire those of their nozzles that are named, once and at one code, the charge group
delayed (log 68). -/
def testDrop (h : HeadId) (hd : HeadDef) (nozzles : List Nat) (code : Nat) (s : State) : State :=
  let c := code % 2 ^ hd.selBits
  let fires := fun n => c != 0 && nozzles.contains n
  let cells := (List.range hd.n).map fun n => (⟨if fires n then c else 0, 0, 0⟩ : Cell)
  let gs := hd.tiles.map fun t => (⟨t, (hd.group t).filter fires, none⟩ : GroupFire)
  stroke (s.slotFire h .test) (fun _ => 0) hd cells gs s

/-- PHASE_TRACK_SEARCH: the search of a head goes on: it starts where it is due, fires its next test drop in a gap, or closes the
window of the last one (R123). -/
def execPhaseTrackSearch (h : HeadId) (nozzles : List Nat) (code : Nat) (s : State) : Result :=
  .next (match (s.heads[h]).hdef, (s.heads[h]).search with
    | some hd, some y =>
      let put := fun y : PhaseSearch => s.modHead h fun x => { x with search := some y }
      if !s.fastOn || !s.pwr.mode.up then s
      else if y.dropsLeft = 0 then
        if y.desc.isSome || (decide (y.nextAt ≤ s.aon.fck) && (s.heads[h]).printing.isNone) then put (y.begin_ false) else s
      else match y.charged with
        | some c =>
          if s.aon.fck < c + usFck (y.flight + y.span) then s
          else
            let y := y.dropOver
            if y.dropsLeft = 0 then searchOver h hd y s else put y
        | none =>
          if !s.gap h hd then s
          else if hd.tiles.contains y.chargeTile then testDrop h hd nozzles code s else put { y with charged := some s.aon.fck }
    | _, _ => s)

/-! ### Protection (R92, R96, R97) -/

/-- TROWEL_TRIP: output current above ILIM for 50 ns; none while fold-back clamps. The fire in progress does not count. -/
def execTrowelTrip (t : TileId) (s : State) : Result :=
  .next (
    let w := (s.tiles[t]).trowel
    let mode := s.trowelMode t
    if w.off || w.fold || mode = 0 || mode = 3 then s
    else
      let second := w.phase == .second && w.play == .playing
      let s := s.modTrowel t fun w =>
        { w with play := .idle, current := none, listen := none, chopOn := false,
                 phase := if second then .none else .returning, trip := second }
      let s := if second then askBuddy t (logTrip .lasting t (s.modTile t fun x => { x with degraded := true })) else s
      match w.current with
      | some d => if d.isOf d.head then headSettle d.head s else s
      | none => s)

/-- TROWEL_IDLE_REACHED: the idle level is reached after a trip or after TRIP was cleared. A trowel of no armed job is re-enabled
at the first fast-clock edge after the write (R96). -/
def execTrowelIdleReached (t : TileId) (s : State) : Result :=
  .next (
    let w := (s.tiles[t]).trowel
    if w.phase = .returning then s.modTrowel t fun w => { w with phase := .awaiting }
    else if w.phase = .recovering then s.modTrowel t fun w => { w with phase := .none }
    else if w.reenable && s.fastOn && !s.armedTile t then reenable t s else s)

def logFold (t : TileId) (entry : Nat) (degC : Int) (s : State) : State :=
  log .info 0x14 (srcTile t) (arg t.val) (arg entry) (BitVec.ofInt 32 degC) s

/-- FOLD_BACK_ENTRY: the diode reads above 115 degC. -/
def execFoldBackEntry (t : TileId) (degC : Int) (s : State) : Result :=
  .next (if 115 < degC ∧ s.tileLive t ∧ !(s.tiles[t]).trowel.fold then
    logFold t 1 degC (s.modTrowel t fun w => { w with fold := true }) else s)

/-- FOLD_BACK_EXIT: the diode reads below 105 degC. -/
def execFoldBackExit (t : TileId) (degC : Int) (s : State) : Result :=
  .next (if degC < 105 ∧ (s.tiles[t]).trowel.fold then
    logFold t 0 degC (s.modTrowel t fun w => { w with fold := false }) else s)

/-- CHOP_PERIOD_START: every (CHOP + 1) * 4 DAC samples of a current-mode pulse the trowel switches on, having been off since the
period's trip or its end, and the ramps of the chosen comparator and of one with RPER 0 restart (R92, R158 to R160). -/
def execChopPeriodStart (t : TileId) (s : State) : Result :=
  .next (
    let w := (s.tiles[t]).trowel
    if s.fastOn && s.trowelMode t == 4 && w.play == .playing && !w.cut && decide (w.chopAt ≤ s.aon.fck) then
      periodStarts t (fun c => s.currentCmp t c || (s.tiles[t]).rper c == 0)
        (s.modTrowel t fun w => { w with chopOn := true, chopAt := w.chopAt + 32 * (w.chop + 1) })
    else s)

end Sys2Proof.Machine
end

