-- ==== Sys2Proof/Machine/Clocks.lean ====
section
/-!
DEFINITION. SCK, SYSTIME and its discipline (R16 to R19, R258), the scrubber's pace (R313), wakes (R277, R419) and the fast
clocks (R13 to R15, R23).
-/
namespace Sys2Proof.Machine

open Sys2Proof

/-! ### SYSTIME -/

/-- The later of two SYSTIME values less than half the range apart. -/
def later (a b : BitVec 64) : BitVec 64 := if (b - a).msb then a else b

def clamp64 (x : Int) : Int := max (-64) (min 64 x)

/-- What discipline adds at a tick, at most 64 units either way, and the offset still to slew (R18, R258). The rate correction runs
on in every link state, exact up to its rounding. The offset closes while the link is in L0: by all that the tick allows while it is
above 1 us, else by a free share that is not 0 (log 10, log 31). -/
def discipline (s : State) : Int × Int × State :=
  let slew := if s.linkUp && !s.link.inL1 then s.aon.slew else 0
  if slew = 0 ∧ s.aon.ptmRate = 0 then (0, s.aon.slew, s)
  else
    let n := s.aon.ptmRate.toInt * 48828125
    let (up, s) : Bool × State := if n % 10 ^ 10 = 0 then (false, s) else s.drawBit
    let rate := clamp64 (n / 10 ^ 10 + if up then 1 else 0)
    if slew = 0 then (rate, s.aon.slew, s)
    else
      let (w, s) := s.drawWord
      let most := min 64 slew.natAbs
      let part : Int := (if 16000 < slew.natAbs then most else w.toNat % most + 1 : Nat)
      let c := clamp64 (rate + if slew < 0 then -part else part)
      (c, slew - (c - rate), s)

/-- A tick of SYSTIME: 488,281 units, one more every fourth tick, and the discipline (R16, R18); realignment of the
interpolated value, which holds where it is ahead (R17). -/
def tickTime (s : State) : State :=
  let (c, left, s) := discipline s
  let k := s.aon.ticks + 1
  let base := s.aon.sysBase + BitVec.ofInt 64 (488281 + (if k % 4 = 0 then 1 else 0) + c)
  { s with aon := { s.aon with
    ticks := k, slew := left, sysBase := base, sysNow := later base s.aon.sysNow, interp := 0, interpFrom := base
    fck := if s.clk.fast = .stopped then s.aon.fck + 36621 else s.aon.fck
    enc := s.aon.enc.map fun e => { e with tickCounts := (0 :: e.tickCounts).take 64 } } }

/-- SCK_TICK: SYSTIME, the vote, and SCRUB_RATE words of the background pass while fast clocks run (R16, R313, R314). -/
def execSckTick (s : State) : Result :=
  .next (if !s.aon.up then s
    else
      let s := tickTime s
      if !s.serving then s
      else
        let s := scrubVote s
        if s.scrubRuns && s.fastOn then scrubAdvance s.scrubRate s else s)

/-- SCRUB_BURST: every 64 ticks 64 * SCRUB_RATE words in ARMED with fast clocks stopped; it is no wake (R313). -/
def execScrubBurst (s : State) : Result :=
  .next (if s.scrubRuns && s.pwr.mode == .armed && s.clk.fast == .stopped && decide (s.scrub.burstAt + 64 ≤ s.aon.ticks) then
      scrubAdvance (64 * s.scrubRate) { s with scrub := { s.scrub with burstAt := s.aon.ticks } }
    else s)

/-- SCRUB_STARVATION_GRANT: one access, once the scrubber has waited 4,096 FCK cycles for it (R313). -/
def execScrubStarvationGrant (s : State) : Result :=
  .next (if s.scrubRuns && s.fastOn && decide (s.scrub.accAt + 4096 ≤ s.aon.fck) then scrubAdvance 1 s else s)

/-- A PTM dialogue is due: every 1,024 ticks in L0, every 32,768 in L1 with PTM_KEEP (R258). -/
def State.ptmDue (s : State) : Bool :=
  match s.aon.ptmAt with
  | none => true
  | some k => decide (k + (if s.link.inL1 then 32768 else 1024) ≤ s.aon.ticks)

/-- PTM_DIALOGUE: the first since the AON supply came up sets SYSTIME in one step, later ones slew; it needs a link in L0
with PTM enabled, or one that PTM_KEEP brings back from L1 (R18, R19, R258). The step makes the host's time the tick base, so the
next tick adds its whole step to it (DESIGN CHOICE, log 31). -/
def execPtmDialogue (host : BitVec 64) (rate : BitVec 16) (s : State) : Result :=
  .next (if s.aon.up && s.linkUp && s.link.ptmEn && !s.link.d3hot && (!s.link.inL1 || s.aon.pwrCtrl.getLsbD 8) && s.ptmDue then
      let s := linkWake s
      let off := (s.aon.sysNow - host).toInt
      let sat := BitVec.ofInt 32 (max (-(2 ^ 31)) (min (2 ^ 31 - 1) off))
      let first := !s.aon.ptmAligned
      let old := s.aon.sysNow
      let s := { s with aon := { s.aon with
        ptmAt := some s.aon.ticks, ptmOffset := sat, ptmRate := rate, ptmDialogues := s.aon.ptmDialogues + 1, ptmAligned := true
        slew := if first then 0 else -off } }
      if first then
        logPtmStep old host
          { s with aon := { s.aon with sysBase := host, sysNow := host, interpFrom := host, interp := 0 } }
      else s
    else s)

/-! ### Wakes -/

/-- WAKE_TIMER_EXPIRY: (SYSTIME[47:16] - WAKE_TIME) mod 2^32 below 2^31 clears TIMER_EN and is a wake (R419). -/
def execWakeTimerExpiry (s : State) : Result :=
  .next (
    let t : Word := (s.aon.sysBase >>> 16).setWidth 32
    if s.aon.up && s.aon.wakeCtrl.getLsbD 31 && !(t - s.aon.wakeTime).msb then
      wake 4 { s with aon := { s.aon with wakeCtrl := s.aon.wakeCtrl &&& 0x7FFFFFFF#32 } }
    else s)

/-- SCHEDULED_WAKE: an ARM action, a sync or a commit point with a time is pending (R277). -/
def State.scheduled (s : State) : Bool :=
  !s.syncs.isEmpty || (s.tiles.toList.any fun x => x.eng.arm.isSome) ||
    (match s.coat with
      | some c => match c.point with
        | some (_, .time _, _) => true
        | _ => false
      | none => false)

/-- The earliest time that is pending, of a sync, an ARM action or a commit point, lies at most 20 us and a tick ahead (R277). -/
def State.scheduledSoon (s : State) : Bool :=
  let soon := fun t : BitVec 64 => (t - s.aon.sysBase - 808282#64).msb
  (s.syncs.any fun x => x.due.isSome || soon x.time) ||
    (s.tiles.toList.any fun x => match x.eng.arm with
      | some a => (a.1 - s.aon.sysBase.setWidth 32 - 808282#32).msb
      | none => false) ||
    (match s.coat with
      | some c => match c.point with
        | some (_, .time t, _) => soon t
        | _ => false
      | none => false)

/-- SCHEDULED_WAKE: no later than 20 us before the time (R277). -/
def execScheduledWake (s : State) : Result := .next (if s.scheduled then wake 7 s else s)

/-! ### Fast clocks -/

/-- QCK_USABLE: 100 ns after the wake clocked logic runs, SYSTIME interpolates from the tick base, the generators take their
columns up again, paused SARs resume, the filters of comparators and pins run, and the crossbars take their sources' levels (R13, R17, R75, R133,
R164, R168). -/
def execQckUsable (s : State) : Result :=
  .next (if s.clk.fast = .starting ∧ s.clk.qckAt ≤ s.aon.fck then
      let s := { s with
        clk := { s.clk with fast := .qck }
        aon := { s.aon with
          interp := 0, interpFrom := s.aon.sysBase
          enc := s.aon.enc.map fun e => { e with intervals := [], lastAt := none } } }
      let s := allTiles.foldl (fun s t => if s.tileLive t then sarResume t s else s) (retake s)
      let s := pinsRestart s
      resample (allTiles.foldl (fun s t => cmpRefilter t .b (cmpRefilter t .a s)) s)
    else s)

/-- A PLL entry: attempt 2 decides (R15, R324). -/
def logPll (cls : LClass) (s : State) : State := log cls 0x38 srcModule 2 0 0 s

/-- PLL_LOCK: no sooner than 12 us after the PLL started, changeover is due; a lock at the second attempt is a transient fault
(R14, R15). -/
def execPllLock (s : State) : Result :=
  .next (match s.clk.pll with
    | .locking again =>
      if s.aon.fck < s.clk.pllAt + usFck 12 then s
      else
        let s := { s with clk := { s.clk with pll := .locked, changeoverDue := true, lockAt := s.aon.fck } }
        if again then logPll .transient s else s
    | _ => s)

/-- PLL_LOCK_TIMEOUT: 50 us without lock; one restart, then a lasting fault and QCK until the clocks stop (R15). -/
def execPllLockTimeout (s : State) : Result :=
  .next (if s.aon.fck < s.clk.pllAt + usFck 50 then s else match s.clk.pll with
    | .locking false => { s with clk := { s.clk with pll := .locking true, pllAt := s.aon.fck } }
    | .locking true => logPll .lasting { s with clk := { s.clk with pll := .failed } }
    | _ => s)

/-- The module's fast clocks stop: SARs without KEEP pause, SYSTIME stands until the base reaches it (R17, R133). -/
def stopClocks (s : State) : State :=
  let s := if s.fastOn then allTiles.foldl (fun s t => sarPause t s) s else s
  { s with clk := { stopFck := s.aon.fck, stopTick := s.aon.ticks } }

/-- A stroke generator is active: a product has columns to fire and its encoder has counted in the window of R74
(R23, R67, log 31). -/
def State.generating (s : State) : Bool :=
  allHeads.any fun h => (s.heads[h]).products.any fun p =>
    !p.done && (s.aon.enc[p.jdef.encoder]).tickCounts.any (· != 0)

/-- CHANGEOVER: from QCK to FCK while no generator produces columns; where one does, its next stroke boundary changes over
(R14, R84). -/
def execChangeover (s : State) : Result := .next (if s.generating then s else changeover s)

/-- The engine is running outside SLEEP: a WAIT with a timeout counts as running (R23, R193). -/
def Engine.works (e : Engine) : Bool :=
  e.st == .running || (e.st == .sleeping && match e.stall with
    | some (.waitEv _ _ (some _)) => true
    | _ => false)

/-- What keeps the fast clocks of an ARMED module running (R23). A column that waits for its count keeps none (R67). -/
def State.clockWork (s : State) : Bool :=
  s.generating ||
    (allHeads.any fun h => (s.heads[h]).pass.isSome ||
      match (s.heads[h]).search with
      | some y => y.desc.isSome || y.dropsLeft != 0
      | none => false) ||
    (allTiles.any fun t =>
      let x := s.tiles[t]
      s.tileLive t && (x.trowel.listen.isSome || x.trowel.current.isSome ||
        (match x.trowel.due with
          | some d => d.by_ != .column
          | none => false) ||
        (x.eng.works && !x.fenced && !x.inReset) || (x.sar.en && x.adcKeep))) ||
    (s.sts.toList.any fun r => r.isOpen && r.mirrorDue) || s.scheduledSoon

/-- FAST_CLOCK_STOP: in ARMED, with nothing that holds the clocks (R23). -/
def execFastClockStop (s : State) : Result :=
  .next (if s.pwr.mode = .armed && s.pwr.change.isNone && s.fastOn && !s.clockWork then stopClocks s else s)

end Sys2Proof.Machine
end

