-- ==== Sys2Proof/Machine/Power.lean ====
section
/-!
DEFINITION. Power states and their steps (R266 to R270), rails (R94, R275, R276), the grant (R259 to R263), FAULT_HOLD
(R273, R274), references (R136, R137). A step downward takes effect when it begins, one upward when it ends (log 28).
-/
namespace Sys2Proof.Machine

open Sys2Proof

/-! ### Rails (R275) -/

/-- ARG0 and SOURCE of RAIL_START (R324). -/
def railCode : Rail → Nat
  | .pvh p => p.val | .vddCore => 8 | .vdda => 9 | .vio => 10 | .v18 => 11 | .hlv => 12
def logRail (cls : LClass) (r : Rail) (s : State) : State :=
  let src := match r with
    | .pvh p => srcPanel p
    | _ => srcModule
  log cls 0x39 src (arg (railCode r)) 0 0 s

/-- The reservoir is measured at each rail enable: below 30 uF recovery is off and CRS_LOW is ledgered (R94). -/
def measureCrs (p : PanelId) (uF : Nat) (s : State) : State :=
  if (s.panels[p]).crsDue then
    let s := s.modPanel p fun x => { x with crsDue := false, crsCap := satNat 16 uF, crsOk := decide (30 ≤ uF) }
    if uF < 30 then log .lasting 0x16 (srcPanel p) (arg p.val) (arg uF) 0 s else s
  else s

/-- The rail is good. -/
def railUp (r : Rail) (uF : Nat) (s : State) : State :=
  match r with
  | .vdda => { s with pwr := { s.pwr with vddaGood := true } }
  | .pvh p => measureCrs p uF (s.modPanel p fun x => { x with pvhOn := true, pvhOk := true })
  | .hlv => { s with pwr := { s.pwr with hlvOk := true, hrstHold := true, hlvAt := s.aon.fck } }
  | _ => s

/-- RAIL_GOOD: a PVH rail after its ramp; at the second attempt with a transient entry (R93, R321). -/
def execRailGood (r : Rail) (uF : Nat) (s : State) : Result :=
  .next (if s.railStarting r && (s.railRamp r == 0 || s.railRan r (s.railRamp r)) then
      let again := s.pwr.railTried.contains r
      let s := railUp r uF s
      if again then
        let left := s.pwr.railTried.filter (· != r)
        let ch := s.pwr.change.map fun c => { c with again := true }
        noteRails (logRail .transient r { s with pwr := { s.pwr with railTried := left, change := ch } })
      else noteRails s
    else s)

/-- The panel's rail is off and discharged. -/
def railDown (p : PanelId) (s : State) : State :=
  s.modPanel p fun x => { x with pvhOn := false, pvhOk := false, crsDue := true }
def hlvDown (s : State) : State := { s with pwr := { s.pwr with hlvOk := false, hrstHold := true } }

/-- Under hardware sequencing, rails that nothing wants are taken down. -/
def dropRails (s : State) : State :=
  let s := if s.railWanted .hlv then s else hlvDown s
  if s.hostSeq then s
  else
    let s := allPanels.foldl (fun s p => if s.railWanted (.pvh p) then s else railDown p s) s
    if s.railWanted .vdda then s else { s with pwr := { s.pwr with vddaGood := false } }

/-- RAIL_START_TIMEOUT: 5 ms beyond the ramp (log 43); one retry; then the command completes with LASTING, the states being as this step found them. A
rail that only slews to a new VSET is not starting (R93). -/
def execRailStartTimeout (r : Rail) (s : State) : Result :=
  let starting := s.railStarting r && s.railRan r (s.railRamp r + 5000) && match r with
    | .pvh p => (s.panels[p]).crsDue
    | _ => true
  .next (if !starting then s
    else if !s.pwr.railTried.contains r then noteRails { s with pwr := { s.pwr with
      railTried := r :: s.pwr.railTried, railFrom := s.pwr.railFrom.filter fun x => x.1 != r } }
    else
      let s := logRail .lasting r { s with pwr := { s.pwr with railTried := s.pwr.railTried.filter (· != r) } }
      match s.pwr.change with
      | some c =>
        if s.arming then noteRails (refuse 0x02 c.desc .lasting (dropRails { s with pwr := { s.pwr with change := none } })) else s
      | none => s)

/-! ### What a panel does when it leaves and enters ARMED (R208, R267) -/

/-- A tile whose panel leaves ARMED or ACTIVE: no comparator, SAR or trowel runs and the engine is STOPPED with its
registers lost. -/
def tileRetain (t : TileId) (s : State) : State :=
  let x := s.tiles[t]
  let s := if x.cmpA.powered then cmpPowerDown t .a s else s
  let s := if x.cmpB.powered then cmpPowerDown t .b s else s
  let s := sarCut t s
  let s := if x.fenced then s else s.modEng t Engine.retained
  haltTrowel t (s.modTrowel t fun w => { w with due := none })

/-- ARMED or ACTIVE to RETAIN. -/
def panelRetain (p : PanelId) (s : State) : State :=
  let s := (tilesOf p).foldl (fun s t => tileRetain t s) s
  let s := { s with pwr := { s.pwr with panels := s.pwr.panels.set p .retain } }
  s.modPanel p fun x => { x with refOk := false, refSeen := false, frames := [], portWords := [] }

/-- A SAR whose T_ADC.EN is set starts with its panel, or waits for fast clocks. -/
def tileArm (t : TileId) (s : State) : State :=
  let s := s.modTrowel t fun w => { w with clipWarned := false }
  if (s.tiles[t]).adcEn && !(s.tiles[t]).sar.en then sarStart t 8 s else s

/-- RETAIN to ARMED: line buffers primed, trowels to their idle levels (R88, R312). -/
def panelArm (p : PanelId) (s : State) : State :=
  let now := s.aon.fck
  let s := s.modPanel p fun x => { x with refAt := now }
  let s := { s with
    pwr := { s.pwr with panels := s.pwr.panels.set p .armed }
    mem := { s.mem with errs := s.mem.errs.filter fun e => !(e.loc.region == 12 && e.loc.unit == p.val) } }
  clipCheck (tilesOf p) ((tilesOf p).foldl (fun s t => tileArm t s) s)

/-! ### The steps of R269 -/

/-- The steps a change needs, in order; a kind with nothing to do is skipped. -/
def State.stepsFor (s : State) (goal : Mode) (ps : Vector PState 8) : List PowerStep :=
  let m := s.pwr.mode.code
  let g := goal.code
  let down : Nat → Bool := fun k => (decide (k ≤ m) && decide (g < k)) ||
    allPanels.any fun p => decide (k ≤ (s.pstate p).code) && decide (ps[p].code < k)
  let up : Nat → Bool := fun k => (decide (m < k) && decide (k ≤ g)) ||
    allPanels.any fun p => decide ((s.pstate p).code < k) && decide (k ≤ ps[p].code)
  (([(PowerStep.activeToArmed, down 3), (.armedToStandby, down 2), (.standbyToDormant, down 1), (.dormantToStandby, up 1),
     (.standbyToArmed, up 2), (.armedToActive, up 3)] : List (PowerStep × Bool)).filter (·.2)).map (·.1)

/-- Panels that satisfy a condition on present and goal state take an action. -/
def eachPanel (f : PState → PState → Bool) (c : Change) (act : PanelId → State → State) (s : State) : State :=
  allPanels.foldl (fun s p => if f (s.pstate p) c.panels[p] then act p s else s) s

def setPState (x : PState) (p : PanelId) (s : State) : State :=
  { s with pwr := { s.pwr with panels := s.pwr.panels.set p x } }
def setMode (m : Mode) (s : State) : State := { s with pwr := { s.pwr with mode := m } }

/-- The change is over: its completion (R269, R282). -/
def changeDone (c : Change) (s : State) : State :=
  finish 0x02 c.desc (if c.again then .okTransient else .ok) 0 0
    (reRequest false { s with pwr := { s.pwr with change := none } })

/-- A step begins: what a step downward does, and the start of the PLL. The step to DORMANT posts the completion; the
service domain powers down 1 ms later. -/
def beginStep (k : PowerStep) (c : Change) (s : State) : State :=
  match k with
  | .activeToArmed =>
    let s := eachPanel (fun x y => x == .active && y != .active) c (setPState .armed) s
    if s.pwr.mode = .active ∧ c.goal ≠ .active then setMode .armed s else s
  | .armedToStandby =>
    let s := eachPanel (fun x y => x.live && !y.live) c panelRetain s
    dropRails (if s.pwr.mode.up && !c.goal.up then stopClocks (setMode .standby s) else s)
  | .standbyToDormant =>
    let s := eachPanel (fun x y => x != .off && y == .off) c (fun p s => setPState .off p (primePanel p s)) s
    let s := resamplePins s
    if c.goal = .dormant then
      changeDone c { s with pwr := { s.pwr with dormantDue := true, dormantAt := s.aon.fck } }
    else s
  | .armedToActive =>
    if c.goal = .active ∧ s.pwr.mode ≠ .active ∧ s.clk.fast = .stopped then
      { s with clk := startingClocks s.clk s.aon.fck }
    else s
  | _ => s

/-- The step that runs may end. -/
def State.stepReady (s : State) (c : Change) : PowerStep → Bool
  | .standbyToArmed => s.hostSeq || stepRails.all fun r => !s.railWanted r || s.railGood r
  | .armedToActive =>
    !(c.goal == .active && s.pwr.mode != .active) || s.clk.fast == .fck || (s.clk.fast == .qck && s.clk.pll == .failed)
  | _ => true

/-- A step ends: what a step upward has done. -/
def endStep (k : PowerStep) (c : Change) (s : State) : State :=
  match k with
  | .dormantToStandby => eachPanel (fun x y => x == .off && y != .off) c (fun p s =>
      (setPState .retain p s).modPanel p fun x => { x with calDue := true }) s
  | .standbyToArmed =>
    let s := if !s.pwr.mode.up && c.goal.up then setMode .armed s else s
    eachPanel (fun x y => !x.live && y.live) c panelArm s
  | .armedToActive =>
    let s := if c.goal = .active then setMode .active s else s
    eachPanel (fun _ y => y == .active) c (setPState .active) s
  | _ => s

/-- The next step begins, or the change is over. -/
def nextStep (c : Change) (steps : List PowerStep) (s : State) : State :=
  match steps with
  | [] => noteRails (changeDone c s)
  | k :: _ =>
    let c := { c with steps }
    noteRails (beginStep k c { s with pwr := { s.pwr with change := some c } })

/-- POWER_STEP_COMPLETE. -/
def execPowerStepComplete (s : State) : Result :=
  .next (match s.pwr.change with
    | some c => match c.steps with
      | k :: rest => if s.stepReady c k then nextStep c rest (endStep k c s) else s
      | [] => s
    | none => s)

/-! ### SET_POWER_STATE (R268) -/

def modeOf : Nat → Mode
  | 0 => .dormant | 1 => .standby | 2 => .armed | _ => .active
def pstateOf : Nat → PState
  | 0 => .off | 1 => .retain | 2 => .armed | _ => .active

/-- Resulting states; 0xFF keeps. -/
def State.goalMode (s : State) (d : Desc) : Mode := if d.u 24 1 = 255 then s.pwr.mode else modeOf (d.u 24 1)
def State.goalPanel (s : State) (d : Desc) (p : PanelId) : PState :=
  if d.u (28 + p.val) 1 = 255 then s.pstate p else pstateOf (d.u (28 + p.val) 1)

/-- Offset of a value out of range, or of a panel state above the module's. -/
def State.powerFault (s : State) (d : Desc) : Option Nat :=
  if 3 < d.u 24 1 ∧ d.u 24 1 ≠ 255 then some 24
  else (allPanels.find? fun p =>
    (decide (3 < d.u (28 + p.val) 1) && d.u (28 + p.val) 1 != 255) ||
      decide ((s.goalMode d).code < (s.goalPanel d p).code)).map fun p => 28 + p.val

/-- A placed stage of the panel (R268). -/
def State.panelPlaced (s : State) (p : PanelId) : Bool := s.portPlaced p || (tilesOf p).any s.isPlaced

/-- R268's STATE conditions on armed jobs and placed stages. -/
def State.powerBarred (s : State) (goal : Mode) (ps : Vector PState 8) : Bool :=
  (s.anyArmed && !goal.up) || allPanels.any fun p =>
    (s.armedPanel p && !ps[p].live) || (s.pstate p != .off && ps[p] == .off && s.panelPlaced p)

/-- A rail that the resulting state needs is not enabled and good (R268). -/
def State.railsShort (s : State) (ps : Vector PState 8) : Bool :=
  let live := allPanels.filter fun p => ps[p].live
  !live.isEmpty && (!(s.pwr.vddaEn && s.pwr.vddaGood) || live.any fun p => !(s.pwr.pvhEn[p] && (s.panels[p]).pvhOk))

/-- Leaving FAULT_HOLD: STANDBY, nFAULT released (R274). -/
def leaveFaultHold (s : State) : State :=
  { s with pwr := { s.pwr with mode := .standby, fcause := 0, fclear := false, nfault := s.pwr.ioOff } }

def execSetPowerState (d : Desc) (s : State) : Result :=
  runDesc 0x02 d (headerFault d 0 .none .unbound [(25, 3), (36, 28)]) true (fun s =>
    let goal := s.goalMode d
    let ps : Vector PState 8 := Vector.ofFn (s.goalPanel d)
    if s.pwr.change.isSome || s.pwr.dormantDue then refuse 0x02 d .busy s
    else if s.pwr.mode = .faultHold then
      if d.u 24 1 ≠ 1 ∨ (allPanels.any fun p => d.u (28 + p.val) 1 != 255) ∨ !s.pwr.fclear then refuse 0x02 d .state s
      else okay 0x02 d 0 (leaveFaultHold s)
    else match s.powerFault d with
      | some off => badField 0x02 d off s
      | none =>
        if s.coat.isSome then refuse 0x02 d .busy s
        else if s.powerBarred goal ps || (goal == .dormant && !s.link.l12En) || (s.hostSeq && s.railsShort ps) then
          refuse 0x02 d .state s
        else if s.pwr.grant.toNat < s.allocFor goal ps s.pwr.hlvCtrl then refuse 0x02 d .power s
        else nextStep { desc := d, goal, panels := ps, steps := [] } (s.stepsFor goal ps) s) s

/-! ### The grant (R259, R263) -/

/-- Result bytes 8 to 13 of GRANT_POWER: grant, allocation and request in 10 mW. -/
def State.grantResult (s : State) : Nat :=
  s.pwr.grant.toNat + min s.alloc 65535 * 2 ^ 16 + min s.requestFor 65535 * 2 ^ 32

def execGrantPower (d : Desc) (s : State) : Result :=
  runDesc 0x03 d (headerFault d 0 .none .unbound [(28, 36)]) true (fun s =>
    let mw := d.u 24 4
    let done := fun (st : Status) (off : Nat) (s : State) => finish 0x03 d st off s.grantResult s
    if mw = 0xFFFFFFFF then done .ok 0 s
    else if mw < 1000 ∨ 125000 < mw then done .badField 24 s
    else if s.aon.limit.toNat * 100 < mw ∨ mw < s.alloc * 10 then done .power 0 s
    else done .ok 0 { s with pwr := { s.pwr with grant := BitVec.ofNat 16 (mw / 10) } }) s

/-- An accepted LIMIT below the grant cuts it (R263). -/
def grantCut (lim : Nat) (s : State) : State :=
  if lim * 10 < s.pwr.grant.toNat ∧ s.serving then
    let old := s.pwr.grant.toNat
    raiseEvent .grantCut noUnit (log .info 0x3C srcModule (arg old) (arg (lim * 10)) 0
      { s with pwr := { s.pwr with grant := BitVec.ofNat 16 (lim * 10) } })
  else s

/-! ### Measurement (R262, R265, R399) -/

/-- Three windows over the grant withhold every fire; one window at 95 % of it or less ends that. -/
def overGrant (pin : Nat) (s : State) : State :=
  let g := s.pwr.grant.toNat
  let n := if g < pin then min 3 (s.pwr.overWindows + 1) else 0
  let trips := n == 3 && s.pwr.overWindows == 2
  let s := { s with pwr := { s.pwr with overWindows := n, withhold := s.pwr.withhold && decide (95 * g < 100 * pin) } }
  if trips then
    raiseEvent .powerOver noUnit (log .lasting 0x3B srcModule (arg g) (arg pin) 0
      { s with pwr := { s.pwr with overSeen := true, withhold := true } })
  else s

/-- A rail voltage in 10 mV lies within 2 % of the set value (R93). -/
def Panel.nearSet (x : Panel) (v : Nat) : Bool :=
  let set := 5 * x.rail50
  decide (50 * (max v set - min v set) ≤ set)

/-- A measured voltage lies within 3 % of its nominal value, in mV (R275, R276). -/
def near3 (nominal v : Nat) : Bool := decide (100 * (max v nominal - min v nominal) ≤ 3 * nominal)

/-- HLV's voltage in mV by VSEL (R276). -/
def hlvSet (ctrl : Word) : Nat :=
  match Word.field ctrl 25 24 with
  | 1 => 3300 | 2 => 5000 | _ => 1800

/-- VDDA and HLV as a window has measured them: outside 3 % a rail is good no longer, and below 90 % of VSEL HRST is asserted
(R275, R276). -/
def railsSeen (vdda hlv : Nat) (s : State) : State :=
  let set := hlvSet s.pwr.hlvCtrl
  let low := s.pwr.hlvOk && decide (10 * hlv < 9 * set)
  noteRails { s with pwr := { s.pwr with
    vddaGood := s.pwr.vddaGood && near3 3300 vdda, hlvOk := s.pwr.hlvOk && near3 set hlv, hrstHold := s.pwr.hrstHold || low } }

/-- POWER_WINDOW: a rail that has left its value by more than 2 % (PVH) or 3 % (VDDA, HLV) is good no longer (R93, R275, R276);
PWR_MEAS, PWR_PEAK, RAIL_MEAS and PNL_PVHMEAS of one window; reservoir voltages are free (log 29). -/
def execPowerWindow (pin vin : BitVec 16) (rails pvh : List Word) (s : State) : Result :=
  .next (if !s.aon.up then s
    else
      let v := satNat 12 vin.toNat
      let s := { s with pwr := { s.pwr with
        pin, vin := v
        pinMax := if s.pwr.pinMax.toNat < pin.toNat then pin else s.pwr.pinMax
        vinMin := if v.toNat < s.pwr.vinMin.toNat then v else s.pwr.vinMin
        railMeas := Vector.ofFn fun k => rails.getD k.val 0 } }
      let s := allPanels.foldl (fun s p =>
        let on := (s.panels[p]).pvhOn
        let (w, s) : BitVec 64 × State := if on then s.drawWord else (0, s)
        let m := pvh.getD p.val 0
        s.modPanel p fun x =>
          { x with pvhMeas := m, crsV := w.setWidth 16, pvhOk := x.pvhOk && x.nearSet (Word.field m 31 16) }) s
      let volts := fun k : Nat => Word.field (rails.getD k 0) 31 16
      let s := railsSeen (volts 1) (volts 4) s
      if s.serving then overGrant pin.toNat s else s)

/-! ### HLV (R276) -/

/-- HLV_LIMIT_TIMEOUT: 10 ms at the limit. -/
def execHlvLimitTimeout (s : State) : Result :=
  .next (if s.pwr.hlvOk && decide (s.pwr.hlvAt + usFck 10000 ≤ s.aon.fck) then raiseEvent .powerOver noUnit { s with pwr := { s.pwr with hlvOver := true } } else s)
/-- HRST_RELEASE: 1 ms after HLV became good. -/
def execHrstRelease (s : State) : Result :=
  .next (if s.pwr.hlvOk && decide (s.pwr.hlvAt + usFck 1000 ≤ s.aon.fck) then { s with pwr := { s.pwr with hrstHold := false } }
    else s)

/-! ### References (R136, R137) -/

/-- PNL_REF.SEL names VREFINp. -/
def Panel.refExt (x : Panel) : Bool := Word.field x.ref 25 24 == 1

/-- Time from the reference's start or change to REFOK in us (R136). -/
def Panel.refTime (x : Panel) : Nat :=
  match Word.field x.ref 25 24 with
  | 1 => 200 | 2 => 5 | _ => 40

/-- The reference runs and has settled by now, and REFOK is not set yet (R136, R137). -/
def State.refDue (s : State) (p : PanelId) : Bool :=
  let x := s.panels[p]
  (s.pstate p).live && s.pwr.mode.up && !x.refOk && !x.refFault && decide (x.refAt + usFck x.refTime ≤ s.aon.fck)

/-- REFOK_SETTLE: the comparators of the panel power up (R155). -/
def execRefokSettle (p : PanelId) (s : State) : Result :=
  .next (if s.refDue p then cmpPanelUp p (s.modPanel p fun x => { x with refOk := true, refSeen := true }) else s)

/-- REF_MEASURE: VREFINp outside 1.000 V to 3.300 V. -/
def execRefMeasure (p : PanelId) (mv : BitVec 12) (s : State) : Result :=
  .next (
    let x := s.panels[p]
    if (s.pstate p).live && x.refExt then
      let bad := decide (mv.toNat < 1000) || decide (3300 < mv.toNat)
      let s := s.modPanel p fun x => { x with vext := mv, refFault := bad, refOk := x.refOk && !bad }
      if bad && !x.refFault then log .lasting 0x20 (srcPanel p) (arg p.val) (mv.setWidth 32) 0 s else s
    else s)

/-! ### FAULT_HOLD (R273, R274) -/

/-- SPIT, sweeps and searches of a head end; a job's own ones end with it. -/
def abortPass (h : HeadId) (s : State) : State :=
  let s := match (s.heads[h]).pass with
    | some p =>
      let s := s.modHead h fun x => { x with pass := none }
      match p.desc with
      | some d => refuse (if p.spit then 0x49 else 0x52) d .aborted s
      | none => s
    | none => s
  match (s.heads[h]).search with
  | some y => if y.desc.isSome then searchEnds h y .aborted 0 s else s
  | none => s

/-- A head in FAULT_HOLD: its products end MISSING with cause FAULT and its job is disarmed. -/
def haltHead (h : HeadId) (s : State) : State :=
  let s := abortPass h s
  if (s.heads[h]).armed.isSome then endJob h (stopProducts h .fault s) else stopProducts h .fault s

/-- Entry to FAULT_HOLD. -/
def enterFaultHold (cause : BitVec 3) (s : State) : State :=
  let s := allPanels.foldl (fun s p => if (s.pstate p).live then panelRetain p s else s) s
  let s := allHeads.foldl (fun s h => haltHead h s) s
  let s := allPanels.foldl (fun s p => railDown p s) (hlvDown (stopClocks s))
  let ch := s.pwr.change
  let s := { s with pwr := { s.pwr with
    mode := .faultHold, fcause := cause, fclear := false, nfault := true, change := none, dormantDue := false
    vddaGood := false, vddaEn := false, pvhEn := Vector.replicate 8 false, railTried := [], railFrom := [] } }
  match ch with
  | some c => refuse 0x02 c.desc .aborted s
  | none => s

/-- FAULT_HOLD_TRIP: causes 1 to 6; a further trip is ledgered only, and CLEAR is not reached yet. -/
def execFaultHoldTrip (cause : BitVec 3) (measured : Word) (s : State) : Result :=
  .next (if cause = 0 ∨ cause = 7 ∨ !s.aon.up then s
    else
      let s := if s.pwr.mode = .faultHold then { s with pwr := { s.pwr with fclear := false } } else raiseEvent .faultHold noUnit (enterFaultHold cause s)
      let s := { s with pwr := { s.pwr with tripAt := s.aon.ticks } }
      log .lasting 0x3A srcModule (cause.setWidth 32) measured 0 s)

/-- FAULT_HOLD_CLEAR: the conditions of R274 have held for 64 SCK ticks, which a trip begins again. -/
def execFaultHoldClear (s : State) : Result :=
  .next (if s.pwr.mode = .faultHold ∧ s.pwr.tripAt + 64 ≤ s.aon.ticks then { s with pwr := { s.pwr with fclear := true } } else s)

end Sys2Proof.Machine
end

