-- ==== Sys2Proof/Machine/Service.lean ====
section
/-!
DEFINITION. Integrity commands (R315 to R319, R325): SCRUB_RANGE, READ_LEDGER, RETIRE_PAGE, FIELD_REPAIR, and the replay of a
panel link flit.
-/
namespace Sys2Proof.Machine

open Sys2Proof

/-! ### SCRUB_RANGE (R315) -/

/-- Units of a region. -/
def regionUnits (r : Nat) : Nat := if r ≤ 6 then 512 else if r = 7 then 8 else 1

/-- Words of the range in each unit: first word and number, when the command's bytes name a range of the region. -/
def scrubSpan (r off size : Nat) : Option (Nat × Nat) :=
  let n := regionWords r
  if 8 ∣ off ∧ 8 ∣ size ∧ off < 8 * n ∧ off + size ≤ 8 * n then
    some (off / 8, if size = 0 then n - off / 8 else size / 8)
  else none

/-- The first offending byte of SCRUB_RANGE. -/
def scrubFault (d : Desc) : Option Nat :=
  let r := d.u 24 1
  let first := d.u 26 2
  let count := d.u 28 2
  let off := d.u 32 4
  if 11 < r then some 24
  else if r ≤ 7 ∧ regionUnits r ≤ first then some 26
  else if count = 0 ∨ regionUnits r < first + count then some 28
  else if ¬ (8 ∣ off ∧ off < 8 * regionWords r) then some 32
  else if scrubSpan r off (d.u 36 4) = none then some 36
  else none

/-- Words in the order of a pass: by unit, then by word. -/
def insertLoc (l : Loc) : List Loc → List Loc
  | [] => [l]
  | x :: xs => if l.unit < x.unit ∨ (l.unit = x.unit ∧ l.word ≤ x.word) then l :: x :: xs else x :: insertLoc l xs

/-- Configuration registers whose stored fields lie in a word of a tile's or panel's configuration memory. -/
def cfgRegs (l : Loc) : List Reg :=
  if l.region.val = 6 then
    if h : l.unit < 512 then
      (([.ctrl, .pga, .adc, .cmp .a, .cmp .b, .dac, .trwl, .flt] : List TReg).map (Reg.tile ⟨l.unit, h⟩)).filter fun r =>
        Config.cfgWord r.off % 1024 == l.word
    else []
  else if l.region.val = 7 then
    if h : l.unit < 8 then
      (([.ref, .pvh, .cmpFilt 0, .cmpFilt 1, .listen, .cls0, .cls1, .gmon, .cal] : List PReg).map
        (Reg.panel ⟨l.unit, h⟩)).filter fun r => Config.cfgWord r.off % 8192 == l.word
    else []
  else []

/-- The stored fields of a register become zero. -/
def zeroReg (r : Reg) (s : State) : State :=
  match r with
  | .panel p q => setPanel p q 0 (q.rw p) s
  | .tile t q => setTile t q 0 (q.rw t) s
  | _ => s

/-- A failing word is rewritten as zero with valid check bits (R315 CLEAR). -/
def zeroWord (l : Loc) (s : State) : State :=
  let s := s.dropErr l
  let zeros : List Byte := List.replicate 8 0
  let s := if h : l.unit < 512 then
      let t : TileId := ⟨l.unit, h⟩
      match l.region.val with
      | 0 => s.modTile t fun x => { x with engMem := x.engMem.putBytes (8 * l.word) zeros }
      | 2 | 3 | 4 =>
        s.modTile t fun x => { x with buffer := x.buffer.putBytes (0x4000 * (l.region.val - 1) + 8 * l.word) zeros }
      | 5 => s.modTile t fun x => { x with lutRam := x.lutRam.putBytes (8 * l.word) zeros }
      | _ => s
    else s
  let s := if 8 ≤ l.region.val ∧ l.region.val ≤ 11 then
      sharedSets (sharedBase l.region.val + 8 * l.word) zeros s
    else s
  (cfgRegs l).foldl (fun s r => zeroReg r s) s

/-- Counts of a pass and the state: corrections and lasting failures. -/
def scrubOne (clear : Bool) (l : Loc) (a : (Nat × Nat) × State) : (Nat × Nat) × State :=
  match scrubWord l a.2 with
  | (.corrected, s) => ((a.1.1 + 1, a.1.2), s)
  | (.uncorrectable, s) => ((a.1.1, a.1.2 + 1), if clear then zeroWord l s else s)
  | (_, s) => (a.1, s)

/-- SCRUB_RANGE: units that are fenced or not powered are skipped. FIRST must be 0 for the regions that are one unit (R315),
and counts as reserved there (R6). -/
def execScrubRange (d : Desc) (s : State) : Result :=
  let c := d.u 25 1
  runDesc 0x81 d ((headerFault d 0 .none .unbound []).or
      (if c / 2 ≠ 0 then some 25
       else reservedFault d (if 8 ≤ d.u 24 1 ∧ d.u 24 1 ≤ 11 then [(26, 2), (30, 2), (40, 24)] else [(30, 2), (40, 24)]))) true (fun s =>
    match scrubFault d with
    | some off => badField 0x81 d off s
    | none =>
      let r := d.u 24 1
      let span := (scrubSpan r (d.u 32 4) (d.u 36 4)).getD (0, 0)
      let units := (List.range (d.u 28 2)).map (d.u 26 2 + ·)
      let live := units.filter fun u => s.locLive ⟨Fin.ofNat 16 r, u, 0⟩
      let hit := fun l : Loc =>
        l.region.val == r && live.contains l.unit && decide (span.1 ≤ l.word) && decide (l.word < span.1 + span.2)
      let ls := ((s.mem.errs.map (·.loc)).filter hit).foldl (fun ls l => insertLoc l ls) []
      let a := ls.foldl (fun a l => scrubOne (c == 1) l a) ((0, 0), s)
      okay 0x81 d (live.length * span.2 + min 65535 a.1.1 * 2 ^ 32 + min 65535 a.1.2 * 2 ^ 48) a.2) s

/-! ### READ_LEDGER (R309, R325) -/

/-- The bytes of an entry as READ_LEDGER delivers it: a failing word makes it LEDGER_LOST. -/
def ledgerOut (e : Entry) (s : State) : List Byte × State :=
  let r := (List.range 4).foldl (fun (a : (List (BitVec 64) × Bool) × State) k =>
      let c := checkRead (ledgerLoc e.seq k) a.2
      ((a.1.1 ++ [c.2.1], a.1.2 && c.1), c.2.2)) (([], true), s)
  if r.1.2 then
    ((List.range 4).flatMap fun k => xorMask (r.1.1.getD k 0) 0 ((e.bytes.drop (8 * k)).take 8), r.2)
  else ((List.range 32).map fun k => if k = 10 then 3 else if k = 11 then 7 else 0, r.2)

/-- The oldest sequence number held, or the next one while the ledger is empty. -/
def State.ledgerOldest (s : State) : Word := ((s.ledger.entries.getLast?).map (·.seq)).getD (nextSeq s.ledger.seq)

def execReadLedger (d : Desc) (s : State) : Result :=
  let n := d.u 28 2
  runDesc 0x82 d (headerFault d 0 .buffer .unbound [(31, 33)]) true (fun s =>
    if n = 0 ∨ 4096 < n then badField 0x82 d 28 s
    else if d.len < 32 * n then badField 0x82 d 16 s
    else
      let wanted := fun e : Entry =>
        !(e.seq - BitVec.ofNat 32 (d.u 24 4)).msb && decide (d.u 30 1 ≤ e.cls.code)
      let es := ((s.ledger.entries.reverse).filter wanted).take n
      let oldest := s.ledgerOldest
      let a := es.foldl (fun (a : List Byte × State) e =>
        let r := ledgerOut e a.2
        (a.1 ++ r.1, r.2)) ([], s)
      writeOut 0x82 d [] a.1 (es.length + oldest.toNat * 2 ^ 32) a.2) s

/-! ### RETIRE_PAGE (R317) -/

/-- The pages of a region. -/
def pageOk (region page : Nat) : Bool :=
  match region with
  | 0 => page < 32
  | 2 => 16 ≤ page && page < 32
  | 3 => 32 ≤ page && page < 48
  | 4 => 48 ≤ page && page < 64
  | 5 => page < 2
  | _ => false

/-- A placed stage of the tile uses the resource that a retired page of the region takes from the placer (R218). -/
def State.pageUsed (s : State) (t : TileId) (region : Nat) : Bool :=
  (List.finRange 256).any fun c => match s.chains[c].cdef, s.chains[c].placement with
    | some (stages, links), some pl => pl.stages.any fun p => p.tile == t && match stages[p.stage]? with
        | some g => g.onTile && (match region with
            | 0 => g.kind == kEngine
            | 5 => g.kind == kFabric
            | _ => hasBuffer links p.stage g)
        | none => false
    | _, _ => false

/-- RETIRE_PAGE: where stages must move, the command completes with their coat (R230). -/
def execRetirePage (d : Desc) (s : State) : Result :=
  runDesc 0x83 d (headerFault d 9 .none .unbound [(25, 1), (28, 36)]) true (fun s =>
    let r := d.u 24 1
    let page := d.u 26 2
    let t : TileId := Fin.ofNat 512 d.target.toNat
    if ¬ ([0, 2, 3, 4, 5] : List Nat).contains r then badField 0x83 d 24 s
    else if !pageOk r page then badField 0x83 d 26 s
    else if s.pageRetired (Fin.ofNat 16 r) t page then okay 0x83 d 0 s
    else
      let s := { s with mem := { s.mem with retired := (Fin.ofNat 16 r, t, page) :: s.mem.retired } }
      let s := s.modTile t fun x => { x with degraded := true }
      if s.pageUsed t r then
        if s.hwPlaces then askMove t (some (0x83#8, d)) s else okay 0x83 d 0 (breakChains t s)
      else okay 0x83 d 0 s) s

/-! ### FIELD_REPAIR (R318) -/

/-- Spares of a kind that a bank has left: the fuse map's, less the field repairs made. -/
def State.sparesLeft (s : State) (bank : Nat) (column : Bool) : Nat :=
  (if column then min 2 (Config.spareCols bank) else min 8 (Config.spareRows bank)) -
    (s.sec.repairs.filter fun r => r.bank == bank && r.column == column && r.good).length

def execFieldRepair (d : Desc) (fuse : Attempt) (s : State) : Result :=
  runDesc 0x84 d (headerFault d 6 .none .unbound [(25, 1), (28, 36)]) true (fun s =>
    let bank := d.target.toNat
    let kind := d.u 24 1
    let column := kind == 1
    if 47 < bank then badField 0x84 d 4 s
    else if 1 < kind then badField 0x84 d 24 s
    else if 16 ≤ s.sec.repairs.length || s.sparesLeft bank column = 0 then refuse 0x84 d .noResource s
    else
      let e : Repair := { bank, column, address := BitVec.ofNat 16 (d.u 26 2), good := fuse != .failed }
      let s := { s with sec := { s.sec with repairs := e :: s.sec.repairs } }
      let left := 16 - s.sec.repairs.length
      let note := fun c : LClass => log c 0x06 (unitSrc 5 bank) (arg bank) (arg (kind * 65536 + d.u 26 2)) (arg left) s
      let res := left + s.sparesLeft bank false * 2 ^ 8 + s.sparesLeft bank true * 2 ^ 16
      match fuse with
      | .clean => okay 0x84 d res s
      | .second => finish 0x84 d .okTransient 0 res (note .transient)
      | .failed => refuse 0x84 d .lasting (note .lasting)) s

/-! ### Panel links (R9, R319) -/

/-- Working lanes of a panel link. -/
def Panel.working (x : Panel) : Nat := ((List.range 16).filter fun k => x.lanes.getLsbD k).length

/-- PANEL_LINK_REPLAY: a flit has failed its CRC and is replayed; a second failure retires the lane. What the failed
transaction does at its requester is not part of this step (log 32). -/
def execPanelLinkReplay (p : PanelId) (lane : Fin 16) (replay : Attempt) (s : State) : Result :=
  .next (
    let x := s.panels[p]
    let entry := fun (c : LClass) (kind : Byte) (s : State) =>
      log c kind (unitSrc 9 (16 * p.val + lane.val)) (arg p.val) (arg lane.val) (arg (s.panels[p]).working) s
    if s.pstate p = .off || !x.lanes.getLsbD lane.val then s
    else match replay with
      | .clean => s
      | .second => entry .transient 0x08 (s.modPanel p fun x => { x with replayed := x.replayed + 1 })
      | .failed =>
        let s := s.modPanel p fun x =>
          { x with replayed := x.replayed + 1, failed := x.failed + 1, lanes := x.lanes &&& ~~~(1#16 <<< lane.val) }
        let s := entry .lasting 0x08 s
        if (s.panels[p]).working < 12 then entry .fatal 0x09 s else s)

end Sys2Proof.Machine
end

