-- ==== Sys2Proof/Machine/Supply.lean ====
section
/-!
DEFINITION. The link supply (R249, R250), module reset (R254, R345, R396), DORMANT (R269, R271) and the sideband (R252,
R253).
-/
namespace Sys2Proof.Machine

open Sys2Proof

/-! ### What is kept -/

/-- Fuses and serial store (R254). -/
def Sec.kept (x : Sec) : Sec :=
  { lifecycle := x.lifecycle, pendingLc := x.pendingLc, keys := x.keys, keysOff := x.keysOff, repairs := x.repairs,
    slots := x.slots, store := x.store }
/-- At module reset the lifecycle state that PENDING showed is in force, and RETURNED ends the keys (R340). -/
def Sec.restarted (x : Sec) : Sec :=
  { x.kept with lifecycle := x.pendingLc, keysOff := x.keysOff || x.pendingLc == .returned }

/-- An encoder channel keeps ENC_CFG and its count; ENC_SCALE returns to reset (R396). -/
def Encoder.restarted (e : Encoder) : Encoder := { e with scale := 0, intervals := [], lastAt := none }

/-- The AON domain through a module reset (R396). -/
def Aon.restarted (a : Aon) (cause : BitVec 2) : Aon :=
  { up := a.up, sysBase := a.sysBase, sysNow := a.sysNow, interp := a.interp, interpFrom := a.interpFrom, ticks := a.ticks,
    fck := a.fck, ptmAt := a.ptmAt, ptmAligned := a.ptmAligned, sysHiLatch := a.sysHiLatch, pwrCtrl := a.pwrCtrl &&& 3#32,
    secBoot := a.secBoot, limit := a.limit, resetCause := cause,
    resetCount := if cause = 0 then a.resetCount else a.resetCount + 1, enc := a.enc.map Encoder.restarted }

/-- The module after a module reset: volatile state cleared; host memory, what has been sent, the free-value counter, the
pads and the waiting commands are not the module's. -/
def State.restarted (cause : BitVec 2) (s : State) : State :=
  { aon := s.aon.restarted cause, sec := s.sec.restarted, link := { perst := s.link.perst }, pwr := { inrush := s.pwr.inrush }
    gpio := { pins := s.gpio.pins.map fun x => { pad := x.pad } }
    hostMem := s.hostMem, free := s.free, out := s.out, pending := s.pending }

/-- MODULE_RESET: acts when a start is due with that cause; the bursar's BIST runs once more if it fails, and a second
failure holds the module in reset (R254, R345). -/
def execModuleReset (cause : BitVec 2) (bist : Attempt) (s : State) : Result :=
  .next (if s.aon.up && s.aon.resetDue == some cause then
      let s := resamplePins (s.restarted cause)
      match bist with
      | .clean => s
      | .second => log .transient 0x30 srcModule 0 0 0 s
      | .failed => { s with pwr := { s.pwr with bursarFail := true, nfault := true } }
    else s)

/-! ### The link supply -/

/-- LINK_DETECTION: the signature is there from 3.0 to 5.0 V and disconnected above 10 V; between, it stays as it is. -/
def execLinkDetection (mv : Nat) (s : State) : Result :=
  .next (if s.aon.up then s
    else
      let sig := if 3000 ≤ mv ∧ mv ≤ 5000 then true else s.pwr.signature && decide (5000 < mv) && decide (mv ≤ 10000)
      { s with pwr := { s.pwr with signature := sig } })

/-- LINK_POWER_UP: the pad voltage rises through 41 V: the AON supply comes up and a module reset is due (R250). Damage beyond
the absolute maximum of R407 is not modelled; the module acts on the breach under R273 (log 57). -/
def execLinkPowerUp (mv : Nat) (s : State) : Result :=
  .next (if !s.aon.up && decide (41000 ≤ mv) then
      { s with aon := { resetDue := some 0 }, pwr := { s.pwr with inrush := true, signature := false } }
    else s)

/-- INRUSH_END: 20 ms after the supply came up, at which the model's time began. -/
def execInrushEnd (s : State) : Result :=
  .next (if usFck 20000 ≤ s.aon.fck then { s with pwr := { s.pwr with inrush := false } } else s)

/-- LINK_POWER_LOSS: below 36 V everything but fuses, store and pads is lost. -/
def execLinkPowerLoss (mv : Nat) (s : State) : Result :=
  .next (if s.aon.up && decide (mv < 36000) then
      { aon := { up := false }, sec := s.sec.kept
        link := { perst := s.link.perst }, gpio := { pins := s.gpio.pins.map fun x => { pad := x.pad } }
        hostMem := s.hostMem, free := s.free, out := s.out, pending := s.pending }
    else s)

/-- The module in DORMANT: the AON domain and the pins stay (R266). -/
def State.asleep (s : State) : State :=
  { aon := s.aon, sec := s.sec.kept, link := s.link, jsb := s.jsb
    gpio := { s.gpio with timers := Vector.replicate 16 {} }
    pwr := { mode := .dormant, inrush := s.pwr.inrush, pin := s.pwr.pin, vin := s.pwr.vin, overSeen := s.pwr.overSeen }
    hostMem := s.hostMem, free := s.free, out := s.out, pending := s.pending }

/-- DORMANT_POWER_DOWN: 1 ms after the completion, the service domain, shared memory and tile memories go. -/
def execDormantPowerDown (s : State) : Result :=
  .next (if s.pwr.dormantDue && decide (s.pwr.dormantAt + usFck 1000 ≤ s.aon.fck) then resamplePins s.asleep else s)

/-! ### The sideband -/

/-- A JSB entry, while the ledger runs. -/
def logJsb (cls : LClass) (ty : BitVec 4) (s : State) : State :=
  if s.serving then log cls 0x0D srcModule (ty.setWidth 32) 0 0 s else s

/-- The STATUS frame: module state, nFAULT, LIMIT in 5 W. -/
def State.statusFrame (s : State) : JsbFrame :=
  ⟨0xB, BitVec.ofNat 12 (s.stateCode * 512 + s.pwr.nfault.toNat * 256 + s.aon.limit.toNat / 50)⟩

/-- A good frame arrives: RECEIVED counts it; after a NAK it is the clean repeat (R321). -/
def jsbReceive (ty : BitVec 4) (f : State → State) (s : State) : Result :=
  .next (if !s.aon.up then s
    else
      let again := s.jsb.nakSent
      let s := { s with jsb := { s.jsb with received := satInc s.jsb.received, nakSent := false } }
      f (if again then logJsb .transient ty s else s))

def execJsbPerst (v : BitVec 12) (s : State) : Result :=
  jsbReceive 1 (fun s =>
    if v.getLsbD 0 then endpointReset { s with link := { s.link with perst := true } }
    else { s with link := { s.link with perst := false } }) s

/-- JSB_LIMIT: 150 to 1,250 is accepted and may cut the grant; another value is ledgered; STATUS answers either way. -/
def execJsbLimit (v : BitVec 12) (s : State) : Result :=
  jsbReceive 2 (fun s =>
    let n := v.toNat
    let s := if 150 ≤ n ∧ n ≤ 1250 then grantCut n { s with aon := { s.aon with limit := BitVec.ofNat 16 n } }
      else logJsb .info 2 s
    jsbSend s.statusFrame s) s

/-- JSB_WAKE: leaves DORMANT; ignored in any other state (R271). -/
def execJsbWake (_ : BitVec 12) (s : State) : Result := jsbReceive 3 (fun s => leaveDormant s) s

/-- JSB_MODULE_RESET: 0xA5C only; DORMANT is left by WAKE and LEAVE_DORMANT only (R254, R271). -/
def execJsbModuleReset (v : BitVec 12) (s : State) : Result :=
  jsbReceive 4 (fun s =>
    if v = 0xA5C#12 ∧ s.pwr.mode ≠ .dormant then { s with aon := { s.aon with resetDue := some 1 } } else s) s

def execJsbPoll (_ : BitVec 12) (s : State) : Result := jsbReceive 5 (fun s => jsbSend s.statusFrame s) s

/-- A frame dropped after its repeat failed (R252). -/
def jsbDrop (ty : BitVec 4) (s : State) : State :=
  logJsb .lasting ty { s with jsb := { s.jsb with dropped := satInc s.jsb.dropped } }

/-- JSB_NAK: the module repeats its last frame once; a second NAK drops it. -/
def execJsbNak (_ : BitVec 12) (s : State) : Result :=
  jsbReceive 15 (fun s => match s.jsb.last with
    | none => s
    | some f =>
      if s.jsb.repeated then jsbDrop f.ty { s with jsb := { s.jsb with last := none, repeated := false } }
      else { s with jsb := { s.jsb with sent := satInc s.jsb.sent, repeated := true } }.send (.jsb f)) s

/-- JSB_CRC_ERROR: the first is answered with NAK; the repeat failing drops the frame, whose type is not known (log 10). -/
def execJsbCrcError (s : State) : Result :=
  .next (if !s.aon.up then s
    else if s.jsb.nakSent then
      let (w, s) := s.drawWord
      jsbDrop (w.setWidth 4) { s with jsb := { s.jsb with nakSent := false } }
    else
      let jsb := { s.jsb with sent := satInc s.jsb.sent, naks := satInc s.jsb.naks, nakSent := true }
      { s with jsb }.send (.jsb ⟨0xF, Config.jsbPad 15⟩))

/-- JSB_COLLISION_RETRY: the frame that met a collision goes out again; it counts as sent once. -/
def execJsbCollisionRetry (s : State) : Result :=
  .next (match s.jsb.last with
    | some f => if s.aon.up then s.send (.jsb f) else s
    | none => s)

end Sys2Proof.Machine
end

