-- ==== Sys2Proof/Machine/TallyFrame.lean ====
section
/-!
DEFINITION. The bits of a tally frame as its sender puts them on the bus (R378, R379, R381): true is recessive.
-/
namespace Sys2Proof.Machine

open Sys2Proof

/-- TYPE and payload (R381). -/
def TFrame.typeCode : TFrame → Nat
  | .sync .. => 0 | .hold .. => 1 | .absent .. => 2 | .stitch .. => 3 | .roll .. => 4
def TFrame.payload : TFrame → List Byte
  | .sync at48 groups => natLe 6 at48.toNat ++ natLe 2 groups.toNat
  | .hold reason head concerned => [reason, head] ++ natLe 2 concerned.toNat
  | .absent entries => entries.flatMap fun e => natLe 2 e.toNat
  | .stitch dest action head => natLe 2 dest.toNat ++ [action, head]
  | .roll no period => natLe 2 no.toNat ++ natLe 2 period.toNat

/-- The low `n` bits of a number, most significant first. -/
def msbFirst (n v : Nat) : List Bool := (List.range n).map fun k => v.testBit (n - 1 - k)

/-- CRC-15, polynomial 0x4599, from 0. -/
def crc15 (bits : List Bool) : BitVec 15 :=
  bits.foldl (fun c b => if c.msb != b then (c <<< 1) ^^^ 0x4599#15 else c <<< 1) 0

/-- SOF to PAYLOAD, without stuff bits. -/
def TFrame.head (f : TFrame) (station : BitVec 9) : List Bool :=
  false :: (msbFirst 3 f.typeCode ++ msbFirst 9 station.toNat ++ msbFirst 4 f.payload.length ++
    f.payload.flatMap fun b => msbFirst 8 b.toNat)

/-- After five equal bits one of the opposite value is inserted; `run` bits equal to `last` have just been sent. -/
def stuffed (last : Bool) (run : Nat) : List Bool → List Bool
  | [] => []
  | b :: bs =>
    if b = last ∧ run = 4 then b :: (!b) :: stuffed (!b) 1 bs
    else b :: stuffed b (if b = last then run + 1 else 1) bs

/-- A group of the answer field as its sender leaves it: gap, beacon, and slots that others may drive (R379). -/
def answerGroup (slots : Nat) : List Bool := true :: false :: List.replicate slots true
def TFrame.answerField : TFrame → List Bool
  | .roll .. => (List.replicate 64 (answerGroup 8)).flatten
  | .stitch .. => answerGroup 1
  | _ => []

/-- The frame from SOF to EOF; ACK, its delimiter and EOF are sent recessive. -/
def TFrame.bits (f : TFrame) (station : BitVec 9) : List Bool :=
  let body := f.head station
  stuffed true 0 (body ++ msbFirst 15 (crc15 body).toNat) ++ f.answerField ++ List.replicate 9 true

end Sys2Proof.Machine
end

