-- ==== Sys2Proof/Machine/Tally.lean ====
section
/-!
DEFINITION. The tally bus (R377 to R389): the station's frames, roll call, absence and silence, HOLD, stitch handoffs, and
the two tally commands. How a frame fares on the bus is an operand of its row.
-/
namespace Sys2Proof.Machine

open Sys2Proof

def State.modTally (s : State) (f : Tally → Tally) : State := { s with tally := f s.tally }

/-- The controller is on the bus: it receives (R377), and unless SILENT it drives (R383). -/
def State.tallyListens (s : State) : Bool := s.tally.en && (s.pwr.mode.up || s.pwr.mode == .faultHold)
def State.tallyActive (s : State) : Bool := s.tallyListens && !s.tally.silent

/-! ### Sending (R380) -/

/-- A frame of the station goes onto the bus. -/
def tallyOut (f : TFrame) (s : State) : State := s.send (.tally f (f.bits s.tally.station))

/-- The head of the station's frames contends for the bus. -/
def tallyDrive (s : State) : State :=
  match s.tally.tx with
  | x :: _ => tallyOut x.frame s
  | [] => s

/-- A frame waits for the bus behind the station's earlier ones. -/
def tallyQueue (f : TFrame) (d : Option Desc) (s : State) : State :=
  let idle := s.tally.tx.isEmpty
  let s := s.modTally fun t => { t with tx := t.tx ++ [{ frame := f, desc := d }] }
  if idle then tallyDrive s else s

/-- The frame at the head is done with; the next contends. -/
def tallyNext (s : State) : State := tallyDrive (s.modTally fun t => { t with tx := t.tx.tail })

/-- A TALLY_SEND that waited for its frame completes. -/
def tallyReport (x : TxFrame) (st : Status) (s : State) : State :=
  match x.desc with
  | some d => refuse 0x91 d st s
  | none => s

/-! ### HOLD (R387) -/

def tallyHold (reason : Byte) (concerned : BitVec 16) (s : State) : State :=
  pinsOfSource 2 (s.modTally fun t =>
    { t with hold := true, reason := reason.setWidth 2, holdFrom := concerned.setWidth 9 })

/-! ### Stitch ranges (R385, R386) -/

/-- Ownership of one range changes: at the head's next product boundary, or at once without an armed job. -/
def State.owns (s : State) (x : Stitch) (own : Bool) : Stitch :=
  if s.heads[x.head].armed.isSome then { x with change := some own } else { x with owned := own, change := none }

/-- The station's range that faces another station. -/
def Tally.facing (t : Tally) (station : BitVec 9) : Option Stitch :=
  (t.ranges.toList.filterMap id).find? fun x => x.neighbour == station

/-- The range that faces a station changes hands. -/
def stitchTurn (station : BitVec 9) (own : Bool) (s : State) : State :=
  match s.tally.facing station with
  | none => s
  | some x => s.modTally fun t =>
      { t with ranges := t.ranges.map fun r => if r = some x then some (s.owns x own) else r }

/-- Every owned range is released (R383). -/
def stitchDrop (s : State) : State :=
  s.modTally fun t => { t with ranges := t.ranges.map fun r => r.map fun x => if x.owned then s.owns x false else x }

/-- The byte 3 of a STITCH frame: the head of the range that faces TO, open where no range does. -/
def stitchHead (station : BitVec 9) (s : State) : Byte × State :=
  match s.tally.facing station with
  | some x => (BitVec.ofNat 8 x.head.val, s)
  | none =>
    let (w, s) := s.drawWord
    (w.setWidth 8, s)

/-- A station is declared absent: a range that faces it and is not owned is taken at once (R386). -/
def takeFrom (station : BitVec 9) (s : State) : State :=
  match s.tally.facing station with
  | some x =>
    if x.owned || !s.tallyActive then s
    else tallyQueue (.stitch (station.setWidth 16) 1 (BitVec.ofNat 8 x.head.val)) none s
  | none => s

/-! ### Frames of this station (R380, R386, R387, R389) -/

/-- What a frame does in its sender once it has gone well. -/
def tallySent (x : TxFrame) (s : State) : State :=
  match x.frame with
  | .hold reason _ concerned => tallyHold reason concerned s
  | .stitch dest action _ => stitchTurn (dest.setWidth 9) (action == 1) s
  | _ => s

/-- TALLY_FRAME_ACK: the frame at the head has gone well. -/
def execTallyFrameAck (s : State) : Result :=
  .next (match s.tally.tx with
    | [] => s
    | x :: _ =>
      if !s.tallyActive then s
      else
        let s := if x.failed then s.modTally fun t => { t with retry := satInc t.retry } else s
        tallyNext (tallyReport x .ok (tallySent x s)))

/-- TALLY_FRAME_RETRY: the frame at the head has failed: it is sent once more, then dropped. -/
def execTallyFrameRetry (s : State) : Result :=
  .next (match s.tally.tx with
    | [] => s
    | x :: rest =>
      if !s.tallyActive then s
      else if !x.failed then tallyDrive (s.modTally fun t => { t with tx := { x with failed := true } :: rest })
      else
        let s := tallyReport x .lasting (s.modTally fun t => { t with dropped := satInc t.dropped })
        let s := match x.frame with
          | .stitch dest action head =>
            if action = 1 then
              s.modTally fun t => { t with tx := t.tx ++ [{ frame := .hold 1 head dest }] }
            else s
          | _ => s
        tallyNext s)

/-- TALLY_FRAME_ERROR: a received frame has a stuff or CRC error. -/
def execTallyFrameError (s : State) : Result :=
  .next (if s.tallyListens then
      let s := s.modTally fun t => { t with crcErr := satInc t.crcErr }
      if s.tally.silent then s else s.send .tallyFlag
    else s)

/-! ### Received frames -/

/-- A good frame: it is acknowledged, and wakes with TALLY_EN (R277, R378). A frame of the station's own that waits has lost the
bus to it, and contends again once the bus is idle. -/
def tallyGood (s : State) : State :=
  let s := if s.aon.wakeCtrl.getLsbD 29 then wake 6 s else s
  if s.tally.silent then s else tallyDrive (s.send .tallyAck)

/-- The 64-bit SYSTIME nearest the station's own with these low 48 bits (R381). -/
def nearest48 (now : BitVec 64) (at48 : BitVec 48) : BitVec 64 := now + (at48 - now.setWidth 48).signExtend 64

/-- Scheduled syncs that are pending (R150). -/
def State.syncsAhead (s : State) : Nat := (s.syncs.filter fun x => x.due.isNone).length

/-- SYNC: applied at its time, or late (R148, R151, R381). With four syncs pending it is not applied. -/
def execSync (station : BitVec 9) (at48 : BitVec 48) (groups : BitVec 16) (s : State) : Result :=
  .next (if !s.tallyListens || station == s.tally.station then s
    else
      let s := tallyGood s
      let at_ := nearest48 s.aonTime at48
      if (at_ - s.aonTime).msb then
        log .lasting 0x22 srcModule (groups.setWidth 32) (at_.setWidth 32) ((at_ >>> 32).setWidth 32) s
      else if 4 ≤ s.syncsAhead then s
      else { s with syncs := s.syncs ++ [{ desc := none, groups, time := at_ }] })

/-- HOLD (R387). -/
def execHold (station : BitVec 9) (reason _head : Byte) (concerned : BitVec 16) (s : State) : Result :=
  .next (if !s.tallyListens || station == s.tally.station then s else tallyHold reason concerned (tallyGood s))

def logTally (cls : LClass) (kind : Byte) (station : Nat) (roll : BitVec 16) (s : State) : State :=
  log cls kind (unitSrc 8 station) (arg station) (roll.setWidth 32) 0 s

/-- A TALLY_SEND waits for a frame of a station that has gone SILENT: STATE (R383). -/
def goSilent (s : State) : State :=
  let xs := s.tally.tx
  let s := stitchDrop (s.modTally fun t => { t with silent := true, tx := [] })
  xs.foldl (fun s x => tallyReport x .state s) s

/-- One entry of an ABSENT frame (R383, R384, R386). -/
def absentEntry (e : BitVec 16) (s : State) : State :=
  let st : BitVec 9 := e.setWidth 9
  let s := logTally .info 0x45 st.toNat s.tally.rollNo s
  if e.getLsbD 15 then
    let s := s.modTally fun t => { t with absent := t.absent.filter (· != st.toNat) }
    if st = s.tally.station then s.modTally fun t => { t with silent := false } else s
  else
    let s := s.modTally fun t => { t with absent := t.absent.filter (· != st.toNat) ++ [st.toNat] }
    if st = s.tally.station then goSilent s else takeFrom st s

/-- ABSENT: from the current master only (R383). -/
def execAbsent (station : BitVec 9) (entries : List (BitVec 16)) (s : State) : Result :=
  .next (if !s.tallyListens || station == s.tally.station || entries.isEmpty || 4 < entries.length then s
    else
      let s := tallyGood s
      if s.tally.masterNo = some station && !s.tally.master then entries.foldl (fun s e => absentEntry e s) s else s)

/-- STITCH: answered by the station it names, or by the master for an absent one (R386). -/
def execStitch (station : BitVec 9) (dest : BitVec 16) (action _head : Byte) (s : State) : Result :=
  .next (if !s.tallyListens || station == s.tally.station then s
    else
      let s := tallyGood s
      let to_ : BitVec 9 := dest.setWidth 9
      if s.tally.absent.contains station.toNat then s.modTally fun t => { t with ignored := satInc t.ignored }
      else if s.tally.silent then s
      else if to_ = s.tally.station then
        match s.tally.facing station with
        | some _ => stitchTurn station (action == 0) (s.send (.tallyAnswer 0 0))
        | none => s
      else if s.tally.master && s.tally.absent.contains to_.toNat then s.send (.tallyAnswer 0 0)
      else s)

/-- The in-bit answer in the station's own slot of a ROLL (R379). -/
def rollAnswer (s : State) : State := s.send (.tallyAnswer (s.tally.station.toNat / 8) (s.tally.station.toNat % 8))

/-- ROLL: answered in the station's slot; a master that hears one is in conflict, and yields to a lower number (R382). -/
def execRoll (station : BitVec 9) (no period : BitVec 16) (answers : List Nat) (s : State) : Result :=
  .next (if !s.tallyListens || station == s.tally.station then s
    else
      let s := tallyGood s
      let own := s.tally.station
      let heard := answers.filter (· < 512)
      let now := s.aon.fck
      let s := s.modTally fun t =>
        { t with nomaster := false, rollNo := no, lastPeriod := period, rollAt := now, masterNo := some station,
                 answered := if t.silent then heard else own.toNat :: heard.filter (· != own.toNat),
                 conflict := t.conflict || t.master, master := t.master && decide (own.toNat < station.toNat) }
      if s.tally.silent then s else rollAnswer s)

/-! ### The roll master (R382) -/

/-- FCK cycles of a time in ms. -/
def msFck (n : Nat) : Nat := usFck (1000 * n)

/-- A station has missed both attempts: it is declared absent. -/
def declareAbsent (roll : BitVec 16) (st : Nat) (s : State) : State :=
  let s := logTally .lasting 0x44 st roll s
  let s := s.modTally fun t =>
    { t with absent := t.absent.filter (· != st) ++ [st], expected := t.expected.filter (· != st),
             missed := t.missed.filter (· != st) }
  let s := logTally .info 0x45 st roll s
  let e : BitVec 16 := BitVec.ofNat 16 st
  takeFrom (BitVec.ofNat 9 st) (tallyQueue (.hold 2 0xFF e) none (tallyQueue (.absent [e]) none s))

/-- What the master makes of one station it expects. -/
def judgeStation (roll : BitVec 16) (heard : List Nat) (st : Nat) (s : State) : State :=
  let pending := s.tally.missed.contains st
  if heard.contains st then
    if pending then
      logTally .transient 0x44 st roll (s.modTally fun t => { t with missed := t.missed.filter (· != st) })
    else s
  else if pending then declareAbsent roll st s
  else s.modTally fun t => { t with missed := t.missed ++ [st] }

/-- A declared-absent station that answers is named in a further ABSENT frame (R383). -/
def nameAgain (roll : BitVec 16) (st : Nat) (s : State) : State :=
  tallyQueue (.absent [BitVec.ofNat 16 st]) none (logTally .info 0x45 st roll s)

/-- TALLY_ROLL_CALL: the master sends its ROLL, once more where it fails, answers in its own slot, and judges the stations it
expects (R380, R382). -/
def execTallyRollCall (answers : List Nat) (sent : Attempt) (s : State) : Result :=
  .next (if !s.tally.master || !s.tallyActive || s.aon.fck < s.tally.rollDue then s
    else
      let no := s.tally.nextRoll
      let due := s.aon.fck + msFck s.tally.period.toNat
      let roll : TFrame := .roll no s.tally.period
      let s := (tallyOut roll s).modTally fun t => { t with nextRoll := no + 1, rollDue := due }
      let s := if sent = .clean then s else tallyOut roll s
      if sent = .failed then s.modTally fun t => { t with dropped := satInc t.dropped }
      else
        let s := if sent = .second then s.modTally fun t => { t with retry := satInc t.retry } else s
        let own := s.tally.station.toNat
        let heard := own :: answers.filter fun a => a < 512 && a != own
        let s := rollAnswer s
        let before := s.tally.absent
        let s := s.modTally fun t => { t with answered := heard, masterNo := some t.station }
        let s := s.tally.expected.foldl (fun s st => judgeStation no heard st s) s
        let s := s.modTally fun t => { t with
          expected := t.expected ++ heard.filter fun a => !t.expected.contains a && !t.absent.contains a }
        (heard.filter before.contains).foldl (fun s st => nameAgain no st s) s)

/-- TALLY_NOMASTER_TIMEOUT: no ROLL for three of the last periods. -/
def execTallyNomasterTimeout (s : State) : Result :=
  .next (if s.tallyListens && !s.tally.master && s.tally.lastPeriod != 0 &&
      decide (s.tally.rollAt + msFck (3 * s.tally.lastPeriod.toNat) ≤ s.aon.fck) then
      s.modTally fun t => { t with nomaster := true }
    else s)

/-! ### TALLY_CONFIG and TALLY_SEND (R388, R389) -/

/-- The first offending byte of TALLY_CONFIG. -/
def tallyFault (d : Desc) : Option Nat :=
  let a := d.u 24 1
  if 4 < a then some 24
  else if (a = 0 ∨ a = 3) ∧ 511 < d.u 26 2 then some 26
  else if a = 0 ∧ 1 < d.u 28 1 then some 28
  else if a = 1 ∧ 1 < d.u 29 1 then some 29
  else if a = 1 ∧ d.u 30 2 < 10 then some 30
  else if a = 2 ∧ 1 < d.u 32 1 then some 32
  else if a = 2 ∧ 7 < d.u 33 1 then some 33
  else if a = 2 ∧ 511 < d.u 38 2 then some 38
  else if a = 2 ∧ 1 < d.u 40 1 then some 40
  else none

/-- The head field of ACTION 2. -/
def tallyHead (d : Desc) : HeadId := Fin.ofNat 8 (d.u 33 1)

/-- The conditions of R388 that complete with STATE. -/
def State.tallyState (s : State) (d : Desc) : Bool :=
  match d.u 24 1 with
  | 0 => s.tally.silent
  | 1 => !s.tally.en
  | 2 => s.heads[tallyHead d].armed.isSome
  | 3 => !s.tally.en || !s.tally.master || !s.tally.absent.contains (d.u 26 2)
  | _ => false

/-- A range outside the head: the first offending byte. -/
def State.rangeFault (s : State) (d : Desc) : Option Nat :=
  if d.u 24 1 ≠ 2 ∨ d.u 36 2 = 0 then none
  else
    let n := ((s.heads[tallyHead d].hdef).map HeadDef.n).getD 0
    if n ≤ d.u 34 2 then some 34 else if n < d.u 34 2 + d.u 36 2 then some 36 else none

/-- A 512-bit map of stations, bit s for station s. -/
def stationMap (l : List Nat) : List Byte := natLe 64 ((l.eraseDups.map fun st => 2 ^ st).sum)

def setStation (d : Desc) (s : State) : State :=
  s.modTally fun t => { t with station := BitVec.ofNat 9 (d.u 26 2), rate500 := d.u 28 1 == 1 }

/-- The master's first ROLL_NO is open. -/
def setMaster (d : Desc) (s : State) : State :=
  if d.u 29 1 = 1 then
    let (w, s) := s.drawWord
    let now := s.aon.fck
    s.modTally fun t => { t with master := true, period := BitVec.ofNat 16 (d.u 30 2), expected := [], missed := [],
                                 nextRoll := w.setWidth 16, rollDue := now, masterNo := some t.station }
  else s.modTally fun t => { t with master := false }

def setRange (d : Desc) (s : State) : State :=
  let r : Option Stitch :=
    if d.u 36 2 = 0 then none
    else some { head := tallyHead d, first := d.u 34 2, count := d.u 36 2, neighbour := BitVec.ofNat 9 (d.u 38 2),
                owned := d.u 40 1 == 1 }
  s.modTally fun t => { t with ranges := t.ranges.set (Fin.ofNat 2 (d.u 32 1)) r }

/-- READMIT: the master's frame, and its own list (R384). -/
def readmitStation (d : Desc) (s : State) : State :=
  let st := d.u 26 2
  let s := s.modTally fun t => { t with absent := t.absent.filter (· != st) }
  let s := logTally .info 0x45 st s.tally.rollNo s
  if s.tallyActive then tallyQueue (.absent [BitVec.ofNat 16 (0x8000 + st)]) none s else s

/-- TALLY_CONFIG's header and the bytes that R388 reserves; STATION must be 0 for the actions that take none (R6). -/
def tallyHeader (d : Desc) : Option Nat :=
  let rs := if d.u 24 1 = 0 ∨ d.u 24 1 = 3 then [(25, 1), (41, 23)] else [(25, 3), (41, 23)]
  headerFault d 0 (if d.u 24 1 = 4 then .buffer else .none) .unbound rs

def execTallyConfig (d : Desc) (s : State) : Result :=
  let query := d.u 24 1 == 4
  runDesc 0x90 d (tallyHeader d) true (fun s =>
    match tallyFault d with
    | some off => badField 0x90 d off s
    | none =>
      if query && d.len != 128 then badField 0x90 d 16 s
      else if s.tallyState d then refuse 0x90 d .state s
      else match s.rangeFault d with
        | some off => badField 0x90 d off s
        | none => match d.u 24 1 with
          | 0 => okay 0x90 d 0 (setStation d s)
          | 1 => okay 0x90 d 0 (setMaster d s)
          | 2 => okay 0x90 d 0 (setRange d s)
          | 3 => okay 0x90 d 0 (readmitStation d s)
          | _ =>
            let cfg := (Word.flag s.tally.en 3 ||| Word.flag s.tally.master 2 ||| Word.flag s.tally.rate500 1 |||
              Word.flag s.tally.silent 0).toNat
            writeOut 0x90 d [] (stationMap s.tally.absent ++ stationMap s.tally.answered)
              (s.tally.station.toNat + cfg * 2 ^ 16) s) s

/-- TALLY_SEND: the frame is queued; the command completes with it. -/
def execTallySend (d : Desc) (s : State) : Result :=
  runDesc 0x91 d (headerFault d 0 .none .unbound [(25, 3), (32, 32)]) true (fun s =>
    let ty := d.u 24 1
    if ty ≠ 1 ∧ ty ≠ 3 then badField 0x91 d 24 s
    else if !s.tallyActive then refuse 0x91 d .state s
    else if ty = 1 then
      tallyQueue (.hold (BitVec.ofNat 8 (d.u 28 1)) (BitVec.ofNat 8 (d.u 29 1)) (BitVec.ofNat 16 (d.u 30 2))) (some d) s
    else
      let dest : BitVec 16 := BitVec.ofNat 16 (d.u 28 2)
      let (head, s) := stitchHead (dest.setWidth 9) s
      tallyQueue (.stitch dest (BitVec.ofNat 8 (d.u 30 1)) head) (some d) s) s

end Sys2Proof.Machine
end

