-- ==== Sys2Proof/Machine/Sync.lean ====
section
/-!
DEFINITION. Sync groups of decimators (R148 to R151).
-/
namespace Sys2Proof.Machine

open Sys2Proof

/-- The first offending byte of SYNC_DECIMATORS. -/
def syncFault (d : Desc) : Option Nat :=
  if d.u 24 2 = 0 then some 24
  else if 1 < d.u 26 1 then some 26
  else if d.u 27 1 = 1 ∧ d.u 26 1 = 0 then some 27
  else none

/-- SYNC_DECIMATORS' header and the bytes that R150 reserves; AT must be 0 when WHEN is 0 (R6). -/
def syncHeader (d : Desc) : Option Nat :=
  (headerFault d 0 .none .unbound []).or
    (if d.u 27 1 / 2 ≠ 0 then some 27
     else reservedFault d (if d.u 26 1 = 0 then [(28, 4), (32, 8), (40, 24)] else [(28, 4), (40, 24)]))

/-- SYNC_DECIMATORS: at once, 64 FCK cycles after execution, or at AT; its completion comes at E (R148, R150). -/
def execSyncDecimators (d : Desc) (s : State) : Result :=
  runDesc 0x72 d (syncHeader d) true (fun s =>
    match syncFault d with
    | some off => badField 0x72 d off s
    | none =>
      let groups : BitVec 16 := BitVec.ofNat 16 (d.u 24 2)
      let now := s.aonTime
      if d.u 26 1 = 0 then { s with syncs := { desc := some d, groups, time := now, due := some (s.aon.fck + 64) } :: s.syncs }
      else if d.u 32 8 < now.toNat + 32000 then refuse 0x72 d .state s
      else if 4 ≤ s.syncsAhead then refuse 0x72 d .noResource s
      else
        let at_ : BitVec 64 := BitVec.ofNat 64 (d.u 32 8)
        let s := { s with syncs := s.syncs ++ [{ desc := some d, groups, time := at_ }] }
        if d.u 27 1 = 1 && s.tallyActive then tallyQueue (.sync (at_.setWidth 48) groups) none s else s) s

/-- The clock edge E of a pending sync has come (R148). -/
def State.syncRipe (s : State) (x : Sync) : Bool :=
  match x.due with
  | some f => f ≤ s.aon.fck
  | none => x.time.toNat ≤ s.aon.sysNow.toNat

/-- E of the k-th pending sync: its groups restart, and its command completes with the SYSTIME of E (R149, R150). -/
def syncDone (k : Nat) (s : State) : State :=
  match s.syncs[k]? with
  | none => s
  | some x =>
    if s.syncRipe x then
      let s := syncGroups x.groups { s with syncs := s.syncs.eraseIdx k }
      match x.desc with
      | some d => okay 0x72 d s.aon.sysNow.toNat s
      | none => s
    else s

/-- E of a pin event on the line of a group, 12 FCK cycles after it (R148, R171). -/
def lineSyncDone (g : Fin 16) (s : State) : State :=
  match s.lineSyncs.find? fun l => l.1 == g && decide (l.2 ≤ s.aon.fck) with
  | some l => syncGroups (1#16 <<< g.val) { s with lineSyncs := s.lineSyncs.erase l }
  | none => s

/-- SYNC_EDGE: E of a pending sync, or of a pin event on its way along a group's sync line (R148 to R150). -/
def execSyncEdge (src : SyncSource) (s : State) : Result :=
  .next (if !s.fastOn then s
    else match src with
      | .pin g => lineSyncDone g s
      | .scheduled k => syncDone k.val s)

/-- Every edge E that has come: of the pending syncs, then of the lines. -/
def syncsDue (s : State) : State :=
  let s := (List.range s.syncs.length).reverse.foldl (fun s k => syncDone k s) s
  s.lineSyncs.foldl (fun s l => lineSyncDone l.1 s) s

end Sys2Proof.Machine
end

