-- ==== Sys2Proof/Machine/Dispatch.lean ====
section
/-!
DEFINITION. The effect of a command on everything but the queue: one arm per constructor, one meaning per arm.
-/
namespace Sys2Proof.Machine

open Sys2Proof

def exec (i : Instr) (s : State) : Host.Outcome State Fault Refusal :=
  match i with
  | .nop d => Sys2Proof.Machine.execNop d s
  | .setPowerState d => Sys2Proof.Machine.execSetPowerState d s
  | .grantPower d => Sys2Proof.Machine.execGrantPower d s
  | .queryStatus d => Sys2Proof.Machine.execQueryStatus d s
  | .loadImage d frames => Sys2Proof.Machine.execLoadImage d frames s
  | .loadImageFromStore d store frames => Sys2Proof.Machine.execLoadImageFromStore d store frames s
  | .storeWrite d => Sys2Proof.Machine.execStoreWrite d s
  | .storeRead d store => Sys2Proof.Machine.execStoreRead d store s
  | .defineChain d => Sys2Proof.Machine.execDefineChain d s
  | .placeChain d => Sys2Proof.Machine.execPlaceChain d s
  | .applyPlacement d => Sys2Proof.Machine.execApplyPlacement d s
  | .releaseChain d => Sys2Proof.Machine.execReleaseChain d s
  | .stageCoat d shadow => Sys2Proof.Machine.execStageCoat d shadow s
  | .commitCoat d => Sys2Proof.Machine.execCommitCoat d s
  | .fenceTile d => Sys2Proof.Machine.execFenceTile d s
  | .readmitTile d => Sys2Proof.Machine.execReadmitTile d s
  | .reserveSpares d => Sys2Proof.Machine.execReserveSpares d s
  | .loadProgram d => Sys2Proof.Machine.execLoadProgram d s
  | .startEngine d => Sys2Proof.Machine.execStartEngine d s
  | .stopEngine d => Sys2Proof.Machine.execStopEngine d s
  | .engineMessage d => Sys2Proof.Machine.execEngineMessage d s
  | .loadWaveform d shadow => Sys2Proof.Machine.execLoadWaveform d shadow s
  | .defineHead d => Sys2Proof.Machine.execDefineHead d s
  | .defineJob d => Sys2Proof.Machine.execDefineJob d s
  | .loadGlyphs d => Sys2Proof.Machine.execLoadGlyphs d s
  | .setDateSlots d => Sys2Proof.Machine.execSetDateSlots d s
  | .armJob d => Sys2Proof.Machine.execArmJob d s
  | .swapJob d => Sys2Proof.Machine.execSwapJob d s
  | .disarm d => Sys2Proof.Machine.execDisarm d s
  | .setCounter d => Sys2Proof.Machine.execSetCounter d s
  | .spit d => Sys2Proof.Machine.execSpit d s
  | .setNozzleStatus d => Sys2Proof.Machine.execSetNozzleStatus d s
  | .readNozzleMap d => Sys2Proof.Machine.execReadNozzleMap d s
  | .listenSweep d => Sys2Proof.Machine.execListenSweep d s
  | .setCompensation d => Sys2Proof.Machine.execSetCompensation d s
  | .calibrate d => Sys2Proof.Machine.execCalibrate d s
  | .readCalSet d => Sys2Proof.Machine.execReadCalSet d s
  | .writeCalSet d => Sys2Proof.Machine.execWriteCalSet d s
  | .applyCal d => Sys2Proof.Machine.execApplyCal d s
  | .openStream d => Sys2Proof.Machine.execOpenStream d s
  | .closeStream d => Sys2Proof.Machine.execCloseStream d s
  | .syncDecimators d => Sys2Proof.Machine.execSyncDecimators d s
  | .runBist d => Sys2Proof.Machine.execRunBist d s
  | .scrubRange d => Sys2Proof.Machine.execScrubRange d s
  | .readLedger d => Sys2Proof.Machine.execReadLedger d s
  | .retirePage d => Sys2Proof.Machine.execRetirePage d s
  | .fieldRepair d fuse => Sys2Proof.Machine.execFieldRepair d fuse s
  | .setFunctionMode d => Sys2Proof.Machine.execSetFunctionMode d s
  | .tallyConfig d => Sys2Proof.Machine.execTallyConfig d s
  | .tallySend d => Sys2Proof.Machine.execTallySend d s
  | .badOpcodeDescriptor opcode d => Sys2Proof.Machine.execBadOpcodeDescriptor opcode d s
  | .descriptorFetch q fetch => Sys2Proof.Machine.execDescriptorFetch q fetch s
  | .add t d a b => Sys2Proof.Machine.execAdd t d a b s
  | .sub t d a b => Sys2Proof.Machine.execSub t d a b s
  | .and t d a b => Sys2Proof.Machine.execAnd t d a b s
  | .or t d a b => Sys2Proof.Machine.execOr t d a b s
  | .xor t d a b => Sys2Proof.Machine.execXor t d a b s
  | .shl t d a b => Sys2Proof.Machine.execShl t d a b s
  | .shr t d a b => Sys2Proof.Machine.execShr t d a b s
  | .sar t d a b => Sys2Proof.Machine.execSar t d a b s
  | .cmp t d a b => Sys2Proof.Machine.execCmp t d a b s
  | .addi t d a imm => Sys2Proof.Machine.execAddi t d a imm s
  | .andi t d a imm => Sys2Proof.Machine.execAndi t d a imm s
  | .ori t d a imm => Sys2Proof.Machine.execOri t d a imm s
  | .shli t d a imm => Sys2Proof.Machine.execShli t d a imm s
  | .shri t d a imm => Sys2Proof.Machine.execShri t d a imm s
  | .sari t d a imm => Sys2Proof.Machine.execSari t d a imm s
  | .cmpi t d a imm => Sys2Proof.Machine.execCmpi t d a imm s
  | .lui t d a imm => Sys2Proof.Machine.execLui t d a imm s
  | .mul t d a b => Sys2Proof.Machine.execMul t d a b s
  | .mulh t d a b => Sys2Proof.Machine.execMulh t d a b s
  | .mac t h d a b => Sys2Proof.Machine.execMac t h d a b s
  | .msu t h d a b => Sys2Proof.Machine.execMsu t h d a b s
  | .wracc t d a b => Sys2Proof.Machine.execWracc t d a b s
  | .rdacc t d a imm => Sys2Proof.Machine.execRdacc t d a imm s
  | .ldw t d a imm => Sys2Proof.Machine.execLdw t d a imm s
  | .ldh t d a imm => Sys2Proof.Machine.execLdh t d a imm s
  | .ldbu t d a imm => Sys2Proof.Machine.execLdbu t d a imm s
  | .stw t d a imm => Sys2Proof.Machine.execStw t d a imm s
  | .sth t d a imm => Sys2Proof.Machine.execSth t d a imm s
  | .stb t d a imm => Sys2Proof.Machine.execStb t d a imm s
  | .b t cond off => Sys2Proof.Machine.execB t cond off s
  | .bl t cond off => Sys2Proof.Machine.execBl t cond off s
  | .jalr t d a imm => Sys2Proof.Machine.execJalr t d a imm s
  | .loop t d a imm => Sys2Proof.Machine.execLoop t d a imm s
  | .loopi t d a imm => Sys2Proof.Machine.execLoopi t d a imm s
  | .wait t d a b => Sys2Proof.Machine.execWait t d a b s
  | .trig t d a b => Sys2Proof.Machine.execTrig t d a b s
  | .arm t d a b => Sys2Proof.Machine.execArm t d a b s
  | .capt t d a b => Sys2Proof.Machine.execCapt t d a b s
  | .adcp t d a b => Sys2Proof.Machine.execAdcp t d a b s
  | .adcpn t d a b => Sys2Proof.Machine.execAdcpn t d a b s
  | .dacs t d a b => Sys2Proof.Machine.execDacs t d a b s
  | .cmpset t d a b => Sys2Proof.Machine.execCmpset t d a b s
  | .cmpclr t d a b => Sys2Proof.Machine.execCmpclr t d a b s
  | .send t d a b => Sys2Proof.Machine.execSend t d a b s
  | .recv t d a b => Sys2Proof.Machine.execRecv t d a b s
  | .recvn t d a b => Sys2Proof.Machine.execRecvn t d a b s
  | .sleep t d a b => Sys2Proof.Machine.execSleep t d a b s
  | .halt t d a b => Sys2Proof.Machine.execHalt t d a b s
  | .fence t d a b => Sys2Proof.Machine.execFence t d a b s
  | .reti t d a b => Sys2Proof.Machine.execReti t d a b s
  | .mfs t d a imm => Sys2Proof.Machine.execMfs t d a imm s
  | .mts t d a imm => Sys2Proof.Machine.execMts t d a imm s
  | .engineStallResume t => Sys2Proof.Machine.execEngineStallResume t s
  | .waitTimeout t => Sys2Proof.Machine.execWaitTimeout t s
  | .engineInterrupt t => Sys2Proof.Machine.execEngineInterrupt t s
  | .armAction t => Sys2Proof.Machine.execArmAction t s
  | .messageDelivery t flit => Sys2Proof.Machine.execMessageDelivery t flit s
  | .inboxFullTimeout t => Sys2Proof.Machine.execInboxFullTimeout t s
  | .cqTailDoorbell n v size => Sys2Proof.Machine.execCqTailDoorbell n v size s
  | .cpHeadDoorbell n v size => Sys2Proof.Machine.execCpHeadDoorbell n v size s
  | .stConsumedDoorbell n v size => Sys2Proof.Machine.execStConsumedDoorbell n v size s
  | .pqTailDoorbell n v size => Sys2Proof.Machine.execPqTailDoorbell n v size s
  | .cqEnable n v => Sys2Proof.Machine.execCqEnable n v s
  | .cqStop n v => Sys2Proof.Machine.execCqStop n v s
  | .pqEnable n v => Sys2Proof.Machine.execPqEnable n v s
  | .pqStop n v => Sys2Proof.Machine.execPqStop n v s
  | .leaveDormant v => Sys2Proof.Machine.execLeaveDormant v s
  | .secLcAdvWrite v fuse => Sys2Proof.Machine.execSecLcAdvWrite v fuse s
  | .secKeyCmdWrite v fuse => Sys2Proof.Machine.execSecKeyCmdWrite v fuse s
  | .pinLockWrite v => Sys2Proof.Machine.execPinLockWrite v s
  | .memFlipArm v => Sys2Proof.Machine.execMemFlipArm v s
  | .memCodeWrite v => Sys2Proof.Machine.execMemCodeWrite v s
  | .tripClear t v => Sys2Proof.Machine.execTripClear t v s
  | .comparatorStuckClear t c v => Sys2Proof.Machine.execComparatorStuckClear t c v s
  | .pinStuckClear k v => Sys2Proof.Machine.execPinStuckClear k v s
  | .gpioOutWrite k v => Sys2Proof.Machine.execGpioOutWrite k v s
  | .systimeLoRead => Sys2Proof.Machine.execSystimeLoRead s
  | .scrubCtrlWrite v => Sys2Proof.Machine.execScrubCtrlWrite v s
  | .encCountWrite n v => Sys2Proof.Machine.execEncCountWrite n v s
  | .adcEnableWrite t v => Sys2Proof.Machine.execAdcEnableWrite t v s
  | .ilvWrite t v => Sys2Proof.Machine.execIlvWrite t v s
  | .decWrite t v => Sys2Proof.Machine.execDecWrite t v s
  | .refSelectWrite p v => Sys2Proof.Machine.execRefSelectWrite p v s
  | .comparatorEnableWrite t c v => Sys2Proof.Machine.execComparatorEnableWrite t c v s
  | .vsetWrite p v => Sys2Proof.Machine.execVsetWrite p v s
  | .pvhEnWrite v => Sys2Proof.Machine.execPvhEnWrite v s
  | .hlvCtrlWrite v => Sys2Proof.Machine.execHlvCtrlWrite v s
  | .evEnableWrite v => Sys2Proof.Machine.execEvEnableWrite v s
  | .registerWrite off v size => Sys2Proof.Machine.execRegisterWrite off v size s
  | .sharedMemoryAccess off len data => Sys2Proof.Machine.execSharedMemoryAccess off len data s
  | .msixUnmask v control => Sys2Proof.Machine.execMsixUnmask v control s
  | .d3hotEntry enter => Sys2Proof.Machine.execD3hotEntry enter s
  | .linkDetection mv => Sys2Proof.Machine.execLinkDetection mv s
  | .linkPowerUp mv => Sys2Proof.Machine.execLinkPowerUp mv s
  | .inrushEnd => Sys2Proof.Machine.execInrushEnd s
  | .linkPowerLoss mv => Sys2Proof.Machine.execLinkPowerLoss mv s
  | .moduleReset cause bist => Sys2Proof.Machine.execModuleReset cause bist s
  | .bootImageLoad boot fallback frames => Sys2Proof.Machine.execBootImageLoad boot fallback frames s
  | .perst => Sys2Proof.Machine.execPerst s
  | .hotReset => Sys2Proof.Machine.execHotReset s
  | .jsbPerst v => Sys2Proof.Machine.execJsbPerst v s
  | .jsbLimit v => Sys2Proof.Machine.execJsbLimit v s
  | .jsbWake v => Sys2Proof.Machine.execJsbWake v s
  | .jsbModuleReset v => Sys2Proof.Machine.execJsbModuleReset v s
  | .jsbPoll v => Sys2Proof.Machine.execJsbPoll v s
  | .jsbNak v => Sys2Proof.Machine.execJsbNak v s
  | .jsbCrcError => Sys2Proof.Machine.execJsbCrcError s
  | .jsbCollisionRetry => Sys2Proof.Machine.execJsbCollisionRetry s
  | .linkL1Entry => Sys2Proof.Machine.execLinkL1Entry s
  | .ptmDialogue host rate => Sys2Proof.Machine.execPtmDialogue host rate s
  | .sckTick => Sys2Proof.Machine.execSckTick s
  | .scrubBurst => Sys2Proof.Machine.execScrubBurst s
  | .scrubStarvationGrant => Sys2Proof.Machine.execScrubStarvationGrant s
  | .wakeTimerExpiry => Sys2Proof.Machine.execWakeTimerExpiry s
  | .scheduledWake => Sys2Proof.Machine.execScheduledWake s
  | .qckUsable => Sys2Proof.Machine.execQckUsable s
  | .pllLock => Sys2Proof.Machine.execPllLock s
  | .pllLockTimeout => Sys2Proof.Machine.execPllLockTimeout s
  | .changeover => Sys2Proof.Machine.execChangeover s
  | .fastClockStop => Sys2Proof.Machine.execFastClockStop s
  | .heartbeatProbe t => Sys2Proof.Machine.execHeartbeatProbe t s
  | .heartbeatTimeout t => Sys2Proof.Machine.execHeartbeatTimeout t s
  | .tileReplacement t => Sys2Proof.Machine.execTileReplacement t s
  | .placementReadyCommit => Sys2Proof.Machine.execPlacementReadyCommit s
  | .coatCommit => Sys2Proof.Machine.execCoatCommit s
  | .coatMaxWaitExpiry => Sys2Proof.Machine.execCoatMaxWaitExpiry s
  | .coatReadback t rb => Sys2Proof.Machine.execCoatReadback t rb s
  | .dustSheetRelease => Sys2Proof.Machine.execDustSheetRelease s
  | .powerStepComplete => Sys2Proof.Machine.execPowerStepComplete s
  | .dormantPowerDown => Sys2Proof.Machine.execDormantPowerDown s
  | .railGood r uF => Sys2Proof.Machine.execRailGood r uF s
  | .railStartTimeout r => Sys2Proof.Machine.execRailStartTimeout r s
  | .faultHoldTrip cause measured => Sys2Proof.Machine.execFaultHoldTrip cause measured s
  | .faultHoldClear => Sys2Proof.Machine.execFaultHoldClear s
  | .powerWindow pin vin rails pvh => Sys2Proof.Machine.execPowerWindow pin vin rails pvh s
  | .hlvLimitTimeout => Sys2Proof.Machine.execHlvLimitTimeout s
  | .hrstRelease => Sys2Proof.Machine.execHrstRelease s
  | .refokSettle p => Sys2Proof.Machine.execRefokSettle p s
  | .refMeasure p mv => Sys2Proof.Machine.execRefMeasure p mv s
  | .tempInterpolation p sensor hottest core => Sys2Proof.Machine.execTempInterpolation p sensor hottest core s
  | .dateLow => Sys2Proof.Machine.execDateLow s
  | .dateSlotApply => Sys2Proof.Machine.execDateSlotApply s
  | .detectAccept h => Sys2Proof.Machine.execDetectAccept h s
  | .printQueueEntryArrival h => Sys2Proof.Machine.execPrintQueueEntryArrival h s
  | .fieldRenderDone h seq => Sys2Proof.Machine.execFieldRenderDone h seq s
  | .encoderTransition n a b gapNs => Sys2Proof.Machine.execEncoderTransition n a b gapNs s
  | .columnStrokeBoundary h => Sys2Proof.Machine.execColumnStrokeBoundary h s
  | .selectFrameLatch p ec => Sys2Proof.Machine.execSelectFrameLatch p ec s
  | .fire t => Sys2Proof.Machine.execFire t s
  | .waveformEnd t q => Sys2Proof.Machine.execWaveformEnd t q s
  | .listenStart t => Sys2Proof.Machine.execListenStart t s
  | .listenWindowClose t trace => Sys2Proof.Machine.execListenWindowClose t trace s
  | .classifyResult t => Sys2Proof.Machine.execClassifyResult t s
  | .spitListenSlot h => Sys2Proof.Machine.execSpitListenSlot h s
  | .spitFire h => Sys2Proof.Machine.execSpitFire h s
  | .phaseTrackSearch h nozzles code => Sys2Proof.Machine.execPhaseTrackSearch h nozzles code s
  | .calibrationMeasurement first again => Sys2Proof.Machine.execCalibrationMeasurement first again s
  | .bistSlice t run misr => Sys2Proof.Machine.execBistSlice t run misr s
  | .verdict h => Sys2Proof.Machine.execVerdict h s
  | .rejectPulseStart h seq => Sys2Proof.Machine.execRejectPulseStart h seq s
  | .rejectPulseEnd p => Sys2Proof.Machine.execRejectPulseEnd p s
  | .trowelTrip t => Sys2Proof.Machine.execTrowelTrip t s
  | .trowelIdleReached t => Sys2Proof.Machine.execTrowelIdleReached t s
  | .foldBackEntry t degC => Sys2Proof.Machine.execFoldBackEntry t degC s
  | .foldBackExit t degC => Sys2Proof.Machine.execFoldBackExit t degC s
  | .buddyTakeoverStart t => Sys2Proof.Machine.execBuddyTakeoverStart t s
  | .buddyTakeoverEnd t => Sys2Proof.Machine.execBuddyTakeoverEnd t s
  | .comparatorEdge t c v => Sys2Proof.Machine.execComparatorEdge t c v s
  | .comparatorMinwAccept t c => Sys2Proof.Machine.execComparatorMinwAccept t c s
  | .comparatorMinGapEnd t c => Sys2Proof.Machine.execComparatorMinGapEnd t c s
  | .comparatorMaxactExpiry t c => Sys2Proof.Machine.execComparatorMaxactExpiry t c s
  | .stuckResumeWindowEnd u => Sys2Proof.Machine.execStuckResumeWindowEnd u s
  | .pinEdge p level => Sys2Proof.Machine.execPinEdge p level s
  | .pinMinwAccept p => Sys2Proof.Machine.execPinMinwAccept p s
  | .pinMinGapEnd p => Sys2Proof.Machine.execPinMinGapEnd p s
  | .pinMaxactExpiry p => Sys2Proof.Machine.execPinMaxactExpiry p s
  | .pinFunctionHoldEnd p => Sys2Proof.Machine.execPinFunctionHoldEnd p s
  | .timerChannelExpiry k => Sys2Proof.Machine.execTimerChannelExpiry k s
  | .adcConversion t v => Sys2Proof.Machine.execAdcConversion t v s
  | .syncEdge src => Sys2Proof.Machine.execSyncEdge src s
  | .streamRecordClose t => Sys2Proof.Machine.execStreamRecordClose t s
  | .mirrorWrite n => Sys2Proof.Machine.execMirrorWrite n s
  | .streamInterruptTimeout n => Sys2Proof.Machine.execStreamInterruptTimeout n s
  | .msixGapEnd v => Sys2Proof.Machine.execMsixGapEnd v s
  | .memCodePrimeDone => Sys2Proof.Machine.execMemCodePrimeDone s
  | .panelLinkReplay p lane replay => Sys2Proof.Machine.execPanelLinkReplay p lane replay s
  | .tallyRollCall answers sent => Sys2Proof.Machine.execTallyRollCall answers sent s
  | .tallyNomasterTimeout => Sys2Proof.Machine.execTallyNomasterTimeout s
  | .sync station at48 groups => Sys2Proof.Machine.execSync station at48 groups s
  | .hold station reason head concerned => Sys2Proof.Machine.execHold station reason head concerned s
  | .absent station entries => Sys2Proof.Machine.execAbsent station entries s
  | .stitch station dest action head => Sys2Proof.Machine.execStitch station dest action head s
  | .roll station no period answers => Sys2Proof.Machine.execRoll station no period answers s
  | .tallyFrameRetry => Sys2Proof.Machine.execTallyFrameRetry s
  | .chopPeriodStart t => Sys2Proof.Machine.execChopPeriodStart t s
  | .fabricOutputEdge t out level => Sys2Proof.Machine.execFabricOutputEdge t out level s
  | .rasterReadCompletion h read => Sys2Proof.Machine.execRasterReadCompletion h read s
  | .engineMessageTimeout t => Sys2Proof.Machine.execEngineMessageTimeout t s
  | .tallyFrameAck => Sys2Proof.Machine.execTallyFrameAck s
  | .tallyFrameError => Sys2Proof.Machine.execTallyFrameError s
  | .linkDown => Sys2Proof.Machine.execLinkDown s
  | .linkTrained speed width => Sys2Proof.Machine.execLinkTrained speed width s
  | .configSpaceWrite item on => Sys2Proof.Machine.execConfigSpaceWrite item on s

end Sys2Proof.Machine
end

