-- ==== Sys2Proof/Machine/Tick.lean ====
section
/-!
DEFINITION. What the module does by itself while no command waits (log 1): one fast-clock cycle. SYSTIME interpolates, every
engine in service goes one engine cycle further, every fabric slice takes one clock edge, and what the state itself makes due
(stroke boundaries, frames without an echo, fires, DAC samples, listen starts, classes, filters, sync edges, timers, coats, mirrors,
heartbeats, changeover) takes place.
-/
namespace Sys2Proof.Machine

open Sys2Proof

/-- The state a step of the module's own leads to. -/
def taken (s : State) : Result → State
  | .next t => t
  | _ => s
def ownStep (i : Instr) (s : State) : State := taken s (exec i s)

/-! ### Time (R13, R17) -/

/-- FCK cycles of one cycle of the clock that runs: QCK is a quarter of FCK. -/
def State.cycle (s : State) : Nat := if s.clk.fast = .fck then 1 else 4

/-- SYSTIME between ticks: 40 units every 3 FCK cycles, 160 every 3 QCK cycles, and never back (R17). -/
def State.interpolated (s : State) (n : Nat) : BitVec 64 :=
  later (s.aon.interpFrom + BitVec.ofNat 64 (interpStep s.clk.fast n)) s.aon.sysNow

def cycleTime (s : State) : State :=
  let n := s.aon.interp + s.cycle
  let now := s.interpolated n
  let total := s.aon.fck + s.cycle
  { s with aon := { s.aon with fck := total, run := s.aon.run + s.cycle, interp := n, sysNow := now } }

/-- An edge of the engine clock: every second FCK cycle, every QCK cycle (R177). -/
def State.engineEdge (s : State) : Bool := s.clk.fast == .qck || s.aon.fck % 2 == 0

/-! ### The engine's fetch (R178 to R180, R188, R309, R317) -/

/-- The byte that fetch sees: the one before the stores that no FENCE has made visible. -/
def Tile.fetchByte (x : Tile) (a : Nat) : Byte :=
  match x.eng.stale.find? fun c => c.1 == a with
  | some c => c.2
  | none => x.engMem.get a

/-- The word at the program counter, or the fault of its fetch. -/
def fetchWord (t : TileId) (s : State) : Except EngFault Word × State :=
  let x := s.tiles[t]
  let a := x.eng.pc.toNat
  if a % 4 ≠ 0 then (.error .align, s)
  else if 0x8000 ≤ a || s.pageRetired 0 t (a / 1024) then (.error .address, s)
  else
    let r := checkRead ((Place.eng a).loc t) s
    if r.1 then
      let bs := (List.range 4).map fun k => x.fetchByte (a + k)
      (.ok (BitVec.ofNat 32 (leNat (xorMask r.2.1 (a % 8) bs))), r.2.2)
    else (.error .memory, r.2.2)

/-- One instruction of a running engine; a pending enabled interrupt is taken in its place (R193). -/
def engineIssue (t : TileId) (s : State) : State :=
  if (s.tiles[t]).eng.ie && (s.tiles[t]).irqPending then ownStep (.engineInterrupt t) s
  else match fetchWord t s with
    | (.error f, s) => engFault t f s
    | (.ok w, s) => match decodeEngine t w with
      | some i => ownStep i s
      | none => engFault t .illegal s

/-- A cycle of the engine clock: CYCLE counts from the start on, halted or not, and so does a WAIT's time (R190, R192). -/
def Engine.count (e : Engine) : Engine :=
  match e.st with
  | .running | .sleeping | .halted =>
    { e with cycle := e.cycle + 1, stall := match e.stall with
      | some (.waitEv m d (some n)) => some (.waitEv m d (some (n - 1)))
      | k => k }
  | _ => e

/-- One engine cycle: the next instruction, or what a stalled one waits for. -/
def engineCycle (t : TileId) (s : State) : State :=
  if s.engineClock t then
    let s := s.modEng t Engine.count
    if s.engineRuns t then engineIssue t s
    else if (s.tiles[t]).eng.stall.isSome then ownStep (.waitTimeout t) (ownStep (.engineStallResume t) s)
    else s
  else s

/-! ### What is due (R14, R76, R79, R103, R109) -/

/-- What the cycle brings a trowel: its fire, its samples, the start of its listen and the class of a closed one. -/
def trowelCycle (t : TileId) (s : State) : State :=
  let s := if (s.tiles[t]).trowel.due.isSome then ownStep (.fire t) s else s
  let s := if (s.tiles[t]).trowel.play == .playing then playOn t s else s
  let s := if (s.tiles[t]).trowel.cut then ownStep (.waveformEnd t 0) s else s
  match (s.tiles[t]).trowel.listen with
  | some l => if l.closed then ownStep (.classifyResult t) s else if l.openNow then s else ownStep (.listenStart t) s
  | none => s

/-- A comparator whose waiting change, minimum gap or maximum activity is over; a moving ramp makes it look again (R159, R165 to
R167). -/
def cmpCycle (t : TileId) (c : Cmp) (s : State) : State :=
  let x := (s.tiles[t]).cmp c
  let s := if x.powered && x.rampAt.isSome then cmpLooks t s else s
  let s := if x.cand.isSome then ownStep (.comparatorMinwAccept t c) s else s
  let s := if x.gapUntil.isSome then ownStep (.comparatorMinGapEnd t c) s else s
  if x.activeSince.isSome then ownStep (.comparatorMaxactExpiry t c) s else s

/-- The SAR of a tile: a record that is 100 us old, and a conversion whose sample nobody takes while the SAR listens (R134, R143). -/
def sarCycle (t : TileId) (s : State) : State :=
  let s := if (s.tiles[t]).openRec.isSome then ownStep (.streamRecordClose t) s else s
  match (s.tiles[t]).sar.nextAt with
  | some _ => if s.sarListens t then ownStep (.adcConversion t ⟨0, []⟩) s else s
  | none => s

/-- What the cycle brings a panel: its reference settles, changed sinks follow their sources, and the port's frame latches by itself
where its head uses no echo (R136, R169). -/
def portCycle (p : PanelId) (s : State) : State :=
  let s := if s.refDue p then ownStep (.refokSettle p) s else s
  let s := if (s.panels[p]).sinkHold.isEmpty then s else releaseSinks p s
  match (s.panels[p]).frames with
  | f :: _ => match (s.heads[f.head]).hdef with
    | some hd => if hd.echoEn then s else ownStep (.selectFrameLatch p []) s
    | none => ownStep (.selectFrameLatch p []) s
  | [] => s

/-- The head's next stroke boundary, and the next part of its phase search, whose test drops fire every nozzle at the largest code
(DESIGN CHOICE, log 68). -/
def headCycle (h : HeadId) (s : State) : State :=
  let s := if (s.heads[h]).printing.isSome then ownStep (.columnStrokeBoundary h) s else s
  match (s.heads[h]).hdef with
  | some hd =>
    if (s.heads[h]).search.isSome then ownStep (.phaseTrackSearch h (List.range hd.n) (2 ^ hd.selBits - 1)) s else s
  | none => s

/-- Changeover 64 QCK cycles after lock, where no generator produces columns (R14). -/
def clockCycle (s : State) : State :=
  if s.clk.changeoverDue && decide (s.clk.lockAt + 256 ≤ s.aon.fck) then ownStep .changeover s else s

/-! ### What is due in the module's services (R230, R235, R237, R239, R294, R296, R301, R364 to R369) -/

/-- The open coat's commit, or the next re-placement; the read-back of tiles that carry a new coat finds them right (DESIGN CHOICE,
log 72: COAT_READBACK itself says when it does not). -/
def coatCycle (s : State) : State :=
  let s := match s.coat with
    | some c => if c.own then ownStep .placementReadyCommit s else if c.point.isSome then ownStep .coatCommit s else s
    | none => match s.moves with
      | m :: _ => ownStep (.tileReplacement m.1) s
      | [] => s
  let s := (s.readback.filter fun r => decide (r.2 ≤ s.aon.fck)).foldl (fun s r => ownStep (.coatReadback r.1 .clean) s) s
  if allTiles.any fun t => (s.tiles[t]).sheet && !(s.tiles[t]).inReset then ownStep .dustSheetRelease s else s

/-- A ring's mirror and its message, and the messages that a vector's gap has held back. -/
def ringCycle (s : State) : State :=
  let s := (List.finRange 32).foldl (fun s n =>
    if (s.sts[n]).isOpen then ownStep (.streamInterruptTimeout n) (ownStep (.mirrorWrite n) s) else s) s
  (List.finRange 64).foldl (fun s v => if (s.msix[v]).held then ownStep (.msixGapEnd v) s else s) s

/-- A pin whose waiting change, gap, activity or function hold is over. -/
def pinCycle (p : PinId) (s : State) : State :=
  let x := s.gpio.pins[p]
  let s := if x.hold then ownStep (.pinFunctionHoldEnd p) s else s
  let s := if x.cand.isSome then ownStep (.pinMinwAccept p) s else s
  let s := if x.gapUntil.isSome then ownStep (.pinMinGapEnd p) s else s
  if x.activeSince.isSome then ownStep (.pinMaxactExpiry p) s else s

/-- A timer counts one cycle. -/
def timerCycle (k : Fin 16) (s : State) : State :=
  if (s.gpio.timers[k]).placed then ownStep (.timerChannelExpiry k) (s.modTimer k fun x => { x with left := x.left - 1 }) else s

/-! ### One cycle -/

/-- What the cycle brings one tile. -/
def tileCycle (t : TileId) (s : State) : State :=
  let s := if (s.tiles[t]).eng.arm.isSome then ownStep (.armAction t) s else s
  let s := if s.engineEdge then engineCycle t s else s
  let s := if (s.tiles[t]).eng.outbox.isEmpty then s else ownStep (.inboxFullTimeout t) s
  let s := if (s.tiles[t]).eng.hostMsgs.isEmpty then s else taken s (execEngineMessageTimeout t s)
  let s := sliceClock t s
  let s := sarCycle t (cmpCycle t .b (cmpCycle t .a (trowelCycle t s)))
  let s := if s.probed t then heartbeat t s else s
  if (s.tiles[t]).trowel.reenable && !s.armedTile t then reenable t s else s

/-- One cycle of the fast clock; while QCK starts, one of its cycles to come. Calibration that waits for an edge is applied. -/
def tick (s : State) : State :=
  let s := if s.cal.waits.isEmpty then s else calSettle s
  if s.fastOn then
    let s := syncsDue (clockCycle (cycleTime s))
    let s := (List.finRange 128).foldl (fun s p => pinCycle p s) ((List.finRange 16).foldl (fun s k => timerCycle k s) (ringCycle (coatCycle s)))
    let s := allPanels.foldl (fun s p => portCycle p s) (allHeads.foldl (fun s h => headCycle h s) s)
    allTiles.foldl (fun s t => tileCycle t s) s
  else if s.clk.fast = .starting then
    ownStep .qckUsable { s with aon := { s.aon with fck := s.aon.fck + 4 } }
  else s

end Sys2Proof.Machine
end

