-- ==== Sys2Proof/Safety.lean ====
section
/-!
DEFINITION. What counts as a sound state, in the terms the claims use.
-/
namespace Sys2Proof.Machine

open Sys2Proof

/-- Every stored memory of a tile keeps its canonical form. -/
def Tile.memOk (x : Tile) : Bool := x.engMem.wf && x.buffer.wf && x.lutRam.wf

/-- Every memory of the machine keeps its canonical form. -/
def State.memOk (s : State) : Bool :=
  s.hostMem.wf && s.sec.store.wf && sharedWfFrom 0 s.shared && s.tiles.toList.all Tile.memOk

/-- The link supply is down (R250): every register, memory and queue of the module is as nothing had ever run; what is
left is the fuses and the serial store, the levels that others drive on its pads, PERST, the detection signature, and what
is not the module's own. -/
def State.unpowered (s : State) : Prop :=
  s = { aon := { up := false }, sec := s.sec.kept, link := { perst := s.link.perst }
        gpio := { pins := s.gpio.pins.map fun x => { pad := x.pad } }
        pwr := { signature := s.pwr.signature }
        hostMem := s.hostMem, free := s.free, out := s.out, pending := s.pending }

/-- The state in which a descriptor has just started execution (R287). -/
def State.begun (s : State) (op : Byte) (d : Desc) : State := s.modCq d.queue fun q => q.start op d

/-- The ring engine runs the descriptor, its header and reserved bytes pass, and the module state admits it (R283). -/
def State.takes (s : State) (op : Byte) (d : Desc) (fault : Option Nat) : Prop :=
  s.runs d = true ∧ fault = none ∧ (s.pwr.mode = .standby → standbyOk op d = true)

/-- What the module's reports (messages, stream records, events, ledger entries) leave alone: every field but the ones they
write. Two states that agree in it differ by reports only. -/
def State.quiet (s : State) : State :=
  { s with
    ev := {}, msix := Vector.replicate 64 {}, sts := Vector.replicate 32 {}, hostMem := [], ledger := {}, jsb := {},
    out := [], link := { s.link with inL1 := false, clkreq := false },
    mem := { s.mem with errs := [], flipArm := false, flipLo := 0, flipHi := 0 } }

/-- What completions leave alone: reports, and the queues' own bookkeeping. -/
def State.calm (s : State) : State := { s.quiet with cqs := Vector.replicate 16 {} }

/-- No crossbar sink and no select port takes the comparator's signal. -/
def State.unrouted (s : State) (t : TileId) (c : Cmp) : Bool :=
  let source := 2 * localOf t + cmpNum c
  ((List.finRange 256).all fun k => (s.panels[panelOf t]).sinks[k] != source) && (s.portStarts (panelOf t) source).isEmpty

/-- Both comparators of the tile are off: not powered, level 0. -/
def State.cmpsOff (s : State) (t : TileId) : Bool :=
  [(s.tiles[t]).cmpA, (s.tiles[t]).cmpB].all fun x => !x.powered && !x.lvl && !x.unres

/-! ### Words the claims about the engine use -/

/-- The instruction changed the engine of tile `t` and nothing else of the module. -/
def State.onlyEngine (s s' : State) (t : TileId) : Prop :=
  s' = { s with tiles := s'.tiles } ∧ (∀ k, k ≠ t → s'.tiles[k] = s.tiles[k]) ∧
    s'.tiles[t] = { s.tiles[t] with eng := (s'.tiles[t]).eng }

/-- Only registers, flags and the next instruction of the engine changed. -/
def Engine.onlyAlu (e e' : Engine) : Prop :=
  e' = { e with regs := e'.regs, z := e'.z, n := e'.n, c := e'.c, v := e'.v, pc := e'.pc, loops := e'.loops }

/-- Register `d` took the value `r`, unless it is e0, and every other register kept its value (R176). -/
def Engine.wrote (e e' : Engine) (d : Reg4) (r : Word) : Prop :=
  e'.rd d = (if d = 0 then 0 else r) ∧ ∀ k, k ≠ d → e'.rd k = e.rd k

/-- Z and N show the result `r`; C and V are as given. -/
def Engine.shows (e' : Engine) (r : Word) (c v : Bool) : Prop :=
  e'.z = decide (r = 0) ∧ e'.n = r.msb ∧ e'.c = c ∧ e'.v = v

/-- The instruction runs: it leads to `s'`, touches nothing but the engine of `t`, and with no loop body ending at it the
next instruction is the following one (R189). -/
def State.ran (s : State) (i : Instr) (t : TileId) (s' : State) : Prop :=
  exec i s = .next s' ∧ s.onlyEngine s' t ∧
    ((s.tiles[t]).eng.loops = [] → (s'.tiles[t]).eng.pc = (s.tiles[t]).eng.pc + 4 ∧ (s'.tiles[t]).eng.loops = [])

end Sys2Proof.Machine
end

