-- ==== Sys2Proof/Certificates/Slice0/Obligations.lean ====
section
/-!
DEFINITION. The statements about the model.
-/

open Sys2Proof Sys2Proof.Machine

/-! ### The queue and the commands' completions -/

/-- A step takes the command at the front of the queue, with the queue's rest. -/
def Obligations.StepTakesFront : Prop :=
  ∀ (c : Instr) (rest : List Instr) (s : State), s.pending = c :: rest → step s = exec c { s with pending := rest }

/-- On an empty queue the module goes one cycle of its own further; with its fast clocks stopped and no calibration
waiting it idles (the model's choice, log 1). -/
def Obligations.EmptyQueue : Prop :=
  ∀ s : State, s.pending = [] → step s = .next (tick s) ∧ (s.fastOn = false → s.cal.waits = [] → step s = .next s)

/-- R281, R288: a completion whose write goes well lands in slot CPW as 16 bytes, every other byte of host memory stays,
CPW advances and wraps with a change of phase, the descriptor is no longer in progress, and with CI the queue's vector
is raised. Rests also on the model's own choice of log 7. -/
def Obligations.CompletionPosted : Prop :=
  ∀ (op : Byte) (d : Desc) (st : Status) (detail result : Nat) (s : State),
    d ∈ (s.cqs[d.queue]).waiting → s.linkUp = true → d.cw = .clean → s.hostMem.wf = true →
    let q := s.cqs[d.queue]
    let a := q.cpBase.toNat + 16 * q.cpw.toNat
    let t := finish op d st detail result s
    t.hostMem.bytes a 16 = completionBytes d.tag st detail q.phase result ∧
    (∀ k, k < a ∨ a + 16 ≤ k → t.hostMem.get k = s.hostMem.get k) ∧
    (t.cqs[d.queue]).cpw = (if q.cpw.toNat + 1 = q.slots then 0 else q.cpw + 1) ∧
    (t.cqs[d.queue]).phase = (if q.cpw.toNat + 1 = q.slots then !q.phase else q.phase) ∧
    (t.cqs[d.queue]).waiting = q.waiting.erase d ∧
    (d.ci = false → t.out = s.out ∧ t.msix = s.msix)

/-- R283: a descriptor whose header or reserved bytes offend completes with BAD_FIELD at the first offending byte, here
for commands of the queue, power and print families. -/
def Obligations.HeaderChecked : Prop :=
  ∀ (d : Desc) (off : Nat) (s : State), s.runs d = true →
    (headerFault d 32 .none .unbound [(24, 40)] = some off →
      exec (.nop d) s = .next (finish 0x01 d .badField off 0 (s.begun 0x01 d))) ∧
    (headerFault d 0 .buffer .unbound [(24, 40)] = some off →
      exec (.queryStatus d) s = .next (finish 0x04 d .badField off 0 (s.begun 0x04 d))) ∧
    (headerFault d 5 .none .unbound [(24, 40)] = some off →
      exec (.closeStream d) s = .next (finish 0x71 d .badField off 0 (s.begun 0x71 d)))

/-- R304, R283: NOP completes OK and does nothing else; QUERY_STATUS answers SYSTIME, with LENGTH 64 the status block too;
an opcode outside the index completes with BAD_OPCODE. Rests also on the model's own choice of log 7. -/
def Obligations.NopQueryBadOpcode : Prop :=
  (∀ (d : Desc) (s : State), s.takes 0x01 d (headerFault d 32 .none .unbound [(24, 40)]) →
    exec (.nop d) s = .next (finish 0x01 d .ok 0 0 (s.begun 0x01 d))) ∧
  (∀ (d : Desc) (s : State), s.takes 0x04 d (headerFault d 0 .buffer .unbound [(24, 40)]) → d.len = 0 →
    exec (.queryStatus d) s = .next (finish 0x04 d .ok 0 s.aon.sysNow.toNat (s.begun 0x04 d))) ∧
  (∀ (d : Desc) (s : State), s.takes 0x04 d (headerFault d 0 .buffer .unbound [(24, 40)]) → d.len = 64 →
    s.linkUp = true → d.wr = .clean →
    exec (.queryStatus d) s = .next (finish 0x04 d .ok 0 s.aon.sysNow.toNat
      ((s.begun 0x04 d).hostWrite d.buffer.toNat (statusBlock (s.begun 0x04 d))))) ∧
  (∀ (op : Byte) (d : Desc) (s : State), s.runs d = true → opcodes.contains op = false →
    exec (.badOpcodeDescriptor op d) s = .next (finish op d .badOpcode 0 0 (s.begun op d)))

/-- R286: while no memory word is in error, the queue whose turn it is has its next descriptor fetched: the 64 bytes at
BASE + 64 * HEAD join the queue's fetched descriptors and HEAD advances round the ring. Rests also on the model's own choices of logs 2 and 7. -/
def Obligations.DescriptorFetched : Prop :=
  ∀ (n : Fin 16) (s : State), s.serving = true → s.turn n = true → s.linkUp = true → s.mem.errs = [] →
    let q := s.cqs[n]
    exec (.descriptorFetch n .clean) s = .next
      ({ s with turns := s.turns + 1 }.modCq n fun q =>
        { q with head := BitVec.ofNat 16 ((q.head.toNat + 1) % q.slots),
                 fetched := q.fetched ++ [descOf n (s.hostMem.bytes (q.base.toNat + 64 * q.head.toNat) 64)],
                 served := s.turns + 1 })

/-- R285: an accepted doorbell of 4 bytes sets the index it carries; a queue index at or above the entry count sets ERR to
1 and raises QUEUE_ERROR; a doorbell of another size acts as a wake source only. Rests also on the model's own choice
of log 42. -/
def Obligations.Doorbells : Prop :=
  ∀ (v : Word) (s : State), s.decodes = true → s.pwr.mode ≠ .dormant →
    (∀ n : Fin 16, (s.cqs[n]).en = true → v.toNat < (s.cqs[n]).slots →
      exec (.cqTailDoorbell n v 4) s = .next ((doorbellWake s).modCq n fun q => { q with tail := v.setWidth 16 }) ∧
      exec (.cpHeadDoorbell n v 4) s = .next ((doorbellWake s).modCq n fun q => { q with cpHead := v.setWidth 16 })) ∧
    (∀ n : Fin 16, (s.cqs[n]).en = true → (s.cqs[n]).slots ≤ v.toNat →
      exec (.cqTailDoorbell n v 4) s = .next (raiseEvent .queueError (BitVec.ofNat 32 n.val)
        ((doorbellWake s).modCq n fun q => { q with err := 1 }))) ∧
    (∀ n : Fin 8, (s.pqs[n]).en = true → v.toNat < (s.pqs[n]).slots →
      exec (.pqTailDoorbell n v 4) s = .next ((doorbellWake s).modPq n fun q => { q with tail := v.setWidth 16 })) ∧
    (∀ n : Fin 32, (s.sts[n]).isOpen = true → (s.sts[n]).consumes v.toNat = true →
      exec (.stConsumedDoorbell n v 4) s =
        .next (rearmRing n ((doorbellWake s).modSt n fun r => { r with consumed := v.setWidth 26 }))) ∧
    (∀ (n : Fin 16) (size : Nat), size ≠ 4 → exec (.cqTailDoorbell n v size) s = .next (doorbellWake s))

/-- R290, R291, R294: opening a stream gives its ring the base, size, vector, mirror, timeout and threshold named and its
sources; closing it writes the mirror, answers WRITE and LOST, and unbinds every source; the mirror follows the ring at
most once per 1 us. Rests also on the model's own choices of logs 2, 42 and 72. -/
def Obligations.StreamsOpenAndClose : Prop :=
  (∀ (d : Desc) (s : State), s.takes 0x70 d (openHeader d) → openFault d = none →
    d.u 25 1 = 0 → (s.sts[(Fin.ofNat 32 d.target.toNat)]).isOpen = false →
    ((streamSources (d.u 24 1) (d.u 26 2) (d.u 28 2)).any fun x => (s.ringOf x).isSome) = false →
    exec (.openStream d) s = .next (finish 0x70 d .ok 0 0 ((s.begun 0x70 d).modSt (Fin.ofNat 32 d.target.toNat) fun _ =>
      { base := d.buffer, mirror := BitVec.ofNat 64 (d.u 40 8), isOpen := true, size := (ringSize d.len).getD 0,
        vector := Fin.ofNat 64 (d.u 30 1), timeout := BitVec.ofNat 8 (d.u 31 1), thresh := BitVec.ofNat 12 (d.u 32 2),
        sources := streamSources (d.u 24 1) (d.u 26 2) (d.u 28 2) }))) ∧
  (∀ (d : Desc) (s : State), s.takes 0x71 d (headerFault d 5 .none .unbound [(24, 40)]) →
    let n : Fin 32 := Fin.ofNat 32 d.target.toNat
    (s.sts[n]).isOpen = true → (s.sts[n]).gap = none →
    exec (.closeStream d) s = .next (finish 0x71 d .ok 0 ((s.sts[n]).write.toNat + (s.sts[n]).lost.toNat * 2 ^ 32)
      ((writeMirror n (s.begun 0x71 d)).modSt n fun r =>
        { r with isOpen := false, sources := [], signalled := false, firstAt := none }))) ∧
  (∀ (n : Fin 32) (s : State), (s.sts[n]).isOpen = true → (s.sts[n]).mirrorDue = true → s.linkUp = true →
    (∀ k, (s.sts[n]).mirrorAt = some k → k + 1200 ≤ s.aon.fck) →
    exec (.mirrorWrite n) s = .next ((s.hostWrite (s.sts[n]).mirror.toNat
      (natLe 4 (s.sts[n]).write.toNat ++ natLe 4 (s.sts[n]).rseq.toNat)).modSt n fun r => { r with
        mirrorDue := false, mirrorAt := some s.aon.fck })) ∧
  (∀ (n : Fin 32) (f : Nat) (s : State), (s.sts[n]).firstAt = some f → (s.sts[n]).isOpen = true →
    (s.sts[n]).signalled = false → (s.sts[n]).timeout ≠ 0 → f + 9600 * (s.sts[n]).timeout.toNat ≤ s.aon.fck →
    exec (.streamInterruptTimeout n) s = .next (raiseMsix (s.sts[n]).vector
      (s.modSt n fun r => { r with signalled := true, firstAt := none })))

/-- R301: unmasking a vector with its PBA bit set sends its one message and clears the bit; at the end of a vector's gap
the causes held send one message; a cause on a masked vector pends in the PBA. Rests also on the model's own choices
of logs 2 and 61. -/
def Obligations.MsixMessages : Prop :=
  (∀ (v : Fin 64) (w : Word) (s : State), s.decodes = true → s.pwr.mode ≠ .dormant → w.getLsbD 0 = false →
    (s.msix[v]).pba = true → s.link.fnMask = false →
    exec (.msixUnmask v w) s = .next (raiseMsix v ((doorbellWake s).modMsix v fun m =>
      { m with masked := false, pba := false }))) ∧
  (∀ (v : Fin 64) (w : Word) (s : State), s.decodes = true → s.pwr.mode ≠ .dormant → w.getLsbD 0 = true →
    exec (.msixUnmask v w) s = .next ((doorbellWake s).modMsix v fun m => { m with masked := true })) ∧
  (∀ (v : Fin 64) (s : State), (s.msix[v]).held = true → (s.msix[v]).gapUntil ≤ s.aon.fck →
    exec (.msixGapEnd v) s = .next (raiseMsix v (s.modMsix v fun m => { m with held := false }))) ∧
  (∀ (v : Fin 64) (s : State), (s.msix[v]).masked = true →
    raiseMsix v s = s.modMsix v fun m => { m with pba := true }) ∧
  (∀ (v : Fin 64) (s : State), (s.msix[v]).masked = false → s.link.fnMask = false → (s.msix[v]).gapUntil ≤ s.aon.fck →
    (raiseMsix v s).out = .message v :: s.out)

/-- R254 to R257, R399: PERST and a hot reset return the endpoint's rings and MSI-X state to reset and stop the link, and
change nothing outside the endpoint; D3hot stops or restores decoding only; the link's training and loss set what
LINK_STAT shows; configuration settings take effect; L1 is entered when the endpoint is idle. Rests also on the
model's own choices of logs 2, 6 and 25. -/
def Obligations.EndpointEvents : Prop :=
  (∀ s : State, ∃ t, exec .perst s = .next t ∧ exec .hotReset s = .next t ∧
    t.cqs = Vector.replicate 16 {} ∧ t.sts = Vector.replicate 32 {} ∧ t.pqs = Vector.replicate 8 {} ∧
    t.msix = Vector.replicate 64 {} ∧ t.link.speed = 0 ∧ t.ev.status = s.ev.status ∧
    t.tiles = s.tiles ∧ t.panels = s.panels ∧ t.heads = s.heads ∧ t.jobs = s.jobs ∧ t.pwr = s.pwr ∧ t.aon = s.aon ∧
    t.ledger = s.ledger ∧ t.gpio = s.gpio ∧ t.sec = s.sec ∧ t.hostMem = s.hostMem ∧ t.pending = s.pending) ∧
  (∀ (enter : Bool) (s : State), s.aon.up = true → exec (.d3hotEntry enter) s = .next { s with link := { s.link with d3hot := enter } }) ∧
  (∀ s : State, exec .linkDown s = .next { s with link := { s.link with speed := 0, width := 0, inL1 := false } }) ∧
  (∀ (a b : BitVec 4) (s : State), s.aon.up = true → s.link.perst = false → s.pwr.bursarFail = false →
    s.pwr.mode ≠ .dormant → exec (.linkTrained a b) s =
      .next { s with link := { s.link with speed := a, width := b, l1Entries := 0, inL1 := false } }) ∧
  (∀ (on : Bool) (s : State), s.aon.up = true →
    exec (.configSpaceWrite .aspmL1 on) s = .next { s with link := { s.link with aspmL1 := on } } ∧
    exec (.configSpaceWrite .l12 on) s = .next { s with link := { s.link with l12En := on } } ∧
    exec (.configSpaceWrite .ptm on) s = .next { s with link := { s.link with ptmEn := on } } ∧
    exec (.configSpaceWrite .ecrc on) s = .next { s with link := { s.link with ecrcEn := on } }) ∧
  (∀ s : State, s.link.aspmL1 = true → s.linkUp = true → s.link.inL1 = false → s.inProgress = 0 →
    (s.pwr.mode = .standby ∨ s.pwr.mode = .armed) → s.pwr.change = none → s.link.l12En = false →
    exec .linkL1Entry s =
      .next { s with link := { s.link with inL1 := true, lastL1 := 1, l1Entries := s.link.l1Entries + 1 } })

/-! ### Registers -/

/-- R284, R289, R297: enabling a queue pair that is off and has nothing in progress, with aligned bases, starts it at
index 0 and phase 1; clearing EN stops fetching and keeps what is in progress; a misaligned base sets ERR to 3 and
leaves EN at 0. A print queue with an aligned base starts at index 0 while no other is enabled; clearing EN stops it.
Rests also on the model's own choice of log 41. -/
def Obligations.QueuesEnableAndStop : Prop :=
  (∀ (n : Fin 16) (v : Word) (s : State), s.decodes = true → s.pwr.mode ≠ .dormant →
    (v.getLsbD 31 = true → (s.cqs[n]).en = false → (s.cqs[n]).inProgress = 0 →
      (s.cqs[n]).base.toNat % 64 = 0 → (s.cqs[n]).cpBase.toNat % 16 = 0 →
      ∃ t, exec (.cqEnable n v) s = .next t ∧ (t.cqs[n]).en = true ∧ (t.cqs[n]).head = 0 ∧ (t.cqs[n]).cpw = 0 ∧
        (t.cqs[n]).tail = 0 ∧ (t.cqs[n]).cpHead = 0 ∧ (t.cqs[n]).phase = true ∧ (t.cqs[n]).err = 0 ∧
        (t.cqs[n]).base = (s.cqs[n]).base ∧ (t.cqs[n]).cpBase = (s.cqs[n]).cpBase ∧
        (∀ k : Fin 16, k ≠ n → t.cqs[k] = s.cqs[k])) ∧
    (v.getLsbD 31 = true → (s.cqs[n]).en = false → (s.cqs[n]).inProgress = 0 → (s.cqs[n]).base.toNat % 64 ≠ 0 →
      ∃ t, exec (.cqEnable n v) s = .next t ∧ (t.cqs[n]).en = false ∧ (t.cqs[n]).err = 3) ∧
    (v.getLsbD 31 = false →
      ∃ t, exec (.cqStop n v) s = .next t ∧ (t.cqs[n]).en = false ∧ (t.cqs[n]).fetched = (s.cqs[n]).fetched ∧
        (t.cqs[n]).waiting = (s.cqs[n]).waiting)) ∧
  (∀ (n : Fin 8) (v : Word) (s : State), s.decodes = true → s.pwr.mode ≠ .dormant →
    (v.getLsbD 31 = true → (s.pqs[n]).en = false → (s.pqs[n]).base.toNat % 32 = 0 →
      (∀ k : Fin 8, k ≠ n → (s.pqs[k]).en = false) →
      ∃ t, exec (.pqEnable n v) s = .next t ∧ (t.pqs[n]).en = true ∧ (t.pqs[n]).rdidx = 0 ∧ (t.pqs[n]).tail = 0 ∧
        (t.pqs[n]).err = 0 ∧ (t.pqs[n]).headId = Fin.ofNat 8 (Word.field v 26 24)) ∧
    (v.getLsbD 31 = false → ∃ t, exec (.pqStop n v) s = .next t ∧ (t.pqs[n]).en = false))

/-- R340, R341, R372: the second write of a pair with the same target, its key and the first write kept, advances the
lifecycle pending for the next module reset, and locks a pin; a key command in OPEN programs an empty slot from the
data registers and clears them. Rests also on the model's own choice of log 41. -/
def Obligations.TwoWriteSequences : Prop :=
  (∀ (v : Word) (s : State), s.decodes = true → s.pwr.mode ≠ .dormant → Word.field v 15 8 = 0xA7 →
    Word.field v 1 0 = s.sec.lifecycle.code + 1 → s.sec.lcFirst = some (BitVec.ofNat 2 (Word.field v 1 0)) →
    (s.sec.lifecycle = .opened → s.sec.keyBits ≠ 0) →
    ∃ t, exec (.secLcAdvWrite v .clean) s = .next t ∧ t.sec.pendingLc = lcOf (s.sec.lifecycle.code + 1) ∧
      t.sec.lifecycle = s.sec.lifecycle ∧ t.sec.lcFirst = none ∧ t.sec.keys = s.sec.keys ∧ t.tiles = s.tiles) ∧
  (∀ (v : Word) (s : State), s.decodes = true → s.pwr.mode ≠ .dormant → Word.field v 15 8 = 0x3C →
    s.sec.lifecycle = .opened → v.getLsbD 0 = false → s.sec.keys[(0 : Fin 2)] = none →
    ∃ t, exec (.secKeyCmdWrite v .clean) s = .next t ∧ t.sec.keys[(0 : Fin 2)] = some s.sec.keyValue ∧
      t.sec.keyData = Vector.replicate 8 0 ∧ t.sec.lifecycle = .opened) ∧
  (∀ (v : Word) (s : State), s.decodes = true → s.pwr.mode ≠ .dormant → Word.field v 15 8 = 0x93 →
    s.gpio.lockFirst = some (Fin.ofNat 128 (Word.field v 6 0)) →
    ∃ t, exec (.pinLockWrite v) s = .next t ∧ (t.gpio.pins[(Fin.ofNat 128 (Word.field v 6 0) : PinId)]).locked = true ∧
      t.gpio.lockFirst = none) ∧
  (∀ (v : Word) (s : State), s.decodes = true → s.pwr.mode = .dormant → v.getLsbD 31 = true →
    ∃ t, exec (.leaveDormant v) s = .next t ∧ t.aon.resetDue = some 2 ∧ t.pwr = s.pwr)

/-- R311, R314, R316: a MEM_CODE write that changes it, with nothing placed or armed, starts priming buffer regions 1 to 3
of every tile, which read 0 from then on, while the keep region stays; the end of priming clears BUSY; SCRUB_CTRL goes
to all three voted copies; ARM is set for every region but 13 to 15. Rests also on the model's own choices of logs 8,
36 and 41. -/
def Obligations.MemoryControlWrites : Prop :=
  (∀ (v : Word) (s : State), s.decodes = true → s.pwr.mode ≠ .dormant → s.anyPlaced = false → s.anyArmed = false →
    Word.merge s.mem.memCode v 0x3F#32 ≠ s.mem.memCode →
    ∃ t, exec (.memCodeWrite v) s = .next t ∧ t.mem.memBusy = true ∧
      t.mem.memCode = Word.merge s.mem.memCode v 0x3F#32 ∧
      (∀ (k : TileId) (a : Nat), 0x4000 ≤ a → a < 0x10000 → (t.tiles[k]).buffer.get a = 0) ∧
      (∀ (k : TileId) (a : Nat), a < 0x4000 → (t.tiles[k]).buffer.get a = (s.tiles[k]).buffer.get a) ∧
      (∀ k : TileId, (t.tiles[k]).engMem = (s.tiles[k]).engMem)) ∧
  (∀ s : State, exec .memCodePrimeDone s = .next { s with mem := { s.mem with memBusy := false } }) ∧
  (∀ (v : Word) (s : State), s.decodes = true → s.pwr.mode ≠ .dormant →
    ∃ t, exec (.scrubCtrlWrite v) s = .next t ∧
      (∀ k : Fin 3, (t.scrub.copies[k]).rate = v.setWidth 13) ∧
      (v.getLsbD 31 = true → t.scrub.voteErr = false) ∧ t.scrub.corrected = s.scrub.corrected) ∧
  (∀ (v : Word) (s : State), s.decodes = true → s.pwr.mode ≠ .dormant → v.getLsbD 31 = true →
    Word.field v 15 12 ≤ 12 →
    ∃ t, exec (.memFlipArm v) s = .next t ∧ t.mem.flipArm = true ∧ t.mem.flipSel = v &&& 0x0001F1FF#32 ∧
      t.mem.flipLo = s.mem.flipLo ∧ t.mem.errs = s.mem.errs)

/-- R394, R397, R402, R405: every register is found at its offset, and at that offset only; and each row that is a write
of one register of BAR0 acts as REGISTER_WRITE of 4 bytes at that register's offset. -/
def Obligations.RegisterMap : Prop :=
  (∀ r : Reg, regAt r.off = some r) ∧ (∀ (o : Nat) (r : Reg), o < 0x10000 → regAt o = some r → r.off = o) ∧
  (∀ r : Reg, r.off % 4 = 0 ∧ r.off < 0x10000) ∧
  (∀ (v : Word) (s : State),
     let w := fun r : Reg => exec (.registerWrite (BitVec.ofNat 16 r.off) v 4) s
     (∀ n, exec (.cqEnable n v) s = w (.cqCfg n) ∧ exec (.cqStop n v) s = w (.cqCfg n)) ∧
     (∀ n, exec (.pqEnable n v) s = w (.pqCfg n) ∧ exec (.pqStop n v) s = w (.pqCfg n)) ∧
     (∀ t, exec (.tripClear t v) s = w (.tile t .trwl) ∧ exec (.adcEnableWrite t v) s = w (.tile t .adc) ∧
       exec (.ilvWrite t v) s = w (.tile t .adc) ∧ exec (.decWrite t v) s = w (.tile t .flt)) ∧
     (∀ t c, exec (.comparatorStuckClear t c v) s = w (.tile t (.cmp c)) ∧
       exec (.comparatorEnableWrite t c v) s = w (.tile t (.cmp c))) ∧
     (∀ p, exec (.refSelectWrite p v) s = w (.panel p .ref) ∧ exec (.vsetWrite p v) s = w (.panel p .pvh)) ∧
     (∀ k, exec (.pinStuckClear k v) s = w (.pinStuck k)) ∧ (∀ k, exec (.gpioOutWrite k v) s = w (.gpioOut k)) ∧
     (∀ n, exec (.encCountWrite n v) s = w (.encCount n)) ∧
     exec (.pinLockWrite v) s = w .pinLock ∧ exec (.memFlipArm v) s = w .memFlipSel ∧
     exec (.memCodeWrite v) s = w .memCode ∧ exec (.scrubCtrlWrite v) s = w .scrubCtrl ∧
     exec (.leaveDormant v) s = w .pwrCtrl ∧ exec (.pvhEnWrite v) s = w .pwrRails ∧
     exec (.hlvCtrlWrite v) s = w .hlvCtrl ∧ exec (.evEnableWrite v) s = w .evEnable ∧
     exec (.secLcAdvWrite v .clean) s = w .secLcAdv ∧ exec (.secKeyCmdWrite v .clean) s = w .secKeyCmd)

/-- R392, R393: a write of other than 4 bytes, and one to an offset that holds no register, is ignored whole; a write to a
scratch register stores it. -/
def Obligations.RegisterWrites : Prop :=
  (∀ (off : BitVec 16) (v : Word) (n : Nat) (s : State), n ≠ 4 → exec (.registerWrite off v n) s = .next s) ∧
  (∀ (off : BitVec 16) (v : Word) (n : Nat) (s : State), regAt off.toNat = none → exec (.registerWrite off v n) s = .next s) ∧
  (∀ (k : Fin 8) (v : Word) (s : State), s.decodes = true → s.pwr.mode ≠ .dormant →
    exec (.registerWrite (BitVec.ofNat 16 (0x0020 + 4 * k.val)) v 4) s =
      .next { s with scratch := s.scratch.set k v }) ∧
  (∀ (off : BitVec 16) (v : Word) (n : Nat) (s : State), s.decodes = false → exec (.registerWrite off v n) s = .next s)

/-- Registers of a tile or panel whose panel is not OFF, in a module that decodes: what each row sets. R93, R126, R136,
R138, R147, R155, R167: VSET is cut at 1,000; a change of SEL clears REFOK; ILV is set unless refused; a write of
T_FLT restarts the chain that a running SAR feeds; setting EN starts the SAR of a live tile at sample 0, its first
conversion 8 FCK cycles later; TRIP written 1 clears it and schedules the re-enable; STUCK written 1 lets a
comparator's events resume, and setting its EN powers it up. The changes of SEL and of T_FLT are those beside
comparators that are off. Rests also on the model's own choices of logs 25 and 41. -/
def Obligations.TileAndPanelWrites : Prop :=
  (∀ (p : PanelId) (v : Word) (s : State), s.decodes = true → s.pwr.mode ≠ .dormant → s.pstate p ≠ .off →
    s.armedPanel p = false →
    (∃ t, exec (.vsetWrite p v) s = .next t ∧ (t.panels[p]).vset.toNat = min 1000 (Word.field v 9 0)) ∧
    (Word.field v 25 24 ≠ Word.field (s.panels[p]).ref 25 24 → (∀ k : TileId, panelOf k = p → s.cmpsOff k = true) →
      ∃ t, exec (.refSelectWrite p v) s = .next t ∧ (t.panels[p]).refOk = false ∧
        Word.field (t.panels[p]).ref 25 24 = Word.field v 25 24)) ∧
  (∀ (k : TileId) (v : Word) (s : State), s.decodes = true → s.pwr.mode ≠ .dormant → s.pstate (panelOf k) ≠ .off →
    (∀ o : TileId, s.tileLive k = true → s.cmpsOff k = true → s.feeder k = some o → (s.tiles[k]).openRec = none →
      ∃ t, exec (.decWrite k v) s = .next t ∧ (t.tiles[k]).dec = min 11 (Word.field v 31 28) ∧
        (t.tiles[k]).decim = { t0 := s.nextTime o }) ∧
    (s.tileLive k = true → s.sarListens k = false → s.joined (partner k) = false → v.getLsbD 0 = true →
      v.getLsbD 14 = false → Word.field v 31 26 ≠ 0x3F → Word.field v 17 16 = 0 →
      (s.tiles[k]).adcEn = false → (s.tiles[k]).openRec = none → v.getLsbD 13 = false → s.fastOn = true →
      ∃ t, exec (.adcEnableWrite k v) s = .next t ∧ (t.tiles[k]).sar.en = true ∧ (t.tiles[k]).sar.total = 0 ∧
        (t.tiles[k]).sar.nextAt = some (s.aon.fck + 8) ∧ (t.tiles[k]).sar.t0 = s.timeOf (s.aon.fck + 8)) ∧
    (k.val % 2 = 0 → s.sarListens k = false → s.tileLive k = false → (s.tiles[k]).ilv = false →
      ∃ t, exec (.ilvWrite k v) s = .next t ∧ (t.tiles[k]).ilv = (v.getLsbD 14 && !s.ilvRefused k) ∧
        (t.tiles[k]).sar.ilv = (v.getLsbD 14 && !s.ilvRefused k)) ∧
    (v.getLsbD 31 = true → (s.tiles[k]).trowel.trip = true →
      ∃ t, exec (.tripClear k v) s = .next t ∧ (t.tiles[k]).trowel.reenable = true ∧ (t.tiles[k]).trowel.trip = false) ∧
    (∀ c : Cmp, let x := (s.tiles[k]).cmp c
      s.mem.errs = [] → s.mem.flipArm = false → s.unrouted k c = true → v.getLsbD 30 = false →
      (v.getLsbD 28 = true → x.stuck = true → x.cfg &&& (TReg.cmp c).rw k = v &&& (TReg.cmp c).rw k → x.powered = x.en →
        (s.tiles[k]).cmpA.lvl = s.cmpLvl k .a → (s.tiles[k]).cmpB.lvl = s.cmpLvl k .b →
        exec (.comparatorStuckClear k c v) s = .next (s.modCmp k c fun x => { x with
          stuck := false, stuckPhase := if x.stuckPhase = .first then .watched s.aon.ticks else .none
          filt := x.acc, activeSince := if x.lvl then some s.aon.ticks else none })) ∧
      (v.getLsbD 28 = false → v.getLsbD 0 = true → v.getLsbD 2 = false → (s.tiles[k]).cmpA.win = false → x.powered = false →
        s.tileLive k = true → (s.panels[panelOf k]).refSeen = true → x.seen = none →
        (s.tiles[k]).cmpA.lvl = s.cmpLvl k .a → (s.tiles[k]).cmpB.lvl = s.cmpLvl k .b →
        ∃ t, exec (.comparatorEnableWrite k c v) s = .next t ∧ ((t.tiles[k]).cmp c).en = true ∧
          ((t.tiles[k]).cmp c).powered = true ∧ t.panels = s.panels ∧ ∀ u, u ≠ k → t.tiles[u] = s.tiles[u])))

/-- R261, R275, R300, R365, R375, R401: global registers. An HLV_CTRL value that the grant covers is stored while no job
is armed; a host-assisted rail write sets the enables; EV_ENABLE and an encoder count of a channel no armed job uses
are stored; a masked GPIO write sets the pin's software value, here of one pin whose pad it does not move; PIN_STUCK
written 1 lets the pin's events resume; SYSTIME_LO answers the low half and latches the high one. Rests also on the
model's own choices of logs 41 and 43. -/
def Obligations.GlobalWrites : Prop :=
  (∀ (v : Word) (s : State), s.decodes = true → s.pwr.mode ≠ .dormant → s.anyArmed = false → s.hlvTooMuch v = false →
    ∃ t, exec (.hlvCtrlWrite v) s = .next t ∧ t.pwr.hlvCtrl = Word.merge s.pwr.hlvCtrl v 0x03C0FF00#32 ∧
      t.pwr.grant = s.pwr.grant ∧ t.tiles = s.tiles) ∧
  (∀ (v : Word) (s : State), s.decodes = true → s.pwr.mode ≠ .dormant → Word.field (s.fnMode.setWidth 32) 15 14 = 1 →
    s.pwr.vddaGood = true →
    ∃ t, exec (.pvhEnWrite v) s = .next t ∧ t.pwr.vddaEn = v.getLsbD 8 ∧
      (∀ p : PanelId, t.pwr.pvhEn[p] = v.getLsbD (16 + p.val) ∧ (t.panels[p]).pvhOn = v.getLsbD (16 + p.val))) ∧
  (∀ (v : Word) (s : State), s.decodes = true → s.pwr.mode ≠ .dormant →
    ∃ t, exec (.evEnableWrite v) s = .next t ∧ t.ev.enable = v.setWidth 13 ∧ t.ev.status = s.ev.status) ∧
  (∀ (n : Fin 8) (v : Word) (s : State), s.decodes = true → s.pwr.mode ≠ .dormant → s.encArmed n = false →
    ∃ t, exec (.encCountWrite n v) s = .next t ∧ (t.aon.enc[n]).count = v ∧ t.tiles = s.tiles) ∧
  (∀ (k : Fin 8) (j : Fin 16) (v : Word) (s : State), s.decodes = true → s.pwr.mode ≠ .dormant →
    (∀ i : Fin 16, v.getLsbD (16 + i.val) = decide (i = j)) → let p := pin16 k j
    ((s.gpio.pins[p]).out = v.getLsbD j.val → exec (.gpioOutWrite k v) s = .next s) ∧
    ((s.gpio.pins[p]).out ≠ v.getLsbD j.val →
      let s' := s.modPin p fun x => { x with out := v.getLsbD j.val }
      s'.padLevel p = some (s.gpio.pins[p]).sync →
      exec (.gpioOutWrite k v) s = .next (s'.modPin p fun x => { x with kept := x.sync }))) ∧
  (∀ (k : Fin 4) (j : Fin 32) (v : Word) (s : State), s.decodes = true → s.pwr.mode ≠ .dormant →
    (∀ i : Fin 32, v.getLsbD i.val = decide (i = j)) → let p := pinOf k j
    (s.gpio.pins[p]).stuck = true → (s.gpio.pins[p]).imode ≠ 4 → (s.gpio.pins[p]).imode ≠ 5 →
    (∀ (q : PanelId) (i : Fin 32), (s.panels[q]).pinLine[i] ≠ p.val) →
    exec (.pinStuckClear k v) s = .next (s.modPin p fun x => { x with
      stuck := false, stuckPhase := if x.stuckPhase = .first then .watched s.aon.ticks else .none
      activeSince := x.activeSince.map fun _ => s.aon.ticks })) ∧
  (∀ s : State, s.decodes = true → s.pwr.mode ≠ .dormant →
    ∃ t, exec .systimeLoRead s = .next t ∧ t.out = .read (s.aon.sysNow.setWidth 32) :: s.out ∧
      t.aon.sysHiLatch = (s.aon.sysNow >>> 32).setWidth 32)

/-- R22, R256: in lifecycle OPEN, with no memory word in error or armed to be, a BAR4 write below 32 MiB sets the bytes it
names (no ledger entry's), no other byte of shared memory, and nothing else; a read of one byte answers the byte stored
there, or the byte of the ledger entry that lies there, and 0 where neither the host nor the module has written the
partition. Above 32 MiB, and outside OPEN, a write is discarded and a read answers zeros. Rests also on the model's own
choices of logs 8 and 71. -/
def Obligations.SharedMemory : Prop :=
  (∀ (off : BitVec 28) (s : State), s.sec.lifecycle = .opened → s.pwr.mode ≠ .dormant → s.decodes = true →
    s.mem.errs = [] → s.mem.flipArm = false →
    (∀ bs : List Byte, off.toNat + bs.length ≤ 0x2000000 → sharedWfFrom 0 s.shared = true →
      (∀ k, k < bs.length → s.entryAt (off.toNat + k) = none) →
      ∃ t, exec (.sharedMemoryAccess off 0 (some bs)) s = .next t ∧ t = { s with shared := t.shared } ∧
        (∀ k, k < bs.length → sharedLook t.shared (off.toNat + k) = bs[k]?) ∧
        (∀ a, a < off.toNat ∨ off.toNat + bs.length ≤ a → sharedLook t.shared a = sharedLook s.shared a)) ∧
    (let read := fun b : Byte => ∃ t, exec (.sharedMemoryAccess off 1 none) s = .next t ∧
       t = { s with free := t.free, out := .readBytes [b] false :: s.out }
     off.toNat < 0x2000000 →
       (∀ e : Entry, s.entryAt off.toNat = some e → read (e.bytes.getD (off.toNat % 32) 0)) ∧
       (s.entryAt off.toNat = none →
         (∀ b : Byte, sharedLook s.shared off.toNat = some b → read b) ∧
         (sharedLook s.shared off.toNat = none → s.partUsed (sharedRegion off.toNat).val = false → read 0)))) ∧
  (∀ (off : BitVec 28) (bs : List Byte) (s : State), (s.sec.lifecycle ≠ .opened ∨ 0x2000000 ≤ off.toNat) →
    exec (.sharedMemoryAccess off 0 (some bs)) s = .next s) ∧
  (∀ (off : BitVec 28) (n : Nat) (s : State), (s.sec.lifecycle ≠ .opened ∨ 0x2000000 ≤ off.toNat) →
    exec (.sharedMemoryAccess off n none) s = .next (s.send (.readBytes (List.replicate n 0) false)))

/-! ### The tile engine -/

/-- R184: ADD, ADDI, SUB, CMP and CMPI: the result, the carry, borrow and overflow flags, and nothing else changed. Rests
also on the model's own choice of log 15. -/
def Obligations.EngineAddSubtract : Prop :=
  ∀ (t : TileId) (d a b : Reg4) (imm : Imm18) (s : State), s.engineRuns t = true →
    let e := (s.tiles[t]).eng
    let x := e.rd a
    let add := fun (i : Instr) (y : Word) => ∃ s', s.ran i t s' ∧ e.onlyAlu (s'.tiles[t]).eng ∧
      e.wrote (s'.tiles[t]).eng d (x + y) ∧ (s'.tiles[t]).eng.shows (x + y) (decide (2 ^ 32 ≤ x.toNat + y.toNat))
        (decide ((x + y).toInt ≠ x.toInt + y.toInt))
    let sub := fun (i : Instr) (d : Reg4) (y : Word) => ∃ s', s.ran i t s' ∧ e.onlyAlu (s'.tiles[t]).eng ∧
      e.wrote (s'.tiles[t]).eng d (x - y) ∧ (s'.tiles[t]).eng.shows (x - y) (decide (y.toNat ≤ x.toNat))
        (decide ((x - y).toInt ≠ x.toInt - y.toInt))
    add (.add t d a b) (e.rd b) ∧ add (.addi t d a imm) (imm.signExtend 32) ∧ sub (.sub t d a b) d (e.rd b) ∧
      sub (.cmp t 0 a b) 0 (e.rd b) ∧ sub (.cmpi t 0 a imm) 0 (imm.signExtend 32)

/-- R184: AND, OR, XOR, ANDI and ORI clear C and V; the shifts put the last bit shifted out into C, 0 for a shift of 0,
and keep V; LUI writes no flag. Rests also on the model's own choice of log 15. -/
def Obligations.EngineLogicShifts : Prop :=
  ∀ (t : TileId) (d a b : Reg4) (imm : Imm18) (s : State), s.engineRuns t = true →
    let e := (s.tiles[t]).eng
    let x := e.rd a
    let op := fun (i : Instr) (r : Word) (c v : Bool) => ∃ s', s.ran i t s' ∧ e.onlyAlu (s'.tiles[t]).eng ∧
      e.wrote (s'.tiles[t]).eng d r ∧ (s'.tiles[t]).eng.shows r c v
    op (.and t d a b) (x &&& e.rd b) false false ∧ op (.or t d a b) (x ||| e.rd b) false false ∧
    op (.xor t d a b) (x ^^^ e.rd b) false false ∧ op (.andi t d a imm) (x &&& imm.setWidth 32) false false ∧
    op (.ori t d a imm) (x ||| imm.setWidth 32) false false ∧
    (let shifts := fun (l r ar : Instr) (n : Nat) =>
      op l (x <<< n) (decide (0 < n) && (x.getLsbD (32 - n))) e.v ∧
      op r (x >>> n) (decide (0 < n) && (x.getLsbD (n - 1))) e.v ∧
      op ar (x.sshiftRight n) (decide (0 < n) && (x.getLsbD (n - 1))) e.v
     shifts (.shl t d a b) (.shr t d a b) (.sar t d a b) ((e.rd b).toNat % 32) ∧
     (imm.toNat < 32 → shifts (.shli t d a imm) (.shri t d a imm) (.sari t d a imm) imm.toNat)) ∧
    (∃ s', s.ran (.lui t d 0 imm) t s' ∧ e.wrote (s'.tiles[t]).eng d (BitVec.ofNat 32 (imm.toNat * 2 ^ 14)) ∧
      (s'.tiles[t]).eng.flags = e.flags)

/-- R184, R185: MUL and MULH give the low and the high half of the product; MAC and MSU add and subtract the exact
halfword product, clamped to 40 bits with AV sticky; WRACC sign-extends; RDACC shifts and clamps to 32 bits. Rests
also on the model's own choice of log 15. -/
def Obligations.EngineMultiply : Prop :=
  ∀ (t : TileId) (d a b : Reg4) (h : BitVec 2) (imm : Imm18) (s : State), s.engineRuns t = true →
    let e := (s.tiles[t]).eng
    let half := fun (hi : Bool) (x : Word) => if hi then (x.extractLsb' 16 16).toInt else (x.extractLsb' 0 16).toInt
    let prod := half (h.getLsbD 0) (e.rd a) * half (h.getLsbD 1) (e.rd b)
    let mac := fun (i : Instr) (v : Int) => ∃ s', s.ran i t s' ∧
      (s'.tiles[t]).eng.acc.toInt = max (-(2 ^ 39)) (min (2 ^ 39 - 1) v) ∧
      (s'.tiles[t]).eng.av = (e.av || decide (v < -(2 ^ 39) ∨ 2 ^ 39 - 1 < v)) ∧
      (s'.tiles[t]).eng.regs = e.regs ∧ (s'.tiles[t]).eng.flags = e.flags
    (∃ s', s.ran (.mul t d a b) t s' ∧ e.wrote (s'.tiles[t]).eng d (e.rd a * e.rd b) ∧
      (s'.tiles[t]).eng.shows (e.rd a * e.rd b) e.c e.v) ∧
    (let hi := BitVec.ofInt 32 ((e.rd a).toInt * (e.rd b).toInt / 2 ^ 32)
     ∃ s', s.ran (.mulh t d a b) t s' ∧ e.wrote (s'.tiles[t]).eng d hi ∧ (s'.tiles[t]).eng.shows hi e.c e.v) ∧
    mac (.mac t h 0 a b) (e.acc.toInt + prod) ∧ mac (.msu t h 0 a b) (e.acc.toInt - prod) ∧
    (∃ s', s.ran (.wracc t 0 a 0) t s' ∧ (s'.tiles[t]).eng.acc.toInt = (e.rd a).toInt ∧
      (s'.tiles[t]).eng.regs = e.regs) ∧
    (imm.toNat ≤ 39 →
      let x := e.acc.toInt / 2 ^ imm.toNat
      let r := BitVec.ofInt 32 (max (-(2 ^ 31)) (min (2 ^ 31 - 1) x))
      ∃ s', s.ran (.rdacc t d 0 imm) t s' ∧ e.wrote (s'.tiles[t]).eng d r ∧
        (s'.tiles[t]).eng.shows r e.c (decide (x < -(2 ^ 31) ∨ 2 ^ 31 - 1 < x)) ∧ (s'.tiles[t]).eng.acc = e.acc)

/-- R183, R203: an instruction with an unused field or operand bit that is not 0 stops its engine in FAULT with cause 1,
its PC at the instruction, its ARM cancelled; registers, memory and the outbox keep their contents. Rests also on the
model's own choices of logs 15 and 40. -/
def Obligations.EngineIllegal : Prop :=
  ∀ (t : TileId) (d a b : Reg4) (off : Off22) (imm : Imm18) (s : State), s.engineRuns t = true →
    let e := (s.tiles[t]).eng
    let bad := fun i : Instr => ∃ s', exec i s = .next s' ∧ (s'.tiles[t]).eng.st = .fault ∧ (s'.tiles[t]).eng.cause = 1 ∧
      (s'.tiles[t]).eng.pc = e.pc ∧ (s'.tiles[t]).eng.arm = none ∧ (s'.tiles[t]).eng.regs = e.regs ∧
      (s'.tiles[t]).eng.outbox = e.outbox ∧ (s'.tiles[t]).engMem = (s.tiles[t]).engMem ∧
      (∀ k, k ≠ t → s'.tiles[k] = s.tiles[k])
    (d ≠ 0 → bad (.cmp t d a b) ∧ bad (.cmpi t d a imm) ∧ bad (.mac t 0 d a b) ∧ bad (.msu t 0 d a b) ∧
      bad (.arm t d a b) ∧ bad (.cmpset t d a b) ∧ bad (.send t d a b) ∧ bad (.loopi t d a imm)) ∧
    (a ≠ 0 → bad (.lui t d a imm) ∧ bad (.trig t d a b) ∧ bad (.adcp t d a b) ∧ bad (.reti t d a b)) ∧
    (b ≠ 0 → bad (.recv t d a b) ∧ bad (.dacs t d a b) ∧ bad (.halt t d a b)) ∧
    (32 ≤ imm.toNat → bad (.shli t d a imm) ∧ bad (.shri t d a imm) ∧ bad (.sari t d a imm)) ∧
    (39 < imm.toNat → bad (.rdacc t d a imm)) ∧ (0x12 ≤ imm.toNat → bad (.mfs t d 0 imm)) ∧
    bad (.b t 15 off) ∧ bad (.bl t 15 off) ∧ (e.rd a &&& 0xFFFF#32 = 0 → bad (.wait t d a 0)) ∧
    (256 ≤ (e.rd b).toNat → bad (.arm t 0 a b)) ∧ (2 ≤ (e.rd b).toNat → bad (.cmpset t 0 a b)) ∧
    (Word.field (e.rd a) 23 12 ≠ 0 → bad (.send t 0 a b))

/-- R179, R180: an aligned access of engine memory whose page is in use and whose words are clean: loads give the stored
bytes, sign- or zero-extended; stores change the bytes named and no other; a misaligned address and one outside the
map stop the engine. Rests also on the model's own choices of logs 15, 40 and 58. -/
def Obligations.EngineMemory : Prop :=
  ∀ (t : TileId) (d a : Reg4) (imm : Imm18) (s : State), s.engineRuns t = true →
    let e := (s.tiles[t]).eng
    let m := (s.tiles[t]).engMem
    let at_ := (e.rd a + imm.signExtend 32).toNat
    let load := fun (i : Instr) (r : Word) => ∃ s', s.ran i t s' ∧ e.wrote (s'.tiles[t]).eng d r ∧
      (s'.tiles[t]).eng.flags = e.flags
    let store := fun (i : Instr) (bs : List Byte) => ∃ s', exec i s = .next s' ∧
      (s'.tiles[t]).engMem.bytes at_ bs.length = bs ∧
      (∀ k, k < at_ ∨ at_ + bs.length ≤ k → (s'.tiles[t]).engMem.get k = m.get k) ∧
      (s'.tiles[t]).buffer = (s.tiles[t]).buffer ∧ (s'.tiles[t]).lutRam = (s.tiles[t]).lutRam ∧
      (s'.tiles[t]).eng.regs = e.regs ∧ (s'.tiles[t]).eng.flags = e.flags ∧
      (∀ k, k ≠ t → s'.tiles[k] = s.tiles[k]) ∧ s'.hostMem = s.hostMem
    let faults := fun (i : Instr) (c : BitVec 4) => ∃ s', exec i s = .next s' ∧ (s'.tiles[t]).eng.st = .fault ∧
      (s'.tiles[t]).eng.cause = c ∧ (s'.tiles[t]).engMem = m ∧ (s'.tiles[t]).eng.regs = e.regs
    (at_ < 0x8000 → s.mem.errs = [] → s.mem.flipArm = false → s.pageRetired 0 t (at_ / 1024) = false → m.wf = true →
      (at_ % 4 = 0 → load (.ldw t d a imm) (BitVec.ofNat 32 (leNat (m.bytes at_ 4))) ∧
        store (.stw t d a imm) (natLe 4 (e.rd d).toNat)) ∧
      (at_ % 2 = 0 → load (.ldh t d a imm) ((BitVec.ofNat 16 (leNat (m.bytes at_ 2))).signExtend 32) ∧
        store (.sth t d a imm) (natLe 2 (e.rd d).toNat)) ∧
      load (.ldbu t d a imm) ((m.get at_).setWidth 32) ∧ store (.stb t d a imm) (natLe 1 (e.rd d).toNat)) ∧
    (at_ % 4 ≠ 0 → faults (.ldw t d a imm) 2 ∧ faults (.stw t d a imm) 2) ∧
    (at_ % 2 ≠ 0 → faults (.ldh t d a imm) 2 ∧ faults (.sth t d a imm) 2) ∧
    (0x20800 ≤ at_ ∨ (0x8000 ≤ at_ ∧ at_ < 0x10000) →
      faults (.ldbu t d a imm) 3 ∧ faults (.stb t d a imm) 3) ∧
    (0x10000 ≤ at_ → at_ < 0x14000 → faults (.stb t d a imm) 3)

/-- R184, R186, R189: the condition codes hold as their table says and code 15 is ILLEGAL; outside every loop a branch
that is taken goes to pc + 4 * off, one not taken to pc + 4; BL and JALR link; a JALR target that is not aligned stops
the engine. LOOP and LOOPI open a level over the body, or skip it at a count of 0. -/
def Obligations.EngineControlFlow : Prop :=
  ∀ (t : TileId) (cond d a : Reg4) (off : Off22) (imm : Imm18) (s : State), s.engineRuns t = true →
    let e := (s.tiles[t]).eng
    let target := e.rd a + imm.signExtend 32
    let goes := fun (i : Instr) (pc : Word) (link : Reg4) => ∃ s', exec i s = .next s' ∧ s.onlyEngine s' t ∧
      (s'.tiles[t]).eng.pc = pc ∧ e.wrote (s'.tiles[t]).eng link (e.pc + 4) ∧ (s'.tiles[t]).eng.flags = e.flags ∧
      (s'.tiles[t]).eng.loops = []
    ((List.range 15).map (fun k => condHolds e (BitVec.ofNat 4 k)) = [true, e.z, !e.z, e.n != e.v, e.n == e.v,
      !e.z && e.n == e.v, e.z || e.n != e.v, !e.c, e.c, e.c && !e.z, !e.c || e.z, e.n, !e.n, e.v, !e.v]) ∧
    (cond = 15 → ∀ i ∈ [Instr.b t cond off, Instr.bl t cond off], ∃ s', exec i s = .next s' ∧
      (s'.tiles[t]).eng.st = .fault ∧ (s'.tiles[t]).eng.cause = 1 ∧ (s'.tiles[t]).eng.regs = e.regs) ∧
    (e.loops = [] → cond ≠ 15 → condHolds e cond = true →
      goes (.b t cond off) (e.pc + BitVec.ofInt 32 (4 * off.toInt)) 0 ∧
      goes (.bl t cond off) (e.pc + BitVec.ofInt 32 (4 * off.toInt)) 15) ∧
    (e.loops = [] → cond ≠ 15 → condHolds e cond = false →
      goes (.b t cond off) (e.pc + 4) 0 ∧ goes (.bl t cond off) (e.pc + 4) 0) ∧
    (e.loops = [] → target.toNat % 4 = 0 → goes (.jalr t d a imm) target d) ∧
    (target.toNat % 4 ≠ 0 → ∃ s', exec (.jalr t d a imm) s = .next s' ∧ (s'.tiles[t]).eng.st = .fault ∧
      (s'.tiles[t]).eng.cause = 2) ∧
    (let opens := fun (i : Instr) (n len : Nat) =>
      (0 < n → e.loops = [] → ∃ s', exec i s = .next s' ∧ s.onlyEngine s' t ∧ (s'.tiles[t]).eng.pc = e.pc + 4 ∧
        (s'.tiles[t]).eng.loops = [⟨e.pc + 4, e.pc + BitVec.ofNat 32 (4 * len), n⟩] ∧
        (s'.tiles[t]).eng.regs = e.regs) ∧
      (n = 0 → e.loops = [] → ∃ s', exec i s = .next s' ∧ s.onlyEngine s' t ∧
        (s'.tiles[t]).eng.pc = e.pc + BitVec.ofNat 32 (4 * len) + 4 ∧ (s'.tiles[t]).eng.loops = []) ∧
      (2 ≤ e.loops.length → 0 < n → ∃ s', exec i s = .next s' ∧ (s'.tiles[t]).eng.st = .fault ∧
        (s'.tiles[t]).eng.cause = 5)
     (0 < imm.toNat → imm.toNat < 256 → opens (.loop t 0 a imm) (e.rd a).toNat imm.toNat) ∧
     (0 < imm.toNat % 256 → opens (.loopi t 0 0 imm) (imm.toNat / 256) (imm.toNat % 256)))

/-- R192 to R196: WAIT with an event it takes writes the events to d and clears the edge bits among them, else it sleeps;
TRIG pulses its line; ARM schedules, replaces and cancels; CAPT pops the oldest capture. Rests also on the model's own
choices of logs 15 and 40. -/
def Obligations.EngineEventInstructions : Prop :=
  ∀ (t : TileId) (d a b : Reg4) (s : State), s.engineRuns t = true →
    let e := (s.tiles[t]).eng
    let m : BitVec 16 := (e.rd a).setWidth 16
    (e.evmNow &&& m ≠ 0 → ∃ s', s.ran (.wait t d a b) t s' ∧
      e.wrote (s'.tiles[t]).eng d ((e.evmNow &&& m).setWidth 32) ∧
      (s'.tiles[t]).eng.evm = e.evm &&& ~~~(e.evmNow &&& m)) ∧
    (e.evmNow &&& m = 0 → m ≠ 0 → e.rd b = 0 → ∃ s', exec (.wait t d a b) s = .next s' ∧ s.onlyEngine s' t ∧
      (s'.tiles[t]).eng.st = .sleeping ∧ (s'.tiles[t]).eng.pc = e.pc ∧ (s'.tiles[t]).eng.regs = e.regs ∧
      (s'.tiles[t]).eng.stall = some (.waitEv m d none)) ∧
    (∃ s', exec (.trig t 0 0 0) s = .next s' ∧ (s'.tiles[t]).eng.regs = e.regs ∧
      (e.loops = [] → (s'.tiles[t]).eng.pc = e.pc + 4) ∧
      ((s.tiles[t]).teoSrc ≠ 1 → s'.out = .trig t :: s.out ∧ (s'.tiles[t]).pulses = (s.tiles[t]).pulses ||| 4#4)) ∧
    ((e.rd b).toNat < 256 → ∃ s', s.ran (.arm t 0 a b) t s' ∧
      (s'.tiles[t]).eng.arm = (if e.rd b = 0 then none else some (e.rd a, e.rd b)) ∧
      (s'.tiles[t]).eng.regs = e.regs ∧
      (e.rd b ≠ 0 → s.aon.sysNow.setWidth 32 ≠ e.rd a → (s.aon.sysNow.setWidth 32 - e.rd a).toNat < 2 ^ 31 →
        (s'.tiles[t]).eng.status = e.status ||| 4#5) ∧
      (e.rd b = 0 ∨ s.aon.sysNow.setWidth 32 = e.rd a ∨ 2 ^ 31 ≤ (s.aon.sysNow.setWidth 32 - e.rd a).toNat →
        (s'.tiles[t]).eng.status = e.status)) ∧
    (e.capFifo = [] → ∃ s', s.ran (.capt t d 0 0) t s' ∧ e.wrote (s'.tiles[t]).eng d 0 ∧ (s'.tiles[t]).eng.z = true) ∧
    (∀ (x : Capture) (xs : List Capture), e.capFifo = x :: xs → ∃ s', s.ran (.capt t d 0 0) t s' ∧
      e.wrote (s'.tiles[t]).eng d (x.time.setWidth 32) ∧ (s'.tiles[t]).eng.z = false ∧ (s'.tiles[t]).eng.capFifo = xs ∧
      ((s'.tiles[t]).eng.capx.toNat % 2 ^ 16 = x.time.toNat / 2 ^ 32))

/-- R197 to R201: ADCP, ADCPN, RECV and RECVN pop the oldest word or message; on an empty FIFO the blocking forms sleep
and the others write 0 and set Z; SEND puts its message into an outbox with room; DACS that is refused sets
STATUS.DAC_REF; CMPSET writes THR, here beside comparators that are off; CMPCLR clears the LAT of a comparator that
nothing takes, unless its event falls in the same cycle. Rests also on the model's own choices of logs 15 and 40. -/
def Obligations.EngineFifosAndUnits : Prop :=
  ∀ (t : TileId) (d a b : Reg4) (s : State), s.engineRuns t = true →
    let e := (s.tiles[t]).eng
    let sleeps := fun (i : Instr) (w : Stall) => ∃ s', exec i s = .next s' ∧ s.onlyEngine s' t ∧
      (s'.tiles[t]).eng.st = .sleeping ∧ (s'.tiles[t]).eng.stall = some w ∧ (s'.tiles[t]).eng.pc = e.pc ∧
      (s'.tiles[t]).eng.regs = e.regs
    (∀ (w : Word) (ws : List Word), e.adcFifo = w :: ws →
      (∃ s', s.ran (.adcp t d 0 0) t s' ∧ e.wrote (s'.tiles[t]).eng d w ∧ (s'.tiles[t]).eng.adcFifo = ws ∧
        (s'.tiles[t]).eng.z = e.z) ∧
      (∃ s', s.ran (.adcpn t d 0 0) t s' ∧ e.wrote (s'.tiles[t]).eng d w ∧ (s'.tiles[t]).eng.adcFifo = ws ∧
        (s'.tiles[t]).eng.z = false)) ∧
    (e.adcFifo = [] → sleeps (.adcp t d 0 0) (.adcp d) ∧
      ∃ s', s.ran (.adcpn t d 0 0) t s' ∧ e.wrote (s'.tiles[t]).eng d 0 ∧ (s'.tiles[t]).eng.z = true) ∧
    (e.hostMsgs = [] → ∀ (m : Msg) (ms : List Msg), e.inbox = m :: ms →
      (∃ s', s.ran (.recv t d 0 0) t s' ∧ (s'.tiles[t]).eng.inbox = ms ∧ e.wrote (s'.tiles[t]).eng d m.header) ∧
      (∃ s', s.ran (.recvn t d 0 0) t s' ∧ (s'.tiles[t]).eng.inbox = ms ∧ (s'.tiles[t]).eng.z = false)) ∧
    (e.hostMsgs = [] → e.inbox = [] → a.toNat ≤ 12 → sleeps (.recv t d a 0) (.recv d a) ∧
      ∃ s', s.ran (.recvn t d a 0) t s' ∧ e.wrote (s'.tiles[t]).eng d 0 ∧ (s'.tiles[t]).eng.z = true) ∧
    (Word.field (e.rd a) 23 12 = 0 → b.toNat + Word.field (e.rd a) 11 10 + 1 ≤ 16 → e.outbox.length < 4 →
      ∃ s', s.ran (.send t 0 a b) t s' ∧ (s'.tiles[t]).eng.regs = e.regs ∧ ∃ m, (s'.tiles[t]).eng.outbox = e.outbox ++ [m] ∧
        m.src.toNat = t.val ∧ m.dst.toNat = (e.rd a).toNat % 1024 ∧ m.epoch = (s.tiles[t]).ownEpoch ∧
        m.tag.toNat = (e.rd a).toNat / 2 ^ 24 ∧
        m.words = (List.range (Word.field (e.rd a) 11 10 + 1)).map fun k => e.rd (BitVec.ofNat 4 (b.toNat + k))) ∧
    (s.dacsRefused t (Fin.ofNat 16 ((e.rd a).toNat % 16)) = true → ∃ s', s.ran (.dacs t 0 a 0) t s' ∧
      (s'.tiles[t]).eng.status = e.status ||| 8#5 ∧ (s'.tiles[t]).eng.regs = e.regs) ∧
    (s.dacsRefused t (Fin.ofNat 16 ((e.rd a).toNat % 16)) = false → (s.tiles[t]).trowel.due = none →
      ∃ s', exec (.dacs t 0 a 0) s = .next s' ∧ ((s'.tiles[t]).trowel.due.bind (·.wave)).map Fin.val =
        some ((e.rd a).toNat % 16) ∧ (s'.tiles[t]).eng.status = e.status) ∧
    (e.rd b = 0 → s.cmpsOff t = true → ∃ s', exec (.cmpset t 0 a b) s = .next s' ∧
      Word.field (s'.tiles[t]).cmpA.cfg 27 18 = (e.rd a).toNat % 1024 ∧ (s'.tiles[t]).eng.regs = e.regs) ∧
    ((e.rd a).toNat % 4 = 1 → s.unrouted t .a = true → (s.tiles[t]).cmpA.evAt ≠ some s.aon.fck → ∃ s', exec (.cmpclr t 0 a 0) s = .next s' ∧ (s'.tiles[t]).cmpA.lat = false ∧
      (s'.tiles[t]).cmpB.lat = (s.tiles[t]).cmpB.lat)

/-- R184, R188, R190, R193: SLEEP sleeps at the next instruction; HALT and FENCE take effect with an empty outbox; RETI
goes to EPC with IE set; MFS reads and MTS writes the special registers, and read-only ones ignore a write. Rests also
on the model's own choices of logs 15 and 40. -/
def Obligations.EngineSystem : Prop :=
  ∀ (t : TileId) (d a : Reg4) (imm : Imm18) (s : State), s.engineRuns t = true →
    let e := (s.tiles[t]).eng
    (∃ s', s.ran (.sleep t 0 0 0) t s' ∧ (s'.tiles[t]).eng.st = .sleeping ∧ (s'.tiles[t]).eng.regs = e.regs) ∧
    (e.outbox = [] → e.hostEv = false → ∃ s', s.ran (.halt t 0 0 0) t s' ∧ (s'.tiles[t]).eng.st = .halted ∧
      (s'.tiles[t]).eng.regs = e.regs ∧ (s'.tiles[t]).eng.stale = e.stale) ∧
    (e.outbox = [] → ∃ s', s.ran (.fence t 0 0 0) t s' ∧ (s'.tiles[t]).eng.stale = [] ∧ (s'.tiles[t]).eng.st = .running) ∧
    (e.outbox ≠ [] → ∃ s', exec (.fence t 0 0 0) s = .next s' ∧ (s'.tiles[t]).eng.stall = some (.drain false) ∧
      (s'.tiles[t]).eng.pc = e.pc) ∧
    (e.loops = [] → ∃ s', exec (.reti t 0 0 0) s = .next s' ∧ s.onlyEngine s' t ∧ (s'.tiles[t]).eng.pc = e.epc ∧
      (s'.tiles[t]).eng.ien = e.ien ||| 0x80000000#32 ∧ (s'.tiles[t]).eng.regs = e.regs) ∧
    (∀ v : Word, imm ≠ 9 → readSpecial s t imm.toNat = some v →
      ∃ s', s.ran (.mfs t d 0 imm) t s' ∧ e.wrote (s'.tiles[t]).eng d v ∧ (s'.tiles[t]).eng.sysh = e.sysh) ∧
    (∃ s', s.ran (.mfs t d 0 9) t s' ∧ e.wrote (s'.tiles[t]).eng d (s.aon.sysNow.setWidth 32) ∧
      (s'.tiles[t]).eng.sysh = (s.aon.sysNow >>> 32).setWidth 32) ∧
    (∃ s', s.ran (.mts t 0 a 1) t s' ∧ (s'.tiles[t]).eng.status = e.status &&& ~~~((e.rd a).setWidth 5) ∧
      (s'.tiles[t]).eng.regs = e.regs) ∧
    (∃ s', s.ran (.mts t 0 a 4) t s' ∧ (s'.tiles[t]).eng.ivec = e.rd a) ∧
    (∃ s', s.ran (.mts t 0 a 0) t s' ∧ (s'.tiles[t]).eng.av = (e.rd a).getLsbD 4 ∧ (s'.tiles[t]).eng.z = (e.rd a).getLsbD 3 ∧
      (s'.tiles[t]).eng.n = (e.rd a).getLsbD 2 ∧ (s'.tiles[t]).eng.c = (e.rd a).getLsbD 1 ∧
      (s'.tiles[t]).eng.v = (e.rd a).getLsbD 0) ∧
    (∃ s', s.ran (.mts t 0 a 8) t s' ∧ (s'.tiles[t]).eng.cycle = e.cycle ∧ (s'.tiles[t]).eng.regs = e.regs)

/-- R187, R192, R193, R195, R202, R207: what happens to an engine of itself: a stalled ADCP takes its word; a WAIT whose
cycles are over writes 0; an interrupt saves the PC; an ARM action sets its event; a message of the present epoch enters an
inbox with room on the same side of the dust sheet; one whose destination inbox has been full for 4,800 FCK cycles of
its time at the front is dropped; a host message that has waited 1 ms completes with BUSY. Rests also on the model's own
choices of logs 2 and 40. -/
def Obligations.EngineEvents : Prop :=
  ∀ (t : TileId) (s : State),
    let e := (s.tiles[t]).eng
    (s.engineClock t = true → ∀ (d : Reg4) (w : Word) (ws : List Word), e.stall = some (.adcp d) → e.adcFifo = w :: ws →
      ∃ s', s.ran (.engineStallResume t) t s' ∧ (s'.tiles[t]).eng.st = .running ∧ (s'.tiles[t]).eng.stall = none ∧
        e.wrote (s'.tiles[t]).eng d w ∧ (s'.tiles[t]).eng.adcFifo = ws) ∧
    (s.engineClock t = true → ∀ (m : BitVec 16) (d : Reg4), e.stall = some (.waitEv m d (some 0)) → ∃ s', s.ran (.waitTimeout t) t s' ∧ e.wrote (s'.tiles[t]).eng d 0 ∧ (s'.tiles[t]).eng.st = .running ∧
        (s'.tiles[t]).eng.stall = none) ∧
    (s.engineRuns t = true → e.ien.getLsbD 31 = true → (s.tiles[t]).irqPending = true →
      ∃ s', exec (.engineInterrupt t) s = .next s' ∧ s.onlyEngine s' t ∧ (s'.tiles[t]).eng.epc = e.pc ∧
        (s'.tiles[t]).eng.ien = e.ien &&& 0x7FFFFFFF#32 ∧ (s'.tiles[t]).eng.pc = e.ivec &&& 0xFFFFFFFC#32 ∧
        (s'.tiles[t]).eng.loops = e.loops ∧ (s'.tiles[t]).eng.regs = e.regs) ∧
    (s.engineClock t = true → ∀ time : Word, e.arm = some (time, 2) → (s.aon.sysNow.setWidth 32 - time).toNat < 2 ^ 31 →
      ∃ s', exec (.armAction t) s = .next s' ∧ (s'.tiles[t]).eng.arm = none ∧ (s'.tiles[t]).eng.evm.getLsbD 7 = true) ∧
    (s.fastOn = true → ∀ (m : Msg) (rest : List Msg) (u : TileId), e.outbox = m :: rest → m.epoch = (s.tiles[t]).epoch →
      m.dst.toNat = u.val → u ≠ t → (s.tiles[u]).fenced = false → (s.tiles[u]).sheet = (s.tiles[t]).sheet → (s.tiles[u]).eng.inbox.length < 8 →
      ∃ s', exec (.messageDelivery t .clean) s = .next s' ∧ (s'.tiles[t]).eng.outbox = rest ∧
        (s'.tiles[u]).eng.inbox = (s.tiles[u]).eng.inbox ++ [m] ∧ (s'.tiles[t]).eng.msgDrop = e.msgDrop) ∧
    (∀ (m : Msg) (rest : List Msg) (u : TileId), e.outbox = m :: rest → m.dst.toNat = u.val →
      8 ≤ (s.tiles[u]).eng.inbox.length → (s.tiles[u]).eng.fullAt + 4800 ≤ s.aon.run → e.outAt + 4800 ≤ s.aon.run →
      ∃ s', s.onlyEngine s' t ∧ exec (.inboxFullTimeout t) s = .next s' ∧
        (s'.tiles[t]).eng.outbox = rest ∧ (s'.tiles[t]).eng.msgDrop = e.msgDrop + 1 ∧
        (s'.tiles[t]).eng.status = e.status ||| 16#5) ∧
    (∀ (d : Desc) (m : Msg) (rest : List (Desc × Msg)), e.hostMsgs = (d, m) :: rest → e.hostAt + 1200000 ≤ s.aon.fck →
      ∃ s', exec (.engineMessageTimeout t) s = .next s' ∧
        s' = finish 0x33 d .busy 0 0 (s.modEng t fun e => { e with hostMsgs := rest }))

/-! ### Supply, reset, sideband, time, power -/

/-- R249, R250: the detection signature appears from 3.0 to 5.0 V and goes above 10 V; the module starts at 41 V with
SYSTIME 0, whatever the voltage above; INRUSH_END ends the inrush 20 ms after; below 36 V the module loses all but
fuses, store and what is not its own. Rests also on the model's own choices of logs 2 and 57. -/
def Obligations.LinkSupply : Prop :=
  ∀ (mv : Nat) (s : State),
    (s.aon.up = false → 3000 ≤ mv → mv ≤ 5000 →
      exec (.linkDetection mv) s = .next { s with pwr := { s.pwr with signature := true } }) ∧
    (s.aon.up = false → 10000 < mv →
      exec (.linkDetection mv) s = .next { s with pwr := { s.pwr with signature := false } }) ∧
    (s.aon.up = false → 41000 ≤ mv → ∃ t, exec (.linkPowerUp mv) s = .next t ∧ t.aon.up = true ∧
      t.aon.sysNow = 0 ∧ t.aon.resetDue = some 0 ∧ t.pwr.inrush = true ∧ t.sec = s.sec ∧ t.hostMem = s.hostMem) ∧
    (24000000 ≤ s.aon.fck → exec .inrushEnd s = .next { s with pwr := { s.pwr with inrush := false } }) ∧
    (s.aon.up = true → mv < 36000 → ∃ t, exec (.linkPowerLoss mv) s = .next t ∧ t.unpowered ∧
      t.sec.store = s.sec.store ∧ t.sec.lifecycle = s.sec.lifecycle ∧ t.sec.keys = s.sec.keys ∧
      t.hostMem = s.hostMem ∧ t.pending = s.pending)

/-- R250, R266: without link power nothing runs. In a module without power every step, but a LINK_POWER_UP at 41 V or
more, leads to a module without power: no command of any family starts a clock, changes a register, a memory, a queue
or a fuse. Rests also on the model's own choices of logs 1, 2 and 25. -/
def Obligations.UnpoweredStays : Prop :=
  ∀ (s t : State), s.unpowered → (∀ mv, s.pending.head? = some (.linkPowerUp mv) → mv < 41000) → step s = .next t →
    t.unpowered

/-- R396 to R406: registers at the instant module reset ends, read at their BAR0 offsets, and the state beside them. Rests
also on the model's own choices of logs 4 and 5. -/
def Obligations.ResetValues : Prop :=
  (∀ x ∈ ([(0x0000, 0x05121F7C), (0x0020, 0), (0x0100, 0xA0000000), (0x0110, 0x41003200), (0x0114, 0x70000000),
      (0x0120, 0), (0x0C2C, 0x00000011), (0x0D00, 0), (0x0D04, 0), (0x0D08, 0x00000040),
      (0x0E20, 0x02000100), (0x1000, 0x40000080), (0x0B04, 0), (0x0F58, 0)] : List (Nat × Nat)),
    (regAt x.1).map (readReg State.reset) = some (BitVec.ofNat 32 x.2)) ∧
  (∀ t : TileId, readTile State.reset t .pga = 0x0F0F0000#32 ∧ readTile State.reset t .adc = 0xFC000D00#32 ∧
    readTile State.reset t .flt = 0xB0400000#32 ∧ readTile State.reset t .eng = 0x01FF0000#32 ∧
    (State.reset.tiles[t]).engMem = [] ∧ (State.reset.tiles[t]).fenced = false) ∧
  (∀ p : PanelId, State.reset.pstate p = .off ∧ readPanel State.reset p .listen = 0x4020F403#32 ∧
    readPanel State.reset p .cls0 = 0x1F1FB31A#32 ∧ readPanel State.reset p .cls1 = 0x60801405#32 ∧
    readPanel State.reset p .gmon = 0x40400508#32) ∧
  State.reset.pwr.mode = .booting ∧ State.reset.clk.fast = .stopped ∧ State.reset.pending = [] ∧
  State.reset.ledger.entries = [] ∧ State.reset.coat = none ∧ State.reset.memOk = true

/-- R254, R345: a module reset whose cause is due clears volatile state, keeps SYSTIME, the encoder counts, the limit, the
fuses and the store, and counts every cause but power-up; a bursar BIST that fails twice holds the module in reset.
R335: the boot load ends in STANDBY, here with the load disabled. Rests also on the model's own choices of logs 2 and
56. -/
def Obligations.ModuleResetAndBoot : Prop :=
  (∀ (c : BitVec 2) (s : State), s.aon.up = true → s.aon.resetDue = some c →
    ∃ t, exec (.moduleReset c .clean) s = .next t ∧ t.pwr.mode = .booting ∧ t.aon.resetCause = c ∧
      t.aon.sysNow = s.aon.sysNow ∧ t.aon.limit = s.aon.limit ∧ (∀ n : Fin 8, (t.aon.enc[n]).count = (s.aon.enc[n]).count) ∧
      t.aon.resetCount = (if c = 0 then s.aon.resetCount else s.aon.resetCount + 1) ∧ t.aon.resetDue = none ∧
      t.sec.store = s.sec.store ∧ t.sec.keys = s.sec.keys ∧ t.sec.lifecycle = s.sec.pendingLc ∧
      t.tiles = Vector.replicate 512 {} ∧ t.panels = Vector.replicate 8 {} ∧ t.heads = Vector.replicate 8 {} ∧
      t.ledger = {} ∧ t.cqs = Vector.replicate 16 {} ∧ t.hostMem = s.hostMem ∧ t.pending = s.pending) ∧
  (∀ (c : BitVec 2) (s : State), s.aon.up = true → s.aon.resetDue = some c →
    ∃ t, exec (.moduleReset c .failed) s = .next t ∧ t.pwr.bursarFail = true ∧ t.pwr.nfault = true) ∧
  (∀ (a b f : Attempt) (s : State), s.aon.up = true → s.pwr.mode = .booting → s.pwr.bursarFail = false →
    s.aon.resetDue = none → s.aon.secBoot.getLsbD 31 = true →
    ∃ t, exec (.bootImageLoad a b f) s = .next t ∧ t.pwr.mode = .standby ∧ t.serving = true ∧ t.sec = s.sec ∧
      (∀ p : PanelId, t.pstate p = s.pstate p))

/-- R252 to R254, R263, R271: what each sideband frame does; RECEIVED counts it. Rests also on the model's own choice of
log 44. -/
def Obligations.Sideband : Prop :=
  ∀ (v : BitVec 12) (s : State), s.aon.up = true → s.jsb.nakSent = false →
    (v.getLsbD 0 = true → ∃ t, exec (.jsbPerst v) s = .next t ∧ t.link.perst = true ∧ t.link.speed = 0 ∧
      t.cqs = Vector.replicate 16 {} ∧ t.pwr = s.pwr ∧ t.jsb.received = satInc s.jsb.received) ∧
    (v.getLsbD 0 = false → ∃ t, exec (.jsbPerst v) s = .next t ∧ t.link.perst = false ∧ t.cqs = s.cqs) ∧
    (150 ≤ v.toNat → v.toNat ≤ 1250 → s.pwr.grant.toNat ≤ 10 * v.toNat → ∃ t, exec (.jsbLimit v) s = .next t ∧
      t.aon.limit.toNat = v.toNat ∧ t.pwr.grant = s.pwr.grant ∧ t.jsb.last = some t.statusFrame) ∧
    (150 ≤ v.toNat → v.toNat ≤ 1250 → 10 * v.toNat < s.pwr.grant.toNat → s.serving = true →
      ∃ t, exec (.jsbLimit v) s = .next t ∧ t.aon.limit.toNat = v.toNat ∧ t.pwr.grant.toNat = 10 * v.toNat ∧
        t.ev.status.getLsbD 1 = true) ∧
    (s.pwr.mode = .dormant → ∃ t, exec (.jsbWake v) s = .next t ∧ t.aon.resetDue = some 2) ∧
    (v = 0xA5C#12 → s.pwr.mode ≠ .dormant → ∃ t, exec (.jsbModuleReset v) s = .next t ∧ t.aon.resetDue = some 1) ∧
    (v ≠ 0xA5C#12 → ∃ t, exec (.jsbModuleReset v) s = .next t ∧ t.aon.resetDue = s.aon.resetDue) ∧
    (∃ t, exec (.jsbPoll v) s = .next t ∧ t.out = .jsb s.statusFrame :: s.out ∧ t.jsb.sent = satInc s.jsb.sent) ∧
    (∀ f : JsbFrame, s.jsb.last = some f → s.jsb.repeated = false → ∃ t, exec (.jsbNak v) s = .next t ∧
      t.out = .jsb f :: s.out ∧ t.jsb.repeated = true) ∧
    (∃ t, exec .jsbCrcError s = .next t ∧ t.jsb.naks = satInc s.jsb.naks ∧ t.jsb.nakSent = true ∧
      ∃ w, t.out = .jsb ⟨15, w⟩ :: s.out) ∧
    (∀ f : JsbFrame, s.jsb.last = some f → ∃ t, exec .jsbCollisionRetry s = .next t ∧ t.out = .jsb f :: s.out ∧
      t.jsb = s.jsb)

/-- R16 to R19, R258: an SCK tick without discipline adds 488,281 units, and one more at every fourth; the first PTM
dialogue that is due sets SYSTIME in one step, later ones leave it and slew. Rests also on the model's own choices of logs 2 and
31. -/
def Obligations.Systime : Prop :=
  (∀ s : State, s.aon.up = true → s.aon.slew = 0 → s.aon.ptmRate = 0 → ∃ t, exec .sckTick s = .next t ∧
    t.aon.ticks = s.aon.ticks + 1 ∧
    t.aon.sysBase = s.aon.sysBase + (if (s.aon.ticks + 1) % 4 = 0 then 488282 else 488281) ∧
    (s.mem.errs = [] → t.tiles = s.tiles ∧ t.pwr = s.pwr)) ∧
  (∀ (host : BitVec 64) (rate : BitVec 16) (s : State), s.aon.up = true → s.linkUp = true → s.link.ptmEn = true →
    s.link.d3hot = false → s.link.inL1 = false → s.ptmDue = true →
    (s.aon.ptmAligned = false → ∃ t, exec (.ptmDialogue host rate) s = .next t ∧ t.aon.sysNow = host ∧
      t.aon.sysBase = host ∧ t.aon.ptmAligned = true ∧ t.aon.ptmDialogues = s.aon.ptmDialogues + 1 ∧ t.aon.slew = 0) ∧
    (s.aon.ptmAligned = true → ∃ t, exec (.ptmDialogue host rate) s = .next t ∧ t.aon.sysNow = s.aon.sysNow ∧
      t.aon.slew = -(s.aon.sysNow - host).toInt ∧ t.aon.ptmRate = rate))

/-- R13 to R15, R23, R84, R277, R313, R419: the wake timer and a scheduled time start QCK and the PLL of an ARMED module
whose fast clocks stand; QCK is usable 100 ns later, here in a module with no live panel, no column, and nothing in a
filter; a lock no sooner than 12 us after the start makes changeover due, 50 us without one restart the PLL once and
then fail it; changeover goes to FCK while no generator produces columns; with nothing that holds them the fast clocks
stop; over memories without errors the scrubber advances 64 * SCRUB_RATE words every 64 ticks while they stand, and
one after 4,096 cycles without an access. Rests also on the model's own choices of logs 2, 3 and 72. -/
def Obligations.ClocksAndScrubber : Prop :=
  ∀ s : State,
    let started := fun (src : BitVec 4) (s : State) => { s with
      clk := { s.clk with fast := .starting, pll := .locking false, changeoverDue := false, qckAt := s.aon.fck + 120,
                          pllAt := s.aon.fck },
      aon := { s.aon with wakeLast := src } }
    let scrubbed := fun (n : Nat) (s : State) => { s with scrub := { s.scrub with
      copies := s.scrub.copies.map fun c => { c with ptr := (s.scrubPtr + n) % passWords }, accAt := s.aon.fck
      passes := if passWords ≤ s.scrubPtr + n then s.scrub.passes + 1 else s.scrub.passes } }
    (s.aon.up = true → s.aon.wakeCtrl.getLsbD 31 = true →
      ((s.aon.sysBase >>> 16).setWidth 32 - s.aon.wakeTime).toNat < 2 ^ 31 → s.pwr.mode = .armed → s.clk.fast = .stopped →
      exec .wakeTimerExpiry s =
        .next (started 4 { s with aon := { s.aon with wakeCtrl := s.aon.wakeCtrl &&& 0x7FFFFFFF#32 } })) ∧
    (s.scheduled = true → s.pwr.mode = .armed → s.clk.fast = .stopped → exec .scheduledWake s = .next (started 7 s)) ∧
    (s.clk.fast = .starting → s.clk.qckAt ≤ s.aon.fck → (∀ p : PanelId, (s.pstate p).live = false) →
      (∀ h : HeadId, (s.heads[h]).column = none) →
      (∀ (t : TileId) (c : Cmp), ((s.tiles[t]).cmp c).cand = none) →
      (∀ p : PinId, (s.gpio.pins[p]).cand = none ∧ (s.gpio.pins[p]).sync = (s.gpio.pins[p]).filt ∧
        (s.gpio.pins[p]).gapUntil = none ∧ (s.gpio.pins[p]).activeSince = none) →
      exec .qckUsable s = .next { s with
        clk := { s.clk with fast := .qck }
        aon := { s.aon with
          interp := 0, interpFrom := s.aon.sysBase
          enc := s.aon.enc.map fun e => { e with intervals := [], lastAt := none } } }) ∧
    (s.clk.pll = .locking false → s.clk.pllAt + 14400 ≤ s.aon.fck → exec .pllLock s =
      .next { s with clk := { s.clk with pll := .locked, changeoverDue := true, lockAt := s.aon.fck } }) ∧
    (s.clk.pll = .locking false → s.clk.pllAt + 60000 ≤ s.aon.fck → exec .pllLockTimeout s =
      .next { s with clk := { s.clk with pll := .locking true, pllAt := s.aon.fck } }) ∧
    (s.clk.pll = .locking true → s.clk.pllAt + 60000 ≤ s.aon.fck → ∃ t, exec .pllLockTimeout s = .next t ∧
      t.clk = { s.clk with pll := .failed } ∧ t.tiles = s.tiles ∧ t.aon = s.aon ∧ t.pwr = s.pwr) ∧
    (s.clk.fast = .qck → s.clk.changeoverDue = true → s.generating = false → exec .changeover s = .next { s with
      clk := { s.clk with fast := .fck, changeoverDue := false, fckAt := s.aon.fck }
      aon := { s.aon with
        interp := s.aon.interp % 12
        interpFrom := s.aon.interpFrom + BitVec.ofNat 64 (160 * (s.aon.interp / 12)) } }) ∧
    (s.pwr.mode = .armed → s.pwr.change = none → s.fastOn = true → s.clockWork = false →
      (∀ t : TileId, (s.tiles[t]).sar.en = false) → exec .fastClockStop s =
        .next { s with clk := { stopFck := s.aon.fck, stopTick := s.aon.ticks } }) ∧
    (s.scrubRuns = true → s.pwr.mode = .armed → s.clk.fast = .stopped → s.scrub.burstAt + 64 ≤ s.aon.ticks →
      s.mem.errs = [] → exec .scrubBurst s =
        .next (scrubbed (64 * s.scrubRate) { s with scrub := { s.scrub with burstAt := s.aon.ticks } })) ∧
    (s.scrubRuns = true → s.fastOn = true → s.scrub.accAt + 4096 ≤ s.aon.fck → s.mem.errs = [] →
      exec .scrubStarvationGrant s = .next (scrubbed 1 s))

/-- R259, R263, R267 to R270: GRANT_POWER reports with 0xFFFF_FFFF, refuses a value out of range, above the limit or below
the allocation, and else sets the grant. SET_POWER_STATE completes with BUSY during a change or a coat, leaves FAULT_HOLD
for STANDBY once CLEAR is set, refuses a value out of range, what armed jobs, placed stages and rails bar, and what the
grant does not cover; with nothing to change it keeps every state, a change to ARMED begins its step and one from ACTIVE
takes effect at once. The end of a step to ARMED sets the states of the module and the panels, here of panels whose
SARs are off. DORMANT powers the service domain down 1 ms later. Rests also on the model's own choices of logs 2, 28 and
43. -/
def Obligations.PowerStates : Prop :=
  (∀ (d : Desc) (s : State), s.takes 0x03 d (headerFault d 0 .none .unbound [(28, 36)]) →
    let mw := d.u 24 4
    let ends := fun (st : Status) (off : Nat) (s : State) =>
      exec (.grantPower d) s = .next (finish 0x03 d st off s.grantResult (s.begun 0x03 d))
    let granted := { s with pwr := { s.pwr with grant := BitVec.ofNat 16 (mw / 10) } }
    (mw = 0xFFFFFFFF → ends .ok 0 s) ∧
    (mw ≠ 0xFFFFFFFF → (mw < 1000 ∨ 125000 < mw) → ends .badField 24 s) ∧
    (1000 ≤ mw → mw ≤ 125000 → (100 * s.aon.limit.toNat < mw ∨ mw < 10 * s.alloc) → ends .power 0 s) ∧
    (1000 ≤ mw → mw ≤ 125000 → mw ≤ 100 * s.aon.limit.toNat → 10 * s.alloc ≤ mw →
      exec (.grantPower d) s = .next (finish 0x03 d .ok 0 granted.grantResult (granted.begun 0x03 d)))) ∧
  (∀ (d : Desc) (s : State), s.takes 0x02 d (headerFault d 0 .none .unbound [(25, 3), (36, 28)]) →
    let goal := s.goalMode d
    let ps : Vector PState 8 := Vector.ofFn (s.goalPanel d)
    let ends := fun (st : Status) (off : Nat) => exec (.setPowerState d) s = .next (finish 0x02 d st off 0 (s.begun 0x02 d))
    ((s.pwr.change.isSome = true ∨ s.pwr.dormantDue = true) → ends .busy 0) ∧
    (s.pwr.change = none → s.pwr.dormantDue = false →
      (s.pwr.mode = .faultHold →
        let leaves := d.u 24 1 = 1 ∧ (∀ p : PanelId, d.u (28 + p.val) 1 = 255) ∧ s.pwr.fclear = true
        (¬ leaves → ends .state 0) ∧
        (leaves → exec (.setPowerState d) s = .next (finish 0x02 d .ok 0 0 ({ s with pwr := { s.pwr with
          mode := .standby, fcause := 0, fclear := false, nfault := s.pwr.ioOff } }.begun 0x02 d)))) ∧
      (s.pwr.mode ≠ .faultHold →
        (∀ off : Nat, s.powerFault d = some off → ends .badField off) ∧
        (s.powerFault d = none → s.coat.isSome = true → ends .busy 0) ∧
        (s.powerFault d = none → s.coat = none →
          let barred := s.powerBarred goal ps = true ∨ (goal = .dormant ∧ s.link.l12En = false) ∨
            (s.hostSeq = true ∧ s.railsShort ps = true)
          (barred → ends .state 0) ∧
          (¬ barred → s.pwr.grant.toNat < s.allocFor goal ps s.pwr.hlvCtrl → ends .power 0) ∧
          (¬ barred → s.allocFor goal ps s.pwr.hlvCtrl ≤ s.pwr.grant.toNat →
            (s.stepsFor goal ps = [] → ∃ t, exec (.setPowerState d) s = .next t ∧ t.pwr.mode = s.pwr.mode ∧
              t.pwr.panels = s.pwr.panels ∧ t.pwr.change = none ∧ t.tiles = s.tiles ∧ t.panels = s.panels) ∧
            (s.stepsFor goal ps = [.standbyToArmed] → ∃ t, exec (.setPowerState d) s = .next t ∧
              t.pwr.change = some { desc := d, goal, panels := ps, steps := [.standbyToArmed] } ∧
              t.pwr.mode = s.pwr.mode ∧ t.pwr.panels = s.pwr.panels ∧ t.tiles = s.tiles) ∧
            (s.stepsFor goal ps = [.activeToArmed] → s.pwr.mode = .active → goal = .armed →
              ∃ t, exec (.setPowerState d) s = .next t ∧ t.pwr.mode = .armed ∧ t.tiles = s.tiles ∧
                t.pwr.change = some { desc := d, goal, panels := ps, steps := [.activeToArmed] } ∧
                ∀ p : PanelId, t.pstate p =
                  if s.pstate p = .active ∧ s.goalPanel d p ≠ .active then .armed else s.pstate p)))))) ∧
  (∀ (c : Change) (s : State), s.pwr.change = some c → c.steps = [.standbyToArmed] → s.pwr.mode = .standby →
    c.goal = .armed → s.stepReady c .standbyToArmed = true → (∀ k : TileId, (s.tiles[k]).adcEn = false) →
    ∃ t, exec .powerStepComplete s = .next t ∧ t.pwr.mode = .armed ∧ t.pwr.change = none ∧
      ∀ p : PanelId, t.pstate p = if (s.pstate p).live = false ∧ (c.panels[p]).live = true then .armed else s.pstate p) ∧
  (∀ s : State, s.pwr.dormantDue = true → s.pwr.dormantAt + 1200000 ≤ s.aon.fck →
    ∃ t, exec .dormantPowerDown s = .next t ∧ t.pwr.mode = .dormant ∧
      t.serving = false ∧ t.tiles = Vector.replicate 512 {} ∧ t.aon = s.aon ∧ t.sec.store = s.sec.store)

/-- R94, R136, R137, R262, R273 to R276, R359: rails, references, measurement, and FAULT_HOLD. Rests also on the model's
own choices of logs 2 and 43. -/
def Obligations.RailsAndHolds : Prop :=
  (∀ (p : PanelId) (uF : Nat) (s : State), s.railStarting (.pvh p) = true → s.pwr.railTried = [] →
    (s.panels[p]).crsDue = true → s.railRan (.pvh p) (25 * (s.panels[p]).rail50) = true → 30 ≤ uF → ∃ t, exec (.railGood (.pvh p) uF) s = .next t ∧ (t.panels[p]).pvhOk = true ∧
      (t.panels[p]).crsOk = true ∧ (t.panels[p]).crsCap.toNat = min uF 65535 ∧ (∀ k, k ≠ p → t.panels[k] = s.panels[k])) ∧
  (∀ s : State, s.railStarting .hlv = true → s.pwr.railTried = [] →
    (∃ t, exec (.railGood .hlv 0) s = .next t ∧ t.pwr.hlvOk = true ∧ t.pwr.hrstHold = true) ∧
    (s.railRan .hlv 5000 = true → ∃ t, exec (.railStartTimeout .hlv) s = .next t ∧ t.pwr.railTried = [.hlv] ∧ t.pwr.mode = s.pwr.mode)) ∧
  (∀ s : State, s.pwr.hlvOk = true →
    (s.pwr.hlvAt + 1200000 ≤ s.aon.fck → exec .hrstRelease s = .next { s with pwr := { s.pwr with hrstHold := false } }) ∧
    (s.pwr.hlvAt + 12000000 ≤ s.aon.fck → ∃ t, exec .hlvLimitTimeout s = .next t ∧ t.pwr.hlvOver = true ∧ t.ev.status.getLsbD 2 = true)) ∧
  (∀ (c : BitVec 3) (m : Word) (s : State), c ≠ 0 → c ≠ 7 → s.aon.up = true → s.pwr.mode = .faultHold →
    ∃ t, exec (.faultHoldTrip c m) s = .next t ∧ t.pwr.mode = .faultHold ∧ t.pwr.fclear = false ∧
      t.pwr.fcause = s.pwr.fcause ∧ t.tiles = s.tiles) ∧
  (∀ (c : BitVec 3) (m : Word) (s : State), c ≠ 0 → c ≠ 7 → s.aon.up = true → s.pwr.mode ≠ .faultHold →
    ∃ t, exec (.faultHoldTrip c m) s = .next t ∧ t.pwr.mode = .faultHold ∧ t.pwr.fcause = c ∧ t.pwr.nfault = true ∧
      t.pwr.hlvOk = false ∧ t.pwr.vddaGood = false ∧ t.pwr.change = none ∧ t.clk.fast = .stopped ∧
      t.ev.status.getLsbD 3 = true ∧ (∀ p : PanelId, (t.panels[p]).pvhOn = false)) ∧
  (∀ s : State, s.pwr.mode = .faultHold → s.pwr.tripAt + 64 ≤ s.aon.ticks →
    exec .faultHoldClear s = .next { s with pwr := { s.pwr with fclear := true } }) ∧
  (∀ (pin vin : BitVec 16) (rails pvh : List Word) (s : State), s.aon.up = true →
    ∃ t, exec (.powerWindow pin vin rails pvh) s = .next t ∧ t.pwr.pin = pin ∧ t.pwr.vin.toNat = min vin.toNat 4095 ∧
      t.pwr.pinMax.toNat = max s.pwr.pinMax.toNat pin.toNat ∧ t.pwr.grant = s.pwr.grant ∧ t.tiles = s.tiles) ∧
  (∀ (p : PanelId) (s : State), s.pwr.mode.up = true → (s.pstate p).live = true → (s.panels[p]).refOk = false →
    (s.panels[p]).refFault = false → (s.panels[p]).refAt + 1200 * (s.panels[p]).refTime ≤ s.aon.fck →
    (∀ k ∈ tilesOf p, (s.tiles[k]).cmpA.en = false ∧ (s.tiles[k]).cmpB.en = false) →
    exec (.refokSettle p) s = .next (s.modPanel p fun x => { x with refOk := true, refSeen := true })) ∧
  (∀ (p : PanelId) (mv : BitVec 12) (s : State), (s.pstate p).live = true → (s.panels[p]).refExt = true →
    ∃ t, exec (.refMeasure p mv) s = .next t ∧ (t.panels[p]).vext = mv ∧
      (t.panels[p]).refFault = decide (mv.toNat < 1000 ∨ 3300 < mv.toNat) ∧
      (mv.toNat < 1000 → (t.panels[p]).refOk = false)) ∧
  (∀ (p : PanelId) (a b c : BitVec 16) (s : State), s.serving = true → s.pstate p ≠ .off → (s.panels[p]).calInterp = false →
    (∀ k, (s.panels[p]).tempAt = some k → k + 64 ≤ s.aon.ticks) →
    ∃ t, exec (.tempInterpolation p a b c) s = .next t ∧ (t.panels[p]).tempSensor = a ∧ (t.panels[p]).tempMax = b ∧
      t.pwr.coreTemp = c ∧ t.cal = s.cal ∧ t.tiles = s.tiles)

/-! ### Integrity, fences, coats, chains -/

/-- R325: READ_LEDGER copies the entries it asks for, oldest first, and answers how many and the oldest sequence number
held; with no entry held, the one the next entry will carry. A COUNT or a LENGTH out of range completes with
BAD_FIELD. Here the ledger's memory holds no error. -/
def Obligations.LedgerRead : Prop :=
  (∀ (d : Desc) (s : State), s.takes 0x82 d (headerFault d 0 .buffer .unbound [(31, 33)]) →
    ((d.u 28 2 = 0 ∨ 4096 < d.u 28 2) → exec (.readLedger d) s = .next (finish 0x82 d .badField 28 0 (s.begun 0x82 d))) ∧
    (d.u 28 2 ≠ 0 → d.u 28 2 ≤ 4096 → d.len < 32 * d.u 28 2 →
      exec (.readLedger d) s = .next (finish 0x82 d .badField 16 0 (s.begun 0x82 d))) ∧
    (d.u 28 2 ≠ 0 → d.u 28 2 ≤ 4096 → 32 * d.u 28 2 ≤ d.len → s.mem.errs = [] → s.linkUp = true → d.wr = .clean →
      let from_ := BitVec.ofNat 32 (d.u 24 4)
      let es := (s.ledger.entries.reverse.filter fun e =>
        decide ((e.seq - from_).toNat < 2 ^ 31) && decide (d.u 30 1 ≤ e.cls.code)).take (d.u 28 2)
      exec (.readLedger d) s = .next (finish 0x82 d .ok 0 (es.length + s.ledgerOldest.toNat * 2 ^ 32)
        ((s.begun 0x82 d).hostWrite d.buffer.toNat (es.flatMap Entry.bytes))))) ∧
  (∀ s : State, (s.ledger.entries = [] → s.ledgerOldest = nextSeq s.ledger.seq) ∧
    (∀ (e : Entry) (es : List Entry), s.ledger.entries = es ++ [e] → s.ledgerOldest = e.seq)) ∧
  State.reset.ledgerOldest = 1 ∧
  (∀ (d : Desc) (off : Nat) (s : State), s.runs d = true → headerFault d 0 .buffer .unbound [(31, 33)] = some off →
    exec (.readLedger d) s = .next (finish 0x82 d .badField off 0 (s.begun 0x82 d))) ∧
  (∀ d : Desc, (d.target ≠ 0 → headerFault d 0 .buffer .unbound [(31, 33)] ≠ none) ∧
    (d.coat ≠ 0 → headerFault d 0 .buffer .unbound [(31, 33)] ≠ none))

/-- R315, R317 to R319: a scrub pass over clean words counts them; a page is retired, and stays so; a field repair uses
one of the 16 entries; a replayed flit counts, and a lost lane is taken out of service. Rests also on the model's own
choices of logs 2, 32, 37 and 38. -/
def Obligations.IntegrityCommands : Prop :=
  (∀ (d : Desc) (s : State), s.takes 0x81 d (headerFault d 0 .none .unbound [(30, 2), (40, 24)]) → d.u 25 1 ≤ 1 →
    scrubFault d = none → s.mem.errs = [] →
    let units := ((List.range (d.u 28 2)).map (d.u 26 2 + ·)).filter fun u => s.locLive ⟨Fin.ofNat 16 (d.u 24 1), u, 0⟩
    let words := if d.u 36 4 = 0 then regionWords (d.u 24 1) - d.u 32 4 / 8 else d.u 36 4 / 8
    exec (.scrubRange d) s = .next (finish 0x81 d .ok 0 (units.length * words) (s.begun 0x81 d))) ∧
  (∀ (d : Desc) (s : State), s.takes 0x83 d (headerFault d 9 .none .unbound [(25, 1), (28, 36)]) →
    pageOk (d.u 24 1) (d.u 26 2) = true →
    let t : TileId := Fin.ofNat 512 d.target.toNat
    let r : Fin 16 := Fin.ofNat 16 (d.u 24 1)
    (s.pageRetired r t (d.u 26 2) = true → exec (.retirePage d) s = .next (finish 0x83 d .ok 0 0 (s.begun 0x83 d))) ∧
    (s.pageRetired r t (d.u 26 2) = false → s.pageUsed t (d.u 24 1) = false →
      exec (.retirePage d) s = .next (finish 0x83 d .ok 0 0 (({ s.begun 0x83 d with
        mem := { s.mem with retired := (r, t, d.u 26 2) :: s.mem.retired } }).modTile t
          fun x => { x with degraded := true })))) ∧
  (∀ (d : Desc) (s : State), s.takes 0x84 d (headerFault d 6 .none .unbound [(25, 1), (28, 36)]) → d.target.toNat ≤ 47 →
    d.u 24 1 ≤ 1 →
    let bank := d.target.toNat
    let column := d.u 24 1 == 1
    let t := { s with sec := { s.sec with repairs := ⟨bank, column, BitVec.ofNat 16 (d.u 26 2), true⟩ :: s.sec.repairs } }
    let none_ := finish 0x84 d .noResource 0 0 (s.begun 0x84 d)
    (s.sec.repairs.length < 16 → exec (.fieldRepair d .clean) s = .next (if s.sparesLeft bank column = 0 then none_
      else finish 0x84 d .ok 0
        (15 - s.sec.repairs.length + t.sparesLeft bank false * 2 ^ 8 + t.sparesLeft bank true * 2 ^ 16)
        { s.begun 0x84 d with sec := t.sec })) ∧
    (16 ≤ s.sec.repairs.length → exec (.fieldRepair d .clean) s = .next none_)) ∧
  (∀ (p : PanelId) (lane : Fin 16) (s : State), s.pstate p ≠ .off → (s.panels[p]).lanes.getLsbD lane.val = true →
    exec (.panelLinkReplay p lane .clean) s = .next s ∧
    (∃ t, exec (.panelLinkReplay p lane .second) s = .next t ∧
      t.quiet = (s.modPanel p fun x => { x with replayed := x.replayed + 1 }).quiet) ∧
    (∃ t, exec (.panelLinkReplay p lane .failed) s = .next t ∧
      t.quiet = (s.modPanel p fun x => { x with
        replayed := x.replayed + 1, failed := x.failed + 1
        lanes := x.lanes &&& ~~~(1#16 <<< lane.val) }).quiet))

/-- R229, R242 to R245: a fence counts the tile's epoch and holds its engine; readmission takes the epoch as the tile's
own and leaves the engine stopped; the spares are those asked for; a probe goes out, a first miss sends a second
probe, a second one fences the tile. Rests also on the model's own choices of logs 2, 26 and 55. -/
def Obligations.FencesAndHeartbeats : Prop :=
  (∀ (d : Desc) (s : State), s.takes 0x26 d (headerFault d 9 .none .unbound [(25, 39)]) → d.u 24 1 ≤ 1 →
    let t : TileId := Fin.ofNat 512 d.target.toNat
    ((s.tiles[t]).fenced = true → exec (.fenceTile d) s = .next (finish 0x26 d .state 0 0 (s.begun 0x26 d))) ∧
    ((s.tiles[t]).fenced = false → s.isPlaced t = false → (s.tiles[t]).openRec = none → (s.tiles[t]).eng.hostMsgs = [] →
      (∀ k : Fin 256, (s.panels[panelOf t]).sinks[k] = 256) →
      ∃ s', exec (.fenceTile d) s = .next s' ∧ (s'.tiles[t]).fenced = true ∧
        (s'.tiles[t]).epoch = (s.tiles[t]).epoch + 1 ∧ (s'.tiles[t]).ownEpoch = (s.tiles[t]).ownEpoch ∧
        (s'.tiles[t]).eng.st = .held ∧ (s'.tiles[t]).eng.arm = none ∧ (s'.tiles[t]).eng.inbox = [] ∧
        (s'.tiles[t]).eng.outbox = [] ∧ (s'.tiles[t]).eng.adcFifo = [] ∧
        (s'.tiles[t]).engMem = (s.tiles[t]).engMem ∧ (s'.tiles[t]).retired = ((s.tiles[t]).retired || (s.tiles[t]).epoch == 255) ∧
        (∀ k, k ≠ t → k ≠ partner t → s'.tiles[k] = s.tiles[k]))) ∧
  (∀ (d : Desc) (s : State), s.takes 0x27 d (headerFault d 9 .none .unbound [(25, 39)]) →
    let t : TileId := Fin.ofNat 512 d.target.toNat
    (s.tiles[t]).fenced = true → (s.tiles[t]).retired = false → (∀ r ∈ s.bist, r.tile ≠ t) →
    (d.u 24 1 = 0 → (s.tiles[t]).bistPass = true → s.isPlaced t = false →
      ∃ s', exec (.readmitTile d) s = .next s' ∧ (s'.tiles[t]).fenced = false ∧ (s'.tiles[t]).placed = false ∧
        (s'.tiles[t]).ownEpoch = (s.tiles[t]).epoch ∧ (s'.tiles[t]).epoch = (s.tiles[t]).epoch ∧
        (s'.tiles[t]).eng.st = .stopped ∧ (∀ k, k ≠ t → s'.tiles[k] = s.tiles[k])) ∧
    (d.u 24 1 = 0 → (s.tiles[t]).bistPass = false →
      exec (.readmitTile d) s = .next (finish 0x27 d .state 0 0 (s.begun 0x27 d))) ∧
    (d.u 24 1 = 1 → exec (.readmitTile d) s = .next { s.begun 0x27 d with
      bist := s.bist ++ [{ desc := some d, tile := t, mode := 0, slices := 48, readmit := true }] })) ∧
  (∀ (d : Desc) (s : State), s.takes 0x28 d (headerFault d 0 .buffer .unbound [(32, 32)]) → d.len = 64 →
    s.linkUp = true → d.rd = .clean →
    let ts := mapTiles (s.hostMem.bytes d.buffer.toNat 64)
    ((∀ t ∈ ts, s.sparable t = true) → exec (.reserveSpares d) s = .next (finish 0x28 d .ok 0 0
      { s.begun 0x28 d with tiles := Vector.ofFn fun (t : TileId) => { s.tiles[t] with spare := ts.contains t } })) ∧
    ((∃ t ∈ ts, s.sparable t = false) →
      exec (.reserveSpares d) s = .next (finish 0x28 d .noResource 0 0 (s.begun 0x28 d)))) ∧
  (∀ (t : TileId) (s : State), s.probed t = true →
    (s.aon.ticks < (s.tiles[t]).probedAt + 32 → exec (.heartbeatProbe t) s = .next s) ∧
    ((s.tiles[t]).probedAt + 32 ≤ s.aon.ticks →
      (s.probes.any (fun p => p.1 == t && p.2.1) = false → exec (.heartbeatProbe t) s = .next ({ s with
        probes := (t, false, s.aon.run) :: s.probes.filter fun p => p.1 != t }.modTile t
          fun x => { x with probedAt := s.aon.ticks })) ∧
      (s.probes.any (fun p => p.1 == t && p.2.1) = true → ∃ s', exec (.heartbeatProbe t) s = .next s' ∧
        (s'.tiles[t]).fenced = false ∧ s'.probes = (t, false, s.aon.run) :: s.probes.filter (fun p => p.1 != t) ∧
        (s'.tiles[t]).transients =
          s.aon.ticks :: (s.tiles[t]).transients.filter fun k => decide (s.aon.ticks < k + 65536)))) ∧
  (∀ (t : TileId) (since : Nat) (s : State), s.probed t = true →
    (s.probes.find? (fun p => p.1 == t) = some (t, false, since) → exec (.heartbeatTimeout t) s =
      .next { s with probes := (t, true, s.aon.run) :: s.probes.filter fun p => p.1 != t }) ∧
    (s.probes.find? (fun p => p.1 == t) = some (t, true, since) → s.hwPlaces = true → (s.tiles[t]).openRec = none →
      (s.tiles[t]).eng.hostMsgs = [] → (∀ k : Fin 256, (s.panels[panelOf t]).sinks[k] = 256) →
      ∃ s', exec (.heartbeatTimeout t) s = .next s' ∧ (s'.tiles[t]).fenced = true ∧
        (s'.tiles[t]).epoch = (s.tiles[t]).epoch + 1 ∧ (s'.tiles[t]).eng.st = .held ∧ s'.moves = s.moves ++ [(t, none)]))

/-- R232, R235: a coat opens with the next number and its items, one at a time; COMMIT_COAT names its commit point or
discards it; MAX_WAIT aborts it. Rests also on the model's own choices of logs 2 and 45. -/
def Obligations.CoatsOpenAndEnd : Prop :=
  (∀ (d : Desc) (s : State), s.takes 0x24 d (headerFault d 0 .buffer .unbound [(26, 38)]) → d.u 24 2 ≤ 1024 →
    d.len = 12 * d.u 24 2 → s.linkUp = true → d.rd = .clean →
    let items := coatItems (d.u 24 2) (s.hostMem.bytes d.buffer.toNat d.len)
    ((∀ i ∈ items, i.inBlocks = true) → s.coat = none → exec (.stageCoat d .clean) s =
      .next (finish 0x24 d .ok 0 (s.coatNo + 1).toNat (markReady { s.begun 0x24 d with
        coatNo := s.coatNo + 1, coat := some { number := s.coatNo + 1, items } }))) ∧
    ((∀ i ∈ items, i.inBlocks = true) → s.coat.isSome = true →
      exec (.stageCoat d .clean) s = .next (finish 0x24 d .busy 0 0 (s.begun 0x24 d))) ∧
    ((∃ i ∈ items, i.inBlocks = false) →
      exec (.stageCoat d .clean) s = .next (finish 0x24 d .badField 0xFF 0 (s.begun 0x24 d)))) ∧
  (∀ (d : Desc) (c : Coat) (s : State), s.takes 0x25 d (headerFault d 32 .none .commit [(26, 2), (40, 24)]) →
    s.coat = some c → c.own = false → c.number = d.coat.setWidth 16 →
    (d.u 24 1 = 3 → c.point = none →
      exec (.commitCoat d) s = .next { s.begun 0x25 d with coat := some { c with point := some (d, .now, none) } }) ∧
    (d.u 24 1 = 1 → d.u 25 1 ≤ 7 → c.point = none → exec (.commitCoat d) s = .next { s.begun 0x25 d with
      coat := some { c with point := some (d, .firePeriod (Fin.ofNat 8 (d.u 25 1)),
        if d.u 28 4 = 0 then none else some (s.aon.fck + usFck (1000 * d.u 28 4))) } }) ∧
    (d.u 24 1 = 2 → c.point = none → s.aon.sysNow.toNat + 32000 ≤ d.u 32 8 → exec (.commitCoat d) s =
      .next { s.begun 0x25 d with coat := some { c with point := some (d, .time (BitVec.ofNat 64 (d.u 32 8)), none) } }) ∧
    (d.u 24 1 = 4 → c.bound = [] → c.point = none →
      exec (.commitCoat d) s = .next (finish 0x25 d .ok 0 0 (markReady { s.begun 0x25 d with coat := none }))) ∧
    (d.u 24 1 ≤ 3 → c.point ≠ none → (d.u 24 1 ≤ 1 → d.u 25 1 ≤ 7) →
      (d.u 24 1 = 2 → s.aon.sysNow.toNat + 32000 ≤ d.u 32 8) →
      exec (.commitCoat d) s = .next (finish 0x25 d .busy 0 0 (s.begun 0x25 d)))) ∧
  (∀ (d : Desc) (c : Coat) (p : CommitPoint) (limit : Nat) (s : State), s.coat = some c → c.bound = [] →
    c.point = some (d, p, some limit) →
    (limit ≤ s.aon.fck → exec .coatMaxWaitExpiry s =
      .next (finish 0x25 d .aborted 0 0 (markReady { s with coat := none }))) ∧
    (s.aon.fck < limit → exec .coatMaxWaitExpiry s = .next s))

/-- R217, R236, R237, R239, R230: at the commit point an item's bits go live together with the coat's number; a unit that
is not ready aborts the coat, and nothing goes live; the module's own coat commits by itself; the read-back that
passes ends the coat for its tile; the dust sheet opens two cycles after the release; a tile with nothing to move
needs no coat. Rests also on the model's own choices of logs 2 and 45. -/
def Obligations.CoatsCommit : Prop :=
  (∀ (d : Desc) (c : Coat) (i : Item) (t : TileId) (s : State), s.coat = some c → c.items = [i] → c.bound = [] →
    c.point = some (d, .now, none) → s.fastOn = true → regAt i.off = some (.tile t .dac) →
    (s.pstate (panelOf t) ≠ .off → (s.tiles[t]).fenced = false → (s.tiles[t]).inReset = false →
      ∃ s', exec .coatCommit s = .next s' ∧ s'.coat = none ∧ s'.coatLast = c.number ∧ (s'.tiles[t]).coat = c.number ∧
        (s'.tiles[t]).dac = Word.merge (s.tiles[t]).dac i.value (i.mask &&& 0xFFFFFC00#32) ∧
        (s'.tiles[t]).adc = (s.tiles[t]).adc ∧ (t, s.aon.fck + 256) ∈ s'.readback) ∧
    ((s.tiles[t]).fenced = true → exec .coatCommit s =
      .next (finish 0x25 d .aborted 1 0 (markReady { s with coat := none })))) ∧
  (∀ (d : Desc) (ch : Fin 256) (c : Coat) (stages : List Stage) (links : List LinkRec) (pl : Placement) (s : State),
    s.coat = some c → c.own = true → c.items = [] → c.bound = [.release d ch] → c.point = none → s.fastOn = true →
    (s.chains[ch]).cdef = some (stages, links) → (s.chains[ch]).placement = some pl → pl.stages = [] → pl.routes = [] →
    ∃ s', exec .placementReadyCommit s = .next s' ∧ (s'.chains[ch]).placement = none ∧ (s'.chains[ch]).broken = false ∧
      (s'.chains[ch]).cdef = some (stages, links) ∧ s'.coat = none ∧ s'.coatLast = c.number) ∧
  (∀ (t : TileId) (due : Nat) (s : State), (t, due) ∈ s.readback → (s.tiles[t]).fenced = false → s.mem.errs = [] →
    exec (.coatReadback t .clean) s = .next { s with readback := s.readback.filter (·.1 != t) }) ∧
  (∀ s : State, (∀ p : PanelId, ∀ k : Fin 256, (s.panels[p]).sinks[k] = 256) →
    ∃ s', exec .dustSheetRelease s = .next s' ∧ s' = { s with tiles := s'.tiles } ∧
      ∀ t : TileId, s'.tiles[t] = { s.tiles[t] with
        sheet := (s.tiles[t]).sheet && ((s.tiles[t]).inReset || decide (s.aon.fck < (s.tiles[t]).sheetAt + 2)) }) ∧
  (∀ (t : TileId) (s : State), s.coat = none → s.isPlaced t = false →
    (∀ d op, s.moves.find? (fun m => m.1 == t) = some (t, some (op, d)) → exec (.tileReplacement t) s =
      .next (finish op d .ok 0 0 { s with moves := s.moves.filter fun m => m.1 != t })) ∧
    (s.moves.find? (fun m => m.1 == t) = some (t, none) → exec (.tileReplacement t) s =
      .next { s with moves := s.moves.filter fun m => m.1 != t }))

/-- R209, R210, R213, R216, R221 to R223: a chain is defined whole or not at all; the placer's or the host's placement is
staged in a coat of the module's own, or refused with its reason; a release is staged as well. Rests also on the
model's own choice of log 20. -/
def Obligations.Chains : Prop :=
  (∀ (d : Desc) (s : State), s.takes 0x20 d (headerFault d 8 .buffer .unbound [(26, 38)]) → 1 ≤ d.u 24 1 → d.u 24 1 ≤ 32 →
    d.u 25 1 ≤ 64 → d.len = 32 * d.u 24 1 + 8 * d.u 25 1 → s.linkUp = true → d.rd = .clean →
    let c : Fin 256 := Fin.ofNat 256 d.target.toNat
    let bs := s.hostMem.bytes d.buffer.toNat d.len
    let srecs := chunks 32 (d.u 24 1) bs
    let lrecs := chunks 8 (d.u 25 1) (bs.drop (32 * d.u 24 1))
    let good := (∀ r ∈ srecs, stageRecOk (srecs.map stageOf) r = true) ∧
      (∀ r ∈ lrecs, linkRecOk (srecs.map stageOf) r = true) ∧ linksFit (lrecs.map linkOf) = true
    ((s.chains[c]).placement = none → good → exec (.defineChain d) s = .next (finish 0x20 d .ok 0 0
      ((s.begun 0x20 d).modChain c fun _ => { cdef := some (srecs.map stageOf, lrecs.map linkOf) }))) ∧
    ((s.chains[c]).placement = none → ¬ good →
      exec (.defineChain d) s = .next (finish 0x20 d .badField 0xFF 0 (s.begun 0x20 d))) ∧
    ((s.chains[c]).placement ≠ none →
      exec (.defineChain d) s = .next (finish 0x20 d .state 0 0 (s.begun 0x20 d)))) ∧
  (∀ (d : Desc) (stages : List Stage) (links : List LinkRec) (s : State),
    s.takes 0x21 d ((headerFault d 8 .buffer .bindable []).or
      ((if 1 < d.u 24 1 then some 24 else none).or (reservedFault d [(25, 39)]))) →
    d.bound = false → s.coat = none →
    let c : Fin 256 := Fin.ofNat 256 d.target.toNat
    ((s.chains[c]).cdef = none → exec (.placeChain d) s = .next (finish 0x21 d .state 0 0 (s.begun 0x21 d))) ∧
    ((s.chains[c]).cdef = some (stages, links) → (s.chains[c]).placement = none → s.hwPlaces = true →
      s.mem.errs = [] →
      (∀ pl : Placement, (s.begun 0x21 d).place c stages links = .inr pl →
        (d.u 24 1 = 1 → (pl.bytes c).length ≤ d.len) → exec (.placeChain d) s =
        .next (markReady { s.begun 0x21 d with
          free := s.free + 1, coatNo := s.coatNo + 1
          coat := some ⟨s.coatNo + 1, [], [.place (some (0x21, d)) c pl (pl.stages.map (·.stage))
            (Config.placerTime s.free)], none, true⟩ })) ∧
      (∀ pl : Placement, (s.begun 0x21 d).place c stages links = .inr pl → d.u 24 1 = 1 → d.len < (pl.bytes c).length →
        exec (.placeChain d) s = .next (finish 0x21 d .badField 16 0 (s.begun 0x21 d))) ∧
      (∀ f : PlaceFail, (s.begun 0x21 d).place c stages links = .inl f →
        exec (.placeChain d) s = .next (finish 0x21 d f.status f.detail 0 (s.begun 0x21 d))))) ∧
  (∀ (d : Desc) (stages : List Stage) (links : List LinkRec) (s : State),
    s.takes 0x22 d (headerFault d 8 .buffer .bindable [(24, 40)]) → d.bound = false → s.coat = none →
    s.linkUp = true → d.rd = .clean →
    let c : Fin 256 := Fin.ofNat 256 d.target.toNat
    (s.chains[c]).cdef = some (stages, links) → (s.chains[c]).placement = none →
    (recordOf c (s.hostMem.bytes d.buffer.toNat d.len) = none →
      exec (.applyPlacement d) s = .next (finish 0x22 d .badField 0xFF 0 (s.begun 0x22 d))) ∧
    (∀ (ps : List StagePlace) (rs : List Route) (pl : Placement),
      recordOf c (s.hostMem.bytes d.buffer.toNat d.len) = some (ps, rs) → s.mem.errs = [] →
      (s.begun 0x22 d).checkRecord c stages links ps rs = .inr pl → exec (.applyPlacement d) s =
        .next (markReady { s.begun 0x22 d with
          free := s.free + 1, coatNo := s.coatNo + 1
          coat := some ⟨s.coatNo + 1, [], [.place (some (0x22, d)) c pl (pl.stages.map (·.stage))
            (Config.placerTime s.free)], none, true⟩ }))) ∧
  (∀ (d : Desc) (s : State), s.takes 0x23 d (headerFault d 8 .none .bindable [(24, 40)]) → d.bound = false →
    let c : Fin 256 := Fin.ofNat 256 d.target.toNat
    ((s.chains[c]).placement = none → exec (.releaseChain d) s = .next (finish 0x23 d .state 0 0 (s.begun 0x23 d))) ∧
    ((s.chains[c]).placement ≠ none → s.coat = none → s.mem.errs = [] → exec (.releaseChain d) s =
      .next (markReady { s.begun 0x23 d with
        coatNo := s.coatNo + 1, coat := some ⟨s.coatNo + 1, [], [.release d c], none, true⟩ })) ∧
    ((s.chains[c]).placement ≠ none → s.coat ≠ none →
      exec (.releaseChain d) s = .next (finish 0x23 d .busy 0 0 (s.begun 0x23 d))))

/-! ### Images, the store, programs -/

/-- R327, R328, R334, R336, R338: the user area is written and every area but the module's read; an image that passes its
checks replaces a slot's, one that does not leaves the slot as it was; a netlist image from a slot writes its frame.
Rests also on the model's own choices of logs 9 and 46. -/
def Obligations.ImagesAndStore : Prop :=
  (∀ (d : Desc) (s : State), s.takes 0x12 d (headerFault d 0 .buffer .unbound [(28, 36)]) → storeFault d = none →
    (storeArea (d.u 24 4) = 5 → s.linkUp = true → d.rd = .clean → exec (.storeWrite d) s = .next (finish 0x12 d .ok 0 0
      { s.begun 0x12 d with sec := { s.sec with
          store := s.sec.store.putBytes (d.u 24 4) (s.hostMem.bytes d.buffer.toNat d.len) } })) ∧
    (storeArea (d.u 24 4) ≠ 5 → exec (.storeWrite d) s = .next (finish 0x12 d .state 0 0 (s.begun 0x12 d)))) ∧
  (∀ (d : Desc) (s : State), s.takes 0x13 d (headerFault d 0 .buffer .unbound [(28, 36)]) → storeFault d = none →
    s.linkUp = true → d.wr = .clean →
    (s.sec.lifecycle ≠ .closed → storeArea (d.u 24 4) ≤ 5 → exec (.storeRead d .clean) s = .next (finish 0x13 d .ok 0 0
      ((s.begun 0x13 d).hostWrite d.buffer.toNat (s.sec.store.bytes (d.u 24 4) d.len)))) ∧
    (s.sec.lifecycle = .closed → storeArea (d.u 24 4) ≤ 4 →
      exec (.storeRead d .clean) s = .next (finish 0x13 d .lifecycle 0 0 (s.begun 0x13 d)))) ∧
  (∀ (d : Desc) (s : State), s.takes 0x10 d (headerFault d 0 .buffer .unbound [(26, 38)]) → d.u 24 1 = 1 → d.u 25 1 ≤ 3 →
    s.linkUp = true → d.rd = .clean →
    let img := s.hostMem.bytes d.buffer.toNat d.len
    let r := s.readImage false img
    let k : Fin 4 := Fin.ofNat 4 (d.u 25 1)
    (r.fail = none → exec (.loadImage d .clean) s = .next (finish 0x10 d .ok 0 (r.frames.length + r.crc.toNat * 2 ^ 32)
      { s.begun 0x10 d with sec := { s.sec with
          store := (s.sec.store.clear (0xE00000 * k.val) 0xE00000).putBytes (0xE00000 * k.val) img
          slots := s.sec.slots.set k { valid := true, len := img.length, imageId := BitVec.ofNat 32 (le img 32 4) } } })) ∧
    (∀ c off : Nat, r.fail = some (c, off) → ∃ t, exec (.loadImage d .clean) s = .next t ∧ t.sec.slots = s.sec.slots ∧
      t.sec.store = s.sec.store ∧ t.sec.imgCause = BitVec.ofNat 4 c ∧ t.tiles = s.tiles)) ∧
  (∀ (d : Desc) (f : ImgFrame) (s : State), s.takes 0x11 d (headerFault d 0 .none .unbound [(25, 39)]) → d.u 24 1 ≤ 3 →
    let k : Fin 4 := Fin.ofNat 4 (d.u 24 1)
    let r := s.readImage d.bound (s.slotImage k)
    let n : Fin 64 := Fin.ofNat 64 f.unit
    ((s.sec.slots[k]).valid = true → s.pwr.mode.up = true → r.fail = none → r.kind = 2 → r.frames = [f] → f.space = 4 →
      s.netlistUsed f.unit = false → exec (.loadImageFromStore d .clean .clean) s =
        .next (finish 0x11 d .ok 0 (1 + r.crc.toNat * 2 ^ 32)
          { s.begun 0x11 d with netlists := s.netlists.set n (putFrame f.idx f.data s.netlists[n]) })) ∧
    ((s.sec.slots[k]).valid = false → ∃ t, exec (.loadImageFromStore d .clean .clean) s = .next t ∧
      t.sec.imgCause = 12 ∧ t.netlists = s.netlists ∧ t.tiles = s.tiles ∧ t.panels = s.panels))

/-- R204 to R207: a program goes to the store, or straight into a tile; a fresh start begins at its entry with cleared
state and both arguments, a resume goes on; a stop cancels what the engine waits for and answers its PC; a host
message joins the inbox, or waits. Rests also on the model's own choices of logs 7 and 40. -/
def Obligations.EnginePrograms : Prop :=
  (∀ (d : Desc) (s : State),
    s.takes 0x30 d (headerFault d (if d.u 24 1 = 1 then 9 else 6) .buffer .unbound [(25, 3), (36, 28)]) →
    loadProgramFault d = none → s.linkUp = true → d.rd = .clean →
    let bs := s.hostMem.bytes d.buffer.toNat d.len
    let id : Fin 64 := Fin.ofNat 64 d.target.toNat
    let t : TileId := Fin.ofNat 512 d.target.toNat
    ((crc32c bs).toNat ≠ d.u 32 4 → exec (.loadProgram d) s = .next (finish 0x30 d .integrity 0 0 (s.begun 0x30 d))) ∧
    ((crc32c bs).toNat = d.u 32 4 → d.u 24 1 = 0 → s.storeUsed id.val + bs.length ≤ 2 * 2 ^ 20 →
      s.programUsed id.val = false → exec (.loadProgram d) s = .next (finish 0x30 d .ok 0 0
        { s.begun 0x30 d with programs := s.programs.set id (some ⟨bs, BitVec.ofNat 32 (d.u 28 4)⟩) })) ∧
    ((crc32c bs).toNat = d.u 32 4 → d.u 24 1 = 1 → s.engHeld t = false → (s.tiles[t]).eng.st = .stopped →
      ∃ s', exec (.loadProgram d) s = .next s' ∧ (s'.tiles[t]).engMem = Memory.putBytes [] 0 bs ∧
        (s'.tiles[t]).eng.prog = 0xFE ∧ (s'.tiles[t]).eng.entry = BitVec.ofNat 32 (d.u 28 4) ∧
        (s'.tiles[t]).eng.regs = (s.tiles[t]).eng.regs ∧ s'.programs = s.programs)) ∧
  (∀ (d : Desc) (s : State), s.takes 0x31 d (headerFault d 9 .none .unbound [(25, 3), (36, 28)]) →
    d.target.getLsbD 31 = false → d.bound = false →
    let t : TileId := Fin.ofNat 512 d.target.toNat
    (d.u 24 1 = 0 → s.startable false t = true → ∃ s', exec (.startEngine d) s = .next s' ∧
      (s'.tiles[t]).eng.st = (if s.tileLive t = true then .running else .stopped) ∧
      (s'.tiles[t]).eng.pc = (s'.tiles[t]).eng.entry ∧ (s'.tiles[t]).eng.arm = (s.tiles[t]).eng.arm ∧
      (s'.tiles[t]).eng.rd 1 = BitVec.ofNat 32 (d.u 28 4) ∧ (s'.tiles[t]).eng.rd 2 = BitVec.ofNat 32 (d.u 32 4) ∧
      (∀ k : Reg4, k ≠ 1 → k ≠ 2 → (s'.tiles[t]).eng.rd k = 0) ∧ (s'.tiles[t]).eng.acc = 0 ∧
      (s'.tiles[t]).eng.loops = [] ∧ (s'.tiles[t]).eng.evm = 0 ∧ (s'.tiles[t]).eng.inbox = (s.tiles[t]).eng.inbox ∧
      (∀ p : Program, s.program (s.tiles[t]).eng.prog.toNat = some p →
        (s'.tiles[t]).engMem = Memory.putBytes [] 0 p.bytes ∧ (s'.tiles[t]).eng.entry = p.entry) ∧
      (∀ k, k ≠ t → s'.tiles[k] = s.tiles[k])) ∧
    (d.u 24 1 = 1 → s.startable true t = true → ∃ s', exec (.startEngine d) s = .next s' ∧
      (s'.tiles[t]).eng = { (s.tiles[t]).eng with st := .running } ∧ (s'.tiles[t]).engMem = (s.tiles[t]).engMem) ∧
    (d.u 24 1 = 0 → s.startable false t = false →
      exec (.startEngine d) s = .next (finish 0x31 d .state 0 0 (s.begun 0x31 d)))) ∧
  (∀ (d : Desc) (s : State), s.takes 0x32 d (headerFault d 9 .none .unbound [(25, 39)]) →
    d.target.getLsbD 31 = false → d.u 24 1 ≤ 1 →
    let t : TileId := Fin.ofNat 512 d.target.toNat
    (s.engHeld t = false → exec (.stopEngine d) s =
      .next (finish 0x32 d .ok 0 (if s.sec.lifecycle = .closed then 0 else (s.tiles[t]).eng.nextPc.toNat)
        ((s.begun 0x32 d).modEng t fun e => { (if d.u 24 1 = 1 then e.cleared else e) with
          st := .stopped, cause := 0, stall := none, arm := none, pc := e.nextPc }))) ∧
    (s.engHeld t = true → exec (.stopEngine d) s = .next (finish 0x32 d .state 0 0 (s.begun 0x32 d)))) ∧
  (∀ (d : Desc) (s : State), s.takes 0x33 d (headerFault d 9 .none .unbound [(26, 2), (44, 20)]) →
    1 ≤ d.u 24 1 → d.u 24 1 ≤ 4 →
    let t : TileId := Fin.ofNat 512 d.target.toNat
    let words := (List.range (d.u 24 1)).map fun k => BitVec.ofNat 32 (d.u (28 + 4 * k) 4)
    let m : Msg := ⟨1023, d.target.setWidth 10, 0, BitVec.ofNat 8 (d.u 25 1), words, s.stamp⟩
    s.engHeld t = false →
    ((s.tiles[t]).eng.inbox.length < 8 → (s.tiles[t]).eng.hostMsgs = [] → exec (.engineMessage d) s =
      .next (finish 0x33 d .ok 0 0 ((s.begun 0x33 d).modEng t fun e =>
        { e with inbox := e.inbox ++ [m], fullAt := if e.inbox.length = 7 then s.aon.run else e.fullAt }))) ∧
    (8 ≤ (s.tiles[t]).eng.inbox.length → exec (.engineMessage d) s = .next ((s.begun 0x33 d).modEng t fun e =>
      { e with hostMsgs := e.hostMsgs ++ [(d, m)], hostAt := if e.hostMsgs = [] then s.aon.fck else e.hostAt }))) ∧
  (∀ (d : Desc) (s : State), s.takes 0x40 d (headerFault d 9 .buffer .unbound [(28, 36)]) → d.u 24 1 ≤ 15 → d.u 25 1 = 0 →
    d.u 26 1 ≤ 2 → 1 ≤ d.u 27 1 → d.u 27 1 ≤ 32 → d.len = 8 * d.u 27 1 → s.linkUp = true → d.rd = .clean →
    let t : TileId := Fin.ofNat 512 d.target.toNat
    let k : Fin 16 := Fin.ofNat 16 (d.u 24 1)
    let bs := s.hostMem.bytes d.buffer.toNat d.len
    let w : Waveform := { domain := BitVec.ofNat 2 (d.u 26 1), segs := segsOf (d.u 27 1) bs }
    s.pstate (panelOf t) ≠ .off → s.armedTile t = false →
    (segsOk (d.u 26 1) (d.u 27 1) bs = true → ∃ s', exec (.loadWaveform d .clean) s = .next s' ∧
      (s'.tiles[t]).waves[k] = w ∧ (s'.tiles[t]).shadowWaves[k] = w ∧
      (∀ j : Fin 16, j ≠ k → (s'.tiles[t]).waves[j] = (s.tiles[t]).waves[j]) ∧
      (∀ u, u ≠ t → s'.tiles[u] = s.tiles[u])) ∧
    (segsOk (d.u 26 1) (d.u 27 1) bs = false →
      exec (.loadWaveform d .clean) s = .next (finish 0x40 d .badField 0xFF 0 (s.begun 0x40 d))))

/-! ### Heads, jobs, products -/

/-- R26 to R29, R35, R38, R39, R42: heads, jobs and glyphs are defined whole or refused; a counter is set; date slots wait
for the step between two detects and then take effect; DATE_LOW is raised once. Rests also on the model's own choices
of logs 2, 27 and 48. -/
def Obligations.PrintDefinitions : Prop :=
  (∀ (d : Desc) (x : HeadDef) (s : State), s.takes 0x41 d (headerFault d 3 .buffer .unbound [(43, 21)]) → s.linkUp = true →
    d.rd = .clean →
    let h : HeadId := Fin.ofNat 8 d.target.toNat
    (s.heads[h]).armed = none → headFieldFault s h d = none →
    headDefOf d (s.hostMem.bytes d.buffer.toNat d.len) = some x →
    (headMapBad s h x = false → exec (.defineHead d) s = .next (finish 0x41 d .ok 0 0 ((s.begun 0x41 d).modHead h fun y =>
      { y with hdef := some x, pointers := [], stats := List.replicate x.n {} }))) ∧
    (headMapBad s h x = true → exec (.defineHead d) s = .next (finish 0x41 d .badField 0xFF 0 (s.begun 0x41 d)))) ∧
  (∀ (d : Desc) (s : State), s.takes 0x41 d (headerFault d 3 .buffer .unbound [(43, 21)]) →
    (s.heads[(Fin.ofNat 8 d.target.toNat : HeadId)]).armed.isSome = true →
    exec (.defineHead d) s = .next (finish 0x41 d .state 0 0 (s.begun 0x41 d))) ∧
  (∀ (d : Desc) (x : HeadDef) (j : JobDef) (s : State),
    s.takes 0x42 d (jobHeader d) → d.u 24 1 ≤ 7 →
    s.linkUp = true → d.rd = .clean →
    let k : Fin 64 := Fin.ofNat 64 d.target.toNat
    s.jobArmed k = false → (s.heads[(Fin.ofNat 8 (d.u 24 1) : HeadId)]).hdef = some x → jobFieldFault d = none →
    d.len = jobBlockLen d x → jobOfBlock x d (s.hostMem.bytes d.buffer.toNat d.len) = some j → (s.jobs[k]).jdef = none →
    s.printUsed + j.used ≤ 0x1000000 → exec (.defineJob d) s = .next (finish 0x42 d .ok 0 j.used
      ((s.begun 0x42 d).modJob k fun _ => { jdef := some j }))) ∧
  (∀ (d : Desc) (l : List (Byte × Glyph)) (s : State), s.takes 0x43 d (headerFault d 2 .buffer .unbound [(29, 35)]) →
    d.u 24 2 ≤ 255 → 1 ≤ d.u 26 2 → d.u 24 2 + d.u 26 2 ≤ 256 → 1 ≤ d.u 28 1 → d.u 28 1 ≤ 64 → s.linkUp = true →
    d.rd = .clean → glyphsOf (d.u 28 1) (d.u 26 2) (d.u 24 2) (s.hostMem.bytes d.buffer.toNat d.len) = some l →
    let k : Fin 4 := Fin.ofNat 4 d.target.toNat
    let new : GlyphTable := ⟨d.u 28 1, (if (s.glyphs[k]).height = d.u 28 1 then
      (s.glyphs[k]).glyphs.filter fun g => !(l.any fun x => x.1 == g.1) else []) ++ l⟩
    s.printUsed + new.bytes ≤ 0x1000000 →
    exec (.loadGlyphs d) s = .next (finish 0x43 d .ok 0 0 { s.begun 0x43 d with glyphs := s.glyphs.set k new })) ∧
  (∀ (d : Desc) (x : JobDef) (s : State), s.takes 0x48 d (headerFault d 6 .none .unbound [(25, 3), (32, 32)]) →
    let k : Fin 64 := Fin.ofNat 64 d.target.toNat
    (s.jobs[k]).jdef = some x →
    (d.u 24 1 < x.counters.length → ∃ t y, exec (.setCounter d) s = .next t ∧ (t.jobs[k]).jdef = some y ∧
      y.counters = x.counters.modify (d.u 24 1) (fun c => { c with value := BitVec.ofNat 32 (d.u 28 4) }) ∧
      { y with counters := x.counters } = x ∧ (t.jobs[k]).suppressed = (s.jobs[k]).suppressed) ∧
    (x.counters.length ≤ d.u 24 1 →
      exec (.setCounter d) s = .next (finish 0x48 d .badField 24 0 (s.begun 0x48 d)))) ∧
  (∀ (d : Desc) (s : State), s.takes 0x44 d (headerFault d 0 .buffer .unbound [(28, 36)]) → d.len = 80 * d.u 25 1 →
    d.u 24 1 ≤ 31 → 1 ≤ d.u 25 1 → d.u 24 1 + d.u 25 1 ≤ 32 → s.linkUp = true → d.rd = .clean →
    exec (.setDateSlots d) s = .next { s.begun 0x44 d with dates := { s.dates with wait := s.dates.wait ++
      [⟨d, d.u 24 1, (chunks 80 (d.u 25 1) (s.hostMem.bytes d.buffer.toNat d.len)).map dateSlotOf, d.u 26 2⟩] } }) ∧
  (∀ (w : SlotWrite) (x : DateSlot) (i : Fin 32) (s : State), s.dates.wait = [w] → w.index = i.val → w.slots = [x] →
    ∃ t, exec .dateSlotApply s = .next t ∧ t.dates.slots = s.dates.slots.set i x ∧ t.dates.lead = w.lead ∧
      t.dates.wait = [] ∧ t.jobs = s.jobs ∧ t.tiles = s.tiles) ∧
  (∀ s : State, s.serving = true →
    (s.dates.lowArmed = true → s.dateShort = true → ∃ t, exec .dateLow s = .next t ∧ t.dates.lowArmed = false ∧
      t.dates.slots = s.dates.slots ∧ t.ev.status.getLsbD 4 = true ∧ t.jobs = s.jobs) ∧
    ((s.dates.lowArmed = false ∨ s.dateShort = false) → exec .dateLow s = .next s))

/-- R44, R47, R48, R52: a job that passes the arming table is armed on its head, one that does not is refused with the
table's status; a swap waits for the product boundary; a DISARM waits for the products in flight, or stops them, and
takes effect at once on a head without any; compensation waits for the boundary of an armed head. Rests also on the
model's own choice of log 49. -/
def Obligations.Arming : Prop :=
  (∀ (d : Desc) (jd : JobDef) (hd : HeadDef) (s : State), s.takes 0x45 d (headerFault d 6 .none .unbound [(24, 40)]) →
    let j : Fin 64 := Fin.ofNat 64 d.target.toNat
    (s.jobs[j]).jdef = some jd → s.jobArmed j = false → (s.heads[jd.head]).hdef = some hd →
    (s.heads[jd.head]).armed = none →
    (∀ st, (s.begun 0x45 d).armPlan jd.head hd j jd (!s.anyArmed) = .inr st → ∃ t, exec (.armJob d) s = .next t ∧
      (t.heads[jd.head]).armed = some j ∧ (t.heads[jd.head]).stagger = st ∧
      (t.heads[jd.head]).freeRunWait = jd.freeRun ∧ (t.heads[jd.head]).nextSeq = (s.heads[jd.head]).nextSeq ∧
      (t.heads[jd.head]).products = (s.heads[jd.head]).products ∧ t.jobs = s.jobs ∧ t.pwr = s.pwr ∧
      (128 ≤ jd.rejectPin.toNat → (t.heads[jd.head]).edges = [] ∧ ∀ k, k ≠ jd.head → t.heads[k] = s.heads[k])) ∧
    (∀ f, (s.begun 0x45 d).armPlan jd.head hd j jd (!s.anyArmed) = .inl f →
      exec (.armJob d) s = .next (finish 0x45 d f.1 f.2 0 (s.begun 0x45 d)))) ∧
  (∀ (d : Desc) (jd : JobDef) (hd : HeadDef) (h : HeadId) (st : List (Nat × Int)) (s : State),
    s.takes 0x46 d (headerFault d 6 .none .unbound [(25, 39)]) → d.u 24 1 ≤ 63 →
    let new : Fin 64 := Fin.ofNat 64 d.target.toNat
    let old : Fin 64 := Fin.ofNat 64 (d.u 24 1)
    (s.jobs[new]).jdef = some jd → allHeads.find? (fun h => (s.heads[h]).armed == some old) = some h →
    (s.heads[h]).hdef = some hd → s.jobArmed new = false → jd.head = h → (s.heads[h]).disarm = [] →
    (s.heads[h]).swap = none → (s.begun 0x46 d).armPlan h hd new jd (s.heads[h]).hlvShare = .inr st →
    exec (.swapJob d) s = .next ((s.begun 0x46 d).modHead h fun x => { x with swap := some ⟨d, new⟩ })) ∧
  (∀ (d : Desc) (h : HeadId) (s : State), s.takes 0x47 d (headerFault d 6 .none .unbound [(25, 39)]) →
    let j : Fin 64 := Fin.ofNat 64 d.target.toNat
    allHeads.find? (fun h => (s.heads[h]).armed == some j) = some h → (s.heads[h]).swap = none →
    (d.u 24 1 = 0 → (s.heads[h]).products ≠ [] → exec (.disarm d) s = .next ((s.begun 0x47 d).modHead h fun x =>
      { x with disarm := x.disarm ++ [d], edges := [] })) ∧
    (d.u 24 1 = 1 → (s.heads[h]).products ≠ [] → ∃ t, exec (.disarm d) s = .next t ∧ t.jobs = s.jobs ∧
      t.heads = (s.modHead h fun x => { x with
        disarm := x.disarm ++ [d], edges := [], column := none
        products := x.products.map fun p =>
          if p.done then p else { p with cause := if p.cause = .none then .disarmed else p.cause, done := true } }).heads ∧
      (∀ hd : HeadDef, (s.heads[h]).hdef = some hd → ∀ k ∈ hd.reach, (t.tiles[k]).trowel.due =
        (s.tiles[k]).trowel.due.filter fun f => !(f.head == h && f.by_ == .column))) ∧
    (d.u 24 1 ≤ 1 → (s.heads[h]).products = [] → (s.heads[h]).disarm = [] → (s.heads[h]).compWait = [] →
      (s.heads[h]).waveWait = [] → ∃ t, exec (.disarm d) s = .next t ∧ (t.heads[h]).armed = none ∧
        (t.heads[h]).disarm = [] ∧ (t.heads[h]).edges = [] ∧ t.jobs = s.jobs ∧
        ((∀ jd : JobDef, s.jobOf h = some jd → 128 ≤ jd.rejectPin.toNat) → ∀ k, k ≠ h → t.heads[k] = s.heads[k]))) ∧
  (∀ (d : Desc) (s : State), s.takes 0x53 d (headerFault d 3 .none .unbound [(26, 2), (32, 32)]) → d.u 24 1 ≤ 1 →
    d.u 25 1 ≤ 1 →
    let h : HeadId := Fin.ofNat 8 d.target.toNat
    let c : Comp := ⟨d.u 24 1 == 1, d.u 25 1 == 1, BitVec.ofNat 16 (d.u 28 2), BitVec.ofNat 16 (d.u 30 2)⟩
    (s.heads[h]).hdef.isSome = true →
    ((s.heads[h]).armed = none → exec (.setCompensation d) s =
      .next (finish 0x53 d .ok 0 0 ((s.begun 0x53 d).modHead h fun x => { x with comp := c }))) ∧
    ((s.heads[h]).armed.isSome = true → exec (.setCompensation d) s =
      .next ((s.begun 0x53 d).modHead h fun x => { x with compWait := x.compWait ++ [(d, c)] })))

/-- R38, R45, R46, R49, R69, R298, R299, R43: a detect too near the one before is suppressed and counted; an accepted one
starts a product with the next sequence number, its counters stepped; a posted entry gives a product that awaits one
its raster; a raster read brings the columns staging has room for, or fails; rendering ends. Rests also on the model's
own choices of logs 2 and 50. -/
def Obligations.Products : Prop :=
  (∀ (h : HeadId) (j : Fin 64) (jd : JobDef) (time : BitVec 64) (counts : List Word) (rest : List (BitVec 64 × List Word))
      (s : State), (s.heads[h]).armed = some j → s.jobOf h = some jd → s.pwr.mode.up = true → (s.heads[h]).disarm = [] →
    jd.freeRun = false → (s.heads[h]).edges = (time, counts) :: rest →
    let c0 := counts.getD jd.encoder.val 0
    ((∃ l, (s.heads[h]).lastC0 = some l ∧ (c0 - l).toInt < (jd.minPitch.toNat : Int)) →
      exec (.detectAccept h) s = .next ((s.modHead h fun x => { x with edges := rest }).modJob j fun x =>
        { x with suppressed := x.suppressed + 1 })) ∧
    (∀ hd : HeadDef, (s.heads[h]).hdef = some hd → (s.heads[h]).lastC0 = none → (s.heads[h]).products = [] →
      (s.heads[h]).swap = none → (s.heads[h]).compWait = [] → (s.heads[h]).waveWait = [] → s.coat = none →
      s.mem.errs = [] → jd.dated = false → Word.field (s.fnMode.setWidth 32) 11 10 ≠ 1 →
      (∀ t : TileId, (s.tiles[t]).trowel.listen = none) → jd.rejectPin = 255 →
      ∃ t p, exec (.detectAccept h) s = .next t ∧ (t.heads[h]).products = [p] ∧ p.seq = (s.heads[h]).nextSeq ∧ p.job = j ∧
        p.c0 = c0 ∧ p.time = time ∧ p.cause = .none ∧ p.done = false ∧ p.col = 0 ∧ p.jdef = jd ∧
        (t.heads[h]).nextSeq = (s.heads[h]).nextSeq + 1 ∧ (t.heads[h]).lastC0 = some c0 ∧ (t.heads[h]).edges = rest ∧
        (t.jobs[j]).jdef = some { jd with counters := jd.counters.map fun c => { c with value := c.next } } ∧
        (t.jobs[j]).suppressed = (s.jobs[j]).suppressed)) ∧
  (∀ (h : HeadId) (hd : HeadDef) (n : Fin 8) (p : Product) (s : State), (s.heads[h]).hdef = some hd →
    (s.heads[h]).products = [p] → p.done = false → p.raster = .awaited → s.pqOf h = some n → s.linkUp = true →
    (s.pqs[n]).rdidx ≠ (s.pqs[n]).tail →
    let e := s.hostMem.bytes ((s.pqs[n]).base.toNat + 32 * (s.pqs[n]).rdidx.toNat) 32
    le e 12 1 = 0 → le e 13 3 = 0 → (∀ b ∈ e.drop 20, b = 0) →
    le e 8 4 = p.jdef.columns * columnBytes hd.n hd.selBits → le e 0 8 % 8 = 0 → BitVec.ofNat 32 (le e 16 4) = p.seq →
    ∃ t, exec (.printQueueEntryArrival h) s = .next t ∧
      (t.heads[h]).products = [{ p with raster := .host (BitVec.ofNat 64 (le e 0 8)) n [] false }] ∧
      (t.pqs[n]).rdidx = (if (s.pqs[n]).rdidx.toNat + 1 < (s.pqs[n]).slots then (s.pqs[n]).rdidx + 1 else 0) ∧
      (t.pqs[n]).bad = (s.pqs[n]).bad ∧ t.tiles = s.tiles ∧ t.hostMem = s.hostMem) ∧
  (∀ (h : HeadId) (p : Product) (s : State), (s.heads[h]).products = [p] → p.done = false →
    exec (.fieldRenderDone h p.seq) s =
      .next (s.modHead h fun x => { x with products := [{ p with rendered := true }] })) ∧
  (∀ (h : HeadId) (hd : HeadDef) (n : Fin 8) (p : Product) (a : BitVec 64) (cols : List (List Nat)) (s : State),
    (s.heads[h]).hdef = some hd → (s.heads[h]).products = [p] → p.done = false → p.raster = .host a n cols false →
    cols.length < p.jdef.columns →
    let top := min p.jdef.columns (p.col + stagingColumns hd)
    (s.linkUp = true → exec (.rasterReadCompletion h .clean) s = .next (s.modHead h fun x => { x with products :=
      [{ p with raster := .host a n (cols ++ (List.range (top - cols.length)).map fun k =>
        codesOf hd.n hd.selBits (s.hostMem.bytes (a.toNat + (cols.length + k) * columnBytes hd.n hd.selBits)
          (columnBytes hd.n hd.selBits))) false }] })) ∧
    (∃ t, exec (.rasterReadCompletion h .failed) s = .next t ∧
      (t.heads[h]).products = [{ p with raster := .host a n cols true }] ∧ t.tiles = s.tiles ∧ t.pqs = s.pqs))

/-- R63 to R66, R373: the verdict of a product that has ended is written as a record to its ring and the product leaves; a
pulse starts at its count and ends after its width; a quadrature transition counts by one. Rests also on the model's
own choices of logs 2 and 50. -/
def Obligations.VerdictsAndEncoders : Prop :=
  (∀ (h : HeadId) (hd : HeadDef) (p : Product) (s : State), (s.heads[h]).hdef = some hd → (s.heads[h]).products = [p] →
    p.done = true → s.quietFor hd h p.seq = true → (s.heads[h]).disarm = [] → (s.heads[h]).armed = none →
    let p' := { p with dots := p.dots + s.restDots h hd p }
    ∃ t, exec (.verdict h) s = .next t ∧ (t.heads[h]).products = [] ∧ t.jobs = s.jobs ∧
      (s.aon.rejects = [] → t.tiles = s.tiles ∧ ∀ k, k ≠ h → t.heads[k] = s.heads[k]) ∧
      (∀ r ∈ t.aon.rejects, r.head = h → r.seq = p.seq → r.call = some p'.calls) ∧
      (∀ n : Fin 32, s.ringOf (.verdict h) = some n → s.linkUp = true → s.hostMem.wf = true → s.mem.errs = [] →
        (s.sts[n]).gap = none →
        (s.sts[n]).write.toNat + 40 ≤ (s.sts[n]).bytes → 48 ≤ (s.sts[n]).bytes - (s.sts[n]).used →
        t.hostMem.bytes ((s.sts[n]).base.toNat + (s.sts[n]).write.toNat) 40 =
          recHeader 40 4 (s.sts[n]).rseq ++ verdictPayload h p')) ∧
  (∀ (p : Product), (p.cause ≠ .none → p.verdict = 2) ∧
    (p.cause = .none → p.coverage < p.jdef.coverMin → p.verdict = 1) ∧
    (p.cause = .none → p.jdef.coverMin ≤ p.coverage → p.unreliable = false → p.verdict = 0)) ∧
  (∀ (r : Reject) (s : State), s.aon.rejects = [r] → s.aon.up = true →
    (r.ends = none → (s.gpio.pins[r.pin]).hold = false → 0 ≤ ((s.aon.enc[r.channel]).count - r.dueAt).toInt →
      r.call = some true → exec (.rejectPulseStart r.head r.seq) s = .next (rejectPinLevel r.pin
        { s with aon := { s.aon with rejects := [{ r with ends := some (s.aon.ticks + r.width) }] } })) ∧
    (r.ends = none → ((s.gpio.pins[r.pin]).hold = true ∨ ((s.aon.enc[r.channel]).count - r.dueAt).toInt < 0) →
      exec (.rejectPulseStart r.head r.seq) s = .next s) ∧
    (∀ e, r.ends = some e → e ≤ s.aon.ticks →
      exec (.rejectPulseEnd r.pin) s =
        .next (rejectsFollow s (rejectPinLevel r.pin { s with aon := { s.aon with rejects := [] } }))) ∧
    (∀ e, r.ends = some e → s.aon.ticks < e → exec (.rejectPulseEnd r.pin) s = .next s)) ∧
  (∀ (n : Fin 8) (a b : Bool) (gap : Nat) (s : State), s.aon.up = true →
    let e := s.aon.enc[n]
    Word.field e.cfg 29 28 = 1 → e.cfg.getLsbD 27 = false → (∀ h, s.jobOf h = none) → s.paused n = false →
    (∀ h : HeadId, (s.heads[h]).column = none) →
    (∀ (p : PanelId) (k : Fin 32), (s.panels[p]).pinLine[k] = 128) →
    ((a ≠ e.lvlA ∧ b = e.lvlB ∨ a = e.lvlA ∧ b ≠ e.lvlB) → 40 ≤ gap → ∃ t, exec (.encoderTransition n a b gap) s = .next t ∧
      (t.aon.enc[n]).count = (if (a ≠ e.lvlA) ↔ (a ≠ b) then e.count + 1 else e.count - 1) ∧
      (t.aon.enc[n]).lvlA = a ∧ (t.aon.enc[n]).lvlB = b ∧ (t.aon.enc[n]).ovs = e.ovs ∧
      (∀ k, k ≠ n → t.aon.enc[k] = s.aon.enc[k]) ∧ t.tiles = s.tiles) ∧
    (a ≠ e.lvlA → b ≠ e.lvlB → ∃ t, exec (.encoderTransition n a b gap) s = .next t ∧ (t.aon.enc[n]).count = e.count ∧
      (t.aon.enc[n]).ovs = true ∧ (t.aon.enc[n]).illegal = satInc e.illegal))

/-- R54, R58 to R61, R75, R76, R79, R81, R88, R90, R92: at its boundary a column's stroke maps it and puts its FIRE frame on every
port; a frame whose echo agrees latches, lets its groups fire T_LF later and is followed by the LISTEN frame; one whose echo
does not agree goes out once more, and the second time its groups do not fire; a fire plays its waveform at its place, or is
counted as overspeed; a waveform's end credits its dots; a chop period switches the trowel on. Rests also on the model's own
choices of logs 2, 50, 52 and 67. -/
def Obligations.Strokes : Prop :=
  (∀ (h : HeadId) (hd : HeadDef) (p : Product) (s : State), (s.heads[h]).hdef = some hd → (s.heads[h]).products = [p] →
    p.done = false → s.fastOn = true → s.pwr.mode.up = true → p.col < p.strokes → s.firing h hd = false →
    (s.boundaryCame h p p.col = false → exec (.columnStrokeBoundary h) s = .next s) ∧
    (s.columnOver h hd = true → s.boundaryCame h p p.col = true → (s.heads[h]).pass = none → s.cal.waits = [] →
      ((0 < p.col ∨ p.started = true ∨ p.rendered = true ∧ p.raster ≠ .awaited) → s.mem.errs = [] → s.mem.flipArm = false →
        (s.heads[h]).stealNext = false → (∀ q : PanelId, (s.panels[q]).frames = []) →
        ∃ t p', exec (.columnStrokeBoundary h) s = .next t ∧ (t.heads[h]).products = [p'] ∧ p'.col = p.col + 1 ∧
          p'.started = true ∧ p'.seq = p.seq ∧ p'.fired = p.fired ∧
          (p.col < p.jdef.columns → p'.mapped.length = p.mapped.length + 1) ∧
          (∀ q : PanelId, q ∈ hd.portList → ∃ f, (t.panels[q]).frames = [f] ∧ f.fire = true ∧ f.head = h ∧ f.seq = p.seq ∧
            f.col = p.col ∧ f.codes.length = hd.slots q) ∧
          (∀ q : PanelId, q ∉ hd.portList → (t.panels[q]).frames = [])) ∧
      (p.col = 0 → p.started = false → p.rendered = false → exec (.columnStrokeBoundary h) s =
        .next (s.modHead h fun x => { x with products := [{ p with cause := .lateRender, done := true }] })))) ∧
  (∀ (q : PanelId) (f : Frame) (rest : List Frame) (ec : List Nat) (hd : HeadDef) (s : State),
    (s.panels[q]).frames = f :: rest → (s.heads[f.head]).hdef = some hd → (s.heads[f.head]).pass = none → s.cal.waits = [] →
    s.fastOn = true → s.mem.errs = [] →
    (s.aon.fck < f.soonest hd q → exec (.selectFrameLatch q ec) s = .next s) ∧
    (f.soonest hd q ≤ s.aon.fck → hd.echoMatches q f.onQck f.codes ec = true → f.again = false → s.ltHeld hd q f = false →
      let fall := s.ltFall hd q f
      fall ≤ s.aon.fck →
      (f.fire = false → ∃ t, exec (.selectFrameLatch q ec) s = .next t ∧ t.tiles = s.tiles ∧
        t.out = .frame q false f.codes true (hd.frameLines q f.codes true) :: s.out ∧ (t.panels[q]).ltLow = fall ∧
        (t.panels[q]).frames.length = rest.length) ∧
      (f.fire = true → ∃ t g, exec (.selectFrameLatch q ec) s = .next t ∧
        t.out = .frame q true f.codes true (hd.frameLines q f.codes true) :: s.out ∧ (t.panels[q]).ltLow = fall ∧
        (t.panels[q]).frames.length = rest.length + 1 ∧ (t.panels[q]).frames.getLast? = some g ∧ g.fire = false ∧
        g.head = f.head ∧ g.seq = f.seq ∧ g.col = f.col ∧ g.codes.length = hd.slots q ∧
        (∀ k ∈ s.frameDues hd q f, (t.tiles[k]).trowel.due = (s.tiles[k]).trowel.due.map fun d =>
          { d with latched := true, earliest := max d.earliest (fall + hd.settle) }) ∧
        (∀ k, k ∉ s.frameDues hd q f → t.tiles[k] = s.tiles[k]))) ∧
    (f.soonest hd q ≤ s.aon.fck → hd.echoMatches q f.onQck f.codes ec = false →
      (f.again = false → s.roomFor hd q f (f.soonest hd q + f.length hd q) = true →
        ∃ t, exec (.selectFrameLatch q ec) s = .next t ∧
          t.out = .frame q f.fire f.codes false (hd.frameLines q f.codes false) :: s.out ∧ t.tiles = s.tiles ∧
          (t.panels[q]).frames = { f with start := f.soonest hd q, again := true } :: rest) ∧
      (f.again = true → f.fire = true → ∃ t, exec (.selectFrameLatch q ec) s = .next t ∧
        (t.panels[q]).echoLasting = satInc (s.panels[q]).echoLasting ∧ (t.panels[q]).frames.length = rest.length ∧
        (∀ k ∈ s.frameDues hd q f, (t.tiles[k]).trowel.due = none)))) ∧
  (∀ (t : TileId) (d : DueFire) (s : State), (s.tiles[t]).trowel.due = some d → d.by_ = .dacs → s.fastOn = true →
    let s' := s.modTrowel t fun w => { w with due := none }
    let i := d.wave.getD (s.tiles[t]).trowel.waveIdx
    let now := s.aon.fck
    (s'.withheld t i now = none → s.mem.errs = [] → exec (.fire t) s = .next (fireNow t i (now, 0) d none s')) ∧
    (s'.withheld t i now = some .overspeed → exec (.fire t) s = .next (s'.modPanel (panelOf t) fun x =>
      { x with overspeed := x.overspeed + 1 })) ∧
    (s'.withheld t i now = some .quiet → exec (.fire t) s = .next s')) ∧
  (∀ (t : TileId) (d : DueFire) (hd : HeadDef) (i : Nat) (s : State), (s.tiles[t]).trowel.due = some d → d.by_ = .column →
    s.fastOn = true → (s.heads[d.head]).hdef = some hd → s.columnWaits hd d = false → d.latched = true →
    s.fireInstant t d = some i →
    let place := s.firePlace d i
    let idx := d.wave.getD (s.tiles[t]).trowel.waveIdx
    (s.aon.fck < place.1 → exec (.fire t) s = .next s) ∧
    (place.1 ≤ s.aon.fck → s.mem.errs = [] → s.cal.waits = [] → (s.heads[d.head]).pass = none →
      (s.modTrowel t fun w => { w with due := none }).withheld t idx place.1 = none →
      ∃ t', exec (.fire t) s = .next t' ∧ .fire t t idx.val place.1 place.2 ∈ t'.out ∧ (t'.tiles[t]).trowel.due = none ∧
        (t'.tiles[t]).trowel.play = .playing ∧ (t'.tiles[t]).trowel.lastFire = some place.1)) ∧
  (∀ (t : TileId) (q : Nat) (d : DueFire) (s : State), (s.tiles[t]).trowel.current = some d →
    (s.tiles[t]).trowel.play = .playing → (s.tiles[t]).trowel.phase ≠ .second → (s.tiles[t]).trowel.cut = false →
    (s.playOver t = false → exec (.waveformEnd t q) s = .next s) ∧
    (s.playOver t = true → d.by_ = .dacs → exec (.waveformEnd t q) s = .next ((playOn t s).modTrowel t fun w =>
      { w with play := .idle, current := none, chopOn := false, cut := false })) ∧
    (∀ (hd : HeadDef) (p : Product), s.playOver t = true → d.by_ = .column → d.listen = none →
      (s.heads[d.head]).hdef = some hd →
      (s.heads[d.head]).products = [p] → p.seq = d.seq → (s.heads[d.head]).pass = none → s.cal.waits = [] →
      (s.panels[panelOf t]).listen.getLsbD 0 = false → ∃ t' p', exec (.waveformEnd t q) s = .next t' ∧
        (t'.heads[d.head]).products = [p'] ∧ p'.fired = p.fired + d.dots ∧ p'.weight = p.weight + d.weight ∧
        p'.dots = p.dots ∧ (t'.tiles[t]).trowel.play = .idle ∧ (t'.tiles[t]).trowel.current = none)) ∧
  (∀ (t : TileId) (s : State), s.fastOn = true → s.trowelMode t = 4 → (s.tiles[t]).trowel.play = .playing →
    (s.tiles[t]).trowel.cut = false →
    (s.aon.fck < (s.tiles[t]).trowel.chopAt → exec (.chopPeriodStart t) s = .next s) ∧
    ((s.tiles[t]).trowel.chopAt ≤ s.aon.fck → (∀ c : Cmp, ((s.tiles[t]).cmp c).latch ≠ 2) →
      ∃ s', exec (.chopPeriodStart t) s = .next s' ∧ s' = { s with tiles := s'.tiles } ∧
        (s'.tiles[t]).trowel = { (s.tiles[t]).trowel with
          chopOn := true, chopAt := (s.tiles[t]).trowel.chopAt + 32 * ((s.tiles[t]).trowel.chop + 1) } ∧
        ((s'.tiles[t]).cmp (s.tiles[t]).trowel.cmCmp).rampAt = some s.aon.run ∧
        (∀ k, k ≠ t → s'.tiles[k] = s.tiles[k])))

/-- R103, R104, R107 to R114, R116, R117, R123: a listen window opens GAP samples after the waveform and closes; its class goes
through the retry rule; SPIT, sweeps and their slots and fires; a phase search, drop by drop and step by step, to the phase of
its passing steps, or to its second run and failure; SET_NOZZLE_STATUS. Rests also on the model's own choices of logs 2, 18,
51, 63, 64 and 68. -/
def Obligations.ListeningAndNozzles : Prop :=
  (∀ (t : TileId) (l : Listen) (hd : HeadDef) (s : State), (s.tiles[t]).trowel.listen = some l →
    (s.heads[l.head]).hdef = some hd → s.fastOn = true → l.openNow = false → l.closed = false →
    (s.tiles[t]).trowel.play = .idle → s.awaitsFrame t l = false →
    let start := max (s.tiles[t]).trowel.listenAt (s.panels[panelOf t]).ltLow
    (s.aon.fck < start → exec (.listenStart t) s = .next s) ∧
    (start ≤ s.aon.fck → s.prelock = false → (s.trowelMode t = 1 ∨ s.trowelMode t = 2) →
      (∀ c : Nat, s.windowOf l.head hd t l start = some (c, false) → exec (.listenStart t) s = .next (s.modTrowel t fun w =>
        { w with
          play := .listening
          listen := some { l with start := s.stamp, opened := start, window := c / 60, openNow := true } })) ∧
      (s.windowOf l.head hd t l start = none → (s.heads[l.head]).products = [] → (s.heads[l.head]).pass = none →
        s.cal.waits = [] → exec (.listenStart t) s = .next ((s.modTrowel t fun w => { w with listen := none }).modPanel
          (panelOf t) fun x => { x with skipped := satInc x.skipped })))) ∧
  (∀ (t : TileId) (l : Listen) (hd : HeadDef) (trace : List (BitVec 14)) (s : State),
    (s.tiles[t]).trowel.listen = some l → (s.heads[l.head]).hdef = some hd → (s.heads[l.head]).pass = none →
    (s.heads[l.head]).products = [] → s.cal.waits = [] → l.openNow = true →
    let close := l.opened + 60 * l.window
    (trace.length = l.window → close ≤ s.aon.fck → exec (.listenWindowClose t trace) s = .next (s.modTrowel t fun w =>
      { w with
        play := .idle, closedAt := close
        listen := some { l with openNow := false, closed := true, closedAt := close, trace } })) ∧
    ((trace.length ≠ l.window ∨ s.aon.fck < close) → exec (.listenWindowClose t trace) s = .next s)) ∧
  (∀ (t : TileId) (l : Listen) (hd : HeadDef) (x : NozzleStat) (s : State), (s.tiles[t]).trowel.listen = some l →
    (s.heads[l.head]).hdef = some hd → (s.heads[l.head]).pass = none → (s.heads[l.head]).products = [] →
    s.cal.waits = [] → l.closed = true → l.closedAt + 1200 ≤ s.aon.fck → s.mem.errs = [] → l.kind = 0 →
    s.classModes l.head l.seq = (false, false) → (s.heads[l.head]).stats[l.nozzle]? = some x → x.status = 0 →
    x.pending = false → x.byHost = false →
    let f := featuresOf l.trace (s.tapScale t) (4 * Word.field (s.panels[panelOf t]).cls1 7 0) (s.tiles[t]).idleLevel
    let c := classOf f (s.baselines l.head l.nozzle) (s.panels[panelOf t]).cls0 (s.panels[panelOf t]).cls1
    ∃ s', exec (.classifyResult t) s = .next s' ∧ (s'.tiles[t]).trowel.listen = none ∧
      (s'.panels[panelOf t]).listened = (s.panels[panelOf t]).listened + 1 ∧
      (s'.heads[l.head]).stats = (s.heads[l.head]).stats.modify l.nozzle (fun y =>
        { y with last := BitVec.ofNat 3 c, pending := decide (c ≠ 0) })) ∧
  (∀ (t : TileId) (l : Listen) (s : State), (s.tiles[t]).trowel.listen = some l → s.aon.fck < l.closedAt + 1200 →
    exec (.classifyResult t) s = .next s) ∧
  (∀ (d : Desc) (hd : HeadDef) (s : State), s.takes 0x49 d (headerFault d 3 .none .unbound [(34, 30)]) →
    let h : HeadId := Fin.ofNat 8 d.target.toNat
    (s.heads[h]).hdef = some hd → rangeFault hd.n (d.u 24 2) (d.u 26 2) = none → d.u 28 2 ≠ 0 → d.u 30 1 ≠ 0 →
    d.u 30 1 < 2 ^ hd.selBits → d.u 31 1 ≤ 1 → 9 ≤ d.u 32 2 → s.belowArmed hd = false →
    ((s.heads[h]).busy = false → s.overGrant = false → exec (.spit d) s = .next ((s.begun 0x49 d).modHead h fun x =>
      { x with pass := some { desc := some d, spit := true, first := d.u 24 2, count := d.u 26 2, fires := d.u 28 2,
                              code := d.u 30 1, listens := d.u 31 1 == 1, period := d.u 32 2, inclOut := true,
                              left := (List.range (d.u 26 2)).map (d.u 24 2 + ·) } })) ∧
    ((s.heads[h]).busy = true → exec (.spit d) s = .next (finish 0x49 d .busy 0 0 (s.begun 0x49 d)))) ∧
  (∀ (d : Desc) (hd : HeadDef) (s : State), s.takes 0x52 d (headerFault d 3 .none .unbound (sweepReserved d)) →
    let h : HeadId := Fin.ofNat 8 d.target.toNat
    (s.heads[h]).hdef = some hd → s.belowArmed hd = false → (s.heads[h]).busy = false → s.overGrant = false →
    (d.u 24 1 = 0 → d.u 25 1 ≤ 1 → exec (.listenSweep d) s = .next ((s.begun 0x52 d).modHead h fun x =>
      { x with pass := some { desc := some d, spit := false, first := 0, count := hd.n, fires := 1,
                              code := 2 ^ hd.selBits - 1, listens := true, period := 0, inclOut := d.u 25 1 == 1,
                              left := List.range hd.n } })) ∧
    (d.u 24 1 = 1 → searchFault d = none → exec (.listenSweep d) s = .next ((s.begun 0x52 d).modHead h fun x =>
      { x with search := some {
          desc := some d, chargeTile := Fin.ofNat 512 (d.u 28 2), detectTile := Fin.ofNat 512 (d.u 30 2), steps := d.u 32 1
          drops := d.u 34 2, hitsMin := d.u 36 2, flight := d.u 38 2, span := d.u 40 2, every := d.u 42 2 } }))) ∧
  (∀ (h : HeadId) (hd : HeadDef) (p : Pass) (s : State), (s.heads[h]).hdef = some hd → (s.heads[h]).pass = some p →
    s.gap h hd = true → (s.heads[h]).products = [] → s.cal.waits = [] →
    (p.spit = true → p.left ≠ [] → s.periodOver hd p.period = true → p.fired + 1 < p.fires →
      ∃ t, exec (.spitFire h) s = .next t ∧ (t.heads[h]).pass = some { p with fired := p.fired + 1 } ∧
        (∀ q : PanelId, q ∈ hd.portList → (t.panels[q]).frames.map (fun f => (f.fire, f.head, f.seq)) =
          [(true, h, 0xFFFFFFFF#32)])) ∧
    (p.spit = false → p.again = [] → p.inclOut = true → p.own = false →
      let picks := (hd.firsts p.left).map (·.2)
      let left := p.left.filter fun n => !picks.contains n
      left ≠ [] → ∃ t, exec (.spitListenSlot h) s = .next t ∧ (t.heads[h]).pass = some { p with left } ∧
        (∀ q : PanelId, q ∈ hd.portList → (t.panels[q]).frames.map (fun f => (f.fire, f.head, f.seq)) =
          [(true, h, 0xFFFFFFFF#32)]))) ∧
  (∀ (h : HeadId) (hd : HeadDef) (y : PhaseSearch) (nozzles : List Nat) (code : Nat) (s : State),
    (s.heads[h]).hdef = some hd → (s.heads[h]).search = some y → s.fastOn = true → s.pwr.mode.up = true →
    let now := s.aon.fck
    let put := fun y : PhaseSearch => s.modHead h fun x => { x with search := some y }
    (y.dropsLeft = 0 → y.desc = none → now < y.nextAt → exec (.phaseTrackSearch h nozzles code) s = .next s) ∧
    (y.dropsLeft = 0 → y.desc.isSome = true → exec (.phaseTrackSearch h nozzles code) s = .next (put { y with
      step := 0, dropsLeft := y.drops, hits := List.replicate y.steps 0, charged := none, hit := false, again := false })) ∧
    (∀ c : Nat, y.dropsLeft ≠ 0 → y.charged = some c →
      (now < c + usFck (y.flight + y.span) → exec (.phaseTrackSearch h nozzles code) s = .next s) ∧
      (c + usFck (y.flight + y.span) ≤ now →
        let hits := if y.hit = true then y.hits.modify y.step (· + 1) else y.hits
        (1 < y.dropsLeft → exec (.phaseTrackSearch h nozzles code) s = .next (put { y with
          hits, charged := none, hit := false, dropsLeft := y.dropsLeft - 1 })) ∧
        (y.dropsLeft = 1 → y.step + 1 < y.steps → y.drops ≠ 0 → exec (.phaseTrackSearch h nozzles code) s = .next (put { y with
          hits, charged := none, hit := false, step := y.step + 1, dropsLeft := y.drops })) ∧
        (y.dropsLeft = 1 → y.steps = y.step + 1 → y.desc = none → y.every ≠ 0 →
          let past := { y with hits, charged := none, hit := false, step := y.steps, dropsLeft := 0 }
          (∀ v n : Nat, y.again = false → (s.heads[h]).armed.isSome = true → s.phaseOf hd past hits = some (v, n) →
            exec (.phaseTrackSearch h nozzles code) s = .next (s.modHead h fun x => { x with
              phaseWait := some (y.chargeTile, (v : Int)), search := some (past.rest now) })) ∧
          (y.again = false → s.phaseOf hd past hits = none → exec (.phaseTrackSearch h nozzles code) s = .next (put { past with
            step := 0, dropsLeft := y.drops, hits := List.replicate y.steps 0, again := true })) ∧
          (y.again = true → s.phaseOf hd past hits = none → ∃ t, exec (.phaseTrackSearch h nozzles code) s = .next t ∧
            t.ev.status.getLsbD 7 = true ∧ (t.heads[h]).search = some (past.rest now) ∧
            (t.heads[h]).phaseWait = (s.heads[h]).phaseWait)))) ∧
    (y.dropsLeft ≠ 0 → y.charged = none → s.gap h hd = true → y.chargeTile ∈ hd.tiles →
      ∃ t, exec (.phaseTrackSearch h nozzles code) s = .next t ∧ t.heads = s.heads ∧
        (∀ q : PanelId, q ∈ hd.portList → (t.panels[q]).frames.map (fun f => (f.fire, f.head, f.seq)) =
          [(true, h, 0xFFFFFFFF#32)]))) ∧
  (∀ (d : Desc) (hd : HeadDef) (s : State), s.takes 0x50 d (headerFault d 3 .none .unbound [(30, 34)]) → d.u 29 1 ≤ 1 →
    let h : HeadId := Fin.ofNat 8 d.target.toNat
    (s.heads[h]).hdef = some hd → rangeFault hd.n (d.u 24 2) (d.u 26 2) = none → (d.u 28 1 < 2 ∨ d.u 28 1 = 3) →
    ∃ t, exec (.setNozzleStatus d) s = .next t ∧ t.heads = (s.modHead h (modStats (d.u 24 2) (d.u 26 2) fun y =>
      { y with status := BitVec.ofNat 2 (d.u 28 1), pending := false, byHost := true
               transients := if d.u 29 1 = 1 then 0 else y.transients })).heads ∧ t.tiles = s.tiles ∧ t.jobs = s.jobs)

/-- R113: READ_NOZZLE_MAP copies the entries of FIRST to FIRST + COUNT - 1, as they stand, into the host buffer, whose
length must be 2 * COUNT; a head that is not defined completes with STATE. -/
def Obligations.NozzleMapCopied : Prop :=
  ∀ (d : Desc) (s : State), s.takes 0x51 d (headerFault d 3 .buffer .unbound [(28, 36)]) →
    let h : HeadId := Fin.ofNat 8 d.target.toNat
    ((s.heads[h]).hdef = none → exec (.readNozzleMap d) s = .next (finish 0x51 d .state 0 0 (s.begun 0x51 d))) ∧
    (∀ hd : HeadDef, (s.heads[h]).hdef = some hd →
      (∀ off : Nat, rangeFault hd.n (d.u 24 2) (d.u 26 2) = some off →
        exec (.readNozzleMap d) s = .next (finish 0x51 d .badField off 0 (s.begun 0x51 d))) ∧
      (rangeFault hd.n (d.u 24 2) (d.u 26 2) = none → d.len ≠ 2 * d.u 26 2 →
        exec (.readNozzleMap d) s = .next (finish 0x51 d .badField 16 0 (s.begun 0x51 d))) ∧
      (rangeFault hd.n (d.u 24 2) (d.u 26 2) = none → d.len = 2 * d.u 26 2 → s.linkUp = true → d.wr = .clean →
        exec (.readNozzleMap d) s = .next (finish 0x51 d .ok 0 0 ((s.begun 0x51 d).hostWrite d.buffer.toNat
          (((withIndex (s.heads[h]).stats).map fun p => statEntry s h p.1 p.2).drop (d.u 24 2)
            |>.take (d.u 26 2)).flatten))))

/-! ### Engine words -/

/-- R182, R184, R185: the decoder reads back every word that the encoder makes, whatever the operands, and every word the
decoder reads is the word of the instruction it reads: no bit is dropped and no two instructions share a word. -/
def Obligations.EngineWordsRoundTrip : Prop :=
  (∀ (i : Instr) (t : TileId) (w : Word), encodeEngine i = some (t, w) → decodeEngine t w = some i) ∧
  (∀ (i : Instr) (t : TileId) (w : Word), decodeEngine t w = some i → encodeEngine i = some (t, w))

/-! ### Calibration and BIST -/

/-- R342 to R344, R349 to R357, R360: CALIBRATE takes its units or, with none to measure, completes; a measurement that
passes joins the pending set, one that fails twice leaves it; sets are read and written; APPLY_CAL makes the pending
set live or discards it; RUN_BIST and its slices. Rests also on the model's own choices of logs 2, 36 and 47. -/
def Obligations.CalibrationAndBist : Prop :=
  (∀ (d : Desc) (s : State), s.takes 0x60 d ((headerFault d (if d.u 25 1 == 1 then 3 else 0) .buffer .unbound []).or
      ((if 1 < d.u 32 1 then some 32 else none).or (reservedFault d [(33, 31)]))) →
    let h : HeadId := Fin.ofNat 8 d.target.toNat
    let hd := (s.heads[h]).hdef
    let us := calUnits hd d
    let skip := fun u => s.calSkips h (d.u 32 1 == 1) u
    calFault ((hd.map HeadDef.n).getD 8192) s.hostFits d = none → d.u 30 1 = 0 → s.pwr.mode.up = true →
    (∀ t ∈ calTiles hd d, (s.pstate (panelOf t)).live = true) → s.alloc ≤ s.pwr.grant.toNat →
    (d.u 25 1 = 1 → hd.isSome = true ∧ (s.heads[h]).pass = none) →
    (s.cal.run.isSome = true → exec (.calibrate d) s = .next (finish 0x60 d .busy 0 0 (s.begun 0x60 d))) ∧
    (s.cal.run = none → (us.filter fun u => !skip u) ≠ [] →
      let r : CalRun := { desc := d, head := h, store := false, left := us.filter fun u => !skip u,
                          skipped := (us.filter skip).length }
      exec (.calibrate d) s = .next { s.begun 0x60 d with cal := { s.cal with run := some r } }) ∧
    (s.cal.run = none → (us.filter fun u => !skip u) = [] → s.hostFits = true → d.len = 0 → exec (.calibrate d) s =
      .next (finish 0x60 d .ok 0 ((us.filter skip).length % 65536 * 2 ^ 32) (s.begun 0x60 d)))) ∧
  (∀ (first again : List CalFit) (r : CalRun) (u v : Nat × Nat) (rest : List (Nat × Nat)) (s : State),
    s.cal.run = some r → r.left = u :: v :: rest → s.calRuns r u = true → s.hostFits = false →
    fitsGroup r.head u first = true →
    (first.all fitPasses = true → r.store = false → exec (.calibrationMeasurement first again) s =
      .next { s with cal := { s.cal with
        run := some { r with left := v :: rest, accepted := r.accepted + 1, good := r.good ++ first }
        pending := calMerge (first.map fitEntry) s.cal.pending
        marks := (first.map fitEntry).map CalEntry.key ++
          s.cal.marks.filter fun k => !((first.map fitEntry).map CalEntry.key).contains k } }) ∧
    (first.all fitPasses = false → fitsGroup r.head u again = true → again.all fitPasses = false →
      ∃ t, exec (.calibrationMeasurement first again) s = .next t ∧
        t.cal = { s.cal with run := some { r with left := v :: rest, kept := r.kept + 1 } } ∧
        t.ledger.seq = nextSeq s.ledger.seq ∧ t.tiles = s.tiles)) ∧
  (∀ (d : Desc) (s : State), s.takes 0x61 d (headerFault d 0 .buffer .unbound [(30, 34)]) →
    (d.u 24 1 = 5 ∨ d.u 24 1 = 6) → s.linkUp = true → d.wr = .clean →
    let hits := (s.calSet (d.u 24 1)).filter fun e => (d.u 25 1 == 0 || e.code == d.u 25 1) &&
      decide (d.u 26 2 ≤ e.unit) && (d.u 28 2 == 0 || decide (e.unit < d.u 26 2 + d.u 28 2))
    exec (.readCalSet d) s = .next (finish 0x61 d .ok 0 ((hits.take (d.len / 8)).length + hits.length * 2 ^ 32)
      ((s.begun 0x61 d).hostWrite d.buffer.toNat ((hits.take (d.len / 8)).flatMap CalEntry.bytes)))) ∧
  (∀ (d : Desc) (s : State), s.takes 0x62 d (headerFault d 0 .buffer .unbound [(30, 34)]) → (d.u 24 1 = 5 ∨ d.u 24 1 = 6) →
    d.u 25 1 = 0 → d.u 26 2 = 0 → d.u 28 2 = 0 → d.len % 8 = 0 → d.len < 2 ^ 20 → s.linkUp = true → d.rd = .clean →
    let es := calEntries (d.len / 8) (s.hostMem.bytes d.buffer.toNat d.len)
    es.all (s.calEntryOk false) = true →
    exec (.writeCalSet d) s = .next (finish 0x62 d .ok 0 0 (addPending true es (s.begun 0x62 d)))) ∧
  (∀ (d : Desc) (s : State), s.takes 0x63 d (headerFault d 0 .none .bindable [(25, 39)]) → d.bound = false →
    s.cal.waits = [] →
    (d.u 24 1 = 0 → (s.calChanges 0).all s.changeDue = true → ∃ t, exec (.applyCal d) s = .next t ∧
      t.cal.live = ((s.calChanges 0).foldl (fun u c => applyChange c u) s).cal.live ∧ t.cal.pending = [] ∧
      t.cal.waits = [] ∧ t.tiles = s.tiles ∧ t.sec = s.sec) ∧
    (d.u 24 1 = 1 → ∃ t, exec (.applyCal d) s = .next t ∧ t.cal.live = s.cal.live ∧ t.cal.pending = [] ∧
      t.cal.override = s.cal.override)) ∧
  (∀ (d : Desc) (s : State), d.u 24 1 ≤ 1 → s.takes 0x80 d (headerFault d 9 .none .unbound [(25, 3), (40, 24)]) →
    let t : TileId := Fin.ofNat 512 d.target.toNat
    s.sec.lifecycle ≠ .closed → (d.u 24 1 = 1 → d.u 28 8 ≠ 0 ∧ 1 ≤ d.u 36 4 ∧ d.u 36 4 ≤ 2 ^ 24) →
    ((s.tiles[t]).fenced = true → (∀ r ∈ s.bist, r.tile ≠ t) → exec (.runBist d) s =
      .next { s.begun 0x80 d with bist := s.bist ++ [{ desc := some d, tile := t, mode := d.u 24 1,
                                                       slices := if d.u 24 1 = 0 then 48 else (d.u 36 4 + 4095) / 4096 }] }) ∧
    ((s.tiles[t]).fenced = false → exec (.runBist d) s = .next (finish 0x80 d .state 0 0 (s.begun 0x80 d)))) ∧
  (∀ (t : TileId) (misr : BitVec 64) (r : BistRun) (d : Desc) (s : State), s.bist = [r] → r.tile = t → r.mode = 0 →
    r.desc = some d → r.readmit = false → r.again = false → s.tileLive t = true → s.bistGap t = true →
    (r.done + 1 < r.slices → exec (.bistSlice t .clean misr) s = .next { s with bist := [{ r with done := r.done + 1 }] }) ∧
    (r.slices ≤ r.done + 1 → exec (.bistSlice t .clean misr) s = .next
      (finish 0x80 d .ok 0 ((r.done + 1) % 65536 + 0xFF * 2 ^ 16 + misr.toNat % 2 ^ 32 * 2 ^ 32)
        (({ s with bist := [] } : State).modTile t fun x => { x with bistPass := true }))) ∧
    (∃ s', exec (.bistSlice t .failed misr) s = .next s' ∧ (s'.tiles[t]).retired = true ∧ s'.bist = []))

/-! ### Trowels -/

/-- R96 to R99: a trip switches the trowel off for the retry, one in the second attempt for good; it waits once its idle level is
reached; a trowel whose TRIP was cleared is enabled again; fold-back begins above 115 degC and ends below 105; takeover changes
hands at a fire-period boundary. Rests also on the model's own choices of logs 2 and 52. -/
def Obligations.Trowels : Prop :=
  ∀ (t : TileId) (s : State), let w := (s.tiles[t]).trowel
    let foldMerges := s.ledger.entries.any fun e => e.merges .info 0x14 (srcTile t) s.aon.ticks
    (s.trowelMode t ≠ 0 → s.trowelMode t ≠ 3 → w.off = false → w.fold = false → s.cal.waits = [] →
      (∀ d : DueFire, w.current = some d → (s.heads[d.head]).pass = none) →
      ((w.phase ≠ .second ∨ w.play ≠ .playing) → ∃ s', exec (.trowelTrip t) s = .next s' ∧
        s'.tiles[t] = { s.tiles[t] with trowel := { w with
          play := .idle, current := none, listen := none, chopOn := false, phase := .returning, trip := false } } ∧
        s'.ledger = s.ledger ∧ (∀ k, k ≠ t → s'.tiles[k] = s.tiles[k])) ∧
      (w.phase = .second → w.play = .playing → ∃ s', exec (.trowelTrip t) s = .next s' ∧ (s'.tiles[t]).trowel.trip = true ∧
        (s'.tiles[t]).trowel.play = .idle ∧ (s'.tiles[t]).trowel.current = none ∧ (s'.tiles[t]).trowel.phase = .none ∧
        (s'.tiles[t]).degraded = true ∧ (∀ k, k ≠ t → s'.tiles[k] = s.tiles[k]))) ∧
    ((w.fold = true ∨ w.off = true ∨ s.trowelMode t = 0 ∨ s.trowelMode t = 3) → exec (.trowelTrip t) s = .next s) ∧
    (w.phase = .returning →
      exec (.trowelIdleReached t) s = .next (s.modTrowel t fun w => { w with phase := .awaiting })) ∧
    (w.phase = .recovering →
      exec (.trowelIdleReached t) s = .next (s.modTrowel t fun w => { w with phase := .none })) ∧
    (w.phase ≠ .returning → w.phase ≠ .recovering →
      (w.reenable = true → s.fastOn = true → s.armedTile t = false → exec (.trowelIdleReached t) s =
        .next (s.modTrowel t fun w => { w with
          reenable := false, phase := .recovering, takeover := if w.taken = true then some false else none })) ∧
      (w.reenable = false → exec (.trowelIdleReached t) s = .next s)) ∧
    (∀ c : Int,
      (115 < c → s.tileLive t = true → w.fold = false → ∃ s', exec (.foldBackEntry t c) s = .next s' ∧
        (s'.tiles[t]).trowel = { w with fold := true } ∧ s'.heads = s.heads ∧
        (foldMerges = false → s'.ledger.seq = nextSeq s.ledger.seq)) ∧
      (c ≤ 115 → exec (.foldBackEntry t c) s = .next s) ∧
      (c < 105 → w.fold = true → ∃ s', exec (.foldBackExit t c) s = .next s' ∧
        (s'.tiles[t]).trowel = { w with fold := false } ∧ s'.heads = s.heads ∧
        (foldMerges = false → s'.ledger.seq = nextSeq s.ledger.seq)) ∧
      (105 ≤ c → exec (.foldBackExit t c) s = .next s)) ∧
    (s.tileBoundary t = true → w.takeover = some true → w.taken = false → ∃ s',
      exec (.buddyTakeoverStart t) s = .next s' ∧ (s'.tiles[t]).trowel = { w with taken := true, takeover := none } ∧
      (s'.tiles[partner t]).trowel = { (s.tiles[partner t]).trowel with buddyAct := true, evenFire := true } ∧
      (∀ k, k ≠ t → k ≠ partner t → s'.tiles[k] = s.tiles[k])) ∧
    (s.tileBoundary t = true → w.takeover = some false → w.taken = true → ∃ s',
      exec (.buddyTakeoverEnd t) s = .next s' ∧ (s'.tiles[t]).trowel = { w with taken := false, takeover := none } ∧
      (s'.tiles[partner t]).trowel = { (s.tiles[partner t]).trowel with buddyAct := false } ∧
      (∀ k, k ≠ t → k ≠ partner t → s'.tiles[k] = s.tiles[k])) ∧
    (s.tileBoundary t = false →
      exec (.buddyTakeoverStart t) s = .next s ∧ exec (.buddyTakeoverEnd t) s = .next s)

/-! ### Comparators, pins, timers -/

/-- R154, R161, R165 to R167: an input inside the band changes nothing, one beyond it moves the level, which enters the width
filter; a change accepted is an event of the chosen kind, with LAT, EVM and the rate limit, or is counted while MIN_GAP
runs; the gap ends; MAXACT makes the comparator STUCK; the watch after it ends. No crossbar sink takes the comparator
here. Rests also on the model's own choices of logs 2, 19, 53 and 74. -/
def Obligations.Comparators : Prop :=
  ∀ (t : TileId) (c : Cmp) (s : State), let x := (s.tiles[t]).cmp c
    let prof := s.cmpProfile t c
    (∀ (uv : Int) (past : List Int), let s1 := bqRun s.aon.fck (s.cmpPoint t c) t past s
      s.aon.up = true → x.powered = true → x.unres = false → s.tileLive t = true → s.fastOn = true →
      (s.tiles[t]).cmpA.win = false →
      x.lvl = s.cmpLvl t c →
      (∀ c' : Cmp, c' ≠ c → let y := (s.tiles[t]).cmp c'
        y.unres = false ∧ y.lvl = s.cmpLvl t c' ∧ s.currentCmp t c' = false ∧
          ∀ e : Int, y.seen = some e → s1.cmpSide t c' e = some y.raw) →
      (s1.cmpSide t c uv = none → exec (.comparatorEdge t c ⟨uv, past⟩) s = .next (s1.modCmp t c fun x => { x with seen := some uv })) ∧
      (s1.cmpSide t c uv = some x.raw → s.currentCmp t c = false →
        exec (.comparatorEdge t c ⟨uv, past⟩) s = .next (s1.modCmp t c fun x => { x with seen := some uv })) ∧
      (s1.cmpSide t c uv = some true → x.raw = true → s.currentCmp t c = true → exec (.comparatorEdge t c ⟨uv, past⟩) s = .next
        ((s1.modCmp t c fun x => { x with seen := some uv }).modTrowel t fun w => { w with chopOn := false })) ∧
      (∀ b : Bool, s1.cmpSide t c uv = some b → b ≠ x.raw → s.currentCmp t c = false → x.stuckPhase ≠ .first →
        (x.acc ≠ (b != x.pol) → s.minwFck prof ≠ 0 → exec (.comparatorEdge t c ⟨uv, past⟩) s = .next (s1.modCmp t c fun x => { x with
          seen := some uv, raw := b, lvl := (b != x.pol), activeSince := if b != x.pol then some s.aon.ticks else none
          cand := some (b != x.pol, s.aon.fck + s.minwFck prof) })) ∧
        (x.acc = (b != x.pol) → x.woke = false → exec (.comparatorEdge t c ⟨uv, past⟩) s = .next (s1.modCmp t c fun x => { x with
          seen := some uv, raw := b, lvl := (b != x.pol), cand := none
          activeSince := if b != x.pol then some s.aon.ticks else none })))) ∧
    (∀ (lvl : Bool) (due : Nat), x.cand = some (lvl, due) → s.fastOn = true → due ≤ s.aon.fck →
      (∀ g : Nat, x.gapUntil = some g → s.aon.fck < g → x.edgeHits lvl = true →
        exec (.comparatorMinwAccept t c) s = .next ((s.modCmp t c fun x => { x with acc := lvl, cand := none, woke := false }).modPanel
          (panelOf t) fun p => { p with overrun := p.overrun + 1 })) ∧
      (x.gapUntil = none → x.filt ≠ lvl → x.stuck = false → s.anyArmed = false → s.mem.errs = [] → s.unrouted t c = true →
        ∃ s', exec (.comparatorMinwAccept t c) s = .next s' ∧ ((s'.tiles[t]).cmp c).filt = lvl ∧
          ((s'.tiles[t]).cmp c).acc = lvl ∧ ((s'.tiles[t]).cmp c).cand = none ∧
          (x.edgeHits lvl = true → s.cmpMute t c = false → ((s'.tiles[t]).cmp c).lat = true ∧
            ((s'.tiles[t]).eng).evm.getLsbD (3 + cmpNum c) = true ∧
            ((s'.tiles[t]).cmp c).gapUntil = (if profGap prof = 0 then none else some (s.aon.fck + 64 * profGap prof))) ∧
          (x.edgeHits lvl = false → ((s'.tiles[t]).cmp c).lat = x.lat ∧ s'.msix = s.msix) ∧
          (∀ k, k ≠ t → s'.tiles[k] = s.tiles[k]))) ∧
    (∀ g : Nat, x.gapUntil = some g → g ≤ s.aon.fck → s.fastOn = true →
      (x.filt = x.acc → exec (.comparatorMinGapEnd t c) s = .next (s.modCmp t c fun x => { x with gapUntil := none })) ∧
      (x.filt ≠ x.acc → s.cmpMute t c = false → s.anyArmed = false → s.mem.errs = [] → s.unrouted t c = true →
        ∃ s', exec (.comparatorMinGapEnd t c) s = .next s' ∧ ((s'.tiles[t]).cmp c).filt = x.acc ∧
          ((s'.tiles[t]).cmp c).lat = true ∧
          ((s'.tiles[t]).cmp c).gapUntil = (if profGap prof = 0 then none else some (s.aon.fck + 64 * profGap prof)) ∧
          (∀ k, k ≠ t → s'.tiles[k] = s.tiles[k]))) ∧
    (∀ a : Nat, profMax prof ≠ 0 → x.lvl = true → x.stuck = false → x.activeSince = some a →
      a + 16 * profMax prof < s.aon.ticks → x.stuckPhase = .none → s.unrouted t c = true →
      exec (.comparatorMaxactExpiry t c) s = .next (s.modCmp t c fun x => { x with
        stuck := true, stuckPhase := .first, cfg := x.cfg &&& 0xFFFFFFEF#32 })) ∧
    (∀ since : Nat, x.stuckPhase = .watched since → since + 1024 ≤ s.aon.ticks →
      ∃ s', exec (.stuckResumeWindowEnd (.cmp t c)) s = .next s' ∧ ((s'.tiles[t]).cmp c).stuckPhase = .none ∧
        s'.ledger.seq = nextSeq s.ledger.seq ∧ s'.panels = s.panels ∧ (∀ k, k ≠ t → s'.tiles[k] = s.tiles[k]))

/-- R361 to R370: a pad's edge enters the width filter; a change accepted updates the held level and the interrupt status,
or counts as an overrun while MIN_GAP runs; STUCK and its end; the end of a function switch; a timer's output. The pin
and the timer feed no event line here. Rests also on the model's own choices of logs 2, 21 and 53. -/
def Obligations.PinsAndTimers : Prop :=
  (∀ (p : PinId) (s : State), let x := s.gpio.pins[p]
    (∀ b : Bool, s.aon.up = true → s.pinDrive p = none → x.sync ≠ b → x.filt ≠ b → x.cand = none → s.fastOn = true →
      s.minwFck (s.pinProfile p) ≠ 0 → exec (.pinEdge p (some b)) s = .next (s.modPin p fun x => { x with
        pad := some b, sync := b, kept := b, latch := some (s.aonTime, s.counts)
        cand := some (b, s.aon.fck + s.minwFck (s.pinProfile p)) })) ∧
    (∀ l : Option Bool, s.aon.up = false → exec (.pinEdge p l) s = .next (s.modPin p fun x => { x with pad := l })) ∧
    (∀ (lvl : Bool) (due : Nat), x.cand = some (lvl, due) → s.fastOn = true → due ≤ s.aon.fck → x.stuck = false →
      x.stuckPhase = .none → s.anyArmed = false →
      (∀ g : Nat, x.gapUntil = some g → s.aon.fck < g → ∃ t, exec (.pinMinwAccept p) s = .next t ∧
        t.gpio.overrun = s.gpio.overrun + 1 ∧ (t.gpio.pins[p]).filt = lvl ∧ (t.gpio.pins[p]).held = x.held ∧
        t.tiles = s.tiles) ∧
      (x.gapUntil = none → x.held ≠ lvl → (∀ (q : PanelId) (k : Fin 32), (s.panels[q]).pinLine[k] ≠ p.val) →
        ∃ t, exec (.pinMinwAccept p) s = .next t ∧ (t.gpio.pins[p]).filt = lvl ∧ (t.gpio.pins[p]).held = lvl ∧
          (t.gpio.pins[p]).cand = none ∧ (t.gpio.pins[p]).ist = (x.ist || (x.ien && x.hits lvl)) ∧
          (∀ k, k ≠ p → t.gpio.pins[k] = s.gpio.pins[k]) ∧ t.tiles = s.tiles ∧ t.panels = s.panels)) ∧
    (∀ g : Nat, x.gapUntil = some g → g ≤ s.aon.fck → s.filterRuns p = true → x.held = x.filt →
      exec (.pinMinGapEnd p) s = .next (s.modPin p fun x => { x with gapUntil := none })) ∧
    (∀ a : Nat, profMax (s.pinProfile p) ≠ 0 → x.stuck = false → x.activeSince = some a → s.filterRuns p = true →
      a + 16 * profMax (s.pinProfile p) < s.aon.ticks → x.stuckPhase = .none →
      (∀ (q : PanelId) (k : Fin 32), (s.panels[q]).pinLine[k] ≠ p.val) →
      exec (.pinMaxactExpiry p) s = .next (s.modPin p fun x => { x with
        stuck := true, stuckPhase := .first, wake := x.wake && x.locked })) ∧
    (∀ since : Nat, x.stuckPhase = .watched since → since + 1024 ≤ s.aon.ticks →
      ∃ t, exec (.stuckResumeWindowEnd (.pin p)) s = .next t ∧ (t.gpio.pins[p]).stuckPhase = .none ∧
        t.ledger.seq = nextSeq s.ledger.seq ∧ t.tiles = s.tiles) ∧
    (s.holdOver p = false → exec (.pinFunctionHoldEnd p) s = .next s) ∧
    (s.holdOver p = true → let s' := s.modPin p fun x => { x with hold := false }
      s'.padLevel p = some x.sync →
        exec (.pinFunctionHoldEnd p) s = .next (s'.modPin p fun y => { y with kept := x.sync }))) ∧
  (∀ (k : Fin 16) (s : State), let x := s.gpio.timers[k]
    (s.fastOn = true → x.placed = true → x.left = 0 → (∀ (q : PanelId) (i : Fin 32), (s.panels[q]).pinLine[i] ≠ 129 + k.val) →
      (∀ p : PinId, (s.gpio.pins[p]).oselA ≠ 0x10 + k.val ∧ (s.gpio.pins[p]).oselB ≠ 0x10 + k.val) →
      (x.output = true → x.period.toNat ≤ x.high.toNat → x.high ≠ 0 → exec (.timerChannelExpiry k) s =
        .next (s.modTimer k fun x => { x with output := true, left := x.high.toNat })) ∧
      (x.output = true → x.high.toNat < x.period.toNat → exec (.timerChannelExpiry k) s =
        .next (s.modTimer k fun x => { x with output := false, left := x.period.toNat - x.high.toNat })) ∧
      (x.output = false → x.high ≠ 0 → exec (.timerChannelExpiry k) s =
        .next (s.modTimer k fun x => { x with output := true, left := x.high.toNat })) ∧
      (x.output = false → x.high = 0 → exec (.timerChannelExpiry k) s =
        .next (s.modTimer k fun x => { x with output := false, left := x.period.toNat }))) ∧
    (s.fastOn = false ∨ x.left ≠ 0 → exec (.timerChannelExpiry k) s = .next s))

/-! ### Converters, sync, slices, function modes -/

/-- R131, R132, R141, R143, R148 to R151, R225, R302: a conversion's word; what a code is; sync edges and the commands
that schedule them; a record's close; an edge of a slice; SET_FUNCTION_MODE. Rests also on the model's own choices of
logs 2, 18, 19, 34, 35, 74 and 75. -/
def Obligations.Converters : Prop :=
  (∀ (t : TileId) (uv : Int) (past : List Int) (s : State), let x := s.tiles[t]
    (s.conversionAt t = none → exec (.adcConversion t ⟨uv, past⟩) s = .next s) ∧
    (∀ a : Nat, s.conversionAt t = some a → s.joinedOdd t = false →
      let s1 := match muxNode x.mux with
        | some n => bqRun a n t past s
        | none => s
      let c := s1.adcCode t (s1.muxVolt t t uv)
      (s.sarListens t = true → ∃ s', exec (.adcConversion t ⟨uv, past⟩) s = .next s' ∧ (s'.tiles[t]).eng = x.eng ∧
        (s'.tiles[t]).buffer = x.buffer ∧ (s'.tiles[t]).sar.seq = x.sar.seq) ∧
      (s.sarListens t = false → x.adcRoute = 0 → x.adcFifoOn = true → x.placed = false → x.eng.adcFifo.length < 32 →
        ∃ s' w, exec (.adcConversion t ⟨uv, past⟩) s = .next s' ∧
          (s'.tiles[t]).eng.adcFifo = x.eng.adcFifo ++ [w] ∧ Word.field w 13 0 = c.1.toNat ∧ w.getLsbD 18 = c.2 ∧
          Word.field w 31 24 = x.sar.seq.toNat ∧ w.getLsbD 21 = x.sar.missed ∧ w.getLsbD 19 = false ∧
          w.getLsbD 17 = (s.prelock || decide (a < s.clk.fckAt)) ∧ w.getLsbD 16 = (!(s.panels[panelOf t]).refOk) ∧
          (s'.tiles[t]).sar.seq = x.sar.seq + 1 ∧ (s'.tiles[t]).sar.total = x.sar.total ∧
          (s'.tiles[t]).sar.lastStart = some a ∧
          ((x.ilv && t.val % 2 == 0 && !x.sar.solo) = false → x.sar.finish = false →
            (s'.tiles[t]).sar.nextAt = if x.adcTrigOn then none else some (a + 60 * (x.adcDiv + 1))) ∧
          (∀ k, k ≠ t → s'.tiles[k] = s.tiles[k])))) ∧
  (∀ (t : TileId) (v : Int) (q : Nat) (s : State), let r : Int := s.vref (panelOf t) * pv
    0 < r → s.skim0 0x01 0 t.val = 0 → s.skim0 0x02 0 t.val = 0 →
    (q ≤ 16383 → q * r ≤ v * 16384 → v * 16384 < (q + 1) * r → s.adcCode t v = (BitVec.ofNat 14 q, false)) ∧
    (v < 0 → s.adcCode t v = (0#14, true)) ∧ (r ≤ v → s.adcCode t v = (16383#14, true))) ∧
  (∀ (t : TileId) (r : OpenRec) (s : State), (s.tiles[t]).openRec = some r → r.openedAt + 120000 ≤ s.aon.fck →
    ∃ s', exec (.streamRecordClose t) s = .next s' ∧ (s'.tiles[t]).openRec = none ∧ (∀ k, k ≠ t → s'.tiles[k] = s.tiles[k]) ∧
      s'.panels = s.panels ∧ s'.heads = s.heads) ∧
  (∀ (g : Fin 16) (f : Nat) (rest : List (Fin 16 × Nat)) (t o : TileId) (s : State), s.fastOn = true →
    s.lineSyncs = (g, f) :: rest → f ≤ s.aon.fck → s.syncMember t (1#16 <<< g.val) = true → s.feeder t = some o →
    ∃ s', exec (.syncEdge (.pin g)) s = .next s' ∧ s'.lineSyncs = rest ∧ (s'.tiles[o]).sar.seq = 0 ∧
      (s'.tiles[o]).sar.total = 0 ∧ (s'.tiles[o]).openRec = none ∧
      (s'.tiles[o]).sar.nextAt = (if (s.tiles[o]).adcTrigOn then none else some (s.aon.fck + 8)) ∧
      (s'.tiles[t]).decim = { mark := true, t0 := s.timeOf (s.aon.fck + 8) }) ∧
  (∀ (g : Fin 16) (s : State), (∀ l ∈ s.lineSyncs, l.1 = g → s.aon.fck < l.2) → exec (.syncEdge (.pin g)) s = .next s) ∧
  (∀ (k : Fin 4) (x : Sync) (d : Desc) (s : State), s.fastOn = true → s.syncs[k.val]? = some x → x.desc = some d →
    (∀ t : TileId, s.syncMember t x.groups = false) →
    (s.syncRipe x = true → exec (.syncEdge (.scheduled k)) s = .next
      (finish 0x72 d .ok 0 s.aon.sysNow.toNat { s with syncs := s.syncs.eraseIdx k.val })) ∧
    (s.syncRipe x = false → exec (.syncEdge (.scheduled k)) s = .next s)) ∧
  (∀ (d : Desc) (s : State), s.takes 0x72 d (syncHeader d) → d.u 24 2 ≠ 0 →
    (d.u 26 1 = 0 → d.u 27 1 = 0 → exec (.syncDecimators d) s = .next { s.begun 0x72 d with
      syncs := { desc := some d, groups := BitVec.ofNat 16 (d.u 24 2), time := s.aonTime
                 due := some (s.aon.fck + 64) } :: s.syncs }) ∧
    (d.u 26 1 = 1 → d.u 32 8 < s.aonTime.toNat + 32000 →
      exec (.syncDecimators d) s = .next (finish 0x72 d .state 0 0 (s.begun 0x72 d))) ∧
    (d.u 26 1 = 1 → s.aonTime.toNat + 32000 ≤ d.u 32 8 → 4 ≤ s.syncsAhead →
      exec (.syncDecimators d) s = .next (finish 0x72 d .noResource 0 0 (s.begun 0x72 d))) ∧
    (d.u 26 1 = 1 → d.u 27 1 = 0 → s.aonTime.toNat + 32000 ≤ d.u 32 8 → s.syncsAhead < 4 →
      exec (.syncDecimators d) s = .next { s.begun 0x72 d with
        syncs := s.syncs ++ [{ desc := some d, groups := BitVec.ofNat 16 (d.u 24 2), time := BitVec.ofNat 64 (d.u 32 8) }] })) ∧
  (∀ (t : TileId) (out : Fin 64) (level : Bool) (s : State), s.sliceRuns t = true → (s.tiles[t]).teoSrc = 0 →
    (s.tiles[t]).teo = false → (s.tiles[t]).sliceOut.getLsbD out.val ≠ level → s.mem.errs = [] →
    (∀ s1 : State, s1 = sliceStep t s → (s1.tiles[t]).sliceOut.getLsbD out.val = level →
      exec (.fabricOutputEdge t out level) s = .next s1 ∧ (s1.tiles[t]).ffs = (s.sliceEdge t).ffs ∧
        (∀ k, k ≠ t → s1.tiles[k] = s.tiles[k])) ∧
    (((sliceStep t s).tiles[t]).sliceOut.getLsbD out.val ≠ level → exec (.fabricOutputEdge t out level) s = .next s)) ∧
  (∀ (d : Desc) (s : State), s.takes 0x85 d (headerFault d 0 .none .bindable [(25, 1), (28, 36)]) → d.bound = false →
    (∀ f : Nat, f < 8 → (d.u 24 1).testBit f = true → fnField (d.u 26 2) f ≤ 1) →
    ((∃ h : HeadId, (s.heads[h]).armed.isSome = true) →
      exec (.setFunctionMode d) s = .next (finish 0x85 d .state 0 0 (s.begun 0x85 d))) ∧
    (s.anyArmed = false → (∀ p : PanelId, (s.pstate p).live = false) →
      exec (.setFunctionMode d) s = .next (finish 0x85 d .ok 0 (fnNew s.fnMode d).toNat
        (setFnMode (fnNew s.fnMode d) (s.begun 0x85 d)))))

/-! ### The tally bus -/

/-- R380 to R384, R386, R387: what each received frame and each frame of the station's own does; the roll call; silence.
Rests also on the model's own choices of logs 2 and 33. -/
def Obligations.TallyBus : Prop :=
  (∀ (st : BitVec 9) (s : State), s.tallyListens = true → st ≠ s.tally.station → s.aon.wakeCtrl.getLsbD 29 = false →
    s.tally.silent = false →
    let out := (match s.tally.tx with
      | [] => []
      | x :: _ => [Sent.tally x.frame (x.frame.bits s.tally.station)]) ++ .tallyAck :: s.out
    (∀ (no period : BitVec 16) (answers : List Nat), ∃ t, exec (.roll st no period answers) s = .next t ∧
      t.tally.rollNo = no ∧ t.tally.lastPeriod = period ∧ t.tally.nomaster = false ∧ t.tally.masterNo = some st ∧
      t.tally.conflict = (s.tally.conflict || s.tally.master) ∧
      t.tally.master = (s.tally.master && decide (s.tally.station.toNat < st.toNat)) ∧
      t.out = .tallyAnswer (s.tally.station.toNat / 8) (s.tally.station.toNat % 8) :: out ∧ t.tiles = s.tiles) ∧
    (∀ (at48 : BitVec 48) (groups : BitVec 16), let e := nearest48 s.aonTime at48
      ((e - s.aonTime).msb = false → s.syncsAhead < 4 → exec (.sync st at48 groups) s =
        .next { s with out, syncs := s.syncs ++ [{ desc := none, groups, time := e }] }) ∧
      ((e - s.aonTime).msb = false → 4 ≤ s.syncsAhead → exec (.sync st at48 groups) s = .next { s with out }) ∧
      ((e - s.aonTime).msb = true → ∃ t, exec (.sync st at48 groups) s = .next t ∧ t.syncs = s.syncs ∧
        t.ledger.seq = nextSeq s.ledger.seq ∧ t.tally = s.tally)) ∧
    (∀ (reason head : Byte) (concerned : BitVec 16),
      (∀ p : PinId, (s.gpio.pins[p]).oselA ≠ 2 ∧ (s.gpio.pins[p]).oselB ≠ 2) →
      exec (.hold st reason head concerned) s = .next { s with
        out
        tally := { s.tally with hold := true, reason := reason.setWidth 2, holdFrom := concerned.setWidth 9 } }) ∧
    (∀ e : BitVec 16, s.tally.masterNo = some st → s.tally.master = false →
      (e.getLsbD 15 = false → e.setWidth 9 = s.tally.station → s.tally.tx = [] → ∃ t, exec (.absent st [e]) s = .next t ∧
        t.tally.silent = true ∧ t.tiles = s.tiles) ∧
      (e.getLsbD 15 = false → e.setWidth 9 ≠ s.tally.station → s.tally.facing (e.setWidth 9) = none →
        ∃ t, exec (.absent st [e]) s = .next t ∧ (e.setWidth 9).toNat ∈ t.tally.absent ∧ t.tally.silent = false ∧
          t.tally.tx = s.tally.tx)) ∧
    (∀ es : List (BitVec 16), s.tally.masterNo ≠ some st →
      ∃ t, exec (.absent st es) s = .next t ∧ t.tally = s.tally) ∧
    (∀ (dest : BitVec 16) (action head : Byte),
      (st.toNat ∈ s.tally.absent → ∃ t, exec (.stitch st dest action head) s = .next t ∧
        t.tally = { s.tally with ignored := satInc s.tally.ignored } ∧ t.out = out) ∧
      (st.toNat ∉ s.tally.absent → dest.setWidth 9 = s.tally.station → ∀ x : Stitch, s.tally.facing st = some x →
        (s.heads[x.head]).armed = none →
        let ranges := s.tally.ranges.map fun r => if r = some x then some { x with owned := action == 0, change := none } else r
        exec (.stitch st dest action head) s =
          .next { s with out := .tallyAnswer 0 0 :: out, tally := { s.tally with ranges } }) ∧
      (st.toNat ∉ s.tally.absent → dest.setWidth 9 ≠ s.tally.station → s.tally.master = false →
        exec (.stitch st dest action head) s = .next { s with out }))) ∧
  (∀ (st : BitVec 9) (reason head : Byte) (concerned : BitVec 16) (s : State), s.tallyListens = true →
    s.tally.silent = true → st ≠ s.tally.station → s.aon.wakeCtrl.getLsbD 29 = false →
    (∀ p : PinId, (s.gpio.pins[p]).oselA ≠ 2 ∧ (s.gpio.pins[p]).oselB ≠ 2) →
    exec (.hold st reason head concerned) s = .next { s with
      tally := { s.tally with hold := true, reason := reason.setWidth 2, holdFrom := concerned.setWidth 9 } }) ∧
  (∀ s : State, s.tallyListens = true → s.tally.silent = false →
    (∃ t, exec .tallyFrameError s = .next t ∧ t.tally = { s.tally with crcErr := satInc s.tally.crcErr } ∧
      t.out = .tallyFlag :: s.out) ∧
    (∀ (x : TxFrame) (rest : List TxFrame), s.tally.tx = x :: rest →
      (x.failed = false → exec .tallyFrameRetry s = .next { s with
        out := .tally x.frame (x.frame.bits s.tally.station) :: s.out, tally := { s.tally with tx := { x with failed := true } :: rest } }) ∧
      (∀ d : Desc, x.failed = true → x.desc = some d → (∀ dst ac hd, x.frame ≠ .stitch dst ac hd) → ∃ t,
        exec .tallyFrameRetry s = .next t ∧
        t.tally = { s.tally with dropped := satInc s.tally.dropped, tx := rest } ∧ t.tiles = s.tiles ∧
        ((t.cqs[d.queue]).waiting = (s.cqs[d.queue]).waiting.erase d)) ∧
      (x.desc = none → (∀ st gs, x.frame = .sync st gs → ∃ t, exec .tallyFrameAck s = .next t ∧
        t.tally = { s.tally with tx := rest, retry := if x.failed then satInc s.tally.retry else s.tally.retry } ∧
        t.syncs = s.syncs))) ∧
    (∀ answers : List Nat, s.tally.master = true → s.tally.expected = [] → s.tally.absent = [] →
      s.tally.rollDue ≤ s.aon.fck →
      let f : TFrame := .roll s.tally.nextRoll s.tally.period
      let sent : Sent := .tally f (f.bits s.tally.station)
      let answer : Sent := .tallyAnswer (s.tally.station.toNat / 8) (s.tally.station.toNat % 8)
      (∃ t, exec (.tallyRollCall answers .clean) s = .next t ∧ t.tally.nextRoll = s.tally.nextRoll + 1 ∧
        t.tally.rollDue = s.aon.fck + 1200000 * s.tally.period.toNat ∧
        t.tally.answered = s.tally.station.toNat :: answers.filter (fun a => a < 512 && a != s.tally.station.toNat) ∧
        t.tally.expected = t.tally.answered ∧
        t.tally.retry = s.tally.retry ∧ t.out = answer :: sent :: s.out) ∧
      (∃ t, exec (.tallyRollCall answers .second) s = .next t ∧ t.tally.nextRoll = s.tally.nextRoll + 1 ∧
        t.tally.retry = satInc s.tally.retry ∧ t.out = answer :: sent :: sent :: s.out) ∧
      (∃ t, exec (.tallyRollCall answers .failed) s = .next t ∧ t.tally.dropped = satInc s.tally.dropped ∧
        t.tally.nextRoll = s.tally.nextRoll + 1 ∧ t.tally.expected = [] ∧ t.out = sent :: sent :: s.out)) ∧
    (∀ answers sent, s.aon.fck < s.tally.rollDue → exec (.tallyRollCall answers sent) s = .next s) ∧
    (∀ answers sent, s.tally.master = false → exec (.tallyRollCall answers sent) s = .next s) ∧
    (s.tally.master = false → s.tally.lastPeriod ≠ 0 →
      s.tally.rollAt + 3600000 * s.tally.lastPeriod.toNat ≤ s.aon.fck →
      exec .tallyNomasterTimeout s = .next { s with tally := { s.tally with nomaster := true } })) ∧
  (∀ (roll : BitVec 16) (heard : List Nat) (st : Nat) (s : State), st ∉ heard →
    (st ∉ s.tally.missed → judgeStation roll heard st s =
      { s with tally := { s.tally with missed := s.tally.missed ++ [st] } }) ∧
    (st ∈ s.tally.missed → s.tally.facing (BitVec.ofNat 9 st) = none → st ∈ (judgeStation roll heard st s).tally.absent ∧
      (judgeStation roll heard st s).tally.tx = s.tally.tx ++
        [{ frame := .absent [BitVec.ofNat 16 st] }, { frame := .hold 2 0xFF (BitVec.ofNat 16 st) }]))

/-- R385, R388, R389: TALLY_CONFIG sets the station, the master and the stitch ranges, readmits a station and reports; and
TALLY_SEND queues its frame and completes with it. Rests also on the model's own choice of log 33. -/
def Obligations.TallyCommands : Prop :=
  (∀ (d : Desc) (s : State), s.takes 0x90 d (tallyHeader d) → tallyFault d = none → s.tallyState d = false → s.rangeFault d = none →
    (d.u 24 1 = 0 → exec (.tallyConfig d) s = .next (finish 0x90 d .ok 0 0 ({ s.begun 0x90 d with
      tally := { s.tally with station := BitVec.ofNat 9 (d.u 26 2), rate500 := d.u 28 1 == 1 } }))) ∧
    (d.u 24 1 = 1 → d.u 29 1 = 1 → ∃ t, exec (.tallyConfig d) s = .next t ∧ t.tally.master = true ∧
      t.tally.period = BitVec.ofNat 16 (d.u 30 2) ∧ t.tally.expected = [] ∧ t.tally.rollDue = s.aon.fck ∧
      t.tally.absent = s.tally.absent ∧ t.tiles = s.tiles) ∧
    (d.u 24 1 = 1 → d.u 29 1 = 0 → exec (.tallyConfig d) s = .next (finish 0x90 d .ok 0 0 ({ s.begun 0x90 d with
      tally := { s.tally with master := false } }))) ∧
    (d.u 24 1 = 2 →
      let r : Option Stitch := if d.u 36 2 = 0 then none else some
        { head := Fin.ofNat 8 (d.u 33 1), first := d.u 34 2, count := d.u 36 2,
          neighbour := BitVec.ofNat 9 (d.u 38 2), owned := d.u 40 1 == 1 }
      let ranges := s.tally.ranges.set (Fin.ofNat 2 (d.u 32 1)) r
      exec (.tallyConfig d) s =
        .next (finish 0x90 d .ok 0 0 { s.begun 0x90 d with tally := { s.tally with ranges } })) ∧
    (d.u 24 1 = 3 → s.tallyActive = true → ∃ t, exec (.tallyConfig d) s = .next t ∧
      t.tally.absent = s.tally.absent.filter (· != d.u 26 2) ∧
      t.tally.tx = s.tally.tx ++ [{ frame := .absent [BitVec.ofNat 16 (0x8000 + d.u 26 2)] }]) ∧
    (d.u 24 1 = 4 → d.len = 128 → s.linkUp = true → d.wr = .clean → exec (.tallyConfig d) s = .next
      (finish 0x90 d .ok 0 (s.tally.station.toNat + ((if s.tally.en then 8 else 0) + (if s.tally.master then 4 else 0) +
        (if s.tally.rate500 then 2 else 0) + (if s.tally.silent then 1 else 0)) * 2 ^ 16)
        ((s.begun 0x90 d).hostWrite d.buffer.toNat (stationMap s.tally.absent ++ stationMap s.tally.answered))))) ∧
  (∀ (d : Desc) (s : State), s.takes 0x90 d (tallyHeader d) →
    (∀ off : Nat, tallyFault d = some off →
      exec (.tallyConfig d) s = .next (finish 0x90 d .badField off 0 (s.begun 0x90 d))) ∧
    (tallyFault d = none → d.u 24 1 < 4 → s.tallyState d = true →
      exec (.tallyConfig d) s = .next (finish 0x90 d .state 0 0 (s.begun 0x90 d)))) ∧
  (∀ (d : Desc) (s : State), s.takes 0x91 d (headerFault d 0 .none .unbound [(25, 3), (32, 32)]) →
    (d.u 24 1 = 1 → s.tallyActive = true →
      let f : TFrame := .hold (BitVec.ofNat 8 (d.u 28 1)) (BitVec.ofNat 8 (d.u 29 1)) (BitVec.ofNat 16 (d.u 30 2))
      exec (.tallySend d) s = .next { s.begun 0x91 d with
        out := if s.tally.tx = [] then .tally f (f.bits s.tally.station) :: s.out else s.out
        tally := { s.tally with tx := s.tally.tx ++ [{ frame := f, desc := some d }] } }) ∧
    (d.u 24 1 = 3 → s.tallyActive = true → ∀ x : Stitch, s.tally.facing ((BitVec.ofNat 16 (d.u 28 2)).setWidth 9) = some x →
      let f : TFrame := .stitch (BitVec.ofNat 16 (d.u 28 2)) (BitVec.ofNat 8 (d.u 30 1)) (BitVec.ofNat 8 x.head.val)
      exec (.tallySend d) s = .next { s.begun 0x91 d with
        out := if s.tally.tx = [] then .tally f (f.bits s.tally.station) :: s.out else s.out
        tally := { s.tally with tx := s.tally.tx ++ [{ frame := f, desc := some d }] } }) ∧
    ((d.u 24 1 = 1 ∨ d.u 24 1 = 3) → s.tallyActive = false →
      exec (.tallySend d) s = .next (finish 0x91 d .state 0 0 (s.begun 0x91 d))))
end

