-- ==== Sys2Proof/Laws/State.lean ====
section
/-!
SUPPORT. What each named update of the state leaves alone, field by field, and what it writes.
-/
namespace Sys2Proof.Machine

open Sys2Proof

variable (s : State)

/-! ### modTile -/

@[simp] theorem State.modTile_aon (t : TileId) (f : Tile → Tile) : (s.modTile t f).aon = s.aon := rfl
@[simp] theorem State.modTile_clk (t : TileId) (f : Tile → Tile) : (s.modTile t f).clk = s.clk := rfl
@[simp] theorem State.modTile_pwr (t : TileId) (f : Tile → Tile) : (s.modTile t f).pwr = s.pwr := rfl
@[simp] theorem State.modTile_link (t : TileId) (f : Tile → Tile) : (s.modTile t f).link = s.link := rfl
@[simp] theorem State.modTile_jsb (t : TileId) (f : Tile → Tile) : (s.modTile t f).jsb = s.jsb := rfl
@[simp] theorem State.modTile_cqs (t : TileId) (f : Tile → Tile) : (s.modTile t f).cqs = s.cqs := rfl
@[simp] theorem State.modTile_sts (t : TileId) (f : Tile → Tile) : (s.modTile t f).sts = s.sts := rfl
@[simp] theorem State.modTile_pqs (t : TileId) (f : Tile → Tile) : (s.modTile t f).pqs = s.pqs := rfl
@[simp] theorem State.modTile_turns (t : TileId) (f : Tile → Tile) : (s.modTile t f).turns = s.turns := rfl
@[simp] theorem State.modTile_ev (t : TileId) (f : Tile → Tile) : (s.modTile t f).ev = s.ev := rfl
@[simp] theorem State.modTile_msix (t : TileId) (f : Tile → Tile) : (s.modTile t f).msix = s.msix := rfl
@[simp] theorem State.modTile_sec (t : TileId) (f : Tile → Tile) : (s.modTile t f).sec = s.sec := rfl
@[simp] theorem State.modTile_fnMode (t : TileId) (f : Tile → Tile) : (s.modTile t f).fnMode = s.fnMode := rfl
@[simp] theorem State.modTile_scratch (t : TileId) (f : Tile → Tile) : (s.modTile t f).scratch = s.scratch := rfl
@[simp] theorem State.modTile_scrub (t : TileId) (f : Tile → Tile) : (s.modTile t f).scrub = s.scrub := rfl
@[simp] theorem State.modTile_mem (t : TileId) (f : Tile → Tile) : (s.modTile t f).mem = s.mem := rfl
@[simp] theorem State.modTile_shared (t : TileId) (f : Tile → Tile) : (s.modTile t f).shared = s.shared := rfl
@[simp] theorem State.modTile_ledger (t : TileId) (f : Tile → Tile) : (s.modTile t f).ledger = s.ledger := rfl
@[simp] theorem State.modTile_coatNo (t : TileId) (f : Tile → Tile) : (s.modTile t f).coatNo = s.coatNo := rfl
@[simp] theorem State.modTile_coatLast (t : TileId) (f : Tile → Tile) : (s.modTile t f).coatLast = s.coatLast := rfl
@[simp] theorem State.modTile_coat (t : TileId) (f : Tile → Tile) : (s.modTile t f).coat = s.coat := rfl
@[simp] theorem State.modTile_moves (t : TileId) (f : Tile → Tile) : (s.modTile t f).moves = s.moves := rfl
@[simp] theorem State.modTile_readback (t : TileId) (f : Tile → Tile) : (s.modTile t f).readback = s.readback := rfl
@[simp] theorem State.modTile_probes (t : TileId) (f : Tile → Tile) : (s.modTile t f).probes = s.probes := rfl
@[simp] theorem State.modTile_chains (t : TileId) (f : Tile → Tile) : (s.modTile t f).chains = s.chains := rfl
@[simp] theorem State.modTile_programs (t : TileId) (f : Tile → Tile) : (s.modTile t f).programs = s.programs := rfl
@[simp] theorem State.modTile_netlists (t : TileId) (f : Tile → Tile) : (s.modTile t f).netlists = s.netlists := rfl
@[simp] theorem State.modTile_heads (t : TileId) (f : Tile → Tile) : (s.modTile t f).heads = s.heads := rfl
@[simp] theorem State.modTile_jobs (t : TileId) (f : Tile → Tile) : (s.modTile t f).jobs = s.jobs := rfl
@[simp] theorem State.modTile_glyphs (t : TileId) (f : Tile → Tile) : (s.modTile t f).glyphs = s.glyphs := rfl
@[simp] theorem State.modTile_dates (t : TileId) (f : Tile → Tile) : (s.modTile t f).dates = s.dates := rfl
@[simp] theorem State.modTile_cal (t : TileId) (f : Tile → Tile) : (s.modTile t f).cal = s.cal := rfl
@[simp] theorem State.modTile_bist (t : TileId) (f : Tile → Tile) : (s.modTile t f).bist = s.bist := rfl
@[simp] theorem State.modTile_syncs (t : TileId) (f : Tile → Tile) : (s.modTile t f).syncs = s.syncs := rfl
@[simp] theorem State.modTile_lineSyncs (t : TileId) (f : Tile → Tile) : (s.modTile t f).lineSyncs = s.lineSyncs := rfl
@[simp] theorem State.modTile_panels (t : TileId) (f : Tile → Tile) : (s.modTile t f).panels = s.panels := rfl
@[simp] theorem State.modTile_gpio (t : TileId) (f : Tile → Tile) : (s.modTile t f).gpio = s.gpio := rfl
@[simp] theorem State.modTile_tally (t : TileId) (f : Tile → Tile) : (s.modTile t f).tally = s.tally := rfl
@[simp] theorem State.modTile_hostMem (t : TileId) (f : Tile → Tile) : (s.modTile t f).hostMem = s.hostMem := rfl
@[simp] theorem State.modTile_free (t : TileId) (f : Tile → Tile) : (s.modTile t f).free = s.free := rfl
@[simp] theorem State.modTile_out (t : TileId) (f : Tile → Tile) : (s.modTile t f).out = s.out := rfl
@[simp] theorem State.modTile_pending (t : TileId) (f : Tile → Tile) : (s.modTile t f).pending = s.pending := rfl

/-! ### modPanel -/

@[simp] theorem State.modPanel_aon (p : PanelId) (f : Panel → Panel) : (s.modPanel p f).aon = s.aon := rfl
@[simp] theorem State.modPanel_clk (p : PanelId) (f : Panel → Panel) : (s.modPanel p f).clk = s.clk := rfl
@[simp] theorem State.modPanel_pwr (p : PanelId) (f : Panel → Panel) : (s.modPanel p f).pwr = s.pwr := rfl
@[simp] theorem State.modPanel_link (p : PanelId) (f : Panel → Panel) : (s.modPanel p f).link = s.link := rfl
@[simp] theorem State.modPanel_jsb (p : PanelId) (f : Panel → Panel) : (s.modPanel p f).jsb = s.jsb := rfl
@[simp] theorem State.modPanel_cqs (p : PanelId) (f : Panel → Panel) : (s.modPanel p f).cqs = s.cqs := rfl
@[simp] theorem State.modPanel_sts (p : PanelId) (f : Panel → Panel) : (s.modPanel p f).sts = s.sts := rfl
@[simp] theorem State.modPanel_pqs (p : PanelId) (f : Panel → Panel) : (s.modPanel p f).pqs = s.pqs := rfl
@[simp] theorem State.modPanel_turns (p : PanelId) (f : Panel → Panel) : (s.modPanel p f).turns = s.turns := rfl
@[simp] theorem State.modPanel_ev (p : PanelId) (f : Panel → Panel) : (s.modPanel p f).ev = s.ev := rfl
@[simp] theorem State.modPanel_msix (p : PanelId) (f : Panel → Panel) : (s.modPanel p f).msix = s.msix := rfl
@[simp] theorem State.modPanel_sec (p : PanelId) (f : Panel → Panel) : (s.modPanel p f).sec = s.sec := rfl
@[simp] theorem State.modPanel_fnMode (p : PanelId) (f : Panel → Panel) : (s.modPanel p f).fnMode = s.fnMode := rfl
@[simp] theorem State.modPanel_scratch (p : PanelId) (f : Panel → Panel) : (s.modPanel p f).scratch = s.scratch := rfl
@[simp] theorem State.modPanel_scrub (p : PanelId) (f : Panel → Panel) : (s.modPanel p f).scrub = s.scrub := rfl
@[simp] theorem State.modPanel_mem (p : PanelId) (f : Panel → Panel) : (s.modPanel p f).mem = s.mem := rfl
@[simp] theorem State.modPanel_shared (p : PanelId) (f : Panel → Panel) : (s.modPanel p f).shared = s.shared := rfl
@[simp] theorem State.modPanel_ledger (p : PanelId) (f : Panel → Panel) : (s.modPanel p f).ledger = s.ledger := rfl
@[simp] theorem State.modPanel_coatNo (p : PanelId) (f : Panel → Panel) : (s.modPanel p f).coatNo = s.coatNo := rfl
@[simp] theorem State.modPanel_coatLast (p : PanelId) (f : Panel → Panel) : (s.modPanel p f).coatLast = s.coatLast := rfl
@[simp] theorem State.modPanel_coat (p : PanelId) (f : Panel → Panel) : (s.modPanel p f).coat = s.coat := rfl
@[simp] theorem State.modPanel_moves (p : PanelId) (f : Panel → Panel) : (s.modPanel p f).moves = s.moves := rfl
@[simp] theorem State.modPanel_readback (p : PanelId) (f : Panel → Panel) : (s.modPanel p f).readback = s.readback := rfl
@[simp] theorem State.modPanel_probes (p : PanelId) (f : Panel → Panel) : (s.modPanel p f).probes = s.probes := rfl
@[simp] theorem State.modPanel_chains (p : PanelId) (f : Panel → Panel) : (s.modPanel p f).chains = s.chains := rfl
@[simp] theorem State.modPanel_programs (p : PanelId) (f : Panel → Panel) : (s.modPanel p f).programs = s.programs := rfl
@[simp] theorem State.modPanel_netlists (p : PanelId) (f : Panel → Panel) : (s.modPanel p f).netlists = s.netlists := rfl
@[simp] theorem State.modPanel_heads (p : PanelId) (f : Panel → Panel) : (s.modPanel p f).heads = s.heads := rfl
@[simp] theorem State.modPanel_jobs (p : PanelId) (f : Panel → Panel) : (s.modPanel p f).jobs = s.jobs := rfl
@[simp] theorem State.modPanel_glyphs (p : PanelId) (f : Panel → Panel) : (s.modPanel p f).glyphs = s.glyphs := rfl
@[simp] theorem State.modPanel_dates (p : PanelId) (f : Panel → Panel) : (s.modPanel p f).dates = s.dates := rfl
@[simp] theorem State.modPanel_cal (p : PanelId) (f : Panel → Panel) : (s.modPanel p f).cal = s.cal := rfl
@[simp] theorem State.modPanel_bist (p : PanelId) (f : Panel → Panel) : (s.modPanel p f).bist = s.bist := rfl
@[simp] theorem State.modPanel_syncs (p : PanelId) (f : Panel → Panel) : (s.modPanel p f).syncs = s.syncs := rfl
@[simp] theorem State.modPanel_lineSyncs (p : PanelId) (f : Panel → Panel) : (s.modPanel p f).lineSyncs = s.lineSyncs := rfl
@[simp] theorem State.modPanel_tiles (p : PanelId) (f : Panel → Panel) : (s.modPanel p f).tiles = s.tiles := rfl
@[simp] theorem State.modPanel_gpio (p : PanelId) (f : Panel → Panel) : (s.modPanel p f).gpio = s.gpio := rfl
@[simp] theorem State.modPanel_tally (p : PanelId) (f : Panel → Panel) : (s.modPanel p f).tally = s.tally := rfl
@[simp] theorem State.modPanel_hostMem (p : PanelId) (f : Panel → Panel) : (s.modPanel p f).hostMem = s.hostMem := rfl
@[simp] theorem State.modPanel_free (p : PanelId) (f : Panel → Panel) : (s.modPanel p f).free = s.free := rfl
@[simp] theorem State.modPanel_out (p : PanelId) (f : Panel → Panel) : (s.modPanel p f).out = s.out := rfl
@[simp] theorem State.modPanel_pending (p : PanelId) (f : Panel → Panel) : (s.modPanel p f).pending = s.pending := rfl

/-! ### modHead -/

@[simp] theorem State.modHead_aon (h : HeadId) (f : Head → Head) : (s.modHead h f).aon = s.aon := rfl
@[simp] theorem State.modHead_clk (h : HeadId) (f : Head → Head) : (s.modHead h f).clk = s.clk := rfl
@[simp] theorem State.modHead_pwr (h : HeadId) (f : Head → Head) : (s.modHead h f).pwr = s.pwr := rfl
@[simp] theorem State.modHead_link (h : HeadId) (f : Head → Head) : (s.modHead h f).link = s.link := rfl
@[simp] theorem State.modHead_jsb (h : HeadId) (f : Head → Head) : (s.modHead h f).jsb = s.jsb := rfl
@[simp] theorem State.modHead_cqs (h : HeadId) (f : Head → Head) : (s.modHead h f).cqs = s.cqs := rfl
@[simp] theorem State.modHead_sts (h : HeadId) (f : Head → Head) : (s.modHead h f).sts = s.sts := rfl
@[simp] theorem State.modHead_pqs (h : HeadId) (f : Head → Head) : (s.modHead h f).pqs = s.pqs := rfl
@[simp] theorem State.modHead_turns (h : HeadId) (f : Head → Head) : (s.modHead h f).turns = s.turns := rfl
@[simp] theorem State.modHead_ev (h : HeadId) (f : Head → Head) : (s.modHead h f).ev = s.ev := rfl
@[simp] theorem State.modHead_msix (h : HeadId) (f : Head → Head) : (s.modHead h f).msix = s.msix := rfl
@[simp] theorem State.modHead_sec (h : HeadId) (f : Head → Head) : (s.modHead h f).sec = s.sec := rfl
@[simp] theorem State.modHead_fnMode (h : HeadId) (f : Head → Head) : (s.modHead h f).fnMode = s.fnMode := rfl
@[simp] theorem State.modHead_scratch (h : HeadId) (f : Head → Head) : (s.modHead h f).scratch = s.scratch := rfl
@[simp] theorem State.modHead_scrub (h : HeadId) (f : Head → Head) : (s.modHead h f).scrub = s.scrub := rfl
@[simp] theorem State.modHead_mem (h : HeadId) (f : Head → Head) : (s.modHead h f).mem = s.mem := rfl
@[simp] theorem State.modHead_shared (h : HeadId) (f : Head → Head) : (s.modHead h f).shared = s.shared := rfl
@[simp] theorem State.modHead_ledger (h : HeadId) (f : Head → Head) : (s.modHead h f).ledger = s.ledger := rfl
@[simp] theorem State.modHead_coatNo (h : HeadId) (f : Head → Head) : (s.modHead h f).coatNo = s.coatNo := rfl
@[simp] theorem State.modHead_coatLast (h : HeadId) (f : Head → Head) : (s.modHead h f).coatLast = s.coatLast := rfl
@[simp] theorem State.modHead_coat (h : HeadId) (f : Head → Head) : (s.modHead h f).coat = s.coat := rfl
@[simp] theorem State.modHead_moves (h : HeadId) (f : Head → Head) : (s.modHead h f).moves = s.moves := rfl
@[simp] theorem State.modHead_readback (h : HeadId) (f : Head → Head) : (s.modHead h f).readback = s.readback := rfl
@[simp] theorem State.modHead_probes (h : HeadId) (f : Head → Head) : (s.modHead h f).probes = s.probes := rfl
@[simp] theorem State.modHead_chains (h : HeadId) (f : Head → Head) : (s.modHead h f).chains = s.chains := rfl
@[simp] theorem State.modHead_programs (h : HeadId) (f : Head → Head) : (s.modHead h f).programs = s.programs := rfl
@[simp] theorem State.modHead_netlists (h : HeadId) (f : Head → Head) : (s.modHead h f).netlists = s.netlists := rfl
@[simp] theorem State.modHead_jobs (h : HeadId) (f : Head → Head) : (s.modHead h f).jobs = s.jobs := rfl
@[simp] theorem State.modHead_glyphs (h : HeadId) (f : Head → Head) : (s.modHead h f).glyphs = s.glyphs := rfl
@[simp] theorem State.modHead_dates (h : HeadId) (f : Head → Head) : (s.modHead h f).dates = s.dates := rfl
@[simp] theorem State.modHead_cal (h : HeadId) (f : Head → Head) : (s.modHead h f).cal = s.cal := rfl
@[simp] theorem State.modHead_bist (h : HeadId) (f : Head → Head) : (s.modHead h f).bist = s.bist := rfl
@[simp] theorem State.modHead_syncs (h : HeadId) (f : Head → Head) : (s.modHead h f).syncs = s.syncs := rfl
@[simp] theorem State.modHead_lineSyncs (h : HeadId) (f : Head → Head) : (s.modHead h f).lineSyncs = s.lineSyncs := rfl
@[simp] theorem State.modHead_panels (h : HeadId) (f : Head → Head) : (s.modHead h f).panels = s.panels := rfl
@[simp] theorem State.modHead_tiles (h : HeadId) (f : Head → Head) : (s.modHead h f).tiles = s.tiles := rfl
@[simp] theorem State.modHead_gpio (h : HeadId) (f : Head → Head) : (s.modHead h f).gpio = s.gpio := rfl
@[simp] theorem State.modHead_tally (h : HeadId) (f : Head → Head) : (s.modHead h f).tally = s.tally := rfl
@[simp] theorem State.modHead_hostMem (h : HeadId) (f : Head → Head) : (s.modHead h f).hostMem = s.hostMem := rfl
@[simp] theorem State.modHead_free (h : HeadId) (f : Head → Head) : (s.modHead h f).free = s.free := rfl
@[simp] theorem State.modHead_out (h : HeadId) (f : Head → Head) : (s.modHead h f).out = s.out := rfl
@[simp] theorem State.modHead_pending (h : HeadId) (f : Head → Head) : (s.modHead h f).pending = s.pending := rfl

/-! ### modJob -/

@[simp] theorem State.modJob_aon (j : Fin 64) (f : Job → Job) : (s.modJob j f).aon = s.aon := rfl
@[simp] theorem State.modJob_clk (j : Fin 64) (f : Job → Job) : (s.modJob j f).clk = s.clk := rfl
@[simp] theorem State.modJob_pwr (j : Fin 64) (f : Job → Job) : (s.modJob j f).pwr = s.pwr := rfl
@[simp] theorem State.modJob_link (j : Fin 64) (f : Job → Job) : (s.modJob j f).link = s.link := rfl
@[simp] theorem State.modJob_jsb (j : Fin 64) (f : Job → Job) : (s.modJob j f).jsb = s.jsb := rfl
@[simp] theorem State.modJob_cqs (j : Fin 64) (f : Job → Job) : (s.modJob j f).cqs = s.cqs := rfl
@[simp] theorem State.modJob_sts (j : Fin 64) (f : Job → Job) : (s.modJob j f).sts = s.sts := rfl
@[simp] theorem State.modJob_pqs (j : Fin 64) (f : Job → Job) : (s.modJob j f).pqs = s.pqs := rfl
@[simp] theorem State.modJob_turns (j : Fin 64) (f : Job → Job) : (s.modJob j f).turns = s.turns := rfl
@[simp] theorem State.modJob_ev (j : Fin 64) (f : Job → Job) : (s.modJob j f).ev = s.ev := rfl
@[simp] theorem State.modJob_msix (j : Fin 64) (f : Job → Job) : (s.modJob j f).msix = s.msix := rfl
@[simp] theorem State.modJob_sec (j : Fin 64) (f : Job → Job) : (s.modJob j f).sec = s.sec := rfl
@[simp] theorem State.modJob_fnMode (j : Fin 64) (f : Job → Job) : (s.modJob j f).fnMode = s.fnMode := rfl
@[simp] theorem State.modJob_scratch (j : Fin 64) (f : Job → Job) : (s.modJob j f).scratch = s.scratch := rfl
@[simp] theorem State.modJob_scrub (j : Fin 64) (f : Job → Job) : (s.modJob j f).scrub = s.scrub := rfl
@[simp] theorem State.modJob_mem (j : Fin 64) (f : Job → Job) : (s.modJob j f).mem = s.mem := rfl
@[simp] theorem State.modJob_shared (j : Fin 64) (f : Job → Job) : (s.modJob j f).shared = s.shared := rfl
@[simp] theorem State.modJob_ledger (j : Fin 64) (f : Job → Job) : (s.modJob j f).ledger = s.ledger := rfl
@[simp] theorem State.modJob_coatNo (j : Fin 64) (f : Job → Job) : (s.modJob j f).coatNo = s.coatNo := rfl
@[simp] theorem State.modJob_coatLast (j : Fin 64) (f : Job → Job) : (s.modJob j f).coatLast = s.coatLast := rfl
@[simp] theorem State.modJob_coat (j : Fin 64) (f : Job → Job) : (s.modJob j f).coat = s.coat := rfl
@[simp] theorem State.modJob_moves (j : Fin 64) (f : Job → Job) : (s.modJob j f).moves = s.moves := rfl
@[simp] theorem State.modJob_readback (j : Fin 64) (f : Job → Job) : (s.modJob j f).readback = s.readback := rfl
@[simp] theorem State.modJob_probes (j : Fin 64) (f : Job → Job) : (s.modJob j f).probes = s.probes := rfl
@[simp] theorem State.modJob_chains (j : Fin 64) (f : Job → Job) : (s.modJob j f).chains = s.chains := rfl
@[simp] theorem State.modJob_programs (j : Fin 64) (f : Job → Job) : (s.modJob j f).programs = s.programs := rfl
@[simp] theorem State.modJob_netlists (j : Fin 64) (f : Job → Job) : (s.modJob j f).netlists = s.netlists := rfl
@[simp] theorem State.modJob_heads (j : Fin 64) (f : Job → Job) : (s.modJob j f).heads = s.heads := rfl
@[simp] theorem State.modJob_glyphs (j : Fin 64) (f : Job → Job) : (s.modJob j f).glyphs = s.glyphs := rfl
@[simp] theorem State.modJob_dates (j : Fin 64) (f : Job → Job) : (s.modJob j f).dates = s.dates := rfl
@[simp] theorem State.modJob_cal (j : Fin 64) (f : Job → Job) : (s.modJob j f).cal = s.cal := rfl
@[simp] theorem State.modJob_bist (j : Fin 64) (f : Job → Job) : (s.modJob j f).bist = s.bist := rfl
@[simp] theorem State.modJob_syncs (j : Fin 64) (f : Job → Job) : (s.modJob j f).syncs = s.syncs := rfl
@[simp] theorem State.modJob_lineSyncs (j : Fin 64) (f : Job → Job) : (s.modJob j f).lineSyncs = s.lineSyncs := rfl
@[simp] theorem State.modJob_panels (j : Fin 64) (f : Job → Job) : (s.modJob j f).panels = s.panels := rfl
@[simp] theorem State.modJob_tiles (j : Fin 64) (f : Job → Job) : (s.modJob j f).tiles = s.tiles := rfl
@[simp] theorem State.modJob_gpio (j : Fin 64) (f : Job → Job) : (s.modJob j f).gpio = s.gpio := rfl
@[simp] theorem State.modJob_tally (j : Fin 64) (f : Job → Job) : (s.modJob j f).tally = s.tally := rfl
@[simp] theorem State.modJob_hostMem (j : Fin 64) (f : Job → Job) : (s.modJob j f).hostMem = s.hostMem := rfl
@[simp] theorem State.modJob_free (j : Fin 64) (f : Job → Job) : (s.modJob j f).free = s.free := rfl
@[simp] theorem State.modJob_out (j : Fin 64) (f : Job → Job) : (s.modJob j f).out = s.out := rfl
@[simp] theorem State.modJob_pending (j : Fin 64) (f : Job → Job) : (s.modJob j f).pending = s.pending := rfl

/-! ### modChain -/

@[simp] theorem State.modChain_aon (c : Fin 256) (f : Chain → Chain) : (s.modChain c f).aon = s.aon := rfl
@[simp] theorem State.modChain_clk (c : Fin 256) (f : Chain → Chain) : (s.modChain c f).clk = s.clk := rfl
@[simp] theorem State.modChain_pwr (c : Fin 256) (f : Chain → Chain) : (s.modChain c f).pwr = s.pwr := rfl
@[simp] theorem State.modChain_link (c : Fin 256) (f : Chain → Chain) : (s.modChain c f).link = s.link := rfl
@[simp] theorem State.modChain_jsb (c : Fin 256) (f : Chain → Chain) : (s.modChain c f).jsb = s.jsb := rfl
@[simp] theorem State.modChain_cqs (c : Fin 256) (f : Chain → Chain) : (s.modChain c f).cqs = s.cqs := rfl
@[simp] theorem State.modChain_sts (c : Fin 256) (f : Chain → Chain) : (s.modChain c f).sts = s.sts := rfl
@[simp] theorem State.modChain_pqs (c : Fin 256) (f : Chain → Chain) : (s.modChain c f).pqs = s.pqs := rfl
@[simp] theorem State.modChain_turns (c : Fin 256) (f : Chain → Chain) : (s.modChain c f).turns = s.turns := rfl
@[simp] theorem State.modChain_ev (c : Fin 256) (f : Chain → Chain) : (s.modChain c f).ev = s.ev := rfl
@[simp] theorem State.modChain_msix (c : Fin 256) (f : Chain → Chain) : (s.modChain c f).msix = s.msix := rfl
@[simp] theorem State.modChain_sec (c : Fin 256) (f : Chain → Chain) : (s.modChain c f).sec = s.sec := rfl
@[simp] theorem State.modChain_fnMode (c : Fin 256) (f : Chain → Chain) : (s.modChain c f).fnMode = s.fnMode := rfl
@[simp] theorem State.modChain_scratch (c : Fin 256) (f : Chain → Chain) : (s.modChain c f).scratch = s.scratch := rfl
@[simp] theorem State.modChain_scrub (c : Fin 256) (f : Chain → Chain) : (s.modChain c f).scrub = s.scrub := rfl
@[simp] theorem State.modChain_mem (c : Fin 256) (f : Chain → Chain) : (s.modChain c f).mem = s.mem := rfl
@[simp] theorem State.modChain_shared (c : Fin 256) (f : Chain → Chain) : (s.modChain c f).shared = s.shared := rfl
@[simp] theorem State.modChain_ledger (c : Fin 256) (f : Chain → Chain) : (s.modChain c f).ledger = s.ledger := rfl
@[simp] theorem State.modChain_coatNo (c : Fin 256) (f : Chain → Chain) : (s.modChain c f).coatNo = s.coatNo := rfl
@[simp] theorem State.modChain_coatLast (c : Fin 256) (f : Chain → Chain) : (s.modChain c f).coatLast = s.coatLast := rfl
@[simp] theorem State.modChain_coat (c : Fin 256) (f : Chain → Chain) : (s.modChain c f).coat = s.coat := rfl
@[simp] theorem State.modChain_moves (c : Fin 256) (f : Chain → Chain) : (s.modChain c f).moves = s.moves := rfl
@[simp] theorem State.modChain_readback (c : Fin 256) (f : Chain → Chain) : (s.modChain c f).readback = s.readback := rfl
@[simp] theorem State.modChain_probes (c : Fin 256) (f : Chain → Chain) : (s.modChain c f).probes = s.probes := rfl
@[simp] theorem State.modChain_programs (c : Fin 256) (f : Chain → Chain) : (s.modChain c f).programs = s.programs := rfl
@[simp] theorem State.modChain_netlists (c : Fin 256) (f : Chain → Chain) : (s.modChain c f).netlists = s.netlists := rfl
@[simp] theorem State.modChain_heads (c : Fin 256) (f : Chain → Chain) : (s.modChain c f).heads = s.heads := rfl
@[simp] theorem State.modChain_jobs (c : Fin 256) (f : Chain → Chain) : (s.modChain c f).jobs = s.jobs := rfl
@[simp] theorem State.modChain_glyphs (c : Fin 256) (f : Chain → Chain) : (s.modChain c f).glyphs = s.glyphs := rfl
@[simp] theorem State.modChain_dates (c : Fin 256) (f : Chain → Chain) : (s.modChain c f).dates = s.dates := rfl
@[simp] theorem State.modChain_cal (c : Fin 256) (f : Chain → Chain) : (s.modChain c f).cal = s.cal := rfl
@[simp] theorem State.modChain_bist (c : Fin 256) (f : Chain → Chain) : (s.modChain c f).bist = s.bist := rfl
@[simp] theorem State.modChain_syncs (c : Fin 256) (f : Chain → Chain) : (s.modChain c f).syncs = s.syncs := rfl
@[simp] theorem State.modChain_lineSyncs (c : Fin 256) (f : Chain → Chain) : (s.modChain c f).lineSyncs = s.lineSyncs := rfl
@[simp] theorem State.modChain_panels (c : Fin 256) (f : Chain → Chain) : (s.modChain c f).panels = s.panels := rfl
@[simp] theorem State.modChain_tiles (c : Fin 256) (f : Chain → Chain) : (s.modChain c f).tiles = s.tiles := rfl
@[simp] theorem State.modChain_gpio (c : Fin 256) (f : Chain → Chain) : (s.modChain c f).gpio = s.gpio := rfl
@[simp] theorem State.modChain_tally (c : Fin 256) (f : Chain → Chain) : (s.modChain c f).tally = s.tally := rfl
@[simp] theorem State.modChain_hostMem (c : Fin 256) (f : Chain → Chain) : (s.modChain c f).hostMem = s.hostMem := rfl
@[simp] theorem State.modChain_free (c : Fin 256) (f : Chain → Chain) : (s.modChain c f).free = s.free := rfl
@[simp] theorem State.modChain_out (c : Fin 256) (f : Chain → Chain) : (s.modChain c f).out = s.out := rfl
@[simp] theorem State.modChain_pending (c : Fin 256) (f : Chain → Chain) : (s.modChain c f).pending = s.pending := rfl

/-! ### modCq -/

@[simp] theorem State.modCq_aon (n : Fin 16) (f : Cq → Cq) : (s.modCq n f).aon = s.aon := rfl
@[simp] theorem State.modCq_clk (n : Fin 16) (f : Cq → Cq) : (s.modCq n f).clk = s.clk := rfl
@[simp] theorem State.modCq_pwr (n : Fin 16) (f : Cq → Cq) : (s.modCq n f).pwr = s.pwr := rfl
@[simp] theorem State.modCq_link (n : Fin 16) (f : Cq → Cq) : (s.modCq n f).link = s.link := rfl
@[simp] theorem State.modCq_jsb (n : Fin 16) (f : Cq → Cq) : (s.modCq n f).jsb = s.jsb := rfl
@[simp] theorem State.modCq_sts (n : Fin 16) (f : Cq → Cq) : (s.modCq n f).sts = s.sts := rfl
@[simp] theorem State.modCq_pqs (n : Fin 16) (f : Cq → Cq) : (s.modCq n f).pqs = s.pqs := rfl
@[simp] theorem State.modCq_turns (n : Fin 16) (f : Cq → Cq) : (s.modCq n f).turns = s.turns := rfl
@[simp] theorem State.modCq_ev (n : Fin 16) (f : Cq → Cq) : (s.modCq n f).ev = s.ev := rfl
@[simp] theorem State.modCq_msix (n : Fin 16) (f : Cq → Cq) : (s.modCq n f).msix = s.msix := rfl
@[simp] theorem State.modCq_sec (n : Fin 16) (f : Cq → Cq) : (s.modCq n f).sec = s.sec := rfl
@[simp] theorem State.modCq_fnMode (n : Fin 16) (f : Cq → Cq) : (s.modCq n f).fnMode = s.fnMode := rfl
@[simp] theorem State.modCq_scratch (n : Fin 16) (f : Cq → Cq) : (s.modCq n f).scratch = s.scratch := rfl
@[simp] theorem State.modCq_scrub (n : Fin 16) (f : Cq → Cq) : (s.modCq n f).scrub = s.scrub := rfl
@[simp] theorem State.modCq_mem (n : Fin 16) (f : Cq → Cq) : (s.modCq n f).mem = s.mem := rfl
@[simp] theorem State.modCq_shared (n : Fin 16) (f : Cq → Cq) : (s.modCq n f).shared = s.shared := rfl
@[simp] theorem State.modCq_ledger (n : Fin 16) (f : Cq → Cq) : (s.modCq n f).ledger = s.ledger := rfl
@[simp] theorem State.modCq_coatNo (n : Fin 16) (f : Cq → Cq) : (s.modCq n f).coatNo = s.coatNo := rfl
@[simp] theorem State.modCq_coatLast (n : Fin 16) (f : Cq → Cq) : (s.modCq n f).coatLast = s.coatLast := rfl
@[simp] theorem State.modCq_coat (n : Fin 16) (f : Cq → Cq) : (s.modCq n f).coat = s.coat := rfl
@[simp] theorem State.modCq_moves (n : Fin 16) (f : Cq → Cq) : (s.modCq n f).moves = s.moves := rfl
@[simp] theorem State.modCq_readback (n : Fin 16) (f : Cq → Cq) : (s.modCq n f).readback = s.readback := rfl
@[simp] theorem State.modCq_probes (n : Fin 16) (f : Cq → Cq) : (s.modCq n f).probes = s.probes := rfl
@[simp] theorem State.modCq_chains (n : Fin 16) (f : Cq → Cq) : (s.modCq n f).chains = s.chains := rfl
@[simp] theorem State.modCq_programs (n : Fin 16) (f : Cq → Cq) : (s.modCq n f).programs = s.programs := rfl
@[simp] theorem State.modCq_netlists (n : Fin 16) (f : Cq → Cq) : (s.modCq n f).netlists = s.netlists := rfl
@[simp] theorem State.modCq_heads (n : Fin 16) (f : Cq → Cq) : (s.modCq n f).heads = s.heads := rfl
@[simp] theorem State.modCq_jobs (n : Fin 16) (f : Cq → Cq) : (s.modCq n f).jobs = s.jobs := rfl
@[simp] theorem State.modCq_glyphs (n : Fin 16) (f : Cq → Cq) : (s.modCq n f).glyphs = s.glyphs := rfl
@[simp] theorem State.modCq_dates (n : Fin 16) (f : Cq → Cq) : (s.modCq n f).dates = s.dates := rfl
@[simp] theorem State.modCq_cal (n : Fin 16) (f : Cq → Cq) : (s.modCq n f).cal = s.cal := rfl
@[simp] theorem State.modCq_bist (n : Fin 16) (f : Cq → Cq) : (s.modCq n f).bist = s.bist := rfl
@[simp] theorem State.modCq_syncs (n : Fin 16) (f : Cq → Cq) : (s.modCq n f).syncs = s.syncs := rfl
@[simp] theorem State.modCq_lineSyncs (n : Fin 16) (f : Cq → Cq) : (s.modCq n f).lineSyncs = s.lineSyncs := rfl
@[simp] theorem State.modCq_panels (n : Fin 16) (f : Cq → Cq) : (s.modCq n f).panels = s.panels := rfl
@[simp] theorem State.modCq_tiles (n : Fin 16) (f : Cq → Cq) : (s.modCq n f).tiles = s.tiles := rfl
@[simp] theorem State.modCq_gpio (n : Fin 16) (f : Cq → Cq) : (s.modCq n f).gpio = s.gpio := rfl
@[simp] theorem State.modCq_tally (n : Fin 16) (f : Cq → Cq) : (s.modCq n f).tally = s.tally := rfl
@[simp] theorem State.modCq_hostMem (n : Fin 16) (f : Cq → Cq) : (s.modCq n f).hostMem = s.hostMem := rfl
@[simp] theorem State.modCq_free (n : Fin 16) (f : Cq → Cq) : (s.modCq n f).free = s.free := rfl
@[simp] theorem State.modCq_out (n : Fin 16) (f : Cq → Cq) : (s.modCq n f).out = s.out := rfl
@[simp] theorem State.modCq_pending (n : Fin 16) (f : Cq → Cq) : (s.modCq n f).pending = s.pending := rfl

/-! ### modSt -/

@[simp] theorem State.modSt_aon (n : Fin 32) (f : Stream → Stream) : (s.modSt n f).aon = s.aon := rfl
@[simp] theorem State.modSt_clk (n : Fin 32) (f : Stream → Stream) : (s.modSt n f).clk = s.clk := rfl
@[simp] theorem State.modSt_pwr (n : Fin 32) (f : Stream → Stream) : (s.modSt n f).pwr = s.pwr := rfl
@[simp] theorem State.modSt_link (n : Fin 32) (f : Stream → Stream) : (s.modSt n f).link = s.link := rfl
@[simp] theorem State.modSt_jsb (n : Fin 32) (f : Stream → Stream) : (s.modSt n f).jsb = s.jsb := rfl
@[simp] theorem State.modSt_cqs (n : Fin 32) (f : Stream → Stream) : (s.modSt n f).cqs = s.cqs := rfl
@[simp] theorem State.modSt_pqs (n : Fin 32) (f : Stream → Stream) : (s.modSt n f).pqs = s.pqs := rfl
@[simp] theorem State.modSt_turns (n : Fin 32) (f : Stream → Stream) : (s.modSt n f).turns = s.turns := rfl
@[simp] theorem State.modSt_ev (n : Fin 32) (f : Stream → Stream) : (s.modSt n f).ev = s.ev := rfl
@[simp] theorem State.modSt_msix (n : Fin 32) (f : Stream → Stream) : (s.modSt n f).msix = s.msix := rfl
@[simp] theorem State.modSt_sec (n : Fin 32) (f : Stream → Stream) : (s.modSt n f).sec = s.sec := rfl
@[simp] theorem State.modSt_fnMode (n : Fin 32) (f : Stream → Stream) : (s.modSt n f).fnMode = s.fnMode := rfl
@[simp] theorem State.modSt_scratch (n : Fin 32) (f : Stream → Stream) : (s.modSt n f).scratch = s.scratch := rfl
@[simp] theorem State.modSt_scrub (n : Fin 32) (f : Stream → Stream) : (s.modSt n f).scrub = s.scrub := rfl
@[simp] theorem State.modSt_mem (n : Fin 32) (f : Stream → Stream) : (s.modSt n f).mem = s.mem := rfl
@[simp] theorem State.modSt_shared (n : Fin 32) (f : Stream → Stream) : (s.modSt n f).shared = s.shared := rfl
@[simp] theorem State.modSt_ledger (n : Fin 32) (f : Stream → Stream) : (s.modSt n f).ledger = s.ledger := rfl
@[simp] theorem State.modSt_coatNo (n : Fin 32) (f : Stream → Stream) : (s.modSt n f).coatNo = s.coatNo := rfl
@[simp] theorem State.modSt_coatLast (n : Fin 32) (f : Stream → Stream) : (s.modSt n f).coatLast = s.coatLast := rfl
@[simp] theorem State.modSt_coat (n : Fin 32) (f : Stream → Stream) : (s.modSt n f).coat = s.coat := rfl
@[simp] theorem State.modSt_moves (n : Fin 32) (f : Stream → Stream) : (s.modSt n f).moves = s.moves := rfl
@[simp] theorem State.modSt_readback (n : Fin 32) (f : Stream → Stream) : (s.modSt n f).readback = s.readback := rfl
@[simp] theorem State.modSt_probes (n : Fin 32) (f : Stream → Stream) : (s.modSt n f).probes = s.probes := rfl
@[simp] theorem State.modSt_chains (n : Fin 32) (f : Stream → Stream) : (s.modSt n f).chains = s.chains := rfl
@[simp] theorem State.modSt_programs (n : Fin 32) (f : Stream → Stream) : (s.modSt n f).programs = s.programs := rfl
@[simp] theorem State.modSt_netlists (n : Fin 32) (f : Stream → Stream) : (s.modSt n f).netlists = s.netlists := rfl
@[simp] theorem State.modSt_heads (n : Fin 32) (f : Stream → Stream) : (s.modSt n f).heads = s.heads := rfl
@[simp] theorem State.modSt_jobs (n : Fin 32) (f : Stream → Stream) : (s.modSt n f).jobs = s.jobs := rfl
@[simp] theorem State.modSt_glyphs (n : Fin 32) (f : Stream → Stream) : (s.modSt n f).glyphs = s.glyphs := rfl
@[simp] theorem State.modSt_dates (n : Fin 32) (f : Stream → Stream) : (s.modSt n f).dates = s.dates := rfl
@[simp] theorem State.modSt_cal (n : Fin 32) (f : Stream → Stream) : (s.modSt n f).cal = s.cal := rfl
@[simp] theorem State.modSt_bist (n : Fin 32) (f : Stream → Stream) : (s.modSt n f).bist = s.bist := rfl
@[simp] theorem State.modSt_syncs (n : Fin 32) (f : Stream → Stream) : (s.modSt n f).syncs = s.syncs := rfl
@[simp] theorem State.modSt_lineSyncs (n : Fin 32) (f : Stream → Stream) : (s.modSt n f).lineSyncs = s.lineSyncs := rfl
@[simp] theorem State.modSt_panels (n : Fin 32) (f : Stream → Stream) : (s.modSt n f).panels = s.panels := rfl
@[simp] theorem State.modSt_tiles (n : Fin 32) (f : Stream → Stream) : (s.modSt n f).tiles = s.tiles := rfl
@[simp] theorem State.modSt_gpio (n : Fin 32) (f : Stream → Stream) : (s.modSt n f).gpio = s.gpio := rfl
@[simp] theorem State.modSt_tally (n : Fin 32) (f : Stream → Stream) : (s.modSt n f).tally = s.tally := rfl
@[simp] theorem State.modSt_hostMem (n : Fin 32) (f : Stream → Stream) : (s.modSt n f).hostMem = s.hostMem := rfl
@[simp] theorem State.modSt_free (n : Fin 32) (f : Stream → Stream) : (s.modSt n f).free = s.free := rfl
@[simp] theorem State.modSt_out (n : Fin 32) (f : Stream → Stream) : (s.modSt n f).out = s.out := rfl
@[simp] theorem State.modSt_pending (n : Fin 32) (f : Stream → Stream) : (s.modSt n f).pending = s.pending := rfl

/-! ### modPq -/

@[simp] theorem State.modPq_aon (n : Fin 8) (f : Pq → Pq) : (s.modPq n f).aon = s.aon := rfl
@[simp] theorem State.modPq_clk (n : Fin 8) (f : Pq → Pq) : (s.modPq n f).clk = s.clk := rfl
@[simp] theorem State.modPq_pwr (n : Fin 8) (f : Pq → Pq) : (s.modPq n f).pwr = s.pwr := rfl
@[simp] theorem State.modPq_link (n : Fin 8) (f : Pq → Pq) : (s.modPq n f).link = s.link := rfl
@[simp] theorem State.modPq_jsb (n : Fin 8) (f : Pq → Pq) : (s.modPq n f).jsb = s.jsb := rfl
@[simp] theorem State.modPq_cqs (n : Fin 8) (f : Pq → Pq) : (s.modPq n f).cqs = s.cqs := rfl
@[simp] theorem State.modPq_sts (n : Fin 8) (f : Pq → Pq) : (s.modPq n f).sts = s.sts := rfl
@[simp] theorem State.modPq_turns (n : Fin 8) (f : Pq → Pq) : (s.modPq n f).turns = s.turns := rfl
@[simp] theorem State.modPq_ev (n : Fin 8) (f : Pq → Pq) : (s.modPq n f).ev = s.ev := rfl
@[simp] theorem State.modPq_msix (n : Fin 8) (f : Pq → Pq) : (s.modPq n f).msix = s.msix := rfl
@[simp] theorem State.modPq_sec (n : Fin 8) (f : Pq → Pq) : (s.modPq n f).sec = s.sec := rfl
@[simp] theorem State.modPq_fnMode (n : Fin 8) (f : Pq → Pq) : (s.modPq n f).fnMode = s.fnMode := rfl
@[simp] theorem State.modPq_scratch (n : Fin 8) (f : Pq → Pq) : (s.modPq n f).scratch = s.scratch := rfl
@[simp] theorem State.modPq_scrub (n : Fin 8) (f : Pq → Pq) : (s.modPq n f).scrub = s.scrub := rfl
@[simp] theorem State.modPq_mem (n : Fin 8) (f : Pq → Pq) : (s.modPq n f).mem = s.mem := rfl
@[simp] theorem State.modPq_shared (n : Fin 8) (f : Pq → Pq) : (s.modPq n f).shared = s.shared := rfl
@[simp] theorem State.modPq_ledger (n : Fin 8) (f : Pq → Pq) : (s.modPq n f).ledger = s.ledger := rfl
@[simp] theorem State.modPq_coatNo (n : Fin 8) (f : Pq → Pq) : (s.modPq n f).coatNo = s.coatNo := rfl
@[simp] theorem State.modPq_coatLast (n : Fin 8) (f : Pq → Pq) : (s.modPq n f).coatLast = s.coatLast := rfl
@[simp] theorem State.modPq_coat (n : Fin 8) (f : Pq → Pq) : (s.modPq n f).coat = s.coat := rfl
@[simp] theorem State.modPq_moves (n : Fin 8) (f : Pq → Pq) : (s.modPq n f).moves = s.moves := rfl
@[simp] theorem State.modPq_readback (n : Fin 8) (f : Pq → Pq) : (s.modPq n f).readback = s.readback := rfl
@[simp] theorem State.modPq_probes (n : Fin 8) (f : Pq → Pq) : (s.modPq n f).probes = s.probes := rfl
@[simp] theorem State.modPq_chains (n : Fin 8) (f : Pq → Pq) : (s.modPq n f).chains = s.chains := rfl
@[simp] theorem State.modPq_programs (n : Fin 8) (f : Pq → Pq) : (s.modPq n f).programs = s.programs := rfl
@[simp] theorem State.modPq_netlists (n : Fin 8) (f : Pq → Pq) : (s.modPq n f).netlists = s.netlists := rfl
@[simp] theorem State.modPq_heads (n : Fin 8) (f : Pq → Pq) : (s.modPq n f).heads = s.heads := rfl
@[simp] theorem State.modPq_jobs (n : Fin 8) (f : Pq → Pq) : (s.modPq n f).jobs = s.jobs := rfl
@[simp] theorem State.modPq_glyphs (n : Fin 8) (f : Pq → Pq) : (s.modPq n f).glyphs = s.glyphs := rfl
@[simp] theorem State.modPq_dates (n : Fin 8) (f : Pq → Pq) : (s.modPq n f).dates = s.dates := rfl
@[simp] theorem State.modPq_cal (n : Fin 8) (f : Pq → Pq) : (s.modPq n f).cal = s.cal := rfl
@[simp] theorem State.modPq_bist (n : Fin 8) (f : Pq → Pq) : (s.modPq n f).bist = s.bist := rfl
@[simp] theorem State.modPq_syncs (n : Fin 8) (f : Pq → Pq) : (s.modPq n f).syncs = s.syncs := rfl
@[simp] theorem State.modPq_lineSyncs (n : Fin 8) (f : Pq → Pq) : (s.modPq n f).lineSyncs = s.lineSyncs := rfl
@[simp] theorem State.modPq_panels (n : Fin 8) (f : Pq → Pq) : (s.modPq n f).panels = s.panels := rfl
@[simp] theorem State.modPq_tiles (n : Fin 8) (f : Pq → Pq) : (s.modPq n f).tiles = s.tiles := rfl
@[simp] theorem State.modPq_gpio (n : Fin 8) (f : Pq → Pq) : (s.modPq n f).gpio = s.gpio := rfl
@[simp] theorem State.modPq_tally (n : Fin 8) (f : Pq → Pq) : (s.modPq n f).tally = s.tally := rfl
@[simp] theorem State.modPq_hostMem (n : Fin 8) (f : Pq → Pq) : (s.modPq n f).hostMem = s.hostMem := rfl
@[simp] theorem State.modPq_free (n : Fin 8) (f : Pq → Pq) : (s.modPq n f).free = s.free := rfl
@[simp] theorem State.modPq_out (n : Fin 8) (f : Pq → Pq) : (s.modPq n f).out = s.out := rfl
@[simp] theorem State.modPq_pending (n : Fin 8) (f : Pq → Pq) : (s.modPq n f).pending = s.pending := rfl

/-! ### modMsix -/

@[simp] theorem State.modMsix_aon (v : Fin 64) (f : Msix → Msix) : (s.modMsix v f).aon = s.aon := rfl
@[simp] theorem State.modMsix_clk (v : Fin 64) (f : Msix → Msix) : (s.modMsix v f).clk = s.clk := rfl
@[simp] theorem State.modMsix_pwr (v : Fin 64) (f : Msix → Msix) : (s.modMsix v f).pwr = s.pwr := rfl
@[simp] theorem State.modMsix_link (v : Fin 64) (f : Msix → Msix) : (s.modMsix v f).link = s.link := rfl
@[simp] theorem State.modMsix_jsb (v : Fin 64) (f : Msix → Msix) : (s.modMsix v f).jsb = s.jsb := rfl
@[simp] theorem State.modMsix_cqs (v : Fin 64) (f : Msix → Msix) : (s.modMsix v f).cqs = s.cqs := rfl
@[simp] theorem State.modMsix_sts (v : Fin 64) (f : Msix → Msix) : (s.modMsix v f).sts = s.sts := rfl
@[simp] theorem State.modMsix_pqs (v : Fin 64) (f : Msix → Msix) : (s.modMsix v f).pqs = s.pqs := rfl
@[simp] theorem State.modMsix_turns (v : Fin 64) (f : Msix → Msix) : (s.modMsix v f).turns = s.turns := rfl
@[simp] theorem State.modMsix_ev (v : Fin 64) (f : Msix → Msix) : (s.modMsix v f).ev = s.ev := rfl
@[simp] theorem State.modMsix_sec (v : Fin 64) (f : Msix → Msix) : (s.modMsix v f).sec = s.sec := rfl
@[simp] theorem State.modMsix_fnMode (v : Fin 64) (f : Msix → Msix) : (s.modMsix v f).fnMode = s.fnMode := rfl
@[simp] theorem State.modMsix_scratch (v : Fin 64) (f : Msix → Msix) : (s.modMsix v f).scratch = s.scratch := rfl
@[simp] theorem State.modMsix_scrub (v : Fin 64) (f : Msix → Msix) : (s.modMsix v f).scrub = s.scrub := rfl
@[simp] theorem State.modMsix_mem (v : Fin 64) (f : Msix → Msix) : (s.modMsix v f).mem = s.mem := rfl
@[simp] theorem State.modMsix_shared (v : Fin 64) (f : Msix → Msix) : (s.modMsix v f).shared = s.shared := rfl
@[simp] theorem State.modMsix_ledger (v : Fin 64) (f : Msix → Msix) : (s.modMsix v f).ledger = s.ledger := rfl
@[simp] theorem State.modMsix_coatNo (v : Fin 64) (f : Msix → Msix) : (s.modMsix v f).coatNo = s.coatNo := rfl
@[simp] theorem State.modMsix_coatLast (v : Fin 64) (f : Msix → Msix) : (s.modMsix v f).coatLast = s.coatLast := rfl
@[simp] theorem State.modMsix_coat (v : Fin 64) (f : Msix → Msix) : (s.modMsix v f).coat = s.coat := rfl
@[simp] theorem State.modMsix_moves (v : Fin 64) (f : Msix → Msix) : (s.modMsix v f).moves = s.moves := rfl
@[simp] theorem State.modMsix_readback (v : Fin 64) (f : Msix → Msix) : (s.modMsix v f).readback = s.readback := rfl
@[simp] theorem State.modMsix_probes (v : Fin 64) (f : Msix → Msix) : (s.modMsix v f).probes = s.probes := rfl
@[simp] theorem State.modMsix_chains (v : Fin 64) (f : Msix → Msix) : (s.modMsix v f).chains = s.chains := rfl
@[simp] theorem State.modMsix_programs (v : Fin 64) (f : Msix → Msix) : (s.modMsix v f).programs = s.programs := rfl
@[simp] theorem State.modMsix_netlists (v : Fin 64) (f : Msix → Msix) : (s.modMsix v f).netlists = s.netlists := rfl
@[simp] theorem State.modMsix_heads (v : Fin 64) (f : Msix → Msix) : (s.modMsix v f).heads = s.heads := rfl
@[simp] theorem State.modMsix_jobs (v : Fin 64) (f : Msix → Msix) : (s.modMsix v f).jobs = s.jobs := rfl
@[simp] theorem State.modMsix_glyphs (v : Fin 64) (f : Msix → Msix) : (s.modMsix v f).glyphs = s.glyphs := rfl
@[simp] theorem State.modMsix_dates (v : Fin 64) (f : Msix → Msix) : (s.modMsix v f).dates = s.dates := rfl
@[simp] theorem State.modMsix_cal (v : Fin 64) (f : Msix → Msix) : (s.modMsix v f).cal = s.cal := rfl
@[simp] theorem State.modMsix_bist (v : Fin 64) (f : Msix → Msix) : (s.modMsix v f).bist = s.bist := rfl
@[simp] theorem State.modMsix_syncs (v : Fin 64) (f : Msix → Msix) : (s.modMsix v f).syncs = s.syncs := rfl
@[simp] theorem State.modMsix_lineSyncs (v : Fin 64) (f : Msix → Msix) : (s.modMsix v f).lineSyncs = s.lineSyncs := rfl
@[simp] theorem State.modMsix_panels (v : Fin 64) (f : Msix → Msix) : (s.modMsix v f).panels = s.panels := rfl
@[simp] theorem State.modMsix_tiles (v : Fin 64) (f : Msix → Msix) : (s.modMsix v f).tiles = s.tiles := rfl
@[simp] theorem State.modMsix_gpio (v : Fin 64) (f : Msix → Msix) : (s.modMsix v f).gpio = s.gpio := rfl
@[simp] theorem State.modMsix_tally (v : Fin 64) (f : Msix → Msix) : (s.modMsix v f).tally = s.tally := rfl
@[simp] theorem State.modMsix_hostMem (v : Fin 64) (f : Msix → Msix) : (s.modMsix v f).hostMem = s.hostMem := rfl
@[simp] theorem State.modMsix_free (v : Fin 64) (f : Msix → Msix) : (s.modMsix v f).free = s.free := rfl
@[simp] theorem State.modMsix_out (v : Fin 64) (f : Msix → Msix) : (s.modMsix v f).out = s.out := rfl
@[simp] theorem State.modMsix_pending (v : Fin 64) (f : Msix → Msix) : (s.modMsix v f).pending = s.pending := rfl

/-! ### modEnc -/

@[simp] theorem State.modEnc_clk (n : Fin 8) (f : Encoder → Encoder) : (s.modEnc n f).clk = s.clk := rfl
@[simp] theorem State.modEnc_pwr (n : Fin 8) (f : Encoder → Encoder) : (s.modEnc n f).pwr = s.pwr := rfl
@[simp] theorem State.modEnc_link (n : Fin 8) (f : Encoder → Encoder) : (s.modEnc n f).link = s.link := rfl
@[simp] theorem State.modEnc_jsb (n : Fin 8) (f : Encoder → Encoder) : (s.modEnc n f).jsb = s.jsb := rfl
@[simp] theorem State.modEnc_cqs (n : Fin 8) (f : Encoder → Encoder) : (s.modEnc n f).cqs = s.cqs := rfl
@[simp] theorem State.modEnc_sts (n : Fin 8) (f : Encoder → Encoder) : (s.modEnc n f).sts = s.sts := rfl
@[simp] theorem State.modEnc_pqs (n : Fin 8) (f : Encoder → Encoder) : (s.modEnc n f).pqs = s.pqs := rfl
@[simp] theorem State.modEnc_turns (n : Fin 8) (f : Encoder → Encoder) : (s.modEnc n f).turns = s.turns := rfl
@[simp] theorem State.modEnc_ev (n : Fin 8) (f : Encoder → Encoder) : (s.modEnc n f).ev = s.ev := rfl
@[simp] theorem State.modEnc_msix (n : Fin 8) (f : Encoder → Encoder) : (s.modEnc n f).msix = s.msix := rfl
@[simp] theorem State.modEnc_sec (n : Fin 8) (f : Encoder → Encoder) : (s.modEnc n f).sec = s.sec := rfl
@[simp] theorem State.modEnc_fnMode (n : Fin 8) (f : Encoder → Encoder) : (s.modEnc n f).fnMode = s.fnMode := rfl
@[simp] theorem State.modEnc_scratch (n : Fin 8) (f : Encoder → Encoder) : (s.modEnc n f).scratch = s.scratch := rfl
@[simp] theorem State.modEnc_scrub (n : Fin 8) (f : Encoder → Encoder) : (s.modEnc n f).scrub = s.scrub := rfl
@[simp] theorem State.modEnc_mem (n : Fin 8) (f : Encoder → Encoder) : (s.modEnc n f).mem = s.mem := rfl
@[simp] theorem State.modEnc_shared (n : Fin 8) (f : Encoder → Encoder) : (s.modEnc n f).shared = s.shared := rfl
@[simp] theorem State.modEnc_ledger (n : Fin 8) (f : Encoder → Encoder) : (s.modEnc n f).ledger = s.ledger := rfl
@[simp] theorem State.modEnc_coatNo (n : Fin 8) (f : Encoder → Encoder) : (s.modEnc n f).coatNo = s.coatNo := rfl
@[simp] theorem State.modEnc_coatLast (n : Fin 8) (f : Encoder → Encoder) : (s.modEnc n f).coatLast = s.coatLast := rfl
@[simp] theorem State.modEnc_coat (n : Fin 8) (f : Encoder → Encoder) : (s.modEnc n f).coat = s.coat := rfl
@[simp] theorem State.modEnc_moves (n : Fin 8) (f : Encoder → Encoder) : (s.modEnc n f).moves = s.moves := rfl
@[simp] theorem State.modEnc_readback (n : Fin 8) (f : Encoder → Encoder) : (s.modEnc n f).readback = s.readback := rfl
@[simp] theorem State.modEnc_probes (n : Fin 8) (f : Encoder → Encoder) : (s.modEnc n f).probes = s.probes := rfl
@[simp] theorem State.modEnc_chains (n : Fin 8) (f : Encoder → Encoder) : (s.modEnc n f).chains = s.chains := rfl
@[simp] theorem State.modEnc_programs (n : Fin 8) (f : Encoder → Encoder) : (s.modEnc n f).programs = s.programs := rfl
@[simp] theorem State.modEnc_netlists (n : Fin 8) (f : Encoder → Encoder) : (s.modEnc n f).netlists = s.netlists := rfl
@[simp] theorem State.modEnc_heads (n : Fin 8) (f : Encoder → Encoder) : (s.modEnc n f).heads = s.heads := rfl
@[simp] theorem State.modEnc_jobs (n : Fin 8) (f : Encoder → Encoder) : (s.modEnc n f).jobs = s.jobs := rfl
@[simp] theorem State.modEnc_glyphs (n : Fin 8) (f : Encoder → Encoder) : (s.modEnc n f).glyphs = s.glyphs := rfl
@[simp] theorem State.modEnc_dates (n : Fin 8) (f : Encoder → Encoder) : (s.modEnc n f).dates = s.dates := rfl
@[simp] theorem State.modEnc_cal (n : Fin 8) (f : Encoder → Encoder) : (s.modEnc n f).cal = s.cal := rfl
@[simp] theorem State.modEnc_bist (n : Fin 8) (f : Encoder → Encoder) : (s.modEnc n f).bist = s.bist := rfl
@[simp] theorem State.modEnc_syncs (n : Fin 8) (f : Encoder → Encoder) : (s.modEnc n f).syncs = s.syncs := rfl
@[simp] theorem State.modEnc_lineSyncs (n : Fin 8) (f : Encoder → Encoder) : (s.modEnc n f).lineSyncs = s.lineSyncs := rfl
@[simp] theorem State.modEnc_panels (n : Fin 8) (f : Encoder → Encoder) : (s.modEnc n f).panels = s.panels := rfl
@[simp] theorem State.modEnc_tiles (n : Fin 8) (f : Encoder → Encoder) : (s.modEnc n f).tiles = s.tiles := rfl
@[simp] theorem State.modEnc_gpio (n : Fin 8) (f : Encoder → Encoder) : (s.modEnc n f).gpio = s.gpio := rfl
@[simp] theorem State.modEnc_tally (n : Fin 8) (f : Encoder → Encoder) : (s.modEnc n f).tally = s.tally := rfl
@[simp] theorem State.modEnc_hostMem (n : Fin 8) (f : Encoder → Encoder) : (s.modEnc n f).hostMem = s.hostMem := rfl
@[simp] theorem State.modEnc_free (n : Fin 8) (f : Encoder → Encoder) : (s.modEnc n f).free = s.free := rfl
@[simp] theorem State.modEnc_out (n : Fin 8) (f : Encoder → Encoder) : (s.modEnc n f).out = s.out := rfl
@[simp] theorem State.modEnc_pending (n : Fin 8) (f : Encoder → Encoder) : (s.modEnc n f).pending = s.pending := rfl

/-! ### modPin -/

@[simp] theorem State.modPin_aon (p : PinId) (f : Pin → Pin) : (s.modPin p f).aon = s.aon := rfl
@[simp] theorem State.modPin_clk (p : PinId) (f : Pin → Pin) : (s.modPin p f).clk = s.clk := rfl
@[simp] theorem State.modPin_pwr (p : PinId) (f : Pin → Pin) : (s.modPin p f).pwr = s.pwr := rfl
@[simp] theorem State.modPin_link (p : PinId) (f : Pin → Pin) : (s.modPin p f).link = s.link := rfl
@[simp] theorem State.modPin_jsb (p : PinId) (f : Pin → Pin) : (s.modPin p f).jsb = s.jsb := rfl
@[simp] theorem State.modPin_cqs (p : PinId) (f : Pin → Pin) : (s.modPin p f).cqs = s.cqs := rfl
@[simp] theorem State.modPin_sts (p : PinId) (f : Pin → Pin) : (s.modPin p f).sts = s.sts := rfl
@[simp] theorem State.modPin_pqs (p : PinId) (f : Pin → Pin) : (s.modPin p f).pqs = s.pqs := rfl
@[simp] theorem State.modPin_turns (p : PinId) (f : Pin → Pin) : (s.modPin p f).turns = s.turns := rfl
@[simp] theorem State.modPin_ev (p : PinId) (f : Pin → Pin) : (s.modPin p f).ev = s.ev := rfl
@[simp] theorem State.modPin_msix (p : PinId) (f : Pin → Pin) : (s.modPin p f).msix = s.msix := rfl
@[simp] theorem State.modPin_sec (p : PinId) (f : Pin → Pin) : (s.modPin p f).sec = s.sec := rfl
@[simp] theorem State.modPin_fnMode (p : PinId) (f : Pin → Pin) : (s.modPin p f).fnMode = s.fnMode := rfl
@[simp] theorem State.modPin_scratch (p : PinId) (f : Pin → Pin) : (s.modPin p f).scratch = s.scratch := rfl
@[simp] theorem State.modPin_scrub (p : PinId) (f : Pin → Pin) : (s.modPin p f).scrub = s.scrub := rfl
@[simp] theorem State.modPin_mem (p : PinId) (f : Pin → Pin) : (s.modPin p f).mem = s.mem := rfl
@[simp] theorem State.modPin_shared (p : PinId) (f : Pin → Pin) : (s.modPin p f).shared = s.shared := rfl
@[simp] theorem State.modPin_ledger (p : PinId) (f : Pin → Pin) : (s.modPin p f).ledger = s.ledger := rfl
@[simp] theorem State.modPin_coatNo (p : PinId) (f : Pin → Pin) : (s.modPin p f).coatNo = s.coatNo := rfl
@[simp] theorem State.modPin_coatLast (p : PinId) (f : Pin → Pin) : (s.modPin p f).coatLast = s.coatLast := rfl
@[simp] theorem State.modPin_coat (p : PinId) (f : Pin → Pin) : (s.modPin p f).coat = s.coat := rfl
@[simp] theorem State.modPin_moves (p : PinId) (f : Pin → Pin) : (s.modPin p f).moves = s.moves := rfl
@[simp] theorem State.modPin_readback (p : PinId) (f : Pin → Pin) : (s.modPin p f).readback = s.readback := rfl
@[simp] theorem State.modPin_probes (p : PinId) (f : Pin → Pin) : (s.modPin p f).probes = s.probes := rfl
@[simp] theorem State.modPin_chains (p : PinId) (f : Pin → Pin) : (s.modPin p f).chains = s.chains := rfl
@[simp] theorem State.modPin_programs (p : PinId) (f : Pin → Pin) : (s.modPin p f).programs = s.programs := rfl
@[simp] theorem State.modPin_netlists (p : PinId) (f : Pin → Pin) : (s.modPin p f).netlists = s.netlists := rfl
@[simp] theorem State.modPin_heads (p : PinId) (f : Pin → Pin) : (s.modPin p f).heads = s.heads := rfl
@[simp] theorem State.modPin_jobs (p : PinId) (f : Pin → Pin) : (s.modPin p f).jobs = s.jobs := rfl
@[simp] theorem State.modPin_glyphs (p : PinId) (f : Pin → Pin) : (s.modPin p f).glyphs = s.glyphs := rfl
@[simp] theorem State.modPin_dates (p : PinId) (f : Pin → Pin) : (s.modPin p f).dates = s.dates := rfl
@[simp] theorem State.modPin_cal (p : PinId) (f : Pin → Pin) : (s.modPin p f).cal = s.cal := rfl
@[simp] theorem State.modPin_bist (p : PinId) (f : Pin → Pin) : (s.modPin p f).bist = s.bist := rfl
@[simp] theorem State.modPin_syncs (p : PinId) (f : Pin → Pin) : (s.modPin p f).syncs = s.syncs := rfl
@[simp] theorem State.modPin_lineSyncs (p : PinId) (f : Pin → Pin) : (s.modPin p f).lineSyncs = s.lineSyncs := rfl
@[simp] theorem State.modPin_panels (p : PinId) (f : Pin → Pin) : (s.modPin p f).panels = s.panels := rfl
@[simp] theorem State.modPin_tiles (p : PinId) (f : Pin → Pin) : (s.modPin p f).tiles = s.tiles := rfl
@[simp] theorem State.modPin_tally (p : PinId) (f : Pin → Pin) : (s.modPin p f).tally = s.tally := rfl
@[simp] theorem State.modPin_hostMem (p : PinId) (f : Pin → Pin) : (s.modPin p f).hostMem = s.hostMem := rfl
@[simp] theorem State.modPin_free (p : PinId) (f : Pin → Pin) : (s.modPin p f).free = s.free := rfl
@[simp] theorem State.modPin_out (p : PinId) (f : Pin → Pin) : (s.modPin p f).out = s.out := rfl
@[simp] theorem State.modPin_pending (p : PinId) (f : Pin → Pin) : (s.modPin p f).pending = s.pending := rfl

/-! ### modTimer -/

@[simp] theorem State.modTimer_aon (k : Fin 16) (f : Timer → Timer) : (s.modTimer k f).aon = s.aon := rfl
@[simp] theorem State.modTimer_clk (k : Fin 16) (f : Timer → Timer) : (s.modTimer k f).clk = s.clk := rfl
@[simp] theorem State.modTimer_pwr (k : Fin 16) (f : Timer → Timer) : (s.modTimer k f).pwr = s.pwr := rfl
@[simp] theorem State.modTimer_link (k : Fin 16) (f : Timer → Timer) : (s.modTimer k f).link = s.link := rfl
@[simp] theorem State.modTimer_jsb (k : Fin 16) (f : Timer → Timer) : (s.modTimer k f).jsb = s.jsb := rfl
@[simp] theorem State.modTimer_cqs (k : Fin 16) (f : Timer → Timer) : (s.modTimer k f).cqs = s.cqs := rfl
@[simp] theorem State.modTimer_sts (k : Fin 16) (f : Timer → Timer) : (s.modTimer k f).sts = s.sts := rfl
@[simp] theorem State.modTimer_pqs (k : Fin 16) (f : Timer → Timer) : (s.modTimer k f).pqs = s.pqs := rfl
@[simp] theorem State.modTimer_turns (k : Fin 16) (f : Timer → Timer) : (s.modTimer k f).turns = s.turns := rfl
@[simp] theorem State.modTimer_ev (k : Fin 16) (f : Timer → Timer) : (s.modTimer k f).ev = s.ev := rfl
@[simp] theorem State.modTimer_msix (k : Fin 16) (f : Timer → Timer) : (s.modTimer k f).msix = s.msix := rfl
@[simp] theorem State.modTimer_sec (k : Fin 16) (f : Timer → Timer) : (s.modTimer k f).sec = s.sec := rfl
@[simp] theorem State.modTimer_fnMode (k : Fin 16) (f : Timer → Timer) : (s.modTimer k f).fnMode = s.fnMode := rfl
@[simp] theorem State.modTimer_scratch (k : Fin 16) (f : Timer → Timer) : (s.modTimer k f).scratch = s.scratch := rfl
@[simp] theorem State.modTimer_scrub (k : Fin 16) (f : Timer → Timer) : (s.modTimer k f).scrub = s.scrub := rfl
@[simp] theorem State.modTimer_mem (k : Fin 16) (f : Timer → Timer) : (s.modTimer k f).mem = s.mem := rfl
@[simp] theorem State.modTimer_shared (k : Fin 16) (f : Timer → Timer) : (s.modTimer k f).shared = s.shared := rfl
@[simp] theorem State.modTimer_ledger (k : Fin 16) (f : Timer → Timer) : (s.modTimer k f).ledger = s.ledger := rfl
@[simp] theorem State.modTimer_coatNo (k : Fin 16) (f : Timer → Timer) : (s.modTimer k f).coatNo = s.coatNo := rfl
@[simp] theorem State.modTimer_coatLast (k : Fin 16) (f : Timer → Timer) : (s.modTimer k f).coatLast = s.coatLast := rfl
@[simp] theorem State.modTimer_coat (k : Fin 16) (f : Timer → Timer) : (s.modTimer k f).coat = s.coat := rfl
@[simp] theorem State.modTimer_moves (k : Fin 16) (f : Timer → Timer) : (s.modTimer k f).moves = s.moves := rfl
@[simp] theorem State.modTimer_readback (k : Fin 16) (f : Timer → Timer) : (s.modTimer k f).readback = s.readback := rfl
@[simp] theorem State.modTimer_probes (k : Fin 16) (f : Timer → Timer) : (s.modTimer k f).probes = s.probes := rfl
@[simp] theorem State.modTimer_chains (k : Fin 16) (f : Timer → Timer) : (s.modTimer k f).chains = s.chains := rfl
@[simp] theorem State.modTimer_programs (k : Fin 16) (f : Timer → Timer) : (s.modTimer k f).programs = s.programs := rfl
@[simp] theorem State.modTimer_netlists (k : Fin 16) (f : Timer → Timer) : (s.modTimer k f).netlists = s.netlists := rfl
@[simp] theorem State.modTimer_heads (k : Fin 16) (f : Timer → Timer) : (s.modTimer k f).heads = s.heads := rfl
@[simp] theorem State.modTimer_jobs (k : Fin 16) (f : Timer → Timer) : (s.modTimer k f).jobs = s.jobs := rfl
@[simp] theorem State.modTimer_glyphs (k : Fin 16) (f : Timer → Timer) : (s.modTimer k f).glyphs = s.glyphs := rfl
@[simp] theorem State.modTimer_dates (k : Fin 16) (f : Timer → Timer) : (s.modTimer k f).dates = s.dates := rfl
@[simp] theorem State.modTimer_cal (k : Fin 16) (f : Timer → Timer) : (s.modTimer k f).cal = s.cal := rfl
@[simp] theorem State.modTimer_bist (k : Fin 16) (f : Timer → Timer) : (s.modTimer k f).bist = s.bist := rfl
@[simp] theorem State.modTimer_syncs (k : Fin 16) (f : Timer → Timer) : (s.modTimer k f).syncs = s.syncs := rfl
@[simp] theorem State.modTimer_lineSyncs (k : Fin 16) (f : Timer → Timer) : (s.modTimer k f).lineSyncs = s.lineSyncs := rfl
@[simp] theorem State.modTimer_panels (k : Fin 16) (f : Timer → Timer) : (s.modTimer k f).panels = s.panels := rfl
@[simp] theorem State.modTimer_tiles (k : Fin 16) (f : Timer → Timer) : (s.modTimer k f).tiles = s.tiles := rfl
@[simp] theorem State.modTimer_tally (k : Fin 16) (f : Timer → Timer) : (s.modTimer k f).tally = s.tally := rfl
@[simp] theorem State.modTimer_hostMem (k : Fin 16) (f : Timer → Timer) : (s.modTimer k f).hostMem = s.hostMem := rfl
@[simp] theorem State.modTimer_free (k : Fin 16) (f : Timer → Timer) : (s.modTimer k f).free = s.free := rfl
@[simp] theorem State.modTimer_out (k : Fin 16) (f : Timer → Timer) : (s.modTimer k f).out = s.out := rfl
@[simp] theorem State.modTimer_pending (k : Fin 16) (f : Timer → Timer) : (s.modTimer k f).pending = s.pending := rfl

/-! ### modEng -/

@[simp] theorem State.modEng_aon (t : TileId) (f : Engine → Engine) : (s.modEng t f).aon = s.aon := rfl
@[simp] theorem State.modEng_clk (t : TileId) (f : Engine → Engine) : (s.modEng t f).clk = s.clk := rfl
@[simp] theorem State.modEng_pwr (t : TileId) (f : Engine → Engine) : (s.modEng t f).pwr = s.pwr := rfl
@[simp] theorem State.modEng_link (t : TileId) (f : Engine → Engine) : (s.modEng t f).link = s.link := rfl
@[simp] theorem State.modEng_jsb (t : TileId) (f : Engine → Engine) : (s.modEng t f).jsb = s.jsb := rfl
@[simp] theorem State.modEng_cqs (t : TileId) (f : Engine → Engine) : (s.modEng t f).cqs = s.cqs := rfl
@[simp] theorem State.modEng_sts (t : TileId) (f : Engine → Engine) : (s.modEng t f).sts = s.sts := rfl
@[simp] theorem State.modEng_pqs (t : TileId) (f : Engine → Engine) : (s.modEng t f).pqs = s.pqs := rfl
@[simp] theorem State.modEng_turns (t : TileId) (f : Engine → Engine) : (s.modEng t f).turns = s.turns := rfl
@[simp] theorem State.modEng_ev (t : TileId) (f : Engine → Engine) : (s.modEng t f).ev = s.ev := rfl
@[simp] theorem State.modEng_msix (t : TileId) (f : Engine → Engine) : (s.modEng t f).msix = s.msix := rfl
@[simp] theorem State.modEng_sec (t : TileId) (f : Engine → Engine) : (s.modEng t f).sec = s.sec := rfl
@[simp] theorem State.modEng_fnMode (t : TileId) (f : Engine → Engine) : (s.modEng t f).fnMode = s.fnMode := rfl
@[simp] theorem State.modEng_scratch (t : TileId) (f : Engine → Engine) : (s.modEng t f).scratch = s.scratch := rfl
@[simp] theorem State.modEng_scrub (t : TileId) (f : Engine → Engine) : (s.modEng t f).scrub = s.scrub := rfl
@[simp] theorem State.modEng_mem (t : TileId) (f : Engine → Engine) : (s.modEng t f).mem = s.mem := rfl
@[simp] theorem State.modEng_shared (t : TileId) (f : Engine → Engine) : (s.modEng t f).shared = s.shared := rfl
@[simp] theorem State.modEng_ledger (t : TileId) (f : Engine → Engine) : (s.modEng t f).ledger = s.ledger := rfl
@[simp] theorem State.modEng_coatNo (t : TileId) (f : Engine → Engine) : (s.modEng t f).coatNo = s.coatNo := rfl
@[simp] theorem State.modEng_coatLast (t : TileId) (f : Engine → Engine) : (s.modEng t f).coatLast = s.coatLast := rfl
@[simp] theorem State.modEng_coat (t : TileId) (f : Engine → Engine) : (s.modEng t f).coat = s.coat := rfl
@[simp] theorem State.modEng_moves (t : TileId) (f : Engine → Engine) : (s.modEng t f).moves = s.moves := rfl
@[simp] theorem State.modEng_readback (t : TileId) (f : Engine → Engine) : (s.modEng t f).readback = s.readback := rfl
@[simp] theorem State.modEng_probes (t : TileId) (f : Engine → Engine) : (s.modEng t f).probes = s.probes := rfl
@[simp] theorem State.modEng_chains (t : TileId) (f : Engine → Engine) : (s.modEng t f).chains = s.chains := rfl
@[simp] theorem State.modEng_programs (t : TileId) (f : Engine → Engine) : (s.modEng t f).programs = s.programs := rfl
@[simp] theorem State.modEng_netlists (t : TileId) (f : Engine → Engine) : (s.modEng t f).netlists = s.netlists := rfl
@[simp] theorem State.modEng_heads (t : TileId) (f : Engine → Engine) : (s.modEng t f).heads = s.heads := rfl
@[simp] theorem State.modEng_jobs (t : TileId) (f : Engine → Engine) : (s.modEng t f).jobs = s.jobs := rfl
@[simp] theorem State.modEng_glyphs (t : TileId) (f : Engine → Engine) : (s.modEng t f).glyphs = s.glyphs := rfl
@[simp] theorem State.modEng_dates (t : TileId) (f : Engine → Engine) : (s.modEng t f).dates = s.dates := rfl
@[simp] theorem State.modEng_cal (t : TileId) (f : Engine → Engine) : (s.modEng t f).cal = s.cal := rfl
@[simp] theorem State.modEng_bist (t : TileId) (f : Engine → Engine) : (s.modEng t f).bist = s.bist := rfl
@[simp] theorem State.modEng_syncs (t : TileId) (f : Engine → Engine) : (s.modEng t f).syncs = s.syncs := rfl
@[simp] theorem State.modEng_lineSyncs (t : TileId) (f : Engine → Engine) : (s.modEng t f).lineSyncs = s.lineSyncs := rfl
@[simp] theorem State.modEng_panels (t : TileId) (f : Engine → Engine) : (s.modEng t f).panels = s.panels := rfl
@[simp] theorem State.modEng_gpio (t : TileId) (f : Engine → Engine) : (s.modEng t f).gpio = s.gpio := rfl
@[simp] theorem State.modEng_tally (t : TileId) (f : Engine → Engine) : (s.modEng t f).tally = s.tally := rfl
@[simp] theorem State.modEng_hostMem (t : TileId) (f : Engine → Engine) : (s.modEng t f).hostMem = s.hostMem := rfl
@[simp] theorem State.modEng_free (t : TileId) (f : Engine → Engine) : (s.modEng t f).free = s.free := rfl
@[simp] theorem State.modEng_out (t : TileId) (f : Engine → Engine) : (s.modEng t f).out = s.out := rfl
@[simp] theorem State.modEng_pending (t : TileId) (f : Engine → Engine) : (s.modEng t f).pending = s.pending := rfl

/-! ### modTrowel -/

@[simp] theorem State.modTrowel_aon (t : TileId) (f : Trowel → Trowel) : (s.modTrowel t f).aon = s.aon := rfl
@[simp] theorem State.modTrowel_clk (t : TileId) (f : Trowel → Trowel) : (s.modTrowel t f).clk = s.clk := rfl
@[simp] theorem State.modTrowel_pwr (t : TileId) (f : Trowel → Trowel) : (s.modTrowel t f).pwr = s.pwr := rfl
@[simp] theorem State.modTrowel_link (t : TileId) (f : Trowel → Trowel) : (s.modTrowel t f).link = s.link := rfl
@[simp] theorem State.modTrowel_jsb (t : TileId) (f : Trowel → Trowel) : (s.modTrowel t f).jsb = s.jsb := rfl
@[simp] theorem State.modTrowel_cqs (t : TileId) (f : Trowel → Trowel) : (s.modTrowel t f).cqs = s.cqs := rfl
@[simp] theorem State.modTrowel_sts (t : TileId) (f : Trowel → Trowel) : (s.modTrowel t f).sts = s.sts := rfl
@[simp] theorem State.modTrowel_pqs (t : TileId) (f : Trowel → Trowel) : (s.modTrowel t f).pqs = s.pqs := rfl
@[simp] theorem State.modTrowel_turns (t : TileId) (f : Trowel → Trowel) : (s.modTrowel t f).turns = s.turns := rfl
@[simp] theorem State.modTrowel_ev (t : TileId) (f : Trowel → Trowel) : (s.modTrowel t f).ev = s.ev := rfl
@[simp] theorem State.modTrowel_msix (t : TileId) (f : Trowel → Trowel) : (s.modTrowel t f).msix = s.msix := rfl
@[simp] theorem State.modTrowel_sec (t : TileId) (f : Trowel → Trowel) : (s.modTrowel t f).sec = s.sec := rfl
@[simp] theorem State.modTrowel_fnMode (t : TileId) (f : Trowel → Trowel) : (s.modTrowel t f).fnMode = s.fnMode := rfl
@[simp] theorem State.modTrowel_scratch (t : TileId) (f : Trowel → Trowel) : (s.modTrowel t f).scratch = s.scratch := rfl
@[simp] theorem State.modTrowel_scrub (t : TileId) (f : Trowel → Trowel) : (s.modTrowel t f).scrub = s.scrub := rfl
@[simp] theorem State.modTrowel_mem (t : TileId) (f : Trowel → Trowel) : (s.modTrowel t f).mem = s.mem := rfl
@[simp] theorem State.modTrowel_shared (t : TileId) (f : Trowel → Trowel) : (s.modTrowel t f).shared = s.shared := rfl
@[simp] theorem State.modTrowel_ledger (t : TileId) (f : Trowel → Trowel) : (s.modTrowel t f).ledger = s.ledger := rfl
@[simp] theorem State.modTrowel_coatNo (t : TileId) (f : Trowel → Trowel) : (s.modTrowel t f).coatNo = s.coatNo := rfl
@[simp] theorem State.modTrowel_coatLast (t : TileId) (f : Trowel → Trowel) : (s.modTrowel t f).coatLast = s.coatLast := rfl
@[simp] theorem State.modTrowel_coat (t : TileId) (f : Trowel → Trowel) : (s.modTrowel t f).coat = s.coat := rfl
@[simp] theorem State.modTrowel_moves (t : TileId) (f : Trowel → Trowel) : (s.modTrowel t f).moves = s.moves := rfl
@[simp] theorem State.modTrowel_readback (t : TileId) (f : Trowel → Trowel) : (s.modTrowel t f).readback = s.readback := rfl
@[simp] theorem State.modTrowel_probes (t : TileId) (f : Trowel → Trowel) : (s.modTrowel t f).probes = s.probes := rfl
@[simp] theorem State.modTrowel_chains (t : TileId) (f : Trowel → Trowel) : (s.modTrowel t f).chains = s.chains := rfl
@[simp] theorem State.modTrowel_programs (t : TileId) (f : Trowel → Trowel) : (s.modTrowel t f).programs = s.programs := rfl
@[simp] theorem State.modTrowel_netlists (t : TileId) (f : Trowel → Trowel) : (s.modTrowel t f).netlists = s.netlists := rfl
@[simp] theorem State.modTrowel_heads (t : TileId) (f : Trowel → Trowel) : (s.modTrowel t f).heads = s.heads := rfl
@[simp] theorem State.modTrowel_jobs (t : TileId) (f : Trowel → Trowel) : (s.modTrowel t f).jobs = s.jobs := rfl
@[simp] theorem State.modTrowel_glyphs (t : TileId) (f : Trowel → Trowel) : (s.modTrowel t f).glyphs = s.glyphs := rfl
@[simp] theorem State.modTrowel_dates (t : TileId) (f : Trowel → Trowel) : (s.modTrowel t f).dates = s.dates := rfl
@[simp] theorem State.modTrowel_cal (t : TileId) (f : Trowel → Trowel) : (s.modTrowel t f).cal = s.cal := rfl
@[simp] theorem State.modTrowel_bist (t : TileId) (f : Trowel → Trowel) : (s.modTrowel t f).bist = s.bist := rfl
@[simp] theorem State.modTrowel_syncs (t : TileId) (f : Trowel → Trowel) : (s.modTrowel t f).syncs = s.syncs := rfl
@[simp] theorem State.modTrowel_lineSyncs (t : TileId) (f : Trowel → Trowel) : (s.modTrowel t f).lineSyncs = s.lineSyncs := rfl
@[simp] theorem State.modTrowel_panels (t : TileId) (f : Trowel → Trowel) : (s.modTrowel t f).panels = s.panels := rfl
@[simp] theorem State.modTrowel_gpio (t : TileId) (f : Trowel → Trowel) : (s.modTrowel t f).gpio = s.gpio := rfl
@[simp] theorem State.modTrowel_tally (t : TileId) (f : Trowel → Trowel) : (s.modTrowel t f).tally = s.tally := rfl
@[simp] theorem State.modTrowel_hostMem (t : TileId) (f : Trowel → Trowel) : (s.modTrowel t f).hostMem = s.hostMem := rfl
@[simp] theorem State.modTrowel_free (t : TileId) (f : Trowel → Trowel) : (s.modTrowel t f).free = s.free := rfl
@[simp] theorem State.modTrowel_out (t : TileId) (f : Trowel → Trowel) : (s.modTrowel t f).out = s.out := rfl
@[simp] theorem State.modTrowel_pending (t : TileId) (f : Trowel → Trowel) : (s.modTrowel t f).pending = s.pending := rfl

/-! ### modCmp -/

@[simp] theorem State.modCmp_aon (t : TileId) (c : Cmp) (f : Comparator → Comparator) : (s.modCmp t c f).aon = s.aon := rfl
@[simp] theorem State.modCmp_clk (t : TileId) (c : Cmp) (f : Comparator → Comparator) : (s.modCmp t c f).clk = s.clk := rfl
@[simp] theorem State.modCmp_pwr (t : TileId) (c : Cmp) (f : Comparator → Comparator) : (s.modCmp t c f).pwr = s.pwr := rfl
@[simp] theorem State.modCmp_link (t : TileId) (c : Cmp) (f : Comparator → Comparator) : (s.modCmp t c f).link = s.link := rfl
@[simp] theorem State.modCmp_jsb (t : TileId) (c : Cmp) (f : Comparator → Comparator) : (s.modCmp t c f).jsb = s.jsb := rfl
@[simp] theorem State.modCmp_cqs (t : TileId) (c : Cmp) (f : Comparator → Comparator) : (s.modCmp t c f).cqs = s.cqs := rfl
@[simp] theorem State.modCmp_sts (t : TileId) (c : Cmp) (f : Comparator → Comparator) : (s.modCmp t c f).sts = s.sts := rfl
@[simp] theorem State.modCmp_pqs (t : TileId) (c : Cmp) (f : Comparator → Comparator) : (s.modCmp t c f).pqs = s.pqs := rfl
@[simp] theorem State.modCmp_turns (t : TileId) (c : Cmp) (f : Comparator → Comparator) : (s.modCmp t c f).turns = s.turns := rfl
@[simp] theorem State.modCmp_ev (t : TileId) (c : Cmp) (f : Comparator → Comparator) : (s.modCmp t c f).ev = s.ev := rfl
@[simp] theorem State.modCmp_msix (t : TileId) (c : Cmp) (f : Comparator → Comparator) : (s.modCmp t c f).msix = s.msix := rfl
@[simp] theorem State.modCmp_sec (t : TileId) (c : Cmp) (f : Comparator → Comparator) : (s.modCmp t c f).sec = s.sec := rfl
@[simp] theorem State.modCmp_fnMode (t : TileId) (c : Cmp) (f : Comparator → Comparator) : (s.modCmp t c f).fnMode = s.fnMode := rfl
@[simp] theorem State.modCmp_scratch (t : TileId) (c : Cmp) (f : Comparator → Comparator) : (s.modCmp t c f).scratch = s.scratch := rfl
@[simp] theorem State.modCmp_scrub (t : TileId) (c : Cmp) (f : Comparator → Comparator) : (s.modCmp t c f).scrub = s.scrub := rfl
@[simp] theorem State.modCmp_mem (t : TileId) (c : Cmp) (f : Comparator → Comparator) : (s.modCmp t c f).mem = s.mem := rfl
@[simp] theorem State.modCmp_shared (t : TileId) (c : Cmp) (f : Comparator → Comparator) : (s.modCmp t c f).shared = s.shared := rfl
@[simp] theorem State.modCmp_ledger (t : TileId) (c : Cmp) (f : Comparator → Comparator) : (s.modCmp t c f).ledger = s.ledger := rfl
@[simp] theorem State.modCmp_coatNo (t : TileId) (c : Cmp) (f : Comparator → Comparator) : (s.modCmp t c f).coatNo = s.coatNo := rfl
@[simp] theorem State.modCmp_coatLast (t : TileId) (c : Cmp) (f : Comparator → Comparator) : (s.modCmp t c f).coatLast = s.coatLast := rfl
@[simp] theorem State.modCmp_coat (t : TileId) (c : Cmp) (f : Comparator → Comparator) : (s.modCmp t c f).coat = s.coat := rfl
@[simp] theorem State.modCmp_moves (t : TileId) (c : Cmp) (f : Comparator → Comparator) : (s.modCmp t c f).moves = s.moves := rfl
@[simp] theorem State.modCmp_readback (t : TileId) (c : Cmp) (f : Comparator → Comparator) : (s.modCmp t c f).readback = s.readback := rfl
@[simp] theorem State.modCmp_probes (t : TileId) (c : Cmp) (f : Comparator → Comparator) : (s.modCmp t c f).probes = s.probes := rfl
@[simp] theorem State.modCmp_chains (t : TileId) (c : Cmp) (f : Comparator → Comparator) : (s.modCmp t c f).chains = s.chains := rfl
@[simp] theorem State.modCmp_programs (t : TileId) (c : Cmp) (f : Comparator → Comparator) : (s.modCmp t c f).programs = s.programs := rfl
@[simp] theorem State.modCmp_netlists (t : TileId) (c : Cmp) (f : Comparator → Comparator) : (s.modCmp t c f).netlists = s.netlists := rfl
@[simp] theorem State.modCmp_heads (t : TileId) (c : Cmp) (f : Comparator → Comparator) : (s.modCmp t c f).heads = s.heads := rfl
@[simp] theorem State.modCmp_jobs (t : TileId) (c : Cmp) (f : Comparator → Comparator) : (s.modCmp t c f).jobs = s.jobs := rfl
@[simp] theorem State.modCmp_glyphs (t : TileId) (c : Cmp) (f : Comparator → Comparator) : (s.modCmp t c f).glyphs = s.glyphs := rfl
@[simp] theorem State.modCmp_dates (t : TileId) (c : Cmp) (f : Comparator → Comparator) : (s.modCmp t c f).dates = s.dates := rfl
@[simp] theorem State.modCmp_cal (t : TileId) (c : Cmp) (f : Comparator → Comparator) : (s.modCmp t c f).cal = s.cal := rfl
@[simp] theorem State.modCmp_bist (t : TileId) (c : Cmp) (f : Comparator → Comparator) : (s.modCmp t c f).bist = s.bist := rfl
@[simp] theorem State.modCmp_syncs (t : TileId) (c : Cmp) (f : Comparator → Comparator) : (s.modCmp t c f).syncs = s.syncs := rfl
@[simp] theorem State.modCmp_lineSyncs (t : TileId) (c : Cmp) (f : Comparator → Comparator) : (s.modCmp t c f).lineSyncs = s.lineSyncs := rfl
@[simp] theorem State.modCmp_panels (t : TileId) (c : Cmp) (f : Comparator → Comparator) : (s.modCmp t c f).panels = s.panels := rfl
@[simp] theorem State.modCmp_gpio (t : TileId) (c : Cmp) (f : Comparator → Comparator) : (s.modCmp t c f).gpio = s.gpio := rfl
@[simp] theorem State.modCmp_tally (t : TileId) (c : Cmp) (f : Comparator → Comparator) : (s.modCmp t c f).tally = s.tally := rfl
@[simp] theorem State.modCmp_hostMem (t : TileId) (c : Cmp) (f : Comparator → Comparator) : (s.modCmp t c f).hostMem = s.hostMem := rfl
@[simp] theorem State.modCmp_free (t : TileId) (c : Cmp) (f : Comparator → Comparator) : (s.modCmp t c f).free = s.free := rfl
@[simp] theorem State.modCmp_out (t : TileId) (c : Cmp) (f : Comparator → Comparator) : (s.modCmp t c f).out = s.out := rfl
@[simp] theorem State.modCmp_pending (t : TileId) (c : Cmp) (f : Comparator → Comparator) : (s.modCmp t c f).pending = s.pending := rfl

/-! ### modTally -/

@[simp] theorem State.modTally_aon (f : Tally → Tally) : (s.modTally f).aon = s.aon := rfl
@[simp] theorem State.modTally_clk (f : Tally → Tally) : (s.modTally f).clk = s.clk := rfl
@[simp] theorem State.modTally_pwr (f : Tally → Tally) : (s.modTally f).pwr = s.pwr := rfl
@[simp] theorem State.modTally_link (f : Tally → Tally) : (s.modTally f).link = s.link := rfl
@[simp] theorem State.modTally_jsb (f : Tally → Tally) : (s.modTally f).jsb = s.jsb := rfl
@[simp] theorem State.modTally_cqs (f : Tally → Tally) : (s.modTally f).cqs = s.cqs := rfl
@[simp] theorem State.modTally_sts (f : Tally → Tally) : (s.modTally f).sts = s.sts := rfl
@[simp] theorem State.modTally_pqs (f : Tally → Tally) : (s.modTally f).pqs = s.pqs := rfl
@[simp] theorem State.modTally_turns (f : Tally → Tally) : (s.modTally f).turns = s.turns := rfl
@[simp] theorem State.modTally_ev (f : Tally → Tally) : (s.modTally f).ev = s.ev := rfl
@[simp] theorem State.modTally_msix (f : Tally → Tally) : (s.modTally f).msix = s.msix := rfl
@[simp] theorem State.modTally_sec (f : Tally → Tally) : (s.modTally f).sec = s.sec := rfl
@[simp] theorem State.modTally_fnMode (f : Tally → Tally) : (s.modTally f).fnMode = s.fnMode := rfl
@[simp] theorem State.modTally_scratch (f : Tally → Tally) : (s.modTally f).scratch = s.scratch := rfl
@[simp] theorem State.modTally_scrub (f : Tally → Tally) : (s.modTally f).scrub = s.scrub := rfl
@[simp] theorem State.modTally_mem (f : Tally → Tally) : (s.modTally f).mem = s.mem := rfl
@[simp] theorem State.modTally_shared (f : Tally → Tally) : (s.modTally f).shared = s.shared := rfl
@[simp] theorem State.modTally_ledger (f : Tally → Tally) : (s.modTally f).ledger = s.ledger := rfl
@[simp] theorem State.modTally_coatNo (f : Tally → Tally) : (s.modTally f).coatNo = s.coatNo := rfl
@[simp] theorem State.modTally_coatLast (f : Tally → Tally) : (s.modTally f).coatLast = s.coatLast := rfl
@[simp] theorem State.modTally_coat (f : Tally → Tally) : (s.modTally f).coat = s.coat := rfl
@[simp] theorem State.modTally_moves (f : Tally → Tally) : (s.modTally f).moves = s.moves := rfl
@[simp] theorem State.modTally_readback (f : Tally → Tally) : (s.modTally f).readback = s.readback := rfl
@[simp] theorem State.modTally_probes (f : Tally → Tally) : (s.modTally f).probes = s.probes := rfl
@[simp] theorem State.modTally_chains (f : Tally → Tally) : (s.modTally f).chains = s.chains := rfl
@[simp] theorem State.modTally_programs (f : Tally → Tally) : (s.modTally f).programs = s.programs := rfl
@[simp] theorem State.modTally_netlists (f : Tally → Tally) : (s.modTally f).netlists = s.netlists := rfl
@[simp] theorem State.modTally_heads (f : Tally → Tally) : (s.modTally f).heads = s.heads := rfl
@[simp] theorem State.modTally_jobs (f : Tally → Tally) : (s.modTally f).jobs = s.jobs := rfl
@[simp] theorem State.modTally_glyphs (f : Tally → Tally) : (s.modTally f).glyphs = s.glyphs := rfl
@[simp] theorem State.modTally_dates (f : Tally → Tally) : (s.modTally f).dates = s.dates := rfl
@[simp] theorem State.modTally_cal (f : Tally → Tally) : (s.modTally f).cal = s.cal := rfl
@[simp] theorem State.modTally_bist (f : Tally → Tally) : (s.modTally f).bist = s.bist := rfl
@[simp] theorem State.modTally_syncs (f : Tally → Tally) : (s.modTally f).syncs = s.syncs := rfl
@[simp] theorem State.modTally_lineSyncs (f : Tally → Tally) : (s.modTally f).lineSyncs = s.lineSyncs := rfl
@[simp] theorem State.modTally_panels (f : Tally → Tally) : (s.modTally f).panels = s.panels := rfl
@[simp] theorem State.modTally_tiles (f : Tally → Tally) : (s.modTally f).tiles = s.tiles := rfl
@[simp] theorem State.modTally_gpio (f : Tally → Tally) : (s.modTally f).gpio = s.gpio := rfl
@[simp] theorem State.modTally_hostMem (f : Tally → Tally) : (s.modTally f).hostMem = s.hostMem := rfl
@[simp] theorem State.modTally_free (f : Tally → Tally) : (s.modTally f).free = s.free := rfl
@[simp] theorem State.modTally_out (f : Tally → Tally) : (s.modTally f).out = s.out := rfl
@[simp] theorem State.modTally_pending (f : Tally → Tally) : (s.modTally f).pending = s.pending := rfl

/-! ### send -/

@[simp] theorem State.send_aon (x : Sent) : (s.send x).aon = s.aon := rfl
@[simp] theorem State.send_clk (x : Sent) : (s.send x).clk = s.clk := rfl
@[simp] theorem State.send_pwr (x : Sent) : (s.send x).pwr = s.pwr := rfl
@[simp] theorem State.send_link (x : Sent) : (s.send x).link = s.link := rfl
@[simp] theorem State.send_jsb (x : Sent) : (s.send x).jsb = s.jsb := rfl
@[simp] theorem State.send_cqs (x : Sent) : (s.send x).cqs = s.cqs := rfl
@[simp] theorem State.send_sts (x : Sent) : (s.send x).sts = s.sts := rfl
@[simp] theorem State.send_pqs (x : Sent) : (s.send x).pqs = s.pqs := rfl
@[simp] theorem State.send_turns (x : Sent) : (s.send x).turns = s.turns := rfl
@[simp] theorem State.send_ev (x : Sent) : (s.send x).ev = s.ev := rfl
@[simp] theorem State.send_msix (x : Sent) : (s.send x).msix = s.msix := rfl
@[simp] theorem State.send_sec (x : Sent) : (s.send x).sec = s.sec := rfl
@[simp] theorem State.send_fnMode (x : Sent) : (s.send x).fnMode = s.fnMode := rfl
@[simp] theorem State.send_scratch (x : Sent) : (s.send x).scratch = s.scratch := rfl
@[simp] theorem State.send_scrub (x : Sent) : (s.send x).scrub = s.scrub := rfl
@[simp] theorem State.send_mem (x : Sent) : (s.send x).mem = s.mem := rfl
@[simp] theorem State.send_shared (x : Sent) : (s.send x).shared = s.shared := rfl
@[simp] theorem State.send_ledger (x : Sent) : (s.send x).ledger = s.ledger := rfl
@[simp] theorem State.send_coatNo (x : Sent) : (s.send x).coatNo = s.coatNo := rfl
@[simp] theorem State.send_coatLast (x : Sent) : (s.send x).coatLast = s.coatLast := rfl
@[simp] theorem State.send_coat (x : Sent) : (s.send x).coat = s.coat := rfl
@[simp] theorem State.send_moves (x : Sent) : (s.send x).moves = s.moves := rfl
@[simp] theorem State.send_readback (x : Sent) : (s.send x).readback = s.readback := rfl
@[simp] theorem State.send_probes (x : Sent) : (s.send x).probes = s.probes := rfl
@[simp] theorem State.send_chains (x : Sent) : (s.send x).chains = s.chains := rfl
@[simp] theorem State.send_programs (x : Sent) : (s.send x).programs = s.programs := rfl
@[simp] theorem State.send_netlists (x : Sent) : (s.send x).netlists = s.netlists := rfl
@[simp] theorem State.send_heads (x : Sent) : (s.send x).heads = s.heads := rfl
@[simp] theorem State.send_jobs (x : Sent) : (s.send x).jobs = s.jobs := rfl
@[simp] theorem State.send_glyphs (x : Sent) : (s.send x).glyphs = s.glyphs := rfl
@[simp] theorem State.send_dates (x : Sent) : (s.send x).dates = s.dates := rfl
@[simp] theorem State.send_cal (x : Sent) : (s.send x).cal = s.cal := rfl
@[simp] theorem State.send_bist (x : Sent) : (s.send x).bist = s.bist := rfl
@[simp] theorem State.send_syncs (x : Sent) : (s.send x).syncs = s.syncs := rfl
@[simp] theorem State.send_lineSyncs (x : Sent) : (s.send x).lineSyncs = s.lineSyncs := rfl
@[simp] theorem State.send_panels (x : Sent) : (s.send x).panels = s.panels := rfl
@[simp] theorem State.send_tiles (x : Sent) : (s.send x).tiles = s.tiles := rfl
@[simp] theorem State.send_gpio (x : Sent) : (s.send x).gpio = s.gpio := rfl
@[simp] theorem State.send_tally (x : Sent) : (s.send x).tally = s.tally := rfl
@[simp] theorem State.send_hostMem (x : Sent) : (s.send x).hostMem = s.hostMem := rfl
@[simp] theorem State.send_free (x : Sent) : (s.send x).free = s.free := rfl
@[simp] theorem State.send_pending (x : Sent) : (s.send x).pending = s.pending := rfl

/-! ### hostWrite -/

@[simp] theorem State.hostWrite_aon (a : Nat) (bs : List Byte) : (s.hostWrite a bs).aon = s.aon := rfl
@[simp] theorem State.hostWrite_clk (a : Nat) (bs : List Byte) : (s.hostWrite a bs).clk = s.clk := rfl
@[simp] theorem State.hostWrite_pwr (a : Nat) (bs : List Byte) : (s.hostWrite a bs).pwr = s.pwr := rfl
@[simp] theorem State.hostWrite_link (a : Nat) (bs : List Byte) : (s.hostWrite a bs).link = s.link := rfl
@[simp] theorem State.hostWrite_jsb (a : Nat) (bs : List Byte) : (s.hostWrite a bs).jsb = s.jsb := rfl
@[simp] theorem State.hostWrite_cqs (a : Nat) (bs : List Byte) : (s.hostWrite a bs).cqs = s.cqs := rfl
@[simp] theorem State.hostWrite_sts (a : Nat) (bs : List Byte) : (s.hostWrite a bs).sts = s.sts := rfl
@[simp] theorem State.hostWrite_pqs (a : Nat) (bs : List Byte) : (s.hostWrite a bs).pqs = s.pqs := rfl
@[simp] theorem State.hostWrite_turns (a : Nat) (bs : List Byte) : (s.hostWrite a bs).turns = s.turns := rfl
@[simp] theorem State.hostWrite_ev (a : Nat) (bs : List Byte) : (s.hostWrite a bs).ev = s.ev := rfl
@[simp] theorem State.hostWrite_msix (a : Nat) (bs : List Byte) : (s.hostWrite a bs).msix = s.msix := rfl
@[simp] theorem State.hostWrite_sec (a : Nat) (bs : List Byte) : (s.hostWrite a bs).sec = s.sec := rfl
@[simp] theorem State.hostWrite_fnMode (a : Nat) (bs : List Byte) : (s.hostWrite a bs).fnMode = s.fnMode := rfl
@[simp] theorem State.hostWrite_scratch (a : Nat) (bs : List Byte) : (s.hostWrite a bs).scratch = s.scratch := rfl
@[simp] theorem State.hostWrite_scrub (a : Nat) (bs : List Byte) : (s.hostWrite a bs).scrub = s.scrub := rfl
@[simp] theorem State.hostWrite_mem (a : Nat) (bs : List Byte) : (s.hostWrite a bs).mem = s.mem := rfl
@[simp] theorem State.hostWrite_shared (a : Nat) (bs : List Byte) : (s.hostWrite a bs).shared = s.shared := rfl
@[simp] theorem State.hostWrite_ledger (a : Nat) (bs : List Byte) : (s.hostWrite a bs).ledger = s.ledger := rfl
@[simp] theorem State.hostWrite_coatNo (a : Nat) (bs : List Byte) : (s.hostWrite a bs).coatNo = s.coatNo := rfl
@[simp] theorem State.hostWrite_coatLast (a : Nat) (bs : List Byte) : (s.hostWrite a bs).coatLast = s.coatLast := rfl
@[simp] theorem State.hostWrite_coat (a : Nat) (bs : List Byte) : (s.hostWrite a bs).coat = s.coat := rfl
@[simp] theorem State.hostWrite_moves (a : Nat) (bs : List Byte) : (s.hostWrite a bs).moves = s.moves := rfl
@[simp] theorem State.hostWrite_readback (a : Nat) (bs : List Byte) : (s.hostWrite a bs).readback = s.readback := rfl
@[simp] theorem State.hostWrite_probes (a : Nat) (bs : List Byte) : (s.hostWrite a bs).probes = s.probes := rfl
@[simp] theorem State.hostWrite_chains (a : Nat) (bs : List Byte) : (s.hostWrite a bs).chains = s.chains := rfl
@[simp] theorem State.hostWrite_programs (a : Nat) (bs : List Byte) : (s.hostWrite a bs).programs = s.programs := rfl
@[simp] theorem State.hostWrite_netlists (a : Nat) (bs : List Byte) : (s.hostWrite a bs).netlists = s.netlists := rfl
@[simp] theorem State.hostWrite_heads (a : Nat) (bs : List Byte) : (s.hostWrite a bs).heads = s.heads := rfl
@[simp] theorem State.hostWrite_jobs (a : Nat) (bs : List Byte) : (s.hostWrite a bs).jobs = s.jobs := rfl
@[simp] theorem State.hostWrite_glyphs (a : Nat) (bs : List Byte) : (s.hostWrite a bs).glyphs = s.glyphs := rfl
@[simp] theorem State.hostWrite_dates (a : Nat) (bs : List Byte) : (s.hostWrite a bs).dates = s.dates := rfl
@[simp] theorem State.hostWrite_cal (a : Nat) (bs : List Byte) : (s.hostWrite a bs).cal = s.cal := rfl
@[simp] theorem State.hostWrite_bist (a : Nat) (bs : List Byte) : (s.hostWrite a bs).bist = s.bist := rfl
@[simp] theorem State.hostWrite_syncs (a : Nat) (bs : List Byte) : (s.hostWrite a bs).syncs = s.syncs := rfl
@[simp] theorem State.hostWrite_lineSyncs (a : Nat) (bs : List Byte) : (s.hostWrite a bs).lineSyncs = s.lineSyncs := rfl
@[simp] theorem State.hostWrite_panels (a : Nat) (bs : List Byte) : (s.hostWrite a bs).panels = s.panels := rfl
@[simp] theorem State.hostWrite_tiles (a : Nat) (bs : List Byte) : (s.hostWrite a bs).tiles = s.tiles := rfl
@[simp] theorem State.hostWrite_gpio (a : Nat) (bs : List Byte) : (s.hostWrite a bs).gpio = s.gpio := rfl
@[simp] theorem State.hostWrite_tally (a : Nat) (bs : List Byte) : (s.hostWrite a bs).tally = s.tally := rfl
@[simp] theorem State.hostWrite_free (a : Nat) (bs : List Byte) : (s.hostWrite a bs).free = s.free := rfl
@[simp] theorem State.hostWrite_out (a : Nat) (bs : List Byte) : (s.hostWrite a bs).out = s.out := rfl
@[simp] theorem State.hostWrite_pending (a : Nat) (bs : List Byte) : (s.hostWrite a bs).pending = s.pending := rfl

@[simp] theorem State.modTile_hit (t : TileId) (f : Tile → Tile) :
    (s.modTile t f).tiles[(t : Nat)] = f s.tiles[(t : Nat)] := by
  simp [State.modTile]
theorem State.modTile_miss (t k : TileId) (f : Tile → Tile) (ne : t ≠ k) :
    (s.modTile t f).tiles[(k : Nat)] = s.tiles[(k : Nat)] := by
  have h2 : t.val ≠ k.val := fun e => ne (Fin.ext e)
  simp [State.modTile, h2]
@[simp] theorem State.modPanel_hit (p : PanelId) (f : Panel → Panel) :
    (s.modPanel p f).panels[(p : Nat)] = f s.panels[(p : Nat)] := by
  simp [State.modPanel]
theorem State.modPanel_miss (p k : PanelId) (f : Panel → Panel) (ne : p ≠ k) :
    (s.modPanel p f).panels[(k : Nat)] = s.panels[(k : Nat)] := by
  have h2 : p.val ≠ k.val := fun e => ne (Fin.ext e)
  simp [State.modPanel, h2]
@[simp] theorem State.modHead_hit (h : HeadId) (f : Head → Head) :
    (s.modHead h f).heads[(h : Nat)] = f s.heads[(h : Nat)] := by
  simp [State.modHead]
theorem State.modHead_miss (h k : HeadId) (f : Head → Head) (ne : h ≠ k) :
    (s.modHead h f).heads[(k : Nat)] = s.heads[(k : Nat)] := by
  have h2 : h.val ≠ k.val := fun e => ne (Fin.ext e)
  simp [State.modHead, h2]
@[simp] theorem State.modJob_hit (j : Fin 64) (f : Job → Job) :
    (s.modJob j f).jobs[(j : Nat)] = f s.jobs[(j : Nat)] := by
  simp [State.modJob]
theorem State.modJob_miss (j k : Fin 64) (f : Job → Job) (ne : j ≠ k) :
    (s.modJob j f).jobs[(k : Nat)] = s.jobs[(k : Nat)] := by
  have h2 : j.val ≠ k.val := fun e => ne (Fin.ext e)
  simp [State.modJob, h2]
@[simp] theorem State.modChain_hit (c : Fin 256) (f : Chain → Chain) :
    (s.modChain c f).chains[(c : Nat)] = f s.chains[(c : Nat)] := by
  simp [State.modChain]
theorem State.modChain_miss (c k : Fin 256) (f : Chain → Chain) (ne : c ≠ k) :
    (s.modChain c f).chains[(k : Nat)] = s.chains[(k : Nat)] := by
  have h2 : c.val ≠ k.val := fun e => ne (Fin.ext e)
  simp [State.modChain, h2]
@[simp] theorem State.modCq_hit (n : Fin 16) (f : Cq → Cq) :
    (s.modCq n f).cqs[(n : Nat)] = f s.cqs[(n : Nat)] := by
  simp [State.modCq]
theorem State.modCq_miss (n k : Fin 16) (f : Cq → Cq) (ne : n ≠ k) :
    (s.modCq n f).cqs[(k : Nat)] = s.cqs[(k : Nat)] := by
  have h2 : n.val ≠ k.val := fun e => ne (Fin.ext e)
  simp [State.modCq, h2]
@[simp] theorem State.modSt_hit (n : Fin 32) (f : Stream → Stream) :
    (s.modSt n f).sts[(n : Nat)] = f s.sts[(n : Nat)] := by
  simp [State.modSt]
theorem State.modSt_miss (n k : Fin 32) (f : Stream → Stream) (ne : n ≠ k) :
    (s.modSt n f).sts[(k : Nat)] = s.sts[(k : Nat)] := by
  have h2 : n.val ≠ k.val := fun e => ne (Fin.ext e)
  simp [State.modSt, h2]
@[simp] theorem State.modPq_hit (n : Fin 8) (f : Pq → Pq) :
    (s.modPq n f).pqs[(n : Nat)] = f s.pqs[(n : Nat)] := by
  simp [State.modPq]
theorem State.modPq_miss (n k : Fin 8) (f : Pq → Pq) (ne : n ≠ k) :
    (s.modPq n f).pqs[(k : Nat)] = s.pqs[(k : Nat)] := by
  have h2 : n.val ≠ k.val := fun e => ne (Fin.ext e)
  simp [State.modPq, h2]
@[simp] theorem State.modMsix_hit (v : Fin 64) (f : Msix → Msix) :
    (s.modMsix v f).msix[(v : Nat)] = f s.msix[(v : Nat)] := by
  simp [State.modMsix]
theorem State.modMsix_miss (v k : Fin 64) (f : Msix → Msix) (ne : v ≠ k) :
    (s.modMsix v f).msix[(k : Nat)] = s.msix[(k : Nat)] := by
  have h2 : v.val ≠ k.val := fun e => ne (Fin.ext e)
  simp [State.modMsix, h2]

@[simp] theorem State.modEng_hit (t : TileId) (f : Engine → Engine) :
    ((s.modEng t f).tiles[(t : Nat)]).eng = f (s.tiles[(t : Nat)]).eng := by simp [State.modEng, State.modTile]
@[simp] theorem State.modTrowel_hit (t : TileId) (f : Trowel → Trowel) :
    ((s.modTrowel t f).tiles[(t : Nat)]).trowel = f (s.tiles[(t : Nat)]).trowel := by
  simp [State.modTrowel, State.modTile]
@[simp] theorem State.modPin_hit (p : PinId) (f : Pin → Pin) :
    (s.modPin p f).gpio.pins[(p : Nat)] = f s.gpio.pins[(p : Nat)] := by simp [State.modPin]
@[simp] theorem State.modEnc_hit (n : Fin 8) (f : Encoder → Encoder) :
    (s.modEnc n f).aon.enc[(n : Nat)] = f s.aon.enc[(n : Nat)] := by simp [State.modEnc]
@[simp] theorem State.modTimer_hit (k : Fin 16) (f : Timer → Timer) :
    (s.modTimer k f).gpio.timers[(k : Nat)] = f s.gpio.timers[(k : Nat)] := by simp [State.modTimer]
@[simp] theorem State.modTally_tally (f : Tally → Tally) : (s.modTally f).tally = f s.tally := rfl
@[simp] theorem State.send_out (x : Sent) : (s.send x).out = x :: s.out := rfl
@[simp] theorem State.hostWrite_hostMem (a : Nat) (bs : List Byte) :
    (s.hostWrite a bs).hostMem = s.hostMem.putBytes a bs := rfl

end Sys2Proof.Machine
end

