-- ==== Sys2Proof/Laws/Report.lean ====
section
/-!
SUPPORT. Reports change only what reports are made of: each lemma says once that an operation leaves `State.quiet` alone.
-/
namespace Sys2Proof.Machine

open Sys2Proof

variable (s : State)

theorem State.quiet_send (x : Sent) : (s.send x).quiet = s.quiet := rfl
theorem State.quiet_modMsix (v : Fin 64) (f : Msix → Msix) : (s.modMsix v f).quiet = s.quiet := rfl
theorem State.quiet_modSt (n : Fin 32) (f : Stream → Stream) : (s.modSt n f).quiet = s.quiet := rfl
theorem State.quiet_hostWrite (a : Nat) (bs : List Byte) : (s.hostWrite a bs).quiet = s.quiet := rfl

theorem raiseMsix_quiet (v : Fin 64) : (raiseMsix v s).quiet = s.quiet := by
  simp only [raiseMsix]; split
  · rfl
  · split <;> rfl
theorem jsbSend_quiet (f : JsbFrame) : (jsbSend f s).quiet = s.quiet := rfl
theorem linkWake_quiet : (linkWake s).quiet = s.quiet := by
  simp only [linkWake]; split
  · split <;> rfl
  · rfl
theorem putRecord_quiet (n : Fin 32) (ty : Nat) (p : List Byte) : (putRecord n ty p s).quiet = s.quiet := by
  unfold putRecord; simp only []
  generalize recHeader _ _ _ ++ padTo 8 p = b1
  split
  · rw [State.quiet_modSt, State.quiet_hostWrite, State.quiet_hostWrite]
  · rw [State.quiet_modSt, State.quiet_hostWrite]
theorem signalRing_quiet (n : Fin 32) : (signalRing n s).quiet = s.quiet := by
  unfold signalRing fireRing; simp only []
  split
  · rw [raiseMsix_quiet, State.quiet_modSt, State.quiet_modSt]
  · rw [State.quiet_modSt]
theorem dropRecord_quiet (n : Fin 32) (ty : Nat) : (dropRecord n ty s).quiet = s.quiet := by
  unfold dropRecord; simp only []; rw [State.quiet_modSt]
theorem writeRecord_quiet (n : Fin 32) (ty : Nat) (p : List Byte) : (writeRecord n ty p s).2.quiet = s.quiet := by
  unfold writeRecord; simp only []
  rw [apply_ite Prod.snd]; simp only []
  refine Eq.trans ?_ (linkWake_quiet s)
  generalize linkWake s = w
  rw [apply_ite State.quiet, signalRing_quiet, putRecord_quiet, dropRecord_quiet]
  split <;> split <;> first | rfl | (split <;> first | rfl | rw [State.quiet_modSt, putRecord_quiet])
theorem setEvent_quiet (e : Ev) : (setEvent e s).quiet = s.quiet := by
  simp only [setEvent]; split
  · rw [raiseMsix_quiet]; rfl
  · rfl
theorem raiseEventN_quiet (k : Nat) (e : Ev) (src : Word) : (raiseEventN k e src s).quiet = s.quiet := by
  induction k generalizing e src s with
  | zero => exact setEvent_quiet s e
  | succ k ih =>
    simp only [raiseEventN]; split
    · exact setEvent_quiet s e
    · split
      · rw [ih, writeRecord_quiet, setEvent_quiet]
      · rw [writeRecord_quiet, setEvent_quiet]
/-- A status event touches nothing but reports. -/
theorem raiseEvent_quiet (e : Ev) (src : Word) : (raiseEvent e src s).quiet = s.quiet := raiseEventN_quiet s 2 e src
theorem emit_quiet (src : Source) (ty : Nat) (p : List Byte) : (emit src ty p s).2.quiet = s.quiet := by
  simp only [emit]; split
  · rfl
  · simp only []; split
    · rw [raiseEvent_quiet, writeRecord_quiet]
    · rw [writeRecord_quiet]
theorem dropErr_quiet (l : Loc) : (s.dropErr l).quiet = s.quiet := rfl
theorem putErr_quiet (e : WordErr) : (s.putErr e).quiet = s.quiet := by
  simp only [State.putErr]; split <;> rfl
theorem applyFlips_quiet (l : Loc) : (applyFlips l s).quiet = s.quiet := by
  have hm : ∀ u : State,
      ({ u with mem := { u.mem with flipArm := false, flipLo := 0, flipHi := 0 } } : State).quiet = u.quiet := fun _ => rfl
  unfold applyFlips; simp only []; split
  · rw [hm, putErr_quiet]
  · rfl
theorem wholeWrite_quiet (l : Loc) : (wholeWrite l s).quiet = s.quiet := (applyFlips_quiet _ l).trans (dropErr_quiet s l)
theorem appendEntry_quiet (cls : LClass) (kind : Byte) (source : BitVec 16) (a0 a1 a2 count : Word) :
    (appendEntry cls kind source a0 a1 a2 count s).quiet = s.quiet := by
  have hw : ∀ (l : List Nat) (g : Nat → Loc) (s : State), (l.foldl (fun s k => wholeWrite (g k) s) s).quiet = s.quiet := by
    intro l g
    induction l with
    | nil => intro s; rfl
    | cons x l ih => intro s; rw [List.foldl_cons, ih, wholeWrite_quiet]
  have hl : ∀ (s : State) (l : Ledger), ({ s with ledger := l } : State).quiet = s.quiet := fun _ _ => rfl
  unfold appendEntry
  simp only []
  split
  · rw [raiseEvent_quiet]; split
    · rw [emit_quiet, hl, hw]
    · rw [hl, hw]
  · split
    · rw [emit_quiet, hl, hw]
    · rw [hl, hw]
/-- A ledger entry touches nothing but reports. -/
theorem log_quiet (cls : LClass) (kind : Byte) (source : BitVec 16) (a0 a1 a2 : Word) :
    (log cls kind source a0 a1 a2 s).quiet = s.quiet := by
  simp only [log]; split
  · rfl
  · exact appendEntry_quiet ..

/-! ### What that leaves alone -/

variable {s} {t : State} (h : t.quiet = s.quiet)
include h

theorem State.quiet_aon : t.aon = s.aon := by
  have q := congrArg (fun x : State => x.aon) h; exact q
theorem State.quiet_clk : t.clk = s.clk := by
  have q := congrArg (fun x : State => x.clk) h; exact q
theorem State.quiet_pwr : t.pwr = s.pwr := by
  have q := congrArg (fun x : State => x.pwr) h; exact q
theorem State.quiet_cqs : t.cqs = s.cqs := by
  have q := congrArg (fun x : State => x.cqs) h; exact q
theorem State.quiet_pqs : t.pqs = s.pqs := by
  have q := congrArg (fun x : State => x.pqs) h; exact q
theorem State.quiet_sec : t.sec = s.sec := by
  have q := congrArg (fun x : State => x.sec) h; exact q
theorem State.quiet_fnMode : t.fnMode = s.fnMode := by
  have q := congrArg (fun x : State => x.fnMode) h; exact q
theorem State.quiet_scrub : t.scrub = s.scrub := by
  have q := congrArg (fun x : State => x.scrub) h; exact q
theorem State.quiet_coat : t.coat = s.coat := by
  have q := congrArg (fun x : State => x.coat) h; exact q
theorem State.quiet_chains : t.chains = s.chains := by
  have q := congrArg (fun x : State => x.chains) h; exact q
theorem State.quiet_heads : t.heads = s.heads := by
  have q := congrArg (fun x : State => x.heads) h; exact q
theorem State.quiet_jobs : t.jobs = s.jobs := by
  have q := congrArg (fun x : State => x.jobs) h; exact q
theorem State.quiet_dates : t.dates = s.dates := by
  have q := congrArg (fun x : State => x.dates) h; exact q
theorem State.quiet_cal : t.cal = s.cal := by
  have q := congrArg (fun x : State => x.cal) h; exact q
theorem State.quiet_panels : t.panels = s.panels := by
  have q := congrArg (fun x : State => x.panels) h; exact q
theorem State.quiet_tiles : t.tiles = s.tiles := by
  have q := congrArg (fun x : State => x.tiles) h; exact q
theorem State.quiet_gpio : t.gpio = s.gpio := by
  have q := congrArg (fun x : State => x.gpio) h; exact q
theorem State.quiet_tally : t.tally = s.tally := by
  have q := congrArg (fun x : State => x.tally) h; exact q
theorem State.quiet_pending : t.pending = s.pending := by
  have q := congrArg (fun x : State => x.pending) h; exact q
theorem State.quiet_linkSpeed : t.link.speed = s.link.speed := by
  have q := congrArg (fun x : State => x.link.speed) h; exact q
theorem State.quiet_linkPerst : t.link.perst = s.link.perst := by
  have q := congrArg (fun x : State => x.link.perst) h; exact q

end Sys2Proof.Machine
end

