-- ==== Sys2Proof/Laws/Command.lean ====
section
/-!
SUPPORT. What running a descriptor can do: the checks of R283, the command's own effect, and the completion.
-/
namespace Sys2Proof.Machine

open Sys2Proof

/-- A descriptor that passes the shared checks has the command's own effect. -/
theorem runDesc_takes (op : Byte) (d : Desc) (f : Option Nat) (body : State → State) (s : State)
    (h : s.takes op d f) : runDesc op d f true body s = .next (body (s.begun op d)) := by
  obtain ⟨hr, hf, hs⟩ := h
  subst hf
  by_cases hm : s.pwr.mode = .standby
  · simp [runDesc, hr, hm, hs hm, State.begun]
  · simp [runDesc, hr, hm, State.begun]

/-- A header or reserved byte that offends completes with BAD_FIELD and its offset. -/
theorem runDesc_fault (op : Byte) (d : Desc) (off : Nat) (p : Bool) (body : State → State) (s : State)
    (h : s.runs d = true) : runDesc op d (some off) p body s = .next (badField op d off (s.begun op d)) := by
  simp [runDesc, h, State.begun]

/-- A descriptor that the ring engine does not run now waits. -/
theorem runDesc_waits (op : Byte) (d : Desc) (f : Option Nat) (p : Bool) (body : State → State) (s : State)
    (h : s.runs d = false) : runDesc op d f p body s = .next s := by simp [runDesc, h]

/-- Everything a descriptor can lead to. -/
theorem runDesc_cases (op : Byte) (d : Desc) (f : Option Nat) (p : Bool) (body : State → State) (s : State) :
    runDesc op d f p body s = .next s ∨ (∃ off, runDesc op d f p body s = .next (badField op d off (s.begun op d))) ∨
      runDesc op d f p body s = .next (refuse op d .lifecycle (s.begun op d)) ∨
      runDesc op d f p body s = .next (refuse op d .state (s.begun op d)) ∨
      runDesc op d f p body s = .next (body (s.begun op d)) := by
  by_cases hr : s.runs d = true
  · cases f with
    | some off => exact .inr (.inl ⟨off, runDesc_fault op d off p body s hr⟩)
    | none =>
      by_cases hp : p = true
      · by_cases hm : (s.pwr.mode == .standby && !standbyOk op d) = true
        · exact .inr (.inr (.inr (.inl (by simp only [runDesc, hr, hp, if_true]; simp_all [State.begun]))))
        · exact .inr (.inr (.inr (.inr (by simp only [runDesc, hr, hp, if_true]; simp_all [State.begun]))))
      · exact .inr (.inr (.inl (by simp [runDesc, hr, hp, State.begun])))
  · exact .inl (runDesc_waits op d f p body s (by simpa using hr))

/-- With the link up a buffer that reads at the first attempt is handed on. -/
theorem withBuffer_clean (op : Byte) (d : Desc) (k : List Byte → State → State) (s : State) (hl : s.linkUp = true)
    (hr : d.rd = .clean) : withBuffer op d k s = k (s.hostMem.bytes d.buffer.toNat d.len) s := by
  simp [withBuffer, State.transfer, hl, hr]

theorem writeOut_clean (op : Byte) (d : Desc) (l : List Attempt) (bs : List Byte) (r : Nat) (s : State)
    (hl : s.linkUp = true) (hw : d.wr = .clean) :
    writeOut op d l bs r s = finish op d (okOf l) 0 r (s.hostWrite d.buffer.toNat bs) := by
  simp [writeOut, State.transfer, hl, hw]

/-! ### Completions -/

theorem State.calm_of_quiet {s t : State} (h : t.quiet = s.quiet) : t.calm = s.calm := by
  simp only [State.calm, h]
theorem State.calm_modCq (s : State) (n : Fin 16) (f : Cq → Cq) : (s.modCq n f).calm = s.calm := rfl
theorem State.calm_hostWrite (s : State) (a : Nat) (bs : List Byte) : (s.hostWrite a bs).calm = s.calm := rfl
theorem State.calm_begun (s : State) (op : Byte) (d : Desc) : (s.begun op d).calm = s.calm := rfl

/-- A completion touches nothing but the queue and reports. -/
theorem finish_calm (op : Byte) (d : Desc) (st : Status) (detail result : Nat) (s : State) :
    (finish op d st detail result s).calm = s.calm := by
  have log_calm : ∀ (c : LClass) (s : State), (hostDmaWrite c d.queue.val op s).calm = s.calm := fun c s =>
    State.calm_of_quiet (log_quiet s ..)
  have msix_calm : ∀ (v : Fin 64) (s : State), (raiseMsix v s).calm = s.calm := fun v s =>
    State.calm_of_quiet (raiseMsix_quiet s v)
  have ev_calm : ∀ (e : Ev) (w : Word) (s : State), (raiseEvent e w s).calm = s.calm := fun e w s =>
    State.calm_of_quiet (raiseEvent_quiet s e w)
  simp only [finish]
  split
  · rfl
  · split
    · split
      · rw [msix_calm]; rfl
      · rfl
    · split
      · rw [msix_calm, log_calm]; rfl
      · rw [log_calm]; rfl
    · rw [ev_calm, State.calm_modCq, log_calm]; rfl

section
variable {s t : State} (h : t.calm = s.calm)
include h
theorem State.calm_aon : t.aon = s.aon := by
  have q := congrArg (fun x : State => x.aon) h; exact q
theorem State.calm_clk : t.clk = s.clk := by
  have q := congrArg (fun x : State => x.clk) h; exact q
theorem State.calm_pwr : t.pwr = s.pwr := by
  have q := congrArg (fun x : State => x.pwr) h; exact q
theorem State.calm_sec : t.sec = s.sec := by
  have q := congrArg (fun x : State => x.sec) h; exact q
theorem State.calm_fnMode : t.fnMode = s.fnMode := by
  have q := congrArg (fun x : State => x.fnMode) h; exact q
theorem State.calm_scratch : t.scratch = s.scratch := by
  have q := congrArg (fun x : State => x.scratch) h; exact q
theorem State.calm_scrub : t.scrub = s.scrub := by
  have q := congrArg (fun x : State => x.scrub) h; exact q
theorem State.calm_shared : t.shared = s.shared := by
  have q := congrArg (fun x : State => x.shared) h; exact q
theorem State.calm_coatNo : t.coatNo = s.coatNo := by
  have q := congrArg (fun x : State => x.coatNo) h; exact q
theorem State.calm_coatLast : t.coatLast = s.coatLast := by
  have q := congrArg (fun x : State => x.coatLast) h; exact q
theorem State.calm_coat : t.coat = s.coat := by
  have q := congrArg (fun x : State => x.coat) h; exact q
theorem State.calm_moves : t.moves = s.moves := by
  have q := congrArg (fun x : State => x.moves) h; exact q
theorem State.calm_readback : t.readback = s.readback := by
  have q := congrArg (fun x : State => x.readback) h; exact q
theorem State.calm_probes : t.probes = s.probes := by
  have q := congrArg (fun x : State => x.probes) h; exact q
theorem State.calm_chains : t.chains = s.chains := by
  have q := congrArg (fun x : State => x.chains) h; exact q
theorem State.calm_programs : t.programs = s.programs := by
  have q := congrArg (fun x : State => x.programs) h; exact q
theorem State.calm_netlists : t.netlists = s.netlists := by
  have q := congrArg (fun x : State => x.netlists) h; exact q
theorem State.calm_heads : t.heads = s.heads := by
  have q := congrArg (fun x : State => x.heads) h; exact q
theorem State.calm_jobs : t.jobs = s.jobs := by
  have q := congrArg (fun x : State => x.jobs) h; exact q
theorem State.calm_glyphs : t.glyphs = s.glyphs := by
  have q := congrArg (fun x : State => x.glyphs) h; exact q
theorem State.calm_dates : t.dates = s.dates := by
  have q := congrArg (fun x : State => x.dates) h; exact q
theorem State.calm_cal : t.cal = s.cal := by
  have q := congrArg (fun x : State => x.cal) h; exact q
theorem State.calm_bist : t.bist = s.bist := by
  have q := congrArg (fun x : State => x.bist) h; exact q
theorem State.calm_syncs : t.syncs = s.syncs := by
  have q := congrArg (fun x : State => x.syncs) h; exact q
theorem State.calm_panels : t.panels = s.panels := by
  have q := congrArg (fun x : State => x.panels) h; exact q
theorem State.calm_tiles : t.tiles = s.tiles := by
  have q := congrArg (fun x : State => x.tiles) h; exact q
theorem State.calm_gpio : t.gpio = s.gpio := by
  have q := congrArg (fun x : State => x.gpio) h; exact q
theorem State.calm_tally : t.tally = s.tally := by
  have q := congrArg (fun x : State => x.tally) h; exact q
theorem State.calm_pqs : t.pqs = s.pqs := by
  have q := congrArg (fun x : State => x.pqs) h; exact q
theorem State.calm_free : t.free = s.free := by
  have q := congrArg (fun x : State => x.free) h; exact q
theorem State.calm_pending : t.pending = s.pending := by
  have q := congrArg (fun x : State => x.pending) h; exact q
end

end Sys2Proof.Machine
end

