-- ==== Sys2Proof/Laws/Engine.lean ====
section
/-!
SUPPORT. The engine's registers, its updates inside the state, and what running one instruction can do.
-/
namespace Sys2Proof.Machine

open Sys2Proof

/-! ### Registers (R176) -/

theorem Engine.rd_wr_same (e : Engine) (d : Reg4) (v : Word) : (e.wr d v).rd d = if d = 0 then 0 else v := by
  unfold Engine.wr Engine.rd; split <;> simp_all
theorem Engine.rd_wr_other (e : Engine) (d k : Reg4) (v : Word) (h : k ≠ d) : (e.wr d v).rd k = e.rd k := by
  unfold Engine.wr Engine.rd; split
  · rfl
  · split
    · rfl
    · have hn : d.toNat ≠ k.toNat := fun hh => h (BitVec.eq_of_toNat_eq hh.symm)
      exact Vector.getElem_set_ne d.toFin.isLt k.toFin.isLt hn
/-- Writing a register changes the register file only. -/
theorem Engine.wr_only (e : Engine) (d : Reg4) (v : Word) : e.wr d v = { e with regs := (e.wr d v).regs } := by
  unfold Engine.wr; split <;> rfl
theorem Engine.wrote_wr (e : Engine) (d : Reg4) (v : Word) : e.wrote (e.wr d v) d v :=
  ⟨e.rd_wr_same d v, fun _ hk => e.rd_wr_other d _ v hk⟩
/-- Registers are all that `wrote` looks at. -/
theorem Engine.wrote_regs {e e' f f' : Engine} {d : Reg4} {v : Word} (h : e.wrote e' d v) (he : f.regs = e.regs)
    (hf : f'.regs = e'.regs) : f.wrote f' d v := by
  unfold Engine.wrote Engine.rd at *; rw [he, hf]; exact h
theorem Engine.wrote_e0 {e e' : Engine} (v : Word) (h : e'.regs = e.regs) : e.wrote e' 0 v := by
  unfold Engine.wrote Engine.rd; rw [h]; simp

@[simp] theorem Engine.wr_st (e : Engine) (d : Reg4) (v : Word) : (e.wr d v).st = e.st := by rw [e.wr_only d v]
@[simp] theorem Engine.wr_z (e : Engine) (d : Reg4) (v : Word) : (e.wr d v).z = e.z := by rw [e.wr_only d v]
@[simp] theorem Engine.wr_n (e : Engine) (d : Reg4) (v : Word) : (e.wr d v).n = e.n := by rw [e.wr_only d v]
@[simp] theorem Engine.wr_c (e : Engine) (d : Reg4) (v : Word) : (e.wr d v).c = e.c := by rw [e.wr_only d v]
@[simp] theorem Engine.wr_v (e : Engine) (d : Reg4) (v : Word) : (e.wr d v).v = e.v := by rw [e.wr_only d v]
@[simp] theorem Engine.wr_av (e : Engine) (d : Reg4) (v : Word) : (e.wr d v).av = e.av := by rw [e.wr_only d v]
@[simp] theorem Engine.wr_acc (e : Engine) (d : Reg4) (v : Word) : (e.wr d v).acc = e.acc := by rw [e.wr_only d v]
@[simp] theorem Engine.wr_pc (e : Engine) (d : Reg4) (v : Word) : (e.wr d v).pc = e.pc := by rw [e.wr_only d v]
@[simp] theorem Engine.wr_loops (e : Engine) (d : Reg4) (v : Word) : (e.wr d v).loops = e.loops := by
  rw [e.wr_only d v]
@[simp] theorem Engine.wr_adcFifo (e : Engine) (d : Reg4) (v : Word) : (e.wr d v).adcFifo = e.adcFifo := by
  rw [e.wr_only d v]
@[simp] theorem Engine.wr_capFifo (e : Engine) (d : Reg4) (v : Word) : (e.wr d v).capFifo = e.capFifo := by
  rw [e.wr_only d v]
@[simp] theorem Engine.wr_inbox (e : Engine) (d : Reg4) (v : Word) : (e.wr d v).inbox = e.inbox := by
  rw [e.wr_only d v]
@[simp] theorem Engine.wr_stall (e : Engine) (d : Reg4) (v : Word) : (e.wr d v).stall = e.stall := by
  rw [e.wr_only d v]
@[simp] theorem Engine.wr_evm (e : Engine) (d : Reg4) (v : Word) : (e.wr d v).evm = e.evm := by rw [e.wr_only d v]
@[simp] theorem Engine.wr_hostMsgs (e : Engine) (d : Reg4) (v : Word) : (e.wr d v).hostMsgs = e.hostMsgs := by
  rw [e.wr_only d v]

/-! ### The next instruction (R189) -/

/-- Going on changes the program counter and the loop levels only. -/
theorem Engine.goto_only (e : Engine) (p : Word) :
    e.goto p = { e with pc := (loopEnd e.pc p e.loops).1, loops := (loopEnd e.pc p e.loops).2 } := rfl
theorem Engine.seq_only (e : Engine) : e.seq = { e with pc := e.seq.pc, loops := e.seq.loops } := rfl
@[simp] theorem Engine.seq_regs (e : Engine) : e.seq.regs = e.regs := rfl
@[simp] theorem Engine.seq_st (e : Engine) : e.seq.st = e.st := rfl
@[simp] theorem Engine.seq_z (e : Engine) : e.seq.z = e.z := rfl
@[simp] theorem Engine.seq_n (e : Engine) : e.seq.n = e.n := rfl
@[simp] theorem Engine.seq_c (e : Engine) : e.seq.c = e.c := rfl
@[simp] theorem Engine.seq_v (e : Engine) : e.seq.v = e.v := rfl
@[simp] theorem Engine.seq_rd (e : Engine) (k : Reg4) : e.seq.rd k = e.rd k := rfl
theorem Engine.seq_nil (e : Engine) (h : e.loops = []) : e.seq.pc = e.pc + 4 ∧ e.seq.loops = [] := by
  simp [Engine.seq, Engine.goto, h, loopEnd]
theorem Engine.goto_nil (e : Engine) (p : Word) (h : e.loops = []) : e.goto p = { e with pc := p, loops := [] } := by
  simp [Engine.goto, h, loopEnd]
theorem Engine.jump_nil (e : Engine) (c : Bool) (p : Word) (h : e.loops = []) : e.jump c p = { e with pc := p } := by
  unfold Engine.jump; rw [h]

/-! ### The engine inside the state -/

theorem State.modEng_tile (s : State) (t : TileId) (f : Engine → Engine) :
    (s.modEng t f).tiles[t] = { s.tiles[t] with eng := f (s.tiles[t]).eng } := by
  unfold State.modEng; exact State.modTile_hit ..
theorem State.modEng_miss (s : State) (t k : TileId) (f : Engine → Engine) (h : k ≠ t) :
    (s.modEng t f).tiles[k] = s.tiles[k] := by
  unfold State.modEng; exact State.modTile_miss _ _ _ _ h.symm
theorem State.onlyEngine_modEng (s : State) (t : TileId) (f : Engine → Engine) : s.onlyEngine (s.modEng t f) t := by
  refine ⟨rfl, fun k hk => s.modEng_miss t k f hk, ?_⟩
  rw [State.modEng_tile]

/-! ### One instruction (R178, R183) -/

theorem engineOp_runs (t : TileId) (f : State → State) (s : State) (h : s.engineRuns t = true) :
    engineOp t false f s = .next (f s) := by simp [engineOp, h]
theorem engineOp_illegal (t : TileId) (f : State → State) (s : State) (h : s.engineRuns t = true) :
    engineOp t true f s = .next (engFault t .illegal s) := by simp [engineOp, h]
theorem engineOp_idle (t : TileId) (i : Bool) (f : State → State) (s : State) (h : s.engineRuns t = false) :
    engineOp t i f s = .next s := by simp [engineOp, h]
/-- Everything an instruction can lead to: nothing, the fault ILLEGAL, or its effect. -/
theorem engineOp_cases (t : TileId) (i : Bool) (f : State → State) (s : State) :
    engineOp t i f s = .next s ∨ engineOp t i f s = .next (engFault t .illegal s) ∨ engineOp t i f s = .next (f s) := by
  unfold engineOp; cases s.engineRuns t <;> cases i <;> simp
theorem engineAlu_runs (t : TileId) (f : Engine → Engine) (s : State) (h : s.engineRuns t = true) :
    engineAlu t false f s = .next (s.modEng t fun e => (f e).seq) := engineOp_runs t _ s h
/-- An instruction that only changes the engine and goes on. -/
theorem State.ran_modEng (s : State) (t : TileId) (i : Instr) (f : Engine → Engine)
    (h : exec i s = .next (s.modEng t fun e => (f e).seq)) (hp : (f (s.tiles[t]).eng).pc = (s.tiles[t]).eng.pc)
    (hl : (f (s.tiles[t]).eng).loops = (s.tiles[t]).eng.loops) : s.ran i t (s.modEng t fun e => (f e).seq) := by
  refine ⟨h, s.onlyEngine_modEng t _, fun hn => ?_⟩
  rw [State.modEng_tile]
  exact hp ▸ (f (s.tiles[t]).eng).seq_nil (hl.trans hn)

theorem engineStopEvent_quiet (t : TileId) (s : State) : (engineStopEvent t s).quiet = s.quiet := by
  unfold engineStopEvent; split
  · exact raiseEvent_quiet ..
  · rfl

/-- A fault stops the engine before the instruction takes effect, and reports (R203). -/
theorem engFault_quiet (t : TileId) (c : EngFault) (s : State) : (engFault t c s).quiet =
    (s.modEng t fun e => { e with st := .fault, cause := c.code, arm := none, stall := none }).quiet := by
  unfold engFault; simp only []; rw [engineStopEvent_quiet, log_quiet]
theorem engFault_tile (t : TileId) (c : EngFault) (s : State) : (engFault t c s).tiles[t] =
    { s.tiles[t] with
      eng := { (s.tiles[t]).eng with st := .fault, cause := c.code, arm := none, stall := none } } := by
  rw [State.quiet_tiles (engFault_quiet t c s)]; exact State.modEng_tile ..
theorem engFault_other (t k : TileId) (c : EngFault) (s : State) (h : k ≠ t) : (engFault t c s).tiles[k] = s.tiles[k] := by
  rw [State.quiet_tiles (engFault_quiet t c s)]; exact State.modEng_miss s t k _ h

end Sys2Proof.Machine
end

