-- ==== Sys2Proof/Laws/Memory.lean ====
section
/-!
SUPPORT. The laws of a memory: a read after a write, and the canonical form that every memory operation keeps.
-/
namespace Sys2Proof.Machine

open Sys2Proof

/-! ### Reads after writes -/

@[simp] theorem Memory.get_nil (a : Nat) : Memory.get [] a = 0 := rfl

theorem Memory.get_below : ∀ (m : Memory) (lo a : Nat), Memory.wfFrom lo m = true → a < lo → m.get a = 0
  | [], _, _, _, _ => rfl
  | (b, x) :: m, lo, a, h, l => by
    simp only [Memory.wfFrom, Bool.and_eq_true, decide_eq_true_eq] at h
    have hb : ¬ b = a := by omega
    simp only [Memory.get, hb, if_false]
    exact Memory.get_below m (b + 1) a h.2 (by omega)

theorem Memory.get_put_same (x : Byte) :
    ∀ (m : Memory) (lo a : Nat), Memory.wfFrom lo m = true → (m.put a x).get a = x
  | [], _, a, _ => by by_cases h : x = 0#8 <;> simp [Memory.put, Memory.get, h]
  | (b, y) :: m, lo, a, h => by
    have h' := h
    simp only [Memory.wfFrom, Bool.and_eq_true, decide_eq_true_eq] at h'
    by_cases h1 : a < b
    · have hb : ¬ b = a := by omega
      by_cases hx : x = 0#8
      · have := Memory.get_below m (b + 1) a h'.2 (by omega)
        simp [Memory.put, Memory.get, h1, hx, hb, this]
      · simp [Memory.put, Memory.get, h1, hx]
    · by_cases h2 : a = b
      · subst h2
        by_cases hx : x = 0#8
        · have := Memory.get_below m (a + 1) a h'.2 (by omega)
          simp [Memory.put, hx, this]
        · simp [Memory.put, Memory.get, hx]
      · have hb : ¬ b = a := fun e => h2 e.symm
        simp only [Memory.put, h1, h2, if_false, Memory.get, hb]
        exact Memory.get_put_same x m (b + 1) a h'.2

theorem Memory.get_put_other (x : Byte) :
    ∀ (m : Memory) (a k : Nat), k ≠ a → (m.put a x).get k = m.get k
  | [], a, k, h => by
    have h' : ¬ a = k := fun e => h e.symm
    by_cases hx : x = 0#8 <;> simp [Memory.put, Memory.get, hx, h']
  | (b, y) :: m, a, k, h => by
    have h' : ¬ a = k := fun e => h e.symm
    by_cases h1 : a < b
    · by_cases hx : x = 0#8 <;> simp [Memory.put, Memory.get, h1, hx, h']
    · by_cases h2 : a = b
      · subst h2
        by_cases hx : x = 0#8 <;> simp [Memory.put, Memory.get, hx, h']
      · simp only [Memory.put, h1, h2, if_false, Memory.get]
        rw [Memory.get_put_other x m a k h]

theorem Memory.get_putBytes_out (bs : List Byte) :
    ∀ (m : Memory) (a k : Nat), (k < a ∨ a + bs.length ≤ k) → (m.putBytes a bs).get k = m.get k := by
  induction bs with
  | nil => intro m a k _; rfl
  | cons x xs ih =>
    intro m a k h
    simp only [List.length_cons] at h
    rw [Memory.putBytes, ih _ _ _ (by omega), Memory.get_put_other x m a k (by omega)]

/-! ### The canonical form -/

theorem Memory.wfFrom_mono : ∀ (m : Memory) (lo lo' : Nat), lo' ≤ lo → Memory.wfFrom lo m = true → Memory.wfFrom lo' m = true
  | [], _, _, _, _ => rfl
  | (a, x) :: m, lo, lo', hl, h => by
    simp only [Memory.wfFrom, Bool.and_eq_true, decide_eq_true_eq] at h ⊢
    exact ⟨⟨by omega, h.1.2⟩, h.2⟩

theorem Memory.wfFrom_put (x : Byte) :
    ∀ (m : Memory) (lo a : Nat), lo ≤ a → Memory.wfFrom lo m = true → Memory.wfFrom lo (m.put a x) = true
  | [], lo, a, hl, _ => by
    by_cases hx : x = 0#8 <;> simp [Memory.put, Memory.wfFrom, hx, hl]
  | (b, y) :: m, lo, a, hl, h => by
    have h' := h
    simp only [Memory.wfFrom, Bool.and_eq_true, decide_eq_true_eq] at h'
    by_cases h1 : a < b
    · by_cases hx : x = 0#8
      · simpa [Memory.put, h1, hx] using h
      · have hb : a + 1 ≤ b := h1
        simp [Memory.put, h1, hx, Memory.wfFrom, hl, hb, h'.2]
        simpa using h'.1.2
    · by_cases h2 : a = b
      · subst h2
        by_cases hx : x = 0#8
        · have e : Memory.put ((a, y) :: m) a x = m := by simp [Memory.put, hx]
          rw [e]
          exact Memory.wfFrom_mono m (a + 1) lo (by omega) h'.2
        · simp [Memory.put, hx, Memory.wfFrom, hl, h'.2]
      · simp only [Memory.put, h1, h2, if_false, Memory.wfFrom, Bool.and_eq_true, decide_eq_true_eq]
        exact ⟨h'.1, Memory.wfFrom_put x m (b + 1) a (by omega) h'.2⟩

theorem Memory.wf_put (m : Memory) (a : Nat) (x : Byte) (h : m.wf = true) : (m.put a x).wf = true :=
  Memory.wfFrom_put x m 0 a (Nat.zero_le a) h

theorem Memory.wf_putBytes (bs : List Byte) : ∀ (m : Memory) (a : Nat), m.wf = true → (m.putBytes a bs).wf = true := by
  induction bs with
  | nil => intro m a h; exact h
  | cons x xs ih => intro m a h; exact ih _ _ (Memory.wf_put m a x h)

theorem Memory.wfFrom_filter (p : Host.Cell → Bool) :
    ∀ (m : Memory) (lo : Nat), Memory.wfFrom lo m = true → Memory.wfFrom lo (m.filter p) = true
  | [], _, _ => rfl
  | (a, x) :: m, lo, h => by
    have h' := h
    simp only [Memory.wfFrom, Bool.and_eq_true, decide_eq_true_eq] at h'
    have ih := Memory.wfFrom_filter p m (a + 1) h'.2
    by_cases hp : p (a, x) = true
    · simp only [List.filter_cons, hp, if_true, Memory.wfFrom, Bool.and_eq_true, decide_eq_true_eq]
      exact ⟨h'.1, ih⟩
    · simp only [List.filter_cons, hp]
      exact Memory.wfFrom_mono _ (a + 1) lo (by omega) ih

theorem Memory.wf_clear (m : Memory) (a n : Nat) (h : m.wf = true) : (m.clear a n).wf = true :=
  Memory.wfFrom_filter _ m 0 h

theorem Memory.get_putBytes_in (bs : List Byte) :
    ∀ (m : Memory) (a i : Nat), m.wf = true → (h : i < bs.length) → (m.putBytes a bs).get (a + i) = bs[i] := by
  induction bs with
  | nil => intro m a i _ h; simp at h
  | cons x xs ih =>
    intro m a i hm h
    rw [Memory.putBytes]
    cases i with
    | zero =>
      rw [Nat.add_zero a, Memory.get_putBytes_out xs _ (a + 1) a (by omega)]
      exact Memory.get_put_same x m 0 a hm
    | succ k =>
      have e : a + (k + 1) = a + 1 + k := by omega
      rw [e, ih _ _ _ (Memory.wf_put m a x hm) (by simpa using h)]
      simp

/-- What was written reads back. -/
theorem Memory.bytes_putBytes : ∀ (bs : List Byte) (m : Memory) (a : Nat), m.wf = true →
    (m.putBytes a bs).bytes a bs.length = bs
  | [], _, _, _ => rfl
  | x :: xs, m, a, hm => by
    have h0 : (m.putBytes a (x :: xs)).get a = x := by
      rw [Memory.putBytes, Memory.get_putBytes_out xs _ (a + 1) a (by omega)]
      exact Memory.get_put_same x m 0 a hm
    simp only [List.length_cons, Memory.bytes, h0]
    rw [Memory.putBytes, Memory.bytes_putBytes xs _ (a + 1) (Memory.wf_put m a x hm)]

/-! ### Shared memory -/

theorem sharedWfFrom_put (x : Byte) : ∀ (m : List Host.Cell) (lo a : Nat), lo ≤ a → sharedWfFrom lo m = true →
    sharedWfFrom lo (sharedPut m a x) = true
  | [], lo, a, hl, _ => by simp [sharedPut, sharedWfFrom, hl]
  | (b, y) :: m, lo, a, hl, h => by
    simp only [sharedWfFrom, Bool.and_eq_true, decide_eq_true_eq] at h
    by_cases h1 : a < b
    · have hb : a + 1 ≤ b := h1
      simp [sharedPut, h1, sharedWfFrom, hl, hb, h.2]
    · by_cases h2 : a = b
      · subst h2; simp [sharedPut, sharedWfFrom, hl, h.2]
      · simp only [sharedPut, h1, h2, if_false, sharedWfFrom, Bool.and_eq_true, decide_eq_true_eq]
        exact ⟨h.1, sharedWfFrom_put x m (b + 1) a (by omega) h.2⟩

theorem sharedWf_putBytes (bs : List Byte) : ∀ (m : List Host.Cell) (a : Nat), sharedWfFrom 0 m = true →
    sharedWfFrom 0 (sharedPutBytes m a bs) = true := by
  induction bs with
  | nil => intro m a h; exact h
  | cons x xs ih => intro m a h; exact ih _ _ (sharedWfFrom_put x m 0 a (Nat.zero_le a) h)

end Sys2Proof.Machine
end

