-- ==== Sys2Proof/WellFormed.lean ====
section
/-!
DEFINITION. Which commands are well formed: operands the outside can send, and engine instructions whose unused fields are 0
(R183). A command that is not has a meaning too (it is ignored, or its engine stops with ILLEGAL).
-/
namespace Sys2Proof

open Sys2Proof.Machine

/-- Bytes of a bus write: 1, 2, 4 or 8 (R392). -/
def busSize (n : Nat) : Bool := n == 1 || n == 2 || n == 4 || n == 8

/-- Every operand of the command is one its row admits. -/
def Instr.wf : Instr → Bool
  | .nop _ | .setPowerState _ | .grantPower _ | .queryStatus _ | .loadImage _ _ | .loadImageFromStore _ _ _
  | .storeWrite _ | .storeRead _ _ | .defineChain _ | .placeChain _ | .applyPlacement _ | .releaseChain _
  | .stageCoat _ _ | .commitCoat _ | .fenceTile _ | .readmitTile _ | .reserveSpares _ | .loadProgram _
  | .startEngine _ | .stopEngine _ | .engineMessage _ | .loadWaveform _ _ | .defineHead _ | .defineJob _
  | .loadGlyphs _ | .setDateSlots _ | .armJob _ | .swapJob _ | .disarm _ | .setCounter _ | .spit _
  | .setNozzleStatus _ | .readNozzleMap _ | .listenSweep _ | .setCompensation _ | .calibrate _ | .readCalSet _
  | .writeCalSet _ | .applyCal _ | .openStream _ | .closeStream _ | .syncDecimators _ | .runBist _ | .scrubRange _
  | .readLedger _ | .retirePage _ | .fieldRepair _ _ | .setFunctionMode _ | .tallyConfig _ | .tallySend _ => true
  | .badOpcodeDescriptor opcode _ => !opcodes.contains opcode
  | .descriptorFetch _ _ | .add _ _ _ _ | .sub _ _ _ _ | .and _ _ _ _ | .or _ _ _ _ | .xor _ _ _ _ | .shl _ _ _ _
  | .shr _ _ _ _ | .sar _ _ _ _ => true
  | .cmp _ rd _ _ => rd == 0
  | .addi _ _ _ _ | .andi _ _ _ _ | .ori _ _ _ _ => true
  | .shli _ _ _ imm => decide (imm.toNat < 32)
  | .shri _ _ _ imm => decide (imm.toNat < 32)
  | .sari _ _ _ imm => decide (imm.toNat < 32)
  | .cmpi _ rd _ _ => rd == 0
  | .lui _ _ ra _ => ra == 0
  | .mul _ _ _ _ | .mulh _ _ _ _ => true
  | .mac _ _ rd _ _ => rd == 0
  | .msu _ _ rd _ _ => rd == 0
  | .wracc _ rd _ rb => rd == 0 && rb == 0
  | .rdacc _ _ ra imm => ra == 0 && decide (imm.toNat < 40)
  | .ldw _ _ _ _ | .ldh _ _ _ _ | .ldbu _ _ _ _ | .stw _ _ _ _ | .sth _ _ _ _ | .stb _ _ _ _ => true
  | .b _ cond _ => cond != 15
  | .bl _ cond _ => cond != 15
  | .jalr _ _ _ _ => true
  | .loop _ rd _ imm => rd == 0 && decide (imm.toNat < 256)
  | .loopi _ rd ra _ => rd == 0 && ra == 0
  | .wait _ _ _ _ => true
  | .trig _ rd ra rb => rd == 0 && ra == 0 && rb == 0
  | .arm _ rd _ _ => rd == 0
  | .capt _ _ ra rb => ra == 0 && rb == 0
  | .adcp _ _ ra rb => ra == 0 && rb == 0
  | .adcpn _ _ ra rb => ra == 0 && rb == 0
  | .dacs _ rd _ rb => rd == 0 && rb == 0
  | .cmpset _ rd _ _ => rd == 0
  | .cmpclr _ rd _ rb => rd == 0 && rb == 0
  | .send _ rd _ _ => rd == 0
  | .recv _ _ _ rb => rb == 0
  | .recvn _ _ _ rb => rb == 0
  | .sleep _ rd ra rb => rd == 0 && ra == 0 && rb == 0
  | .halt _ rd ra rb => rd == 0 && ra == 0 && rb == 0
  | .fence _ rd ra rb => rd == 0 && ra == 0 && rb == 0
  | .reti _ rd ra rb => rd == 0 && ra == 0 && rb == 0
  | .mfs _ _ ra imm => ra == 0 && decide (imm.toNat < 18)
  | .mts _ rd _ imm => rd == 0 && decide (imm.toNat < 18)
  | .engineStallResume _ | .waitTimeout _ | .engineInterrupt _ | .armAction _ | .messageDelivery _ _
  | .inboxFullTimeout _ => true
  | .cqTailDoorbell _ _ size => busSize size
  | .cpHeadDoorbell _ _ size => busSize size
  | .stConsumedDoorbell _ _ size => busSize size
  | .pqTailDoorbell _ _ size => busSize size
  | .cqEnable _ _ | .cqStop _ _ | .pqEnable _ _ | .pqStop _ _ | .leaveDormant _ | .secLcAdvWrite _ _
  | .secKeyCmdWrite _ _ | .pinLockWrite _ | .memFlipArm _ | .memCodeWrite _ | .tripClear _ _
  | .comparatorStuckClear _ _ _ | .pinStuckClear _ _ | .gpioOutWrite _ _ | .systimeLoRead | .scrubCtrlWrite _
  | .encCountWrite _ _ | .adcEnableWrite _ _ | .ilvWrite _ _ | .decWrite _ _ | .refSelectWrite _ _
  | .comparatorEnableWrite _ _ _ | .vsetWrite _ _ | .pvhEnWrite _ | .hlvCtrlWrite _ | .evEnableWrite _ => true
  | .registerWrite _ _ size => busSize size
  | .sharedMemoryAccess _ len data => match data with
    | some bs => len == 0 && !bs.isEmpty
    | none => len != 0
  | .msixUnmask _ _ | .d3hotEntry _ | .linkDetection _ | .linkPowerUp _ | .inrushEnd | .linkPowerLoss _ => true
  | .moduleReset cause _ => cause != 3
  | .bootImageLoad _ _ _ | .perst | .hotReset | .jsbPerst _ | .jsbLimit _ | .jsbWake _ | .jsbModuleReset _
  | .jsbPoll _ | .jsbNak _ | .jsbCrcError | .jsbCollisionRetry | .linkL1Entry | .ptmDialogue _ _ | .sckTick
  | .scrubBurst | .scrubStarvationGrant | .wakeTimerExpiry | .scheduledWake | .qckUsable | .pllLock
  | .pllLockTimeout | .changeover | .fastClockStop | .heartbeatProbe _ | .heartbeatTimeout _ | .tileReplacement _
  | .placementReadyCommit | .coatCommit | .coatMaxWaitExpiry | .coatReadback _ _ | .dustSheetRelease
  | .powerStepComplete | .dormantPowerDown | .railGood _ _ | .railStartTimeout _ | .faultHoldTrip _ _
  | .faultHoldClear => true
  | .powerWindow _ _ rails pvh => rails.length == 6 && pvh.length == 8
  | .hlvLimitTimeout | .hrstRelease | .refokSettle _ | .refMeasure _ _ | .tempInterpolation _ _ _ _ | .dateLow
  | .dateSlotApply | .detectAccept _ | .printQueueEntryArrival _ | .fieldRenderDone _ _
  | .encoderTransition _ _ _ _ | .columnStrokeBoundary _ | .selectFrameLatch _ _ | .fire _ | .waveformEnd _ _
  | .listenStart _ | .listenWindowClose _ _ | .classifyResult _ | .spitListenSlot _ | .spitFire _
  | .phaseTrackSearch _ _ _ | .calibrationMeasurement _ _ | .bistSlice _ _ _ | .verdict _ | .rejectPulseStart _ _
  | .rejectPulseEnd _ | .trowelTrip _ | .trowelIdleReached _ | .foldBackEntry _ _ | .foldBackExit _ _
  | .buddyTakeoverStart _ | .buddyTakeoverEnd _ | .comparatorEdge _ _ _ | .comparatorMinwAccept _ _
  | .comparatorMinGapEnd _ _ | .comparatorMaxactExpiry _ _ | .stuckResumeWindowEnd _ | .pinEdge _ _
  | .pinMinwAccept _ | .pinMinGapEnd _ | .pinMaxactExpiry _ | .pinFunctionHoldEnd _ | .timerChannelExpiry _
  | .adcConversion _ _ | .syncEdge _ | .streamRecordClose _ | .mirrorWrite _ | .streamInterruptTimeout _
  | .msixGapEnd _ | .memCodePrimeDone | .panelLinkReplay _ _ _ => true
  | .tallyRollCall answers _ => answers.all (· < 512)
  | .tallyNomasterTimeout | .sync _ _ _ | .hold _ _ _ _ => true
  | .absent _ entries => !entries.isEmpty && decide (entries.length ≤ 4)
  | .stitch _ _ _ _ => true
  | .roll _ _ _ answers => answers.all (· < 512)
  | .tallyFrameRetry | .chopPeriodStart _ | .fabricOutputEdge _ _ _ | .rasterReadCompletion _ _
  | .engineMessageTimeout _ | .tallyFrameAck | .tallyFrameError | .linkDown | .linkTrained _ _
  | .configSpaceWrite _ _ => true

end Sys2Proof
end

