-- ==== Sys2Proof/Tests/Slice0.lean ====
section
/-!
SUPPORT. Tests: ill-formed commands, engine words of chapter 7 written out, single steps worked by hand from the manual, and
for every claim with hypotheses states and operands that meet them.
-/
namespace Sys2Proof.Tests

open Sys2Proof Sys2Proof.Machine

set_option linter.unusedSimpArgs false
set_option Elab.async false

/-! ### Ill-formed commands -/

/-- Refused: CMP writes no register: its D field is 0. -/
theorem test_illFormed_cmp : Instr.wf (.cmp 0 1 2 3) = false := by decide
/-- Refused: a shift by 32 or more. -/
theorem test_illFormed_shli : Instr.wf (.shli 0 1 2 32) = false := by decide
theorem test_illFormed_shri : Instr.wf (.shri 0 1 2 32) = false := by decide
theorem test_illFormed_sari : Instr.wf (.sari 0 1 2 32) = false := by decide
theorem test_illFormed_cmpi : Instr.wf (.cmpi 0 1 2 3) = false := by decide
theorem test_illFormed_lui : Instr.wf (.lui 0 1 2 3) = false := by decide
theorem test_illFormed_mac : Instr.wf (.mac 0 0 1 2 3) = false := by decide
theorem test_illFormed_msu : Instr.wf (.msu 0 0 1 2 3) = false := by decide
theorem test_illFormed_wracc : Instr.wf (.wracc 0 1 2 0) = false := by decide
theorem test_illFormed_wracc_2 : Instr.wf (.wracc 0 0 2 1) = false := by decide
theorem test_illFormed_rdacc : Instr.wf (.rdacc 0 1 2 3) = false := by decide
/-- Refused: a shift of the accumulator by 40. -/
theorem test_illFormed_rdacc_2 : Instr.wf (.rdacc 0 1 0 40) = false := by decide
/-- Refused: condition code 15. -/
theorem test_illFormed_b : Instr.wf (.b 0 15 1) = false := by decide
theorem test_illFormed_bl : Instr.wf (.bl 0 15 1) = false := by decide
theorem test_illFormed_loop : Instr.wf (.loop 0 1 2 4) = false := by decide
theorem test_illFormed_loop_2 : Instr.wf (.loop 0 0 2 256) = false := by decide
theorem test_illFormed_loopi : Instr.wf (.loopi 0 1 0 4) = false := by decide
theorem test_illFormed_loopi_2 : Instr.wf (.loopi 0 0 1 4) = false := by decide
theorem test_illFormed_trig : Instr.wf (.trig 0 1 0 0) = false := by decide
theorem test_illFormed_trig_2 : Instr.wf (.trig 0 0 1 0) = false := by decide
theorem test_illFormed_trig_3 : Instr.wf (.trig 0 0 0 1) = false := by decide
theorem test_illFormed_arm : Instr.wf (.arm 0 1 0 0) = false := by decide
theorem test_illFormed_capt : Instr.wf (.capt 0 1 1 0) = false := by decide
theorem test_illFormed_capt_2 : Instr.wf (.capt 0 1 0 1) = false := by decide
theorem test_illFormed_adcp : Instr.wf (.adcp 0 1 1 0) = false := by decide
theorem test_illFormed_adcp_2 : Instr.wf (.adcp 0 1 0 1) = false := by decide
theorem test_illFormed_adcpn : Instr.wf (.adcpn 0 1 1 0) = false := by decide
theorem test_illFormed_adcpn_2 : Instr.wf (.adcpn 0 1 0 1) = false := by decide
theorem test_illFormed_dacs : Instr.wf (.dacs 0 1 2 0) = false := by decide
theorem test_illFormed_dacs_2 : Instr.wf (.dacs 0 0 2 1) = false := by decide
theorem test_illFormed_cmpset : Instr.wf (.cmpset 0 1 2 3) = false := by decide
theorem test_illFormed_cmpclr : Instr.wf (.cmpclr 0 1 2 0) = false := by decide
theorem test_illFormed_cmpclr_2 : Instr.wf (.cmpclr 0 0 2 1) = false := by decide
theorem test_illFormed_send : Instr.wf (.send 0 1 2 3) = false := by decide
theorem test_illFormed_recv : Instr.wf (.recv 0 1 2 3) = false := by decide
theorem test_illFormed_recvn : Instr.wf (.recvn 0 1 2 3) = false := by decide
theorem test_illFormed_sleep : Instr.wf (.sleep 0 1 0 0) = false := by decide
theorem test_illFormed_sleep_2 : Instr.wf (.sleep 0 0 1 0) = false := by decide
theorem test_illFormed_sleep_3 : Instr.wf (.sleep 0 0 0 1) = false := by decide
theorem test_illFormed_halt : Instr.wf (.halt 0 1 0 0) = false := by decide
theorem test_illFormed_halt_2 : Instr.wf (.halt 0 0 1 0) = false := by decide
theorem test_illFormed_halt_3 : Instr.wf (.halt 0 0 0 1) = false := by decide
theorem test_illFormed_fence : Instr.wf (.fence 0 1 0 0) = false := by decide
theorem test_illFormed_fence_2 : Instr.wf (.fence 0 0 1 0) = false := by decide
theorem test_illFormed_fence_3 : Instr.wf (.fence 0 0 0 1) = false := by decide
theorem test_illFormed_reti : Instr.wf (.reti 0 1 0 0) = false := by decide
theorem test_illFormed_reti_2 : Instr.wf (.reti 0 0 1 0) = false := by decide
theorem test_illFormed_reti_3 : Instr.wf (.reti 0 0 0 1) = false := by decide
theorem test_illFormed_mfs : Instr.wf (.mfs 0 1 1 3) = false := by decide
/-- Refused: special register 18. -/
theorem test_illFormed_mfs_2 : Instr.wf (.mfs 0 1 0 18) = false := by decide
theorem test_illFormed_mts : Instr.wf (.mts 0 1 2 3) = false := by decide
theorem test_illFormed_mts_2 : Instr.wf (.mts 0 0 2 18) = false := by decide
/-- Refused: an opcode that has a row. -/
theorem test_illFormed_badOpcodeDescriptor : Instr.wf (.badOpcodeDescriptor 0x01 {}) = false := by decide
/-- Refused: a write of 3 bytes. -/
theorem test_illFormed_cqTailDoorbell : Instr.wf (.cqTailDoorbell 0 0 3) = false := by decide
theorem test_illFormed_cpHeadDoorbell : Instr.wf (.cpHeadDoorbell 0 0 3) = false := by decide
theorem test_illFormed_stConsumedDoorbell : Instr.wf (.stConsumedDoorbell 0 0 3) = false := by decide
theorem test_illFormed_pqTailDoorbell : Instr.wf (.pqTailDoorbell 0 0 0) = false := by decide
theorem test_illFormed_registerWrite : Instr.wf (.registerWrite 0x10 0 16) = false := by decide
/-- Refused: a read of no bytes. -/
theorem test_illFormed_sharedMemoryAccess : Instr.wf (.sharedMemoryAccess 0 0 none) = false := by decide
/-- Refused: a write with a read length. -/
theorem test_illFormed_sharedMemoryAccess_2 : Instr.wf (.sharedMemoryAccess 0 4 (some [1])) = false := by decide
theorem test_illFormed_sharedMemoryAccess_3 : Instr.wf (.sharedMemoryAccess 0 0 (some [])) = false := by decide
/-- Refused: cause 3. -/
theorem test_illFormed_moduleReset : Instr.wf (.moduleReset 3 .clean) = false := by decide
theorem test_illFormed_powerWindow : Instr.wf (.powerWindow 0 0 [] (List.replicate 8 0)) = false := by decide
theorem test_illFormed_powerWindow_2 : Instr.wf (.powerWindow 0 0 (List.replicate 6 0) []) = false := by decide
/-- Refused: a station above 511. -/
theorem test_illFormed_tallyRollCall : Instr.wf (.tallyRollCall [512] .clean) = false := by decide
theorem test_illFormed_absent : Instr.wf (.absent 1 []) = false := by decide
theorem test_illFormed_absent_2 : Instr.wf (.absent 1 [1, 2, 3, 4, 5]) = false := by decide
theorem test_illFormed_roll : Instr.wf (.roll 1 0 0 [512]) = false := by decide

/-! ### Engine words (R182 to R186): the words of the program at the end of chapter 7, and some built from the tables -/

theorem test_word_addi (t : TileId) : decodeEngine t 0x05800010 = some (.addi t 6 0 16) := by rfl
theorem test_word_mts (t : TileId) : decodeEngine t 0xE818000F = some (.mts t 0 6 15) := by rfl
theorem test_word_lui (t : TileId) : decodeEngine t 0x25014000 = some (.lui t 4 0 0x14000) := by rfl
theorem test_word_ori (t : TileId) : decodeEngine t 0x0D1003FF = some (.ori t 4 4 0x3FF) := by rfl
theorem test_word_wait (t : TileId) : decodeEngine t 0xA0140000 = some (.wait t 0 5 0) := by rfl
theorem test_word_loopi (t : TileId) : decodeEngine t 0x90001004 = some (.loopi t 0 0 0x1004) := by rfl
theorem test_word_adcp (t : TileId) : decodeEngine t 0xB0C00000 = some (.adcp t 3 0 0) := by rfl
theorem test_word_shli (t : TileId) : decodeEngine t 0x14CC0008 = some (.shli t 3 3 8) := by rfl
theorem test_word_add (t : TileId) : decodeEngine t 0x0088C000 = some (.add t 2 2 3) := by rfl
theorem test_word_cmp (t : TileId) : decodeEngine t 0x00084008 = some (.cmp t 0 2 1) := by rfl
theorem test_word_b (t : TileId) : decodeEngine t 0x81BFFFF7 = some (.b t 6 (-9)) := by rfl
theorem test_word_send (t : TileId) : decodeEngine t 0xC0108000 = some (.send t 0 4 2) := by rfl
theorem test_word_b_always (t : TileId) : decodeEngine t 0x803FFFF5 = some (.b t 0 (-11)) := by rfl
/-- R182, R184: op 0x10, D 0, A 1, B 2, SUB 0x302 (both high halves). -/
theorem test_word_mac (t : TileId) : decodeEngine t 0x40048302 = some (.mac t 3 0 1 2) := by rfl
/-- R182, R184: op 0x19, D 5, A 6, IMM18 -2. -/
theorem test_word_ldh (t : TileId) : decodeEngine t 0x655BFFFE = some (.ldh t 5 6 (-2)) := by rfl
/-- R182, R184: op 0x22, D 15, A 1, IMM18 0. -/
theorem test_word_jalr (t : TileId) : decodeEngine t 0x8BC40000 = some (.jalr t 15 1 0) := by rfl
/-- R182, R184: op 0x38, SUB 3. -/
theorem test_word_reti (t : TileId) : decodeEngine t 0xE0000003 = some (.reti t 0 0 0) := by rfl
/-- R182, R184: op 0x11, D 3, IMM18 15. -/
theorem test_word_rdacc (t : TileId) : decodeEngine t 0x44C0000F = some (.rdacc t 3 0 15) := by rfl
theorem test_word_none_1 (t : TileId) : decodeEngine t 0x00000009 = none := by rfl
theorem test_word_none_2 (t : TileId) : decodeEngine t 0xA0000004 = none := by rfl
theorem test_word_none_3 (t : TileId) : decodeEngine t 0xFFFFFFFF = none := by rfl
theorem test_word_none_4 (t : TileId) : decodeEngine t 0x40000400 = none := by rfl

/-! ### States that the tests use -/

/-- A module in ACTIVE with every panel ACTIVE, its fast clocks on FCK, its link up and nothing else going on. -/
def on : State :=
  { aon := { sysNow := 1000000, sysBase := 1000000, fck := 5000000, ticks := 100000, limit := 1250 },
    clk := { fast := .fck, pll := .locked },
    pwr := { mode := .active, panels := Vector.replicate 8 .active, hrstHold := false, grant := 12500 },
    link := { speed := 4, width := 4 } }

/-- Bytes of a descriptor's body from (offset, size, value) fields. -/
def body (l : List (Nat × Nat × Nat)) : BitVec 320 := BitVec.ofNat 320 ((l.map fun x => x.2.2 * 2 ^ (8 * (x.1 - 24))).sum)
def ds (target : Nat) (l : List (Nat × Nat × Nat)) : Desc := { tag := 7, target := BitVec.ofNat 32 target, body := body l }
/-- With a buffer of `len` bytes at 4096. -/
def dsb (target len : Nat) (l : List (Nat × Nat × Nat)) : Desc := { ds target l with buffer := 4096, length := BitVec.ofNat 32 len }
/-- Host memory with bytes at 4096. -/
def host (bs : List Byte) (s : State) : State := s.hostWrite 4096 bs

def tl (t : TileId) (f : Tile → Tile) (s : State) : State := s.modTile t f
def pn (p : PanelId) (f : Panel → Panel) (s : State) : State := s.modPanel p f
/-- Tile 5's engine runs at 0x100 with values in its registers. -/
def run (f : Engine → Engine := id) : State :=
  on.modEng 5 fun e => f { e with
    st := .running, pc := 0x100, hostEv := false, v := true, c := true
    regs := #v[0, 0x80000000, 0x7FFFFFFF, 0x00008001, 0xFFFFFFFF, 5, 35, 0x1000, 0x12340009, 0x20800, 0x8001, 255, 0x10000, 0, 0x31000403, 7] }
/-- A netlist image (R329, R330): one filled frame at netlist 0. -/
def imgBody : List Byte := [3, 0, 1, 0] ++ natLe 4 0x40000000 ++ [1, 2, 3, 4]
def img : List Byte :=
  natLe 4 0x4D59584C ++ [1, 0, 2, 2, 0xFF, 0, 0, 0] ++ List.replicate 12 0 ++ natLe 4 12 ++ natLe 4 1 ++ natLe 4 77 ++
    List.replicate 92 0 ++ imgBody ++ [0x0F, 0, 0, 0] ++
    u32 (framesCrc [⟨0x40000000, (List.replicate 32 [1, 2, 3, 4]).flatten⟩]) ++ List.replicate 16 0
def slotted : State := { on with sec := { on.sec with
  store := Memory.putBytes [] 0 img, slots := on.sec.slots.set 0 { valid := true, len := 164 } } }
/-- A stage record of kind `k` (R209), its PARAMS from `ps`. -/
def stageRec (k : Nat) (fl fix : Nat) (ps : List Byte) : List Byte :=
  [BitVec.ofNat 8 k, BitVec.ofNat 8 fl] ++ natLe 2 fix ++ [0, 0, 0, 0] ++ ps ++ List.replicate (24 - ps.length) 0
def timerRec : List Byte := stageRec 15 0 0 (natLe 4 10 ++ natLe 4 5)
/-- Chain 255 is one TIMER stage. -/
def timerStages : List Stage := [stageOf timerRec]
def chained : State := on.modChain 255 fun _ => { cdef := some (timerStages, []) }
def timerPl : Placement := ⟨[⟨0, 0, 0⟩], [], []⟩
def chainPlaced : State := on.modChain 255 fun _ => { cdef := some (timerStages, []), placement := some timerPl }
def probed5 : State := chainPlaced.modChain 3 fun _ =>
  { cdef := some ([stageOf (stageRec 12 1 5 [])], []), placement := some ⟨[⟨0, 0, 5⟩], [], []⟩ }
def fencedAt (t : TileId) (f : Tile → Tile := id) : State := on.modTile t fun x => f { x with fenced := true }
/-- A head of two nozzles on port 0, both driven by tile 5. -/
def hd : HeadDef :=
  { selBits := 2, lanes := 1, rate := 0, rows := 1, ports := 1, echoEn := false, echoDelay := 0, latchSetup := 1,
    latchWidth := 1, ckCont := false, listenCode := 1, echoPhase := 0, tLf := 0, neighbours := 0, dInvert := 0,
    ctlInvert := 0, rowOffsets := [0], nozzles := [⟨0, 0, 5, 0, []⟩, ⟨0, 1, 5, 0, []⟩] }
def headed (f : Head → Head := id) : State :=
  on.modHead 7 fun x => f { x with hdef := some hd, stats := List.replicate 2 {} }
def jd : JobDef :=
  { head := 7, flags := 0, columns := 4, pitch := 10, delay := 100, trigger := 0, encoder := 0, rejectPin := 255,
    minPitch := 50, rejectDist := 0, rejectWidth := 0, coverMin := 0, fields := [], counters := [], template := List.replicate 4 0,
    maxRate := 0, used := 68, nozzles := 2, bits := 2 }
def hdx (t : TileId := 5) : HeadDef := { hd with rowOffsets := List.replicate 8 0, nozzles := [⟨0, 0, 5, 0, [0,0,0,0]⟩, ⟨0, 1, t, 0, [0,0,0,0]⟩] }
def hdD : Desc := dsb 7 64 [(24,1,2),(25,1,1),(27,1,1),(28,2,2),(30,1,1),(33,1,1),(34,1,1),(36,1,1)]
def hdB (t : Nat := 5) : List Byte := List.replicate 32 0 ++ [0,0,5,0] ++ List.replicate 12 0 ++ [1,0,BitVec.ofNat 8 t,0] ++ List.replicate 12 0
/-- Job 3 is defined. -/
def jobbed (f : Head → Head := id) (j : JobDef := jd) : State := { headed f with jobs := on.jobs.set 3 { jdef := some j } }
def jobD : Desc := dsb 3 16 [(24,1,7),(26,2,4),(28,4,10),(32,4,100),(39,1,255),(40,4,50),(48,2,1)]
def jobX : JobDef := { jd with rejectWidth := 1, template := List.replicate 16 0, used := 320 }
def armed (f : Head → Head := id) (j : JobDef := jd) : State := jobbed (fun x => f { x with armed := some 3 }) j
/-- A product of job 3. -/
def pr : Product :=
  { seq := 0, job := 3, jdef := { jd with pitch := 65536 }, time := 5, c0 := 0, counts := [], slot := none, stale := false,
    raster := .merged [[1, 1], [1, 0], [0, 1], [1, 1]], rendered := true, merge := false, compens := false, classify := false, faultcls := false }
def printing (p : Product := pr) (f : Head → Head := id) : State := armed (fun x => f { x with products := [p] }) p.jdef
def lst : Listen := { head := 7, seq := 0, nozzle := 0, kind := 0, retry := false, start := 0 }
def listening (l : Listen) (f : Tile → Tile := id) (s : State := headed) : State :=
  s.modTile 5 fun x => f { x with trowel := { x.trowel with cfg := 0x003F3000, listen := some l } }
def fr : Frame := { fire := true, head := 7, seq := 0, col := 0, codes := [1, 1] }
def due : DueFire := { head := 7, seq := 0, col := 0, by_ := .column, nFired := 2, latched := true, listen := none }
def trw (f : Trowel → Trowel) (s : State) : State := s.modTrowel 5 f
/-- Encoder channel 6 in quadrature at count 9, its inputs at levels. -/
def enc6 (a b : Bool) : State := on.modEnc 6 fun e => { e with cfg := 0x10000000, lvlA := a, lvlB := b, count := 9 }

/-! ### Single steps, worked by hand from the rules -/

/-- The engine of tile 5 after a step of it. -/
def eng5 (i : Instr) (s : State := run) : Engine :=
  match exec i s with
  | .next s => (s.tiles[(5 : TileId)]).eng
  | _ => {}
/-- What tests read of an engine: a register, and Z, N, C and V. -/
def shown (d : Reg4) (e : Engine) : Word × Bool × Bool × Bool × Bool := (e.rd d, e.z, e.n, e.c, e.v)

/-- R184: 0x8000_0000 + 0xFFFF_FFFF wraps with a carry and a signed overflow. -/
theorem test_add_wraps : shown 2 (eng5 (.add 5 2 1 4)) = (0x7FFFFFFF, false, false, true, true) := by decide +kernel
/-- R184: 5 - 35 borrows, so C is 0. -/
theorem test_sub_borrow : shown 2 (eng5 (.sub 5 2 5 6)) = (0xFFFFFFE2, false, true, false, false) := by decide +kernel
/-- R184: equal operands borrow nothing; CMP writes no register. -/
theorem test_cmp_equal : shown 0 (eng5 (.cmp 5 0 5 5)) = (0, true, false, true, false) := by decide +kernel
/-- R184: logic clears C and V; the immediate of ANDI is zero-extended. -/
theorem test_andi_zero_extends : shown 2 (eng5 (.andi 5 2 4 0x3FFFF)) = (0x3FFFF, false, false, false, false) := by decide +kernel
/-- R184: the immediate of ADDI is sign-extended. -/
theorem test_addi_sign_extends : shown 2 (eng5 (.addi 5 2 5 (-6))) = (0xFFFFFFFF, false, true, false, false) := by decide +kernel
/-- R184: a shift by 35 shifts by 35 mod 32 = 3; the last bit out of 0x8000_8001 at SHR by 1 is 1; V keeps its value. -/
theorem test_shl_mod_32 : shown 2 (eng5 (.shl 5 2 3 6)) = (0x40008, false, false, false, true) := by decide +kernel
theorem test_shri_carry : shown 2 (eng5 (.shri 5 2 3 1)) = (0x4000, false, false, true, true) := by decide +kernel
theorem test_sar_sign_fills : shown 2 (eng5 (.sar 5 2 1 6)) = (0xF0000000, false, true, false, true) := by decide +kernel
/-- R184: a shift by 0 clears C. -/
theorem test_shri_zero : shown 2 (eng5 (.shri 5 2 4 0)) = (0xFFFFFFFF, false, true, false, true) := by decide +kernel
/-- R184: -2^31 × -1 = 2^31, signed. -/
theorem test_mulh_signed : (eng5 (.mulh 5 2 1 4)).rd 2 = 0 := by decide +kernel
theorem test_mul_low : (eng5 (.mul 5 2 1 4)).rd 2 = 0x80000000 := by decide +kernel
/-- R185: 2^39 - 1 + 25 clamps and sets AV. -/
theorem test_mac_clamps :
    (eng5 (.mac 5 0 0 5 5) (run fun e => { e with acc := 0x7FFFFFFFFF })).acc = 0x7FFFFFFFFF ∧
      (eng5 (.mac 5 0 0 5 5) (run fun e => { e with acc := 0x7FFFFFFFFF })).av = true := by decide +kernel
/-- R185: the high half of 0x1234_0009 times 5. -/
theorem test_mac_high_half : (eng5 (.mac 5 1 0 8 5)).acc = 0x5B04 := by decide +kernel
theorem test_lui : (eng5 (.lui 5 2 0 0x3FFFF)).rd 2 = 0xFFFFC000 := by decide +kernel
/-- R176: e0 reads 0 and discards writes. -/
theorem test_e0 : (eng5 (.add 5 0 1 2)).rd 0 = 0 ∧ (eng5 (.add 5 0 1 2)).pc = 0x104 := by decide +kernel
/-- R184: BL saves the next address and jumps relative to itself. -/
theorem test_bl : (eng5 (.bl 5 0 (-3))).pc = 0xF4 ∧ (eng5 (.bl 5 0 (-3))).rd 15 = 0x104 := by decide +kernel
/-- R183, R186: condition code 15 is ILLEGAL, fault cause 1. -/
theorem test_b_reserved_condition : (eng5 (.b 5 15 1)).st = .fault ∧ (eng5 (.b 5 15 1)).cause = 1 := by decide +kernel
/-- R189: a count of 0 skips the body of 4 instructions. -/
theorem test_loop_zero : (eng5 (.loop 5 0 0 4)).pc = 0x114 ∧ (eng5 (.loop 5 0 0 4)).loops = [] := by decide +kernel

/-- Chapter 1's example: T300 lies in P4 with local index 44, and its registers stand at 0xCB00. -/
theorem test_T300 : panelOf 300 = 4 ∧ localOf 300 = 44 ∧ regAt 0xCB00 = some (.tile 300 .state) := by decide +kernel
/-- Chapter 15's example: HLV_CTRL after module reset. -/
theorem test_hlvCtrl_reset : readReg State.reset .hlvCtrl = 0x41003200 := by decide +kernel
/-- Chapter 15's example: one masked write raises G037, whose pad the board holds low, and no other pin of its register. -/
theorem test_gpioOut :
    (match exec (.gpioOutWrite 2 0x00200020) (on.modPin 37 fun x => { x with pad := some false }) with
     | .next s => some (readReg s (.gpioOut 2))
     | _ => none) = some 0x20 := by decide +kernel
/-- Chapter 13's example: the correction of T040's ADC and of tap 5 of T000 at 41.3 and 42.3 °C, and below every set. -/
theorem test_interpolation :
    interpolate 413 [(1, 56), (2, 80)] = some 70 ∧ interpolate 413 [(1, -12), (2, -20)] = some (-17) ∧
      interpolate 423 [(1, 56), (2, 80)] = some 71 ∧ interpolate 423 [(1, -12), (2, -20)] = some (-17) ∧
      interpolate 80 [(1, 56), (2, 80)] = some 56 := by decide +kernel
/-- R63: the check value of CRC-32C, over the characters 1 to 9. -/
theorem test_crc32c : crc32c [49, 50, 51, 52, 53, 54, 55, 56, 57] = 0xE3069283 := by decide +kernel

/-! ### Witnesses: for each claim, states and operands that meet the hypotheses of each of its clauses -/

theorem witness_StepTakesFront : (∃ (c : Instr) (rest : List Instr) (s : State), s.pending = c :: rest) := ⟨(.nop (ds 0 []) : Instr), ([] : List Instr), ({on with pending := [.nop (ds 0 [])]} : State), by decide +kernel⟩

theorem witness_EmptyQueue : (∃ (s : State), s.pending = [] ∧ State.fastOn s = false ∧ s.cal.waits = []) := ⟨({on with clk := {fast := .stopped}} : State), by decide +kernel⟩

theorem witness_CompletionPosted :
    (∃ (d : Desc) (s : State) (k : Nat), d ∈ s.cqs[d.queue].waiting ∧ State.linkUp s = true ∧ d.cw = Attempt.clean ∧ Memory.wf s.hostMem = true ∧ (k < BitVec.toNat s.cqs[d.queue].cpBase + 16 * BitVec.toNat s.cqs[d.queue].cpw ∨ BitVec.toNat s.cqs[d.queue].cpBase + 16 * BitVec.toNat s.cqs[d.queue].cpw + 16 ≤ k)) ∧
    (∃ (d : Desc) (s : State), d ∈ s.cqs[d.queue].waiting ∧ State.linkUp s = true ∧ d.cw = Attempt.clean ∧ Memory.wf s.hostMem = true ∧ Desc.ci d = false) :=
  ⟨⟨(ds 0 [] : Desc), (on.begun 1 (ds 0 []) : State), (16 : Nat), by decide +kernel⟩,
   ⟨(ds 0 [] : Desc), ((on.begun 1 (ds 0 [])).modCq 0 fun q => {q with cpw := 15} : State), by decide +kernel⟩⟩

theorem witness_HeaderChecked :
    (∃ (d : Desc) (off : Nat) (s : State), State.runs s d = true ∧ headerFault d 32 BufUse.none CoatUse.unbound [(24, 40)] = some off) ∧
    (∃ (d : Desc) (off : Nat) (s : State), State.runs s d = true ∧ headerFault d 0 BufUse.buffer CoatUse.unbound [(24, 40)] = some off) ∧
    (∃ (d : Desc) (off : Nat) (s : State), State.runs s d = true ∧ headerFault d 5 BufUse.none CoatUse.unbound [(24, 40)] = some off) :=
  ⟨⟨(ds 0 [(30,1,4)] : Desc), (30 : Nat), (on : State), by decide +kernel⟩,
   ⟨(dsb 0 64 [(30,1,4)] : Desc), (30 : Nat), (on : State), by decide +kernel⟩,
   ⟨(ds 32 [] : Desc), (4 : Nat), (on : State), by decide +kernel⟩⟩

theorem witness_NopQueryBadOpcode :
    (∃ (d : Desc) (s : State), State.takes s 1 d (headerFault d 32 BufUse.none CoatUse.unbound [(24, 40)])) ∧
    (∃ (d : Desc) (s : State), State.takes s 4 d (headerFault d 0 BufUse.buffer CoatUse.unbound [(24, 40)]) ∧ Desc.len d = 0) ∧
    (∃ (d : Desc) (s : State), State.takes s 4 d (headerFault d 0 BufUse.buffer CoatUse.unbound [(24, 40)]) ∧ Desc.len d = 64 ∧ State.linkUp s = true ∧ d.wr = Attempt.clean) ∧
    (∃ (op : Byte) (d : Desc) (s : State), State.runs s d = true ∧ List.contains opcodes op = false) :=
  ⟨⟨(ds 0 [] : Desc), (on : State), by unfold State.takes; decide +kernel⟩,
   ⟨(ds 0 [] : Desc), (on : State), by unfold State.takes; decide +kernel⟩,
   ⟨(dsb 0 64 [] : Desc), (on : State), by unfold State.takes; decide +kernel⟩,
   ⟨(0xEE : Byte), (dsb 0 64 [] : Desc), (on : State), by decide +kernel⟩⟩

theorem witness_DescriptorFetched : (∃ (n : Fin 16) (s : State), State.serving s = true ∧ State.turn s n = true ∧ State.linkUp s = true ∧ s.mem.errs = []) := ⟨(2 : Fin 16), ((host [1,1,7,0] on).modCq 2 fun q => {q with en := true, tail := 1, base := 4096} : State), by decide +kernel⟩

theorem witness_Doorbells :
    (∃ (v : Word) (s : State) (n : Fin 16), State.decodes s = true ∧ s.pwr.mode ≠ Mode.dormant ∧ s.cqs[n].en = true ∧ BitVec.toNat v < Cq.slots s.cqs[n]) ∧
    (∃ (v : Word) (s : State) (n : Fin 16), State.decodes s = true ∧ s.pwr.mode ≠ Mode.dormant ∧ s.cqs[n].en = true ∧ Cq.slots s.cqs[n] ≤ BitVec.toNat v) ∧
    (∃ (v : Word) (s : State) (n : Fin 8), State.decodes s = true ∧ s.pwr.mode ≠ Mode.dormant ∧ s.pqs[n].en = true ∧ BitVec.toNat v < Pq.slots s.pqs[n]) ∧
    (∃ (v : Word) (s : State) (n : Fin 32), State.decodes s = true ∧ s.pwr.mode ≠ Mode.dormant ∧ s.sts[n].isOpen = true ∧ Stream.consumes s.sts[n] (BitVec.toNat v) = true) ∧
    (∃ (s : State) (size : Nat), State.decodes s = true ∧ s.pwr.mode ≠ Mode.dormant ∧ size ≠ 4) :=
  ⟨⟨(3 : Word), (on.modCq 2 fun q => {q with en := true} : State), (2 : Fin 16), by decide +kernel⟩,
   ⟨(16 : Word), (on.modCq 2 fun q => {q with en := true} : State), (2 : Fin 16), by decide +kernel⟩,
   ⟨(15 : Word), (on.modPq 2 fun q => {q with en := true} : State), (2 : Fin 8), by decide +kernel⟩,
   ⟨(0 : Word), (on.modSt 2 fun q => {q with isOpen := true} : State), (2 : Fin 32), by decide +kernel⟩,
   ⟨(on.modCq 2 fun q => {q with en := true} : State), (8 : Nat), by decide +kernel⟩⟩

theorem witness_StreamsOpenAndClose :
    (∃ (d : Desc) (s : State), State.takes s 112 d (openHeader d) ∧ openFault d = none ∧ Desc.u d 25 1 = 0 ∧ s.sts[Fin.ofNat 32 (BitVec.toNat d.target)].isOpen = false ∧ (List.any (streamSources (Desc.u d 24 1) (Desc.u d 26 2) (Desc.u d 28 2)) fun (x : Source) => Option.isSome (State.ringOf s x)) = false) ∧
    (∃ (d : Desc) (s : State), State.takes s 113 d (headerFault d 5 BufUse.none CoatUse.unbound [(24, 40)]) ∧ s.sts[Fin.ofNat 32 (BitVec.toNat d.target)].isOpen = true ∧ s.sts[Fin.ofNat 32 (BitVec.toNat d.target)].gap = none) ∧
    (∃ (n : Fin 32) (s : State), s.sts[n].isOpen = true ∧ s.sts[n].mirrorDue = true ∧ State.linkUp s = true ∧ (∀ (k : Nat), s.sts[n].mirrorAt = some k → k + 1200 ≤ s.aon.fck)) ∧
    (∃ (n : Fin 32) (f : Nat) (s : State), s.sts[n].firstAt = some f ∧ s.sts[n].isOpen = true ∧ s.sts[n].signalled = false ∧ s.sts[n].timeout ≠ 0 ∧ f + 9600 * BitVec.toNat s.sts[n].timeout ≤ s.aon.fck) :=
  ⟨⟨(dsb 3 65536 [(24,1,3),(30,1,5),(40,8,8192)] : Desc), (on : State), by unfold State.takes; decide +kernel⟩,
   ⟨(ds 3 [] : Desc), (on.modSt 3 fun r => {r with isOpen := true, mirror := 8192, write := 5, sources := [.message]} : State), by unfold State.takes; decide +kernel⟩,
   ⟨(3 : Fin 32), (on.modSt 3 fun r => {r with isOpen := true, mirror := 8192, write := 5, mirrorDue := true} : State), by decide +kernel⟩,
   ⟨(3 : Fin 32), (96 : Nat), (on.modSt 3 fun r => {r with isOpen := true, firstAt := some 96, timeout := 2} : State), by decide +kernel⟩⟩

theorem witness_MsixMessages :
    (∃ (v : Fin 64) (w : Word) (s : State), State.decodes s = true ∧ s.pwr.mode ≠ Mode.dormant ∧ BitVec.getLsbD w 0 = false ∧ s.msix[v].pba = true ∧ s.link.fnMask = false) ∧
    (∃ (w : Word) (s : State), State.decodes s = true ∧ s.pwr.mode ≠ Mode.dormant ∧ BitVec.getLsbD w 0 = true) ∧
    (∃ (v : Fin 64) (s : State), s.msix[v].held = true ∧ s.msix[v].gapUntil ≤ s.aon.fck) ∧
    (∃ (v : Fin 64) (s : State), s.msix[v].masked = true) ∧
    (∃ (v : Fin 64) (s : State), s.msix[v].masked = false ∧ s.link.fnMask = false ∧ s.msix[v].gapUntil ≤ s.aon.fck) :=
  ⟨⟨(63 : Fin 64), (0 : Word), (on.modMsix 63 fun m => {m with pba := true} : State), by decide +kernel⟩,
   ⟨(1 : Word), (on.modMsix 63 fun m => {m with masked := false} : State), by decide +kernel⟩,
   ⟨(63 : Fin 64), (on.modMsix 63 fun m => {m with masked := false, held := true, gapUntil := 5000000} : State), by decide +kernel⟩,
   ⟨(63 : Fin 64), (on : State), by decide +kernel⟩,
   ⟨(63 : Fin 64), (on.modMsix 63 fun m => {m with masked := false} : State), by decide +kernel⟩⟩

theorem witness_EndpointEvents :
    (∃ (s : State), s.aon.up = true ∧ s.link.perst = false ∧ s.pwr.bursarFail = false ∧ s.pwr.mode ≠ Mode.dormant) ∧
    (∃ (s : State), s.link.aspmL1 = true ∧ State.linkUp s = true ∧ s.link.inL1 = false ∧ State.inProgress s = 0 ∧ (s.pwr.mode = Mode.standby ∨ s.pwr.mode = Mode.armed) ∧ s.pwr.change = none ∧ s.link.l12En = false) :=
  ⟨⟨(on : State), by decide +kernel⟩,
   ⟨({on with pwr := {on.pwr with mode := .armed}, link := {on.link with aspmL1 := true}} : State), by decide +kernel⟩⟩

theorem witness_QueuesEnableAndStop :
    (∃ (n : Fin 16) (v : Word) (s : State), State.decodes s = true ∧ s.pwr.mode ≠ Mode.dormant ∧ BitVec.getLsbD v 31 = true ∧ s.cqs[n].en = false ∧ Cq.inProgress s.cqs[n] = 0 ∧ BitVec.toNat s.cqs[n].base % 64 = 0 ∧ BitVec.toNat s.cqs[n].cpBase % 16 = 0) ∧
    (∃ (n : Fin 16) (v : Word) (s : State), State.decodes s = true ∧ s.pwr.mode ≠ Mode.dormant ∧ BitVec.getLsbD v 31 = true ∧ s.cqs[n].en = false ∧ Cq.inProgress s.cqs[n] = 0 ∧ BitVec.toNat s.cqs[n].base % 64 ≠ 0) ∧
    (∃ (v : Word) (s : State), State.decodes s = true ∧ s.pwr.mode ≠ Mode.dormant ∧ BitVec.getLsbD v 31 = false) ∧
    (∃ (n : Fin 8) (v : Word) (s : State), State.decodes s = true ∧ s.pwr.mode ≠ Mode.dormant ∧ BitVec.getLsbD v 31 = true ∧ s.pqs[n].en = false ∧ BitVec.toNat s.pqs[n].base % 32 = 0 ∧ (∀ (k : Fin 8), k ≠ n → s.pqs[k].en = false)) :=
  ⟨⟨(3 : Fin 16), (0x80000005 : Word), (on.modCq 3 fun q => {q with base := 4096, cpBase := 8192, head := 3} : State), by decide +kernel⟩,
   ⟨(3 : Fin 16), (0x80000005 : Word), (on.modCq 3 fun q => {q with base := 4097, cpBase := 8192} : State), by decide +kernel⟩,
   ⟨(5 : Word), (on.modCq 3 fun q => {q with en := true, base := 4096, cpBase := 8192, waiting := [ds 0 []]} : State), by decide +kernel⟩,
   ⟨(3 : Fin 8), (0x85000002 : Word), (on.modPq 3 fun q => {q with base := 4096, rdidx := 9} : State), by decide +kernel⟩⟩

theorem witness_TwoWriteSequences :
    (∃ (v : Word) (s : State), State.decodes s = true ∧ s.pwr.mode ≠ Mode.dormant ∧ Word.field v 15 8 = 167 ∧ Word.field v 1 0 = Lifecycle.code s.sec.lifecycle + 1 ∧ s.sec.lcFirst = some (BitVec.ofNat 2 (Word.field v 1 0)) ∧ (s.sec.lifecycle = Lifecycle.opened → Sec.keyBits s.sec ≠ 0)) ∧
    (∃ (v : Word) (s : State), State.decodes s = true ∧ s.pwr.mode ≠ Mode.dormant ∧ Word.field v 15 8 = 60 ∧ s.sec.lifecycle = Lifecycle.opened ∧ BitVec.getLsbD v 0 = false ∧ s.sec.keys[0] = none) ∧
    (∃ (v : Word) (s : State), State.decodes s = true ∧ s.pwr.mode ≠ Mode.dormant ∧ Word.field v 15 8 = 147 ∧ s.gpio.lockFirst = some (Fin.ofNat 128 (Word.field v 6 0))) ∧
    (∃ (v : Word) (s : State), State.decodes s = true ∧ s.pwr.mode = Mode.dormant ∧ BitVec.getLsbD v 31 = true) :=
  ⟨⟨(0xA702 : Word), ({on with sec := {on.sec with lcFirst := some 2, keys := on.sec.keys.set 0 (some 5)}} : State), by decide +kernel⟩,
   ⟨(0x3C00 : Word), ({on with sec := {on.sec with keyData := on.sec.keyData.set 7 0x80000000}} : State), by decide +kernel⟩,
   ⟨(0x937F : Word), ({on with gpio := {on.gpio with lockFirst := some 127}} : State), by decide +kernel⟩,
   ⟨(0x80000000 : Word), ({on with pwr := {on.pwr with mode := .dormant}} : State), by decide +kernel⟩⟩

theorem witness_MemoryControlWrites :
    (∃ (v : Word) (s : State), State.decodes s = true ∧ s.pwr.mode ≠ Mode.dormant ∧ State.anyPlaced s = false ∧ State.anyArmed s = false ∧ Word.merge s.mem.memCode v 63#32 ≠ s.mem.memCode) ∧
    (∃ (v : Word) (s : State), State.decodes s = true ∧ s.pwr.mode ≠ Mode.dormant ∧ BitVec.getLsbD v 31 = true ∧ Word.field v 15 12 ≤ 12) :=
  ⟨⟨(1 : Word), (on.modTile 3 fun x => {x with buffer := [(5, 1), (0x5000, 2)]} : State), by decide +kernel⟩,
   ⟨(0x8001C003 : Word), (on : State), by decide +kernel⟩⟩

theorem witness_RegisterMap : (∃ (o : Nat) (r : Reg), o < 65536 ∧ regAt o = some r) := ⟨(0x0000 : Nat), (.ident : Reg), by decide +kernel⟩

theorem witness_RegisterWrites :
    (∃ (n : Nat), n ≠ 4) ∧
    (∃ (off : BitVec 16), regAt (BitVec.toNat off) = none) ∧
    (∃ (s : State), State.decodes s = true ∧ s.pwr.mode ≠ Mode.dormant) ∧
    (∃ (s : State), State.decodes s = false) :=
  ⟨⟨(8 : Nat), by decide +kernel⟩,
   ⟨(0x0E80 : BitVec 16), by decide +kernel⟩,
   ⟨(on : State), by decide +kernel⟩,
   ⟨({on with link := {on.link with d3hot := true}} : State), by decide +kernel⟩⟩

theorem witness_TileAndPanelWrites :
    (∃ (p : PanelId) (v : Word) (s : State), State.decodes s = true ∧ s.pwr.mode ≠ Mode.dormant ∧ State.pstate s p ≠ PState.off ∧ State.armedPanel s p = false ∧ Word.field v 25 24 ≠ Word.field s.panels[p].ref 25 24 ∧ (∀ (k : TileId), panelOf k = p → State.cmpsOff s k = true)) ∧
    (∃ (k : TileId) (s : State) (o : TileId), State.decodes s = true ∧ s.pwr.mode ≠ Mode.dormant ∧ State.pstate s (panelOf k) ≠ PState.off ∧ State.tileLive s k = true ∧ State.cmpsOff s k = true ∧ State.feeder s k = some o ∧ s.tiles[k].openRec = none) ∧
    (∃ (k : TileId) (v : Word) (s : State), State.decodes s = true ∧ s.pwr.mode ≠ Mode.dormant ∧ State.pstate s (panelOf k) ≠ PState.off ∧ State.tileLive s k = true ∧ State.sarListens s k = false ∧ State.joined s (partner k) = false ∧ BitVec.getLsbD v 0 = true ∧ BitVec.getLsbD v 14 = false ∧ Word.field v 31 26 ≠ 63 ∧ Word.field v 17 16 = 0 ∧ Tile.adcEn s.tiles[k] = false ∧ s.tiles[k].openRec = none ∧ BitVec.getLsbD v 13 = false ∧ State.fastOn s = true) ∧
    (∃ (k : TileId) (s : State), State.decodes s = true ∧ s.pwr.mode ≠ Mode.dormant ∧ State.pstate s (panelOf k) ≠ PState.off ∧ ↑k % 2 = 0 ∧ State.sarListens s k = false ∧ State.tileLive s k = false ∧ Tile.ilv s.tiles[k] = false) ∧
    (∃ (k : TileId) (v : Word) (s : State), State.decodes s = true ∧ s.pwr.mode ≠ Mode.dormant ∧ State.pstate s (panelOf k) ≠ PState.off ∧ BitVec.getLsbD v 31 = true ∧ s.tiles[k].trowel.trip = true) ∧
    (∃ (k : TileId) (v : Word) (s : State) (c : Cmp), State.decodes s = true ∧ s.pwr.mode ≠ Mode.dormant ∧ State.pstate s (panelOf k) ≠ PState.off ∧ s.mem.errs = [] ∧ s.mem.flipArm = false ∧ State.unrouted s k c = true ∧ BitVec.getLsbD v 30 = false ∧ BitVec.getLsbD v 28 = true ∧ (Tile.cmp s.tiles[k] c).stuck = true ∧ (Tile.cmp s.tiles[k] c).cfg &&& TReg.rw k (TReg.cmp c) = v &&& TReg.rw k (TReg.cmp c) ∧ (Tile.cmp s.tiles[k] c).powered = Comparator.en (Tile.cmp s.tiles[k] c) ∧ s.tiles[k].cmpA.lvl = State.cmpLvl s k Cmp.a ∧ s.tiles[k].cmpB.lvl = State.cmpLvl s k Cmp.b) ∧
    (∃ (k : TileId) (v : Word) (s : State) (c : Cmp), State.decodes s = true ∧ s.pwr.mode ≠ Mode.dormant ∧ State.pstate s (panelOf k) ≠ PState.off ∧ s.mem.errs = [] ∧ s.mem.flipArm = false ∧ State.unrouted s k c = true ∧ BitVec.getLsbD v 30 = false ∧ BitVec.getLsbD v 28 = false ∧ BitVec.getLsbD v 0 = true ∧ BitVec.getLsbD v 2 = false ∧ Comparator.win s.tiles[k].cmpA = false ∧ (Tile.cmp s.tiles[k] c).powered = false ∧ State.tileLive s k = true ∧ s.panels[panelOf k].refSeen = true ∧ (Tile.cmp s.tiles[k] c).seen = none ∧ s.tiles[k].cmpA.lvl = State.cmpLvl s k Cmp.a ∧ s.tiles[k].cmpB.lvl = State.cmpLvl s k Cmp.b) :=
  ⟨⟨(7 : PanelId), (0x01000000 : Word), (on.modPanel 7 fun x => {x with refOk := true} : State), by decide +kernel⟩,
   ⟨(510 : TileId), (on.modTile 510 fun x => {x with adc := 0x00020001, sar := {x.sar with en := true, nextAt := some 5000060}} : State), (510 : TileId), by decide +kernel⟩,
   ⟨(510 : TileId), (0x00000D01 : Word), (on : State), by decide +kernel⟩,
   ⟨(510 : TileId), ({on with pwr := {on.pwr with mode := .standby, panels := Vector.replicate 8 .retain}}.modTile 511 fun x => {x with adc := 1} : State), by decide +kernel⟩,
   ⟨(510 : TileId), (0x80000000 : Word), (on.modTrowel 510 fun x => {x with trip := true} : State), by decide +kernel⟩,
   ⟨(510 : TileId), (0x10000001 : Word), (on.modCmp 510 .a fun x => {x with cfg := 1, powered := true, raw := true, lvl := true, acc := true, stuck := true, stuckPhase := .first} : State), (.a : Cmp), by refine ⟨?_, ?_, ?_, ?_, ?_, by simp [State.unrouted, State.portStarts, State.links, on, localOf, cmpNum, State.modCmp, State.modTile, State.modEng, run, panelOf, State.modPanel, show ((5 : TileId) : Nat) = 5 from rfl, show ((510 : TileId) : Nat) = 510 from rfl], ?_, ?_, ?_, ?_, ?_, ?_, ?_⟩ <;> decide +kernel⟩,
   ⟨(510 : TileId), (0x00000031 : Word), (on.modPanel 7 fun x => {x with refOk := true, refSeen := true} : State), (.b : Cmp), by refine ⟨?_, ?_, ?_, ?_, ?_, by simp [State.unrouted, State.portStarts, State.links, on, localOf, cmpNum, State.modCmp, State.modTile, State.modEng, run, panelOf, State.modPanel, show ((5 : TileId) : Nat) = 5 from rfl, show ((510 : TileId) : Nat) = 510 from rfl], ?_, ?_, ?_, ?_, ?_, ?_, ?_, ?_, ?_, ?_, ?_⟩ <;> decide +kernel⟩⟩

theorem witness_GlobalWrites :
    (∃ (v : Word) (s : State), State.decodes s = true ∧ s.pwr.mode ≠ Mode.dormant ∧ State.anyArmed s = false ∧ State.hlvTooMuch s v = false) ∧
    (∃ (s : State), State.decodes s = true ∧ s.pwr.mode ≠ Mode.dormant ∧ Word.field (BitVec.setWidth 32 s.fnMode) 15 14 = 1 ∧ s.pwr.vddaGood = true) ∧
    (∃ (n : Fin 8) (s : State), State.decodes s = true ∧ s.pwr.mode ≠ Mode.dormant ∧ State.encArmed s n = false) ∧
    (∃ (k : Fin 8) (j : Fin 16) (v : Word) (s : State), State.decodes s = true ∧ s.pwr.mode ≠ Mode.dormant ∧ (∀ (i : Fin 16), BitVec.getLsbD v (16 + ↑i) = decide (i = j)) ∧ s.gpio.pins[pin16 k j].out = BitVec.getLsbD v ↑j) ∧
    (∃ (k : Fin 8) (j : Fin 16) (v : Word) (s : State), State.decodes s = true ∧ s.pwr.mode ≠ Mode.dormant ∧ (∀ (i : Fin 16), BitVec.getLsbD v (16 + ↑i) = decide (i = j)) ∧ s.gpio.pins[pin16 k j].out ≠ BitVec.getLsbD v ↑j ∧ State.padLevel (State.modPin s (pin16 k j) fun (x : Pin) => { cfg := x.cfg, locked := x.locked, out := BitVec.getLsbD v ↑j, pad := x.pad, kept := x.kept, sync := x.sync, filt := x.filt, held := x.held, ist := x.ist, ien := x.ien, stuck := x.stuck, wake := x.wake, stuckPhase := x.stuckPhase, cand := x.cand, gapUntil := x.gapUntil, activeSince := x.activeSince, woke := x.woke, hold := x.hold, holdAt := x.holdAt, latch := x.latch, reject := x.reject }) (pin16 k j) = some s.gpio.pins[pin16 k j].sync) ∧
    (∃ (k : Fin 4) (j : Fin 32) (v : Word) (s : State), State.decodes s = true ∧ s.pwr.mode ≠ Mode.dormant ∧ (∀ (i : Fin 32), BitVec.getLsbD v ↑i = decide (i = j)) ∧ s.gpio.pins[pinOf k j].stuck = true ∧ Pin.imode s.gpio.pins[pinOf k j] ≠ 4 ∧ Pin.imode s.gpio.pins[pinOf k j] ≠ 5 ∧ (∀ (q : PanelId) (i : Fin 32), s.panels[q].pinLine[i] ≠ ↑(pinOf k j))) :=
  ⟨⟨(0x00003100 : Word), (on : State), by decide +kernel⟩,
   ⟨({on with fnMode := 0x4000, pwr := {on.pwr with vddaGood := true}} : State), by decide +kernel⟩,
   ⟨(7 : Fin 8), (on : State), by decide +kernel⟩,
   ⟨(7 : Fin 8), (15 : Fin 16), (0x80000000 : Word), (on : State), by decide +kernel⟩,
   ⟨(7 : Fin 8), (15 : Fin 16), (0x80008000 : Word), (on.modPin 127 fun x => {x with pad := some true, sync := true} : State), by decide +kernel⟩,
   ⟨(3 : Fin 4), (31 : Fin 32), (0x80000000 : Word), (on.modPin 127 fun x => {x with stuck := true, stuckPhase := .first, activeSince := some 3} : State), by decide +kernel⟩⟩

theorem witness_SharedMemory :
    (∃ (off : BitVec 28) (s : State) (bs : List Byte), s.sec.lifecycle = Lifecycle.opened ∧ s.pwr.mode ≠ Mode.dormant ∧ State.decodes s = true ∧ s.mem.errs = [] ∧ s.mem.flipArm = false ∧ BitVec.toNat off + List.length bs ≤ 33554432 ∧ sharedWfFrom 0 s.shared = true ∧ (∀ (k : Nat), k < List.length bs → State.entryAt s (BitVec.toNat off + k) = none)) ∧
    (∃ (off : BitVec 28) (s : State) (e : Entry), s.sec.lifecycle = Lifecycle.opened ∧ s.pwr.mode ≠ Mode.dormant ∧ State.decodes s = true ∧ s.mem.errs = [] ∧ s.mem.flipArm = false ∧ BitVec.toNat off < 33554432 ∧ State.entryAt s (BitVec.toNat off) = some e) ∧
    (∃ (off : BitVec 28) (s : State) (b : Byte), s.sec.lifecycle = Lifecycle.opened ∧ s.pwr.mode ≠ Mode.dormant ∧ State.decodes s = true ∧ s.mem.errs = [] ∧ s.mem.flipArm = false ∧ BitVec.toNat off < 33554432 ∧ State.entryAt s (BitVec.toNat off) = none ∧ sharedLook s.shared (BitVec.toNat off) = some b) ∧
    (∃ (off : BitVec 28) (s : State), s.sec.lifecycle = Lifecycle.opened ∧ s.pwr.mode ≠ Mode.dormant ∧ State.decodes s = true ∧ s.mem.errs = [] ∧ s.mem.flipArm = false ∧ BitVec.toNat off < 33554432 ∧ State.entryAt s (BitVec.toNat off) = none ∧ sharedLook s.shared (BitVec.toNat off) = none ∧ State.partUsed s ↑(sharedRegion (BitVec.toNat off)) = false) ∧
    (∃ (off : BitVec 28) (s : State), (s.sec.lifecycle ≠ Lifecycle.opened ∨ 33554432 ≤ BitVec.toNat off)) :=
  ⟨⟨(0x1FFFFFF : BitVec 28), (on : State), ([0x5A] : List Byte), by decide +kernel⟩,
   ⟨(0x1800021 : BitVec 28), ({on with ledger := {on.ledger with entries := [⟨1,2,3,.info,5,2,7,8,9,1⟩]}} : State), (⟨1,2,3,.info,5,2,7,8,9,1⟩ : Entry), by decide +kernel⟩,
   ⟨(0x1FFFFFF : BitVec 28), ({on with shared := [(0x1FFFFFF, 7)]} : State), (7 : Byte), by decide +kernel⟩,
   ⟨(0x1000000 : BitVec 28), (on : State), by decide +kernel⟩,
   ⟨(0x2000000 : BitVec 28), (on : State), by decide +kernel⟩⟩

theorem witness_EngineAddSubtract : (∃ (t : TileId) (s : State), State.engineRuns s t = true) := ⟨(5 : TileId), (run : State), by decide +kernel⟩

theorem witness_EngineLogicShifts : (∃ (t : TileId) (imm : Imm18) (s : State), State.engineRuns s t = true ∧ BitVec.toNat imm < 32) := ⟨(5 : TileId), (0 : Imm18), (run : State), by decide +kernel⟩

theorem witness_EngineMultiply : (∃ (t : TileId) (imm : Imm18) (s : State), State.engineRuns s t = true ∧ BitVec.toNat imm ≤ 39) := ⟨(5 : TileId), (39 : Imm18), (run fun e => {e with acc := 0x8000000000} : State), by decide +kernel⟩

theorem witness_EngineIllegal :
    (∃ (t : TileId) (d : Reg4) (s : State), State.engineRuns s t = true ∧ d ≠ 0) ∧
    (∃ (t : TileId) (a : Reg4) (s : State), State.engineRuns s t = true ∧ a ≠ 0) ∧
    (∃ (t : TileId) (b : Reg4) (s : State), State.engineRuns s t = true ∧ b ≠ 0) ∧
    (∃ (t : TileId) (imm : Imm18) (s : State), State.engineRuns s t = true ∧ 32 ≤ BitVec.toNat imm) ∧
    (∃ (t : TileId) (imm : Imm18) (s : State), State.engineRuns s t = true ∧ 39 < BitVec.toNat imm) ∧
    (∃ (t : TileId) (imm : Imm18) (s : State), State.engineRuns s t = true ∧ 18 ≤ BitVec.toNat imm) ∧
    (∃ (t : TileId) (a : Reg4) (s : State), State.engineRuns s t = true ∧ Engine.rd s.tiles[t].eng a &&& 65535#32 = 0) ∧
    (∃ (t : TileId) (b : Reg4) (s : State), State.engineRuns s t = true ∧ 256 ≤ BitVec.toNat (Engine.rd s.tiles[t].eng b)) ∧
    (∃ (t : TileId) (b : Reg4) (s : State), State.engineRuns s t = true ∧ 2 ≤ BitVec.toNat (Engine.rd s.tiles[t].eng b)) ∧
    (∃ (t : TileId) (a : Reg4) (s : State), State.engineRuns s t = true ∧ Word.field (Engine.rd s.tiles[t].eng a) 23 12 ≠ 0) :=
  ⟨⟨(5 : TileId), (3 : Reg4), (run fun e => {e with arm := some (0,2)} : State), by decide +kernel⟩,
   ⟨(5 : TileId), (1 : Reg4), (run : State), by decide +kernel⟩,
   ⟨(5 : TileId), (1 : Reg4), (run : State), by decide +kernel⟩,
   ⟨(5 : TileId), (32 : Imm18), (run : State), by decide +kernel⟩,
   ⟨(5 : TileId), (40 : Imm18), (run : State), by decide +kernel⟩,
   ⟨(5 : TileId), (18 : Imm18), (run : State), by decide +kernel⟩,
   ⟨(5 : TileId), (12 : Reg4), (run fun e => {e with regs := e.regs.set 12 0x10000} : State), by decide +kernel⟩,
   ⟨(5 : TileId), (1 : Reg4), (run fun e => {e with regs := e.regs.set 1 256} : State), by decide +kernel⟩,
   ⟨(5 : TileId), (1 : Reg4), (run fun e => {e with regs := e.regs.set 1 2} : State), by decide +kernel⟩,
   ⟨(5 : TileId), (12 : Reg4), (run fun e => {e with regs := e.regs.set 12 0x1000} : State), by decide +kernel⟩⟩

theorem witness_EngineMemory :
    (∃ (t : TileId) (a : Reg4) (imm : Imm18) (s : State), State.engineRuns s t = true ∧ BitVec.toNat (Engine.rd s.tiles[t].eng a + BitVec.signExtend 32 imm) < 32768 ∧ s.mem.errs = [] ∧ s.mem.flipArm = false ∧ State.pageRetired s 0 t (BitVec.toNat (Engine.rd s.tiles[t].eng a + BitVec.signExtend 32 imm) / 1024) = false ∧ Memory.wf s.tiles[t].engMem = true ∧ BitVec.toNat (Engine.rd s.tiles[t].eng a + BitVec.signExtend 32 imm) % 4 = 0) ∧
    (∃ (t : TileId) (a : Reg4) (imm : Imm18) (s : State), State.engineRuns s t = true ∧ BitVec.toNat (Engine.rd s.tiles[t].eng a + BitVec.signExtend 32 imm) < 32768 ∧ s.mem.errs = [] ∧ s.mem.flipArm = false ∧ State.pageRetired s 0 t (BitVec.toNat (Engine.rd s.tiles[t].eng a + BitVec.signExtend 32 imm) / 1024) = false ∧ Memory.wf s.tiles[t].engMem = true ∧ BitVec.toNat (Engine.rd s.tiles[t].eng a + BitVec.signExtend 32 imm) % 2 = 0) ∧
    (∃ (t : TileId) (a : Reg4) (imm : Imm18) (s : State), State.engineRuns s t = true ∧ BitVec.toNat (Engine.rd s.tiles[t].eng a + BitVec.signExtend 32 imm) % 4 ≠ 0) ∧
    (∃ (t : TileId) (a : Reg4) (imm : Imm18) (s : State), State.engineRuns s t = true ∧ BitVec.toNat (Engine.rd s.tiles[t].eng a + BitVec.signExtend 32 imm) % 2 ≠ 0) ∧
    (∃ (t : TileId) (a : Reg4) (imm : Imm18) (s : State), State.engineRuns s t = true ∧ (133120 ≤ BitVec.toNat (Engine.rd s.tiles[t].eng a + BitVec.signExtend 32 imm) ∨ 32768 ≤ BitVec.toNat (Engine.rd s.tiles[t].eng a + BitVec.signExtend 32 imm) ∧ BitVec.toNat (Engine.rd s.tiles[t].eng a + BitVec.signExtend 32 imm) < 65536)) ∧
    (∃ (t : TileId) (a : Reg4) (imm : Imm18) (s : State), State.engineRuns s t = true ∧ 65536 ≤ BitVec.toNat (Engine.rd s.tiles[t].eng a + BitVec.signExtend 32 imm) ∧ BitVec.toNat (Engine.rd s.tiles[t].eng a + BitVec.signExtend 32 imm) < 81920) :=
  ⟨⟨(5 : TileId), (7 : Reg4), (4 : Imm18), (run.modTile 5 fun x => {x with engMem := [(0x1004, 0x80), (0x1005, 0x90)]} : State), by decide +kernel⟩,
   ⟨(5 : TileId), (7 : Reg4), (4 : Imm18), (run.modTile 5 fun x => {x with engMem := [(0x1004, 0x80), (0x1005, 0x90)]} : State), by decide +kernel⟩,
   ⟨(5 : TileId), (7 : Reg4), (2 : Imm18), (run : State), by decide +kernel⟩,
   ⟨(5 : TileId), (7 : Reg4), (1 : Imm18), (run : State), by decide +kernel⟩,
   ⟨(5 : TileId), (9 : Reg4), (0 : Imm18), (run : State), by decide +kernel⟩,
   ⟨(5 : TileId), (12 : Reg4), (0 : Imm18), (run : State), by decide +kernel⟩⟩

theorem witness_EngineControlFlow :
    (∃ (t : TileId) (cond : Reg4) (off : Off22) (s : State) (i : Instr), State.engineRuns s t = true ∧ cond = 15 ∧ i ∈ [Instr.b t cond off, Instr.bl t cond off]) ∧
    (∃ (t : TileId) (cond : Reg4) (s : State), State.engineRuns s t = true ∧ s.tiles[t].eng.loops = [] ∧ cond ≠ 15 ∧ condHolds s.tiles[t].eng cond = true) ∧
    (∃ (t : TileId) (cond : Reg4) (s : State), State.engineRuns s t = true ∧ s.tiles[t].eng.loops = [] ∧ cond ≠ 15 ∧ condHolds s.tiles[t].eng cond = false) ∧
    (∃ (t : TileId) (a : Reg4) (imm : Imm18) (s : State), State.engineRuns s t = true ∧ s.tiles[t].eng.loops = [] ∧ BitVec.toNat (Engine.rd s.tiles[t].eng a + BitVec.signExtend 32 imm) % 4 = 0) ∧
    (∃ (t : TileId) (a : Reg4) (imm : Imm18) (s : State), State.engineRuns s t = true ∧ BitVec.toNat (Engine.rd s.tiles[t].eng a + BitVec.signExtend 32 imm) % 4 ≠ 0) ∧
    (∃ (t : TileId) (a : Reg4) (imm : Imm18) (s : State), State.engineRuns s t = true ∧ 0 < BitVec.toNat imm ∧ BitVec.toNat imm < 256 ∧ 0 < BitVec.toNat (Engine.rd s.tiles[t].eng a) ∧ s.tiles[t].eng.loops = []) ∧
    (∃ (t : TileId) (a : Reg4) (imm : Imm18) (s : State), State.engineRuns s t = true ∧ 0 < BitVec.toNat imm ∧ BitVec.toNat imm < 256 ∧ BitVec.toNat (Engine.rd s.tiles[t].eng a) = 0 ∧ s.tiles[t].eng.loops = []) ∧
    (∃ (t : TileId) (a : Reg4) (imm : Imm18) (s : State), State.engineRuns s t = true ∧ 0 < BitVec.toNat imm ∧ BitVec.toNat imm < 256 ∧ 2 ≤ List.length s.tiles[t].eng.loops ∧ 0 < BitVec.toNat (Engine.rd s.tiles[t].eng a)) ∧
    (∃ (t : TileId) (imm : Imm18) (s : State), State.engineRuns s t = true ∧ 0 < BitVec.toNat imm % 256 ∧ 0 < BitVec.toNat imm / 256 ∧ s.tiles[t].eng.loops = []) ∧
    (∃ (t : TileId) (imm : Imm18) (s : State), State.engineRuns s t = true ∧ 0 < BitVec.toNat imm % 256 ∧ BitVec.toNat imm / 256 = 0 ∧ s.tiles[t].eng.loops = []) ∧
    (∃ (t : TileId) (imm : Imm18) (s : State), State.engineRuns s t = true ∧ 0 < BitVec.toNat imm % 256 ∧ 2 ≤ List.length s.tiles[t].eng.loops ∧ 0 < BitVec.toNat imm / 256) :=
  ⟨⟨(5 : TileId), (15 : Reg4), (7 : Off22), (run : State), (.bl 5 15 7 : Instr), by decide +kernel⟩,
   ⟨(5 : TileId), (0 : Reg4), (run fun e => {e with z := true} : State), by decide +kernel⟩,
   ⟨(5 : TileId), (2 : Reg4), (run fun e => {e with z := true} : State), by decide +kernel⟩,
   ⟨(5 : TileId), (7 : Reg4), (4 : Imm18), (run : State), by decide +kernel⟩,
   ⟨(5 : TileId), (7 : Reg4), (2 : Imm18), (run : State), by decide +kernel⟩,
   ⟨(5 : TileId), (7 : Reg4), (255 : Imm18), (run : State), by decide +kernel⟩,
   ⟨(5 : TileId), (0 : Reg4), (255 : Imm18), (run : State), by decide +kernel⟩,
   ⟨(5 : TileId), (7 : Reg4), (255 : Imm18), (run fun e => {e with loops := [⟨0,0x1000,1⟩, ⟨0,0x1000,1⟩]} : State), by decide +kernel⟩,
   ⟨(5 : TileId), (0x1004 : Imm18), (run : State), by decide +kernel⟩,
   ⟨(5 : TileId), (0x4 : Imm18), (run : State), by decide +kernel⟩,
   ⟨(5 : TileId), (0x1004 : Imm18), (run fun e => {e with loops := [⟨0,0x1000,1⟩, ⟨0,0x1000,1⟩]} : State), by decide +kernel⟩⟩

theorem witness_EngineEventInstructions :
    (∃ (t : TileId) (a : Reg4) (s : State), State.engineRuns s t = true ∧ Engine.evmNow s.tiles[t].eng &&& BitVec.setWidth 16 (Engine.rd s.tiles[t].eng a) ≠ 0) ∧
    (∃ (t : TileId) (a : Reg4) (b : Reg4) (s : State), State.engineRuns s t = true ∧ Engine.evmNow s.tiles[t].eng &&& BitVec.setWidth 16 (Engine.rd s.tiles[t].eng a) = 0 ∧ BitVec.setWidth 16 (Engine.rd s.tiles[t].eng a) ≠ 0 ∧ Engine.rd s.tiles[t].eng b = 0) ∧
    (∃ (t : TileId) (b : Reg4) (s : State), State.engineRuns s t = true ∧ BitVec.toNat (Engine.rd s.tiles[t].eng b) < 256) ∧
    (∃ (t : TileId) (s : State), State.engineRuns s t = true ∧ s.tiles[t].eng.capFifo = []) ∧
    (∃ (t : TileId) (s : State) (x : Capture) (xs : List Capture), State.engineRuns s t = true ∧ s.tiles[t].eng.capFifo = x :: xs) :=
  ⟨⟨(5 : TileId), (4 : Reg4), (run fun e => {e with evm := 3} : State), by decide +kernel⟩,
   ⟨(5 : TileId), (4 : Reg4), (0 : Reg4), (run : State), by decide +kernel⟩,
   ⟨(5 : TileId), (11 : Reg4), (run : State), by decide +kernel⟩,
   ⟨(5 : TileId), (run : State), by decide +kernel⟩,
   ⟨(5 : TileId), (run fun e => {e with capFifo := [⟨3, true, 0x123456789ABC⟩]} : State), (⟨3, true, 0x123456789ABC⟩ : Capture), ([] : List Capture), by decide +kernel⟩⟩

theorem witness_EngineFifosAndUnits :
    (∃ (t : TileId) (s : State) (w : Word) (ws : List Word), State.engineRuns s t = true ∧ s.tiles[t].eng.adcFifo = w :: ws) ∧
    (∃ (t : TileId) (s : State), State.engineRuns s t = true ∧ s.tiles[t].eng.adcFifo = []) ∧
    (∃ (t : TileId) (s : State) (m : Msg) (ms : List Msg), State.engineRuns s t = true ∧ s.tiles[t].eng.hostMsgs = [] ∧ s.tiles[t].eng.inbox = m :: ms) ∧
    (∃ (t : TileId) (a : Reg4) (s : State), State.engineRuns s t = true ∧ s.tiles[t].eng.hostMsgs = [] ∧ s.tiles[t].eng.inbox = [] ∧ BitVec.toNat a ≤ 12) ∧
    (∃ (t : TileId) (a : Reg4) (b : Reg4) (s : State), State.engineRuns s t = true ∧ Word.field (Engine.rd s.tiles[t].eng a) 23 12 = 0 ∧ BitVec.toNat b + Word.field (Engine.rd s.tiles[t].eng a) 11 10 + 1 ≤ 16 ∧ List.length s.tiles[t].eng.outbox < 4) ∧
    (∃ (t : TileId) (a : Reg4) (s : State), State.engineRuns s t = true ∧ State.dacsRefused s t (Fin.ofNat 16 (BitVec.toNat (Engine.rd s.tiles[t].eng a) % 16)) = true) ∧
    (∃ (t : TileId) (a : Reg4) (s : State), State.engineRuns s t = true ∧ State.dacsRefused s t (Fin.ofNat 16 (BitVec.toNat (Engine.rd s.tiles[t].eng a) % 16)) = false ∧ s.tiles[t].trowel.due = none) ∧
    (∃ (t : TileId) (b : Reg4) (s : State), State.engineRuns s t = true ∧ Engine.rd s.tiles[t].eng b = 0 ∧ State.cmpsOff s t = true) ∧
    (∃ (t : TileId) (a : Reg4) (s : State), State.engineRuns s t = true ∧ BitVec.toNat (Engine.rd s.tiles[t].eng a) % 4 = 1 ∧ State.unrouted s t Cmp.a = true ∧ s.tiles[t].cmpA.evAt ≠ some s.aon.fck) :=
  ⟨⟨(5 : TileId), (run fun e => {e with adcFifo := [9, 8]} : State), (9 : Word), ([8] : List Word), by decide +kernel⟩,
   ⟨(5 : TileId), (run : State), by decide +kernel⟩,
   ⟨(5 : TileId), (run fun e => {e with inbox := [⟨1,5,0,9,[1,2],0⟩]} : State), (⟨1,5,0,9,[1,2],0⟩ : Msg), ([] : List Msg), by decide +kernel⟩,
   ⟨(5 : TileId), (12 : Reg4), (run : State), by decide +kernel⟩,
   ⟨(5 : TileId), (14 : Reg4), (12 : Reg4), (run fun e => {e with regs := e.regs.set 14 0xAB000C03} : State), by decide +kernel⟩,
   ⟨(5 : TileId), (14 : Reg4), (run : State), by decide +kernel⟩,
   ⟨(5 : TileId), (5 : Reg4), (run.modTile 5 fun x => {x with waves := x.waves.set 5 {domain := 0, segs := [⟨0,0,1⟩]}, trowel := {x.trowel with cfg := 0x00200000}} : State), by decide +kernel⟩,
   ⟨(5 : TileId), (0 : Reg4), (run : State), by decide +kernel⟩,
   ⟨(5 : TileId), (5 : Reg4), (run.modTile 5 fun x => {x with cmpA := {x.cmpA with lat := true}, cmpB := {x.cmpB with lat := true}} : State), by refine ⟨?_, ?_, by simp [State.unrouted, State.portStarts, State.links, on, localOf, cmpNum, State.modCmp, State.modTile, State.modEng, run, panelOf, State.modPanel, show ((5 : TileId) : Nat) = 5 from rfl, show ((510 : TileId) : Nat) = 510 from rfl], ?_⟩ <;> decide +kernel⟩⟩

theorem witness_EngineSystem :
    (∃ (t : TileId) (s : State), State.engineRuns s t = true ∧ s.tiles[t].eng.outbox = [] ∧ s.tiles[t].eng.hostEv = false) ∧
    (∃ (t : TileId) (s : State), State.engineRuns s t = true ∧ s.tiles[t].eng.outbox ≠ []) ∧
    (∃ (t : TileId) (s : State), State.engineRuns s t = true ∧ s.tiles[t].eng.loops = []) ∧
    (∃ (t : TileId) (imm : Imm18) (s : State) (v : Word), State.engineRuns s t = true ∧ imm ≠ 9 ∧ readSpecial s t (BitVec.toNat imm) = some v) :=
  ⟨⟨(5 : TileId), (run : State), by decide +kernel⟩,
   ⟨(5 : TileId), (run fun e => {e with outbox := [⟨1,5,0,9,[1,2],0⟩]} : State), by decide +kernel⟩,
   ⟨(5 : TileId), (run fun e => {e with epc := 0x44} : State), by decide +kernel⟩,
   ⟨(5 : TileId), (4 : Imm18), (run fun e => {e with ivec := 0x44} : State), (0x44 : Word), by decide +kernel⟩⟩

theorem witness_EngineEvents :
    (∃ (t : TileId) (s : State) (d : Reg4) (w : Word) (ws : List Word), State.engineClock s t = true ∧ s.tiles[t].eng.stall = some (Stall.adcp d) ∧ s.tiles[t].eng.adcFifo = w :: ws) ∧
    (∃ (t : TileId) (s : State) (m : BitVec 16) (d : Reg4), State.engineClock s t = true ∧ s.tiles[t].eng.stall = some (Stall.waitEv m d (some 0))) ∧
    (∃ (t : TileId) (s : State), State.engineRuns s t = true ∧ BitVec.getLsbD s.tiles[t].eng.ien 31 = true ∧ Tile.irqPending s.tiles[t] = true) ∧
    (∃ (t : TileId) (s : State) (time : Word), State.engineClock s t = true ∧ s.tiles[t].eng.arm = some (time, 2) ∧ BitVec.toNat (BitVec.setWidth 32 s.aon.sysNow - time) < 2 ^ 31) ∧
    (∃ (t : TileId) (s : State) (m : Msg) (rest : List Msg) (u : TileId), State.fastOn s = true ∧ s.tiles[t].eng.outbox = m :: rest ∧ m.epoch = s.tiles[t].epoch ∧ BitVec.toNat m.dst = ↑u ∧ u ≠ t ∧ s.tiles[u].fenced = false ∧ s.tiles[u].sheet = s.tiles[t].sheet ∧ List.length s.tiles[u].eng.inbox < 8) ∧
    (∃ (t : TileId) (s : State) (m : Msg) (rest : List Msg) (u : TileId), s.tiles[t].eng.outbox = m :: rest ∧ BitVec.toNat m.dst = ↑u ∧ 8 ≤ List.length s.tiles[u].eng.inbox ∧ s.tiles[u].eng.fullAt + 4800 ≤ s.aon.run ∧ s.tiles[t].eng.outAt + 4800 ≤ s.aon.run) ∧
    (∃ (t : TileId) (s : State) (d : Desc) (m : Msg) (rest : List (Desc × Msg)), s.tiles[t].eng.hostMsgs = (d, m) :: rest ∧ s.tiles[t].eng.hostAt + 1200000 ≤ s.aon.fck) :=
  ⟨⟨(5 : TileId), (run fun e => {e with st := .sleeping, stall := some (.adcp 3), adcFifo := [9]} : State), (3 : Reg4), (9 : Word), ([] : List Word), by decide +kernel⟩,
   ⟨(5 : TileId), (run fun e => {e with st := .sleeping, stall := some (.waitEv 3 3 (some 0))} : State), (3 : BitVec 16), (3 : Reg4), by decide +kernel⟩,
   ⟨(5 : TileId), (run fun e => {e with ien := 0x80000003, evm := 1, ivec := 0x203} : State), by decide +kernel⟩,
   ⟨(5 : TileId), (run fun e => {e with arm := some (1000000, 2)} : State), (1000000 : Word), by decide +kernel⟩,
   ⟨(5 : TileId), (run fun e => {e with outbox := [⟨5,9,0,9,[1,2],0⟩]} : State), (⟨5,9,0,9,[1,2],0⟩ : Msg), ([] : List Msg), (9 : TileId), by decide +kernel⟩,
   ⟨(5 : TileId), ({on with aon := {on.aon with run := 4800}, tiles := ((run fun e => {e with outbox := [⟨5,9,0,9,[1,2],0⟩]}).modEng 9 fun e => {e with inbox := List.replicate 8 ⟨5,9,0,9,[1,2],0⟩}).tiles} : State), (⟨5,9,0,9,[1,2],0⟩ : Msg), ([] : List Msg), (9 : TileId), by decide +kernel⟩,
   ⟨(5 : TileId), (run fun e => {e with hostMsgs := [(ds 0 [], ⟨5,9,0,9,[1,2],0⟩)]} : State), (ds 0 [] : Desc), (⟨5,9,0,9,[1,2],0⟩ : Msg), ([] : List (Desc × Msg)), by decide +kernel⟩⟩

theorem witness_LinkSupply :
    (∃ (mv : Nat) (s : State), s.aon.up = false ∧ 3000 ≤ mv ∧ mv ≤ 5000) ∧
    (∃ (mv : Nat) (s : State), s.aon.up = false ∧ 10000 < mv) ∧
    (∃ (mv : Nat) (s : State), s.aon.up = false ∧ 41000 ≤ mv) ∧
    (∃ (s : State), 24000000 ≤ s.aon.fck) ∧
    (∃ (mv : Nat) (s : State), s.aon.up = true ∧ mv < 36000) :=
  ⟨⟨(5000 : Nat), ({on with aon := {on.aon with up := false}} : State), by decide +kernel⟩,
   ⟨(10001 : Nat), ({on with aon := {on.aon with up := false}} : State), by decide +kernel⟩,
   ⟨(65000 : Nat), ({on with aon := {on.aon with up := false}} : State), by decide +kernel⟩,
   ⟨({on with aon := {on.aon with fck := 24000000}} : State), by decide +kernel⟩,
   ⟨(35999 : Nat), (on : State), by decide +kernel⟩⟩

theorem witness_UnpoweredStays : (∃ (s : State) (t : State), State.unpowered s ∧ (∀ (mv : Nat), List.head? s.pending = some (Instr.linkPowerUp mv) → mv < 41000) ∧ step s = Host.Outcome.next t) := ⟨({aon := {up := false}, pending := [.linkPowerUp 40999]} : State), ({aon := {up := false}} : State), by refine ⟨by simp [State.unpowered, Sec.kept], by intro mv h; cases h; decide, rfl⟩⟩

theorem witness_ResetValues : (∃ (x : Nat × Nat), x ∈ [(0, 85073788), (32, 0), (256, 2684354560), (272, 1090531840), (276, 1879048192), (288, 0), (3116, 17), (3328, 0), (3332, 0), (3336, 64), (3616, 33554688), (4096, 1073741952), (2820, 0), (3928, 0)]) := ⟨((0x0E20, 0x02000100) : Nat × Nat), by decide +kernel⟩

theorem witness_ModuleResetAndBoot :
    (∃ (c : BitVec 2) (s : State), s.aon.up = true ∧ s.aon.resetDue = some c) ∧
    (∃ (s : State), s.aon.up = true ∧ s.pwr.mode = Mode.booting ∧ s.pwr.bursarFail = false ∧ s.aon.resetDue = none ∧ BitVec.getLsbD s.aon.secBoot 31 = true) :=
  ⟨⟨(2 : BitVec 2), ({on with aon := {on.aon with resetDue := some 2, resetCount := 4, sysNow := 77}, sec := {on.sec with store := [(3,4)]}} : State), by decide +kernel⟩,
   ⟨({on with aon := {on.aon with secBoot := 0x80000000}, pwr := {on.pwr with mode := .booting, panels := Vector.replicate 8 .off}} : State), by decide +kernel⟩⟩

theorem witness_Sideband :
    (∃ (v : BitVec 12) (s : State), s.aon.up = true ∧ s.jsb.nakSent = false ∧ BitVec.getLsbD v 0 = true) ∧
    (∃ (v : BitVec 12) (s : State), s.aon.up = true ∧ s.jsb.nakSent = false ∧ BitVec.getLsbD v 0 = false) ∧
    (∃ (v : BitVec 12) (s : State), s.aon.up = true ∧ s.jsb.nakSent = false ∧ 150 ≤ BitVec.toNat v ∧ BitVec.toNat v ≤ 1250 ∧ BitVec.toNat s.pwr.grant ≤ 10 * BitVec.toNat v) ∧
    (∃ (v : BitVec 12) (s : State), s.aon.up = true ∧ s.jsb.nakSent = false ∧ 150 ≤ BitVec.toNat v ∧ BitVec.toNat v ≤ 1250 ∧ 10 * BitVec.toNat v < BitVec.toNat s.pwr.grant ∧ State.serving s = true) ∧
    (∃ (s : State), s.aon.up = true ∧ s.jsb.nakSent = false ∧ s.pwr.mode = Mode.dormant) ∧
    (∃ (v : BitVec 12) (s : State), s.aon.up = true ∧ s.jsb.nakSent = false ∧ v = 2652#12 ∧ s.pwr.mode ≠ Mode.dormant) ∧
    (∃ (v : BitVec 12) (s : State), s.aon.up = true ∧ s.jsb.nakSent = false ∧ v ≠ 2652#12) ∧
    (∃ (s : State) (f : JsbFrame), s.aon.up = true ∧ s.jsb.nakSent = false ∧ s.jsb.last = some f ∧ s.jsb.repeated = false) :=
  ⟨⟨(1 : BitVec 12), (on : State), by decide +kernel⟩,
   ⟨(2 : BitVec 12), ({on with link := {on.link with perst := true}} : State), by decide +kernel⟩,
   ⟨(1250 : BitVec 12), (on : State), by decide +kernel⟩,
   ⟨(150 : BitVec 12), (on : State), by decide +kernel⟩,
   ⟨({on with pwr := {on.pwr with mode := .dormant}} : State), by decide +kernel⟩,
   ⟨(0xA5C : BitVec 12), (on : State), by decide +kernel⟩,
   ⟨(0xA5D : BitVec 12), (on : State), by decide +kernel⟩,
   ⟨({on with jsb := {on.jsb with last := some ⟨3,5⟩}} : State), (⟨3,5⟩ : JsbFrame), by decide +kernel⟩⟩

theorem witness_Systime :
    (∃ (s : State), s.aon.up = true ∧ s.aon.slew = 0 ∧ s.aon.ptmRate = 0) ∧
    (∃ (s : State), s.aon.up = true ∧ State.linkUp s = true ∧ s.link.ptmEn = true ∧ s.link.d3hot = false ∧ s.link.inL1 = false ∧ State.ptmDue s = true ∧ s.aon.ptmAligned = false) ∧
    (∃ (s : State), s.aon.up = true ∧ State.linkUp s = true ∧ s.link.ptmEn = true ∧ s.link.d3hot = false ∧ s.link.inL1 = false ∧ State.ptmDue s = true ∧ s.aon.ptmAligned = true) :=
  ⟨⟨({on with aon := {on.aon with ticks := 3}} : State), by decide +kernel⟩,
   ⟨({on with link := {on.link with ptmEn := true}} : State), by decide +kernel⟩,
   ⟨({on with link := {on.link with ptmEn := true}, aon := {on.aon with ptmAligned := true}} : State), by decide +kernel⟩⟩

theorem witness_ClocksAndScrubber :
    (∃ (s : State), s.aon.up = true ∧ BitVec.getLsbD s.aon.wakeCtrl 31 = true ∧ BitVec.toNat (BitVec.setWidth 32 (s.aon.sysBase >>> 16) - s.aon.wakeTime) < 2 ^ 31 ∧ s.pwr.mode = Mode.armed ∧ s.clk.fast = FastClk.stopped) ∧
    (∃ (s : State), State.scheduled s = true ∧ s.pwr.mode = Mode.armed ∧ s.clk.fast = FastClk.stopped) ∧
    (∃ (s : State), s.clk.fast = FastClk.starting ∧ s.clk.qckAt ≤ s.aon.fck ∧ (∀ (p : PanelId), PState.live (State.pstate s p) = false) ∧ (∀ (h : HeadId), s.heads[h].column = none) ∧ (∀ (t : TileId) (c : Cmp), (Tile.cmp s.tiles[t] c).cand = none) ∧ (∀ (p : PinId), s.gpio.pins[p].cand = none ∧ s.gpio.pins[p].sync = s.gpio.pins[p].filt ∧ s.gpio.pins[p].gapUntil = none ∧ s.gpio.pins[p].activeSince = none)) ∧
    (∃ (s : State), s.clk.pll = Pll.locking false ∧ s.clk.pllAt + 14400 ≤ s.aon.fck) ∧
    (∃ (s : State), s.clk.pll = Pll.locking false ∧ s.clk.pllAt + 60000 ≤ s.aon.fck) ∧
    (∃ (s : State), s.clk.pll = Pll.locking true ∧ s.clk.pllAt + 60000 ≤ s.aon.fck) ∧
    (∃ (s : State), s.clk.fast = FastClk.qck ∧ s.clk.changeoverDue = true ∧ State.generating s = false) ∧
    (∃ (s : State), s.pwr.mode = Mode.armed ∧ s.pwr.change = none ∧ State.fastOn s = true ∧ State.clockWork s = false ∧ (∀ (t : TileId), s.tiles[t].sar.en = false)) ∧
    (∃ (s : State), State.scrubRuns s = true ∧ s.pwr.mode = Mode.armed ∧ s.clk.fast = FastClk.stopped ∧ s.scrub.burstAt + 64 ≤ s.aon.ticks ∧ s.mem.errs = []) ∧
    (∃ (s : State), State.scrubRuns s = true ∧ State.fastOn s = true ∧ s.scrub.accAt + 4096 ≤ s.aon.fck ∧ s.mem.errs = []) :=
  ⟨⟨({on with clk := {}, pwr := {on.pwr with mode := .armed, panels := Vector.replicate 8 .armed}, aon := {on.aon with wakeCtrl := 0x80000000, wakeTime := 5}} : State), by decide +kernel⟩,
   ⟨({on with clk := {}, pwr := {on.pwr with mode := .armed, panels := Vector.replicate 8 .armed}, syncs := [⟨none, 1, 5, none⟩]} : State), by decide +kernel⟩,
   ⟨({on with clk := {fast := .starting, pll := .locking false, qckAt := 5000000}, pwr := {on.pwr with mode := .standby, panels := Vector.replicate 8 .off}} : State), by refine ⟨?_, ?_, ?_, ?_, by intro t c; cases c <;> simp [on, Tile.cmp], by intro p; simp [on]⟩ <;> decide +kernel⟩,
   ⟨({on with clk := {fast := .qck, pll := .locking false, pllAt := 4985600}} : State), by decide +kernel⟩,
   ⟨({on with clk := {fast := .qck, pll := .locking false, pllAt := 4940000}} : State), by decide +kernel⟩,
   ⟨({on with clk := {fast := .qck, pll := .locking true, pllAt := 4940000}} : State), by decide +kernel⟩,
   ⟨({on with clk := {fast := .qck, pll := .locked, changeoverDue := true}} : State), by decide +kernel⟩,
   ⟨({on with pwr := {on.pwr with mode := .armed, panels := Vector.replicate 8 .armed}} : State), by refine ⟨?_, ?_, ?_, by simp only [State.clockWork, Bool.or_eq_false_iff]; refine ⟨⟨⟨⟨?_, ?_⟩, by simp [on, Engine.works]⟩, ?_⟩, ?_⟩ <;> decide +kernel, by intro t; simp [on]⟩ <;> decide +kernel⟩,
   ⟨({on with clk := {}, pwr := {on.pwr with mode := .armed, panels := Vector.replicate 8 .armed}} : State), by decide +kernel⟩,
   ⟨(on : State), by decide +kernel⟩⟩

theorem witness_PowerStates :
    (∃ (d : Desc) (s : State), State.takes s 3 d (headerFault d 0 BufUse.none CoatUse.unbound [(28, 36)]) ∧ Desc.u d 24 4 = 4294967295) ∧
    (∃ (d : Desc) (s : State), State.takes s 3 d (headerFault d 0 BufUse.none CoatUse.unbound [(28, 36)]) ∧ Desc.u d 24 4 ≠ 4294967295 ∧ (Desc.u d 24 4 < 1000 ∨ 125000 < Desc.u d 24 4)) ∧
    (∃ (d : Desc) (s : State), State.takes s 3 d (headerFault d 0 BufUse.none CoatUse.unbound [(28, 36)]) ∧ 1000 ≤ Desc.u d 24 4 ∧ Desc.u d 24 4 ≤ 125000 ∧ (100 * BitVec.toNat s.aon.limit < Desc.u d 24 4 ∨ Desc.u d 24 4 < 10 * State.alloc s)) ∧
    (∃ (d : Desc) (s : State), State.takes s 3 d (headerFault d 0 BufUse.none CoatUse.unbound [(28, 36)]) ∧ 1000 ≤ Desc.u d 24 4 ∧ Desc.u d 24 4 ≤ 125000 ∧ Desc.u d 24 4 ≤ 100 * BitVec.toNat s.aon.limit ∧ 10 * State.alloc s ≤ Desc.u d 24 4) ∧
    (∃ (d : Desc) (s : State), State.takes s 2 d (headerFault d 0 BufUse.none CoatUse.unbound [(25, 3), (36, 28)]) ∧ (Option.isSome s.pwr.change = true ∨ s.pwr.dormantDue = true)) ∧
    (∃ (d : Desc) (s : State), State.takes s 2 d (headerFault d 0 BufUse.none CoatUse.unbound [(25, 3), (36, 28)]) ∧ s.pwr.change = none ∧ s.pwr.dormantDue = false ∧ s.pwr.mode = Mode.faultHold ∧ ¬(Desc.u d 24 1 = 1 ∧ (∀ (p : PanelId), Desc.u d (28 + ↑p) 1 = 255) ∧ s.pwr.fclear = true)) ∧
    (∃ (d : Desc) (s : State), State.takes s 2 d (headerFault d 0 BufUse.none CoatUse.unbound [(25, 3), (36, 28)]) ∧ s.pwr.change = none ∧ s.pwr.dormantDue = false ∧ s.pwr.mode = Mode.faultHold ∧ Desc.u d 24 1 = 1 ∧ (∀ (p : PanelId), Desc.u d (28 + ↑p) 1 = 255) ∧ s.pwr.fclear = true) ∧
    (∃ (d : Desc) (s : State) (off : Nat), State.takes s 2 d (headerFault d 0 BufUse.none CoatUse.unbound [(25, 3), (36, 28)]) ∧ s.pwr.change = none ∧ s.pwr.dormantDue = false ∧ s.pwr.mode ≠ Mode.faultHold ∧ State.powerFault s d = some off) ∧
    (∃ (d : Desc) (s : State), State.takes s 2 d (headerFault d 0 BufUse.none CoatUse.unbound [(25, 3), (36, 28)]) ∧ s.pwr.change = none ∧ s.pwr.dormantDue = false ∧ s.pwr.mode ≠ Mode.faultHold ∧ State.powerFault s d = none ∧ Option.isSome s.coat = true) ∧
    (∃ (d : Desc) (s : State), State.takes s 2 d (headerFault d 0 BufUse.none CoatUse.unbound [(25, 3), (36, 28)]) ∧ s.pwr.change = none ∧ s.pwr.dormantDue = false ∧ s.pwr.mode ≠ Mode.faultHold ∧ State.powerFault s d = none ∧ s.coat = none ∧ (State.powerBarred s (State.goalMode s d) (Vector.ofFn (State.goalPanel s d)) = true ∨ State.goalMode s d = Mode.dormant ∧ s.link.l12En = false ∨ State.hostSeq s = true ∧ State.railsShort s (Vector.ofFn (State.goalPanel s d)) = true)) ∧
    (∃ (d : Desc) (s : State), State.takes s 2 d (headerFault d 0 BufUse.none CoatUse.unbound [(25, 3), (36, 28)]) ∧ s.pwr.change = none ∧ s.pwr.dormantDue = false ∧ s.pwr.mode ≠ Mode.faultHold ∧ State.powerFault s d = none ∧ s.coat = none ∧ ¬(State.powerBarred s (State.goalMode s d) (Vector.ofFn (State.goalPanel s d)) = true ∨ State.goalMode s d = Mode.dormant ∧ s.link.l12En = false ∨ State.hostSeq s = true ∧ State.railsShort s (Vector.ofFn (State.goalPanel s d)) = true) ∧ BitVec.toNat s.pwr.grant < State.allocFor s (State.goalMode s d) (Vector.ofFn (State.goalPanel s d)) s.pwr.hlvCtrl) ∧
    (∃ (d : Desc) (s : State), State.takes s 2 d (headerFault d 0 BufUse.none CoatUse.unbound [(25, 3), (36, 28)]) ∧ s.pwr.change = none ∧ s.pwr.dormantDue = false ∧ s.pwr.mode ≠ Mode.faultHold ∧ State.powerFault s d = none ∧ s.coat = none ∧ ¬(State.powerBarred s (State.goalMode s d) (Vector.ofFn (State.goalPanel s d)) = true ∨ State.goalMode s d = Mode.dormant ∧ s.link.l12En = false ∨ State.hostSeq s = true ∧ State.railsShort s (Vector.ofFn (State.goalPanel s d)) = true) ∧ State.allocFor s (State.goalMode s d) (Vector.ofFn (State.goalPanel s d)) s.pwr.hlvCtrl ≤ BitVec.toNat s.pwr.grant ∧ State.stepsFor s (State.goalMode s d) (Vector.ofFn (State.goalPanel s d)) = []) ∧
    (∃ (d : Desc) (s : State), State.takes s 2 d (headerFault d 0 BufUse.none CoatUse.unbound [(25, 3), (36, 28)]) ∧ s.pwr.change = none ∧ s.pwr.dormantDue = false ∧ s.pwr.mode ≠ Mode.faultHold ∧ State.powerFault s d = none ∧ s.coat = none ∧ ¬(State.powerBarred s (State.goalMode s d) (Vector.ofFn (State.goalPanel s d)) = true ∨ State.goalMode s d = Mode.dormant ∧ s.link.l12En = false ∨ State.hostSeq s = true ∧ State.railsShort s (Vector.ofFn (State.goalPanel s d)) = true) ∧ State.allocFor s (State.goalMode s d) (Vector.ofFn (State.goalPanel s d)) s.pwr.hlvCtrl ≤ BitVec.toNat s.pwr.grant ∧ State.stepsFor s (State.goalMode s d) (Vector.ofFn (State.goalPanel s d)) = [PowerStep.standbyToArmed]) ∧
    (∃ (d : Desc) (s : State), State.takes s 2 d (headerFault d 0 BufUse.none CoatUse.unbound [(25, 3), (36, 28)]) ∧ s.pwr.change = none ∧ s.pwr.dormantDue = false ∧ s.pwr.mode ≠ Mode.faultHold ∧ State.powerFault s d = none ∧ s.coat = none ∧ ¬(State.powerBarred s (State.goalMode s d) (Vector.ofFn (State.goalPanel s d)) = true ∨ State.goalMode s d = Mode.dormant ∧ s.link.l12En = false ∨ State.hostSeq s = true ∧ State.railsShort s (Vector.ofFn (State.goalPanel s d)) = true) ∧ State.allocFor s (State.goalMode s d) (Vector.ofFn (State.goalPanel s d)) s.pwr.hlvCtrl ≤ BitVec.toNat s.pwr.grant ∧ State.stepsFor s (State.goalMode s d) (Vector.ofFn (State.goalPanel s d)) = [PowerStep.activeToArmed] ∧ s.pwr.mode = Mode.active ∧ State.goalMode s d = Mode.armed) ∧
    (∃ (c : Change) (s : State), s.pwr.change = some c ∧ c.steps = [PowerStep.standbyToArmed] ∧ s.pwr.mode = Mode.standby ∧ c.goal = Mode.armed ∧ State.stepReady s c PowerStep.standbyToArmed = true ∧ (∀ (k : TileId), Tile.adcEn s.tiles[k] = false)) ∧
    (∃ (s : State), s.pwr.dormantDue = true ∧ s.pwr.dormantAt + 1200000 ≤ s.aon.fck) :=
  ⟨⟨(ds 0 [(24,4,0xFFFFFFFF)] : Desc), (on : State), by unfold State.takes; decide +kernel⟩,
   ⟨(ds 0 [(24,4,999)] : Desc), (on : State), by unfold State.takes; decide +kernel⟩,
   ⟨(ds 0 [(24,4,1001)] : Desc), ({on with aon := {on.aon with limit := 10}} : State), by unfold State.takes; decide +kernel⟩,
   ⟨(ds 0 [(24,4,125000)] : Desc), (on : State), by unfold State.takes; decide +kernel⟩,
   ⟨(ds 0 [(24,1,3), (28,8,0xFFFFFFFFFFFFFFFF)] : Desc), ({on with pwr := {on.pwr with dormantDue := true}} : State), by unfold State.takes; decide +kernel⟩,
   ⟨(ds 0 [(24,1,3), (28,8,0xFFFFFFFFFFFFFFFF)] : Desc), ({on with pwr := {on.pwr with mode := .faultHold, fclear := true, nfault := true}} : State), by unfold State.takes; decide +kernel⟩,
   ⟨(ds 0 [(24,1,1), (28,8,0xFFFFFFFFFFFFFFFF)] : Desc), ({on with pwr := {on.pwr with mode := .faultHold, fclear := true, nfault := true}} : State), by unfold State.takes; decide +kernel⟩,
   ⟨(ds 0 [(24,1,4), (28,8,0xFFFFFFFFFFFFFFFF)] : Desc), (on : State), (24 : Nat), by unfold State.takes; decide +kernel⟩,
   ⟨(ds 0 [(24,1,3), (28,8,0xFFFFFFFFFFFFFFFF)] : Desc), ({on with coat := some {number := 1}} : State), by unfold State.takes; decide +kernel⟩,
   ⟨(ds 0 [(24,1,0), (28,8,0)] : Desc), (on : State), by refine ⟨by unfold State.takes; decide +kernel, ?_, ?_, ?_, ?_, ?_, Or.inr (Or.inl (by decide +kernel))⟩ <;> decide +kernel⟩,
   ⟨(ds 0 [(24,1,3), (28,8,0xFFFFFFFFFFFFFFFF)] : Desc), ({on with pwr := {on.pwr with grant := 0}} : State), by unfold State.takes; decide +kernel⟩,
   ⟨(ds 0 [(24,1,3), (28,8,0xFFFFFFFFFFFFFFFF)] : Desc), (on : State), by unfold State.takes; decide +kernel⟩,
   ⟨(ds 0 [(24,1,2), (28,8,0xFFFFFFFFFFFFFFFF)] : Desc), ({on with clk := {}, pwr := {on.pwr with mode := .standby, panels := Vector.replicate 8 .off}} : State), by unfold State.takes; decide +kernel⟩,
   ⟨(ds 0 [(24,1,2), (28,8,0x0202020202020202)] : Desc), (on : State), by unfold State.takes; decide +kernel⟩,
   ⟨(⟨ds 0 [(24,1,2), (28,8,0xFFFFFF02FF02FFFF)], .armed, Vector.replicate 8 .armed, [.standbyToArmed], false⟩ : Change), ({on.begun 2 (ds 0 [(24,1,2), (28,8,0xFFFFFF02FF02FFFF)]) with fnMode := 0x4000, pwr := {on.pwr with mode := .standby, panels := (Vector.replicate 8 .retain).set 3 .off, change := some ⟨ds 0 [(24,1,2), (28,8,0xFFFFFF02FF02FFFF)], .armed, Vector.replicate 8 .armed, [.standbyToArmed], false⟩}} : State), by refine ⟨?_, ?_, ?_, ?_, ?_, by intro t; simp [on, Tile.adcEn, State.begun, State.modCq]⟩ <;> decide +kernel⟩,
   ⟨({on with pwr := {on.pwr with dormantDue := true}} : State), by decide +kernel⟩⟩

theorem witness_RailsAndHolds :
    (∃ (p : PanelId) (uF : Nat) (s : State), State.railStarting s (Rail.pvh p) = true ∧ s.pwr.railTried = [] ∧ s.panels[p].crsDue = true ∧ State.railRan s (Rail.pvh p) (25 * Panel.rail50 s.panels[p]) = true ∧ 30 ≤ uF) ∧
    (∃ (s : State), State.railStarting s Rail.hlv = true ∧ s.pwr.railTried = [] ∧ State.railRan s Rail.hlv 5000 = true) ∧
    (∃ (s : State), s.pwr.hlvOk = true ∧ s.pwr.hlvAt + 1200000 ≤ s.aon.fck) ∧
    (∃ (s : State), s.pwr.hlvOk = true ∧ s.pwr.hlvAt + 12000000 ≤ s.aon.fck) ∧
    (∃ (c : BitVec 3) (s : State), c ≠ 0 ∧ c ≠ 7 ∧ s.aon.up = true ∧ s.pwr.mode = Mode.faultHold) ∧
    (∃ (c : BitVec 3) (s : State), c ≠ 0 ∧ c ≠ 7 ∧ s.aon.up = true ∧ s.pwr.mode ≠ Mode.faultHold) ∧
    (∃ (s : State), s.pwr.mode = Mode.faultHold ∧ s.pwr.tripAt + 64 ≤ s.aon.ticks) ∧
    (∃ (p : PanelId) (s : State), Mode.up s.pwr.mode = true ∧ PState.live (State.pstate s p) = true ∧ s.panels[p].refOk = false ∧ s.panels[p].refFault = false ∧ s.panels[p].refAt + 1200 * Panel.refTime s.panels[p] ≤ s.aon.fck ∧ (∀ (k : TileId), k ∈ tilesOf p → Comparator.en s.tiles[k].cmpA = false ∧ Comparator.en s.tiles[k].cmpB = false)) ∧
    (∃ (p : PanelId) (s : State), PState.live (State.pstate s p) = true ∧ Panel.refExt s.panels[p] = true) ∧
    (∃ (p : PanelId) (s : State), State.serving s = true ∧ State.pstate s p ≠ PState.off ∧ s.panels[p].calInterp = false ∧ (∀ (k : Nat), s.panels[p].tempAt = some k → k + 64 ≤ s.aon.ticks)) :=
  ⟨⟨(7 : PanelId), (70000 : Nat), ({on.modPanel 7 fun x => {x with pvhOn := true} with pwr := {on.pwr with vddaGood := true, railFrom := [(.pvh 7, 3)]}, aon := {on.aon with fck := 50000000}} : State), by decide +kernel⟩,
   ⟨({on with pwr := {on.pwr with hlvCtrl := 0x01803200, railFrom := [(.hlv, 0)]}, aon := {on.aon with fck := 6000000}} : State), by decide +kernel⟩,
   ⟨({on with pwr := {on.pwr with hlvOk := true, hrstHold := true}} : State), by decide +kernel⟩,
   ⟨({on with pwr := {on.pwr with hlvOk := true, hrstHold := true}, aon := {on.aon with fck := 12000000}} : State), by decide +kernel⟩,
   ⟨(6 : BitVec 3), ({on with pwr := {on.pwr with mode := .faultHold}} : State), by decide +kernel⟩,
   ⟨(1 : BitVec 3), ({on.modPanel 7 fun x => {x with pvhOn := true} with pwr := {on.pwr with hlvOk := true, vddaGood := true}} : State), by decide +kernel⟩,
   ⟨({on with pwr := {on.pwr with mode := .faultHold}} : State), by decide +kernel⟩,
   ⟨(0 : PanelId), (on : State), by decide +kernel⟩,
   ⟨(7 : PanelId), (on.modPanel 7 fun x => {x with ref := 0x01000000} : State), by decide +kernel⟩,
   ⟨(7 : PanelId), (on.modPanel 7 fun x => {x with calInterp := false} : State), by decide +kernel⟩⟩

theorem witness_LedgerRead :
    (∃ (d : Desc) (s : State), State.takes s 130 d (headerFault d 0 BufUse.buffer CoatUse.unbound [(31, 33)]) ∧ (Desc.u d 28 2 = 0 ∨ 4096 < Desc.u d 28 2)) ∧
    (∃ (d : Desc) (s : State), State.takes s 130 d (headerFault d 0 BufUse.buffer CoatUse.unbound [(31, 33)]) ∧ Desc.u d 28 2 ≠ 0 ∧ Desc.u d 28 2 ≤ 4096 ∧ Desc.len d < 32 * Desc.u d 28 2) ∧
    (∃ (d : Desc) (s : State), State.takes s 130 d (headerFault d 0 BufUse.buffer CoatUse.unbound [(31, 33)]) ∧ Desc.u d 28 2 ≠ 0 ∧ Desc.u d 28 2 ≤ 4096 ∧ 32 * Desc.u d 28 2 ≤ Desc.len d ∧ s.mem.errs = [] ∧ State.linkUp s = true ∧ d.wr = Attempt.clean) ∧
    (∃ (s : State), s.ledger.entries = []) ∧
    (∃ (s : State) (e : Entry) (es : List Entry), s.ledger.entries = es ++ [e]) ∧
    (∃ (d : Desc) (off : Nat) (s : State), State.runs s d = true ∧ headerFault d 0 BufUse.buffer CoatUse.unbound [(31, 33)] = some off) ∧
    (∃ (d : Desc), d.target ≠ 0) ∧
    (∃ (d : Desc), d.coat ≠ 0) :=
  ⟨⟨(dsb 0 64 [(24,4,1),(28,2,0)] : Desc), (on : State), by unfold State.takes; decide +kernel⟩,
   ⟨(dsb 0 63 [(24,4,1),(28,2,2)] : Desc), (on : State), by unfold State.takes; decide +kernel⟩,
   ⟨(dsb 0 64 [(24,4,1),(28,2,2)] : Desc), (log .lasting 0x10 3 1 2 3 (log .info 0x11 3 1 2 3 on) : State), by unfold State.takes; decide +kernel⟩,
   ⟨(on : State), by decide +kernel⟩,
   ⟨({on with ledger := {on.ledger with entries := [⟨1,2,3,.info,5,3,7,8,9,1⟩, ⟨1,2,3,.info,5,2,7,8,9,1⟩]}} : State), (⟨1,2,3,.info,5,2,7,8,9,1⟩ : Entry), ([⟨1,2,3,.info,5,3,7,8,9,1⟩] : List Entry), by decide +kernel⟩,
   ⟨(dsb 0 64 [(31,1,4)] : Desc), (31 : Nat), (on : State), by decide +kernel⟩,
   ⟨({ds 0 [] with target := 1} : Desc), by decide +kernel⟩,
   ⟨({ds 0 [] with coat := 1} : Desc), by decide +kernel⟩⟩

theorem witness_IntegrityCommands :
    (∃ (d : Desc) (s : State), State.takes s 129 d (headerFault d 0 BufUse.none CoatUse.unbound [(30, 2), (40, 24)]) ∧ Desc.u d 25 1 ≤ 1 ∧ scrubFault d = none ∧ s.mem.errs = []) ∧
    (∃ (d : Desc) (s : State), State.takes s 131 d (headerFault d 9 BufUse.none CoatUse.unbound [(25, 1), (28, 36)]) ∧ pageOk (Desc.u d 24 1) (Desc.u d 26 2) = true ∧ State.pageRetired s (Fin.ofNat 16 (Desc.u d 24 1)) (Fin.ofNat 512 (BitVec.toNat d.target)) (Desc.u d 26 2) = true) ∧
    (∃ (d : Desc) (s : State), State.takes s 131 d (headerFault d 9 BufUse.none CoatUse.unbound [(25, 1), (28, 36)]) ∧ pageOk (Desc.u d 24 1) (Desc.u d 26 2) = true ∧ State.pageRetired s (Fin.ofNat 16 (Desc.u d 24 1)) (Fin.ofNat 512 (BitVec.toNat d.target)) (Desc.u d 26 2) = false ∧ State.pageUsed s (Fin.ofNat 512 (BitVec.toNat d.target)) (Desc.u d 24 1) = false) ∧
    (∃ (d : Desc) (s : State), State.takes s 132 d (headerFault d 6 BufUse.none CoatUse.unbound [(25, 1), (28, 36)]) ∧ BitVec.toNat d.target ≤ 47 ∧ Desc.u d 24 1 ≤ 1 ∧ List.length s.sec.repairs < 16) ∧
    (∃ (d : Desc) (s : State), State.takes s 132 d (headerFault d 6 BufUse.none CoatUse.unbound [(25, 1), (28, 36)]) ∧ BitVec.toNat d.target ≤ 47 ∧ Desc.u d 24 1 ≤ 1 ∧ 16 ≤ List.length s.sec.repairs) ∧
    (∃ (p : PanelId) (lane : Fin 16) (s : State), State.pstate s p ≠ PState.off ∧ BitVec.getLsbD s.panels[p].lanes ↑lane = true) :=
  ⟨⟨(ds 0 [(24,1,6),(26,2,500),(28,2,12),(32,4,8),(36,4,16)] : Desc), (on : State), by unfold State.takes; decide +kernel⟩,
   ⟨(ds 511 [(24,1,4),(26,2,63)] : Desc), ({on with mem := {on.mem with retired := [(4, 511, 63)]}} : State), by unfold State.takes; decide +kernel⟩,
   ⟨(ds 511 [(24,1,4),(26,2,63)] : Desc), (on : State), by refine ⟨by unfold State.takes; decide +kernel, ?_, ?_, by simp [State.pageUsed, on]⟩ <;> decide +kernel⟩,
   ⟨(ds 47 [(24,1,1),(26,2,63)] : Desc), (on : State), by unfold State.takes; decide +kernel⟩,
   ⟨(ds 47 [(24,1,1),(26,2,63)] : Desc), ({on with sec := {on.sec with repairs := List.replicate 16 ⟨0,false,0,true⟩}} : State), by unfold State.takes; decide +kernel⟩,
   ⟨(7 : PanelId), (15 : Fin 16), (on : State), by decide +kernel⟩⟩

theorem witness_FencesAndHeartbeats :
    (∃ (d : Desc) (s : State), State.takes s 38 d (headerFault d 9 BufUse.none CoatUse.unbound [(25, 39)]) ∧ Desc.u d 24 1 ≤ 1 ∧ s.tiles[Fin.ofNat 512 (BitVec.toNat d.target)].fenced = true) ∧
    (∃ (d : Desc) (s : State), State.takes s 38 d (headerFault d 9 BufUse.none CoatUse.unbound [(25, 39)]) ∧ Desc.u d 24 1 ≤ 1 ∧ s.tiles[Fin.ofNat 512 (BitVec.toNat d.target)].fenced = false ∧ State.isPlaced s (Fin.ofNat 512 (BitVec.toNat d.target)) = false ∧ s.tiles[Fin.ofNat 512 (BitVec.toNat d.target)].openRec = none ∧ s.tiles[Fin.ofNat 512 (BitVec.toNat d.target)].eng.hostMsgs = [] ∧ (∀ (k : Fin 256), s.panels[panelOf (Fin.ofNat 512 (BitVec.toNat d.target))].sinks[k] = 256)) ∧
    (∃ (d : Desc) (s : State), State.takes s 39 d (headerFault d 9 BufUse.none CoatUse.unbound [(25, 39)]) ∧ s.tiles[Fin.ofNat 512 (BitVec.toNat d.target)].fenced = true ∧ s.tiles[Fin.ofNat 512 (BitVec.toNat d.target)].retired = false ∧ (∀ (r : BistRun), r ∈ s.bist → r.tile ≠ Fin.ofNat 512 (BitVec.toNat d.target)) ∧ Desc.u d 24 1 = 0 ∧ s.tiles[Fin.ofNat 512 (BitVec.toNat d.target)].bistPass = true ∧ State.isPlaced s (Fin.ofNat 512 (BitVec.toNat d.target)) = false) ∧
    (∃ (d : Desc) (s : State), State.takes s 39 d (headerFault d 9 BufUse.none CoatUse.unbound [(25, 39)]) ∧ s.tiles[Fin.ofNat 512 (BitVec.toNat d.target)].fenced = true ∧ s.tiles[Fin.ofNat 512 (BitVec.toNat d.target)].retired = false ∧ (∀ (r : BistRun), r ∈ s.bist → r.tile ≠ Fin.ofNat 512 (BitVec.toNat d.target)) ∧ Desc.u d 24 1 = 0 ∧ s.tiles[Fin.ofNat 512 (BitVec.toNat d.target)].bistPass = false) ∧
    (∃ (d : Desc) (s : State), State.takes s 39 d (headerFault d 9 BufUse.none CoatUse.unbound [(25, 39)]) ∧ s.tiles[Fin.ofNat 512 (BitVec.toNat d.target)].fenced = true ∧ s.tiles[Fin.ofNat 512 (BitVec.toNat d.target)].retired = false ∧ (∀ (r : BistRun), r ∈ s.bist → r.tile ≠ Fin.ofNat 512 (BitVec.toNat d.target)) ∧ Desc.u d 24 1 = 1) ∧
    (∃ (d : Desc) (s : State), State.takes s 40 d (headerFault d 0 BufUse.buffer CoatUse.unbound [(32, 32)]) ∧ Desc.len d = 64 ∧ State.linkUp s = true ∧ d.rd = Attempt.clean ∧ (∀ (t : TileId), t ∈ mapTiles (Memory.bytes s.hostMem (BitVec.toNat d.buffer) 64) → State.sparable s t = true)) ∧
    (∃ (d : Desc) (s : State), State.takes s 40 d (headerFault d 0 BufUse.buffer CoatUse.unbound [(32, 32)]) ∧ Desc.len d = 64 ∧ State.linkUp s = true ∧ d.rd = Attempt.clean ∧ (∃ (t : TileId), t ∈ mapTiles (Memory.bytes s.hostMem (BitVec.toNat d.buffer) 64) ∧ State.sparable s t = false)) ∧
    (∃ (t : TileId) (s : State), State.probed s t = true ∧ s.aon.ticks < s.tiles[t].probedAt + 32) ∧
    (∃ (t : TileId) (s : State), State.probed s t = true ∧ s.tiles[t].probedAt + 32 ≤ s.aon.ticks ∧ (List.any s.probes fun (p : TileId × Bool × Nat) => p.fst == t && p.snd.fst) = false) ∧
    (∃ (t : TileId) (s : State), State.probed s t = true ∧ s.tiles[t].probedAt + 32 ≤ s.aon.ticks ∧ (List.any s.probes fun (p : TileId × Bool × Nat) => p.fst == t && p.snd.fst) = true) ∧
    (∃ (t : TileId) (since : Nat) (s : State), State.probed s t = true ∧ List.find? (fun (p : TileId × Bool × Nat) => p.fst == t) s.probes = some (t, false, since)) ∧
    (∃ (t : TileId) (since : Nat) (s : State), State.probed s t = true ∧ List.find? (fun (p : TileId × Bool × Nat) => p.fst == t) s.probes = some (t, true, since) ∧ State.hwPlaces s = true ∧ s.tiles[t].openRec = none ∧ s.tiles[t].eng.hostMsgs = [] ∧ (∀ (k : Fin 256), s.panels[panelOf t].sinks[k] = 256)) :=
  ⟨⟨(ds 511 [(24,1,1)] : Desc), (fencedAt 511 : State), by unfold State.takes; decide +kernel⟩,
   ⟨(ds 510 [(24,1,0)] : Desc), (on.modTile 510 fun x => {x with epoch := 3} : State), by refine ⟨by unfold State.takes; decide +kernel, ?_, ?_, by simp [State.isPlaced, State.chainsOn, fencedAt, on, State.begun, State.modCq], ?_, ?_, by intro k; simp [on, armed, jobbed, headed, printing, State.modHead, State.modTile, State.modTrowel, fencedAt, chainPlaced, probed5, State.modChain]⟩ <;> decide +kernel⟩,
   ⟨(ds 511 [(24,1,0)] : Desc), (fencedAt 511 fun x => {x with epoch := 3, bistPass := true} : State), by refine ⟨by unfold State.takes; decide +kernel, ?_, ?_, ?_, ?_, ?_, by simp [State.isPlaced, State.chainsOn, fencedAt, on, State.begun, State.modCq]⟩ <;> decide +kernel⟩,
   ⟨(ds 511 [(24,1,0)] : Desc), (fencedAt 511 fun x => {x with epoch := 3} : State), by unfold State.takes; decide +kernel⟩,
   ⟨(ds 511 [(24,1,1)] : Desc), (fencedAt 511 fun x => {x with epoch := 3} : State), by unfold State.takes; decide +kernel⟩,
   ⟨(dsb 0 64 [] : Desc), (host [0,0,5] on : State), by unfold State.takes; decide +kernel⟩,
   ⟨(dsb 0 64 [] : Desc), ((host [0,0,5] on).modTile 16 fun x => {x with fenced := true} : State), by unfold State.takes; decide +kernel⟩,
   ⟨(5 : TileId), (probed5.modTile 5 fun x => {x with probedAt := 99990} : State), by decide +kernel⟩,
   ⟨(5 : TileId), ({probed5 with probes := [(5,false,1)]} : State), by decide +kernel⟩,
   ⟨(5 : TileId), ({probed5 with probes := [(5,true,1)]} : State), by decide +kernel⟩,
   ⟨(5 : TileId), (1 : Nat), ({probed5 with probes := [(5,false,1)]} : State), by decide +kernel⟩,
   ⟨(5 : TileId), (1 : Nat), ({probed5 with probes := [(5,true,1)]} : State), by refine ⟨?_, ?_, ?_, ?_, ?_, by intro k; simp [on, armed, jobbed, headed, printing, State.modHead, State.modTile, State.modTrowel, fencedAt, chainPlaced, probed5, State.modChain]⟩ <;> decide +kernel⟩⟩

theorem witness_CoatsOpenAndEnd :
    (∃ (d : Desc) (s : State), State.takes s 36 d (headerFault d 0 BufUse.buffer CoatUse.unbound [(26, 38)]) ∧ Desc.u d 24 2 ≤ 1024 ∧ Desc.len d = 12 * Desc.u d 24 2 ∧ State.linkUp s = true ∧ d.rd = Attempt.clean ∧ (∀ (i : Item), i ∈ coatItems (Desc.u d 24 2) (Memory.bytes s.hostMem (BitVec.toNat d.buffer) (Desc.len d)) → Item.inBlocks i = true) ∧ s.coat = none) ∧
    (∃ (d : Desc) (s : State), State.takes s 36 d (headerFault d 0 BufUse.buffer CoatUse.unbound [(26, 38)]) ∧ Desc.u d 24 2 ≤ 1024 ∧ Desc.len d = 12 * Desc.u d 24 2 ∧ State.linkUp s = true ∧ d.rd = Attempt.clean ∧ (∀ (i : Item), i ∈ coatItems (Desc.u d 24 2) (Memory.bytes s.hostMem (BitVec.toNat d.buffer) (Desc.len d)) → Item.inBlocks i = true) ∧ Option.isSome s.coat = true) ∧
    (∃ (d : Desc) (s : State), State.takes s 36 d (headerFault d 0 BufUse.buffer CoatUse.unbound [(26, 38)]) ∧ Desc.u d 24 2 ≤ 1024 ∧ Desc.len d = 12 * Desc.u d 24 2 ∧ State.linkUp s = true ∧ d.rd = Attempt.clean ∧ (∃ (i : Item), i ∈ coatItems (Desc.u d 24 2) (Memory.bytes s.hostMem (BitVec.toNat d.buffer) (Desc.len d)) ∧ Item.inBlocks i = false)) ∧
    (∃ (d : Desc) (c : Coat) (s : State), State.takes s 37 d (headerFault d 32 BufUse.none CoatUse.commit [(26, 2), (40, 24)]) ∧ s.coat = some c ∧ c.own = false ∧ c.number = BitVec.setWidth 16 d.coat ∧ Desc.u d 24 1 = 3 ∧ c.point = none) ∧
    (∃ (d : Desc) (c : Coat) (s : State), State.takes s 37 d (headerFault d 32 BufUse.none CoatUse.commit [(26, 2), (40, 24)]) ∧ s.coat = some c ∧ c.own = false ∧ c.number = BitVec.setWidth 16 d.coat ∧ Desc.u d 24 1 = 1 ∧ Desc.u d 25 1 ≤ 7 ∧ c.point = none) ∧
    (∃ (d : Desc) (c : Coat) (s : State), State.takes s 37 d (headerFault d 32 BufUse.none CoatUse.commit [(26, 2), (40, 24)]) ∧ s.coat = some c ∧ c.own = false ∧ c.number = BitVec.setWidth 16 d.coat ∧ Desc.u d 24 1 = 2 ∧ c.point = none ∧ BitVec.toNat s.aon.sysNow + 32000 ≤ Desc.u d 32 8) ∧
    (∃ (d : Desc) (c : Coat) (s : State), State.takes s 37 d (headerFault d 32 BufUse.none CoatUse.commit [(26, 2), (40, 24)]) ∧ s.coat = some c ∧ c.own = false ∧ c.number = BitVec.setWidth 16 d.coat ∧ Desc.u d 24 1 = 4 ∧ c.bound = [] ∧ c.point = none) ∧
    (∃ (d : Desc) (c : Coat) (s : State), State.takes s 37 d (headerFault d 32 BufUse.none CoatUse.commit [(26, 2), (40, 24)]) ∧ s.coat = some c ∧ c.own = false ∧ c.number = BitVec.setWidth 16 d.coat ∧ Desc.u d 24 1 ≤ 3 ∧ c.point ≠ none ∧ (Desc.u d 24 1 ≤ 1 → Desc.u d 25 1 ≤ 7) ∧ (Desc.u d 24 1 = 2 → BitVec.toNat s.aon.sysNow + 32000 ≤ Desc.u d 32 8)) ∧
    (∃ (d : Desc) (c : Coat) (p : CommitPoint) (limit : Nat) (s : State), s.coat = some c ∧ c.bound = [] ∧ c.point = some (d, p, some limit) ∧ limit ≤ s.aon.fck) ∧
    (∃ (d : Desc) (c : Coat) (p : CommitPoint) (limit : Nat) (s : State), s.coat = some c ∧ c.bound = [] ∧ c.point = some (d, p, some limit) ∧ s.aon.fck < limit) :=
  ⟨⟨(dsb 0 12 [(24,2,1)] : Desc), (host (natLe 4 0x8158 ++ natLe 4 5 ++ natLe 4 0xFFFFFFFF) on : State), by unfold State.takes; decide +kernel⟩,
   ⟨(dsb 0 12 [(24,2,1)] : Desc), ({host (natLe 4 0x8158 ++ natLe 4 5 ++ natLe 4 0xFFFFFFFF) on with coat := some ⟨3, [], [], none, false⟩} : State), by unfold State.takes; decide +kernel⟩,
   ⟨(dsb 0 12 [(24,2,1)] : Desc), (host (natLe 4 0x4800 ++ natLe 4 5 ++ natLe 4 0xFFFFFFFF) on : State), by unfold State.takes; decide +kernel⟩,
   ⟨({ds 0 [(24,1,3)] with coat := 3} : Desc), (⟨3, [], [], none, false⟩ : Coat), ({on with coat := some ⟨3, [], [], none, false⟩} : State), by unfold State.takes; decide +kernel⟩,
   ⟨({ds 3 [(24,1,1),(25,1,7),(28,4,9)] with coat := 3} : Desc), ({number := 3} : Coat), ({on with coat := some {number := 3}} : State), by unfold State.takes; decide +kernel⟩,
   ⟨({ds 0 [(24,1,2), (32,8,1032000)] with coat := 3} : Desc), (⟨3, [], [], none, false⟩ : Coat), ({on with coat := some ⟨3, [], [], none, false⟩} : State), by unfold State.takes; decide +kernel⟩,
   ⟨({ds 0 [(24,1,4)] with coat := 3} : Desc), (⟨3, [], [], none, false⟩ : Coat), ({on with coat := some ⟨3, [], [], none, false⟩} : State), by unfold State.takes; decide +kernel⟩,
   ⟨({ds 0 [(24,1,0)] with coat := 3} : Desc), (⟨3, [], [], some (ds 0 [], .now, none), false⟩ : Coat), ({on with coat := some ⟨3, [], [], some (ds 0 [], .now, none), false⟩} : State), by unfold State.takes; decide +kernel⟩,
   ⟨(ds 0 [] : Desc), (⟨3, [], [], some (ds 0 [], .now, some 5), false⟩ : Coat), (.now : CommitPoint), (5 : Nat), ({on.begun 0x25 (ds 0 []) with coat := some ⟨3, [], [], some (ds 0 [], .now, some 5), false⟩} : State), by decide +kernel⟩,
   ⟨(ds 0 [] : Desc), (⟨3, [], [], some (ds 0 [], .now, some 5000001), false⟩ : Coat), (.now : CommitPoint), (5000001 : Nat), ({on.begun 0x25 (ds 0 []) with coat := some ⟨3, [], [], some (ds 0 [], .now, some 5000001), false⟩} : State), by decide +kernel⟩⟩

theorem witness_CoatsCommit :
    (∃ (d : Desc) (c : Coat) (i : Item) (t : TileId) (s : State), s.coat = some c ∧ c.items = [i] ∧ c.bound = [] ∧ c.point = some (d, CommitPoint.now, none) ∧ State.fastOn s = true ∧ regAt i.off = some (Reg.tile t TReg.dac) ∧ State.pstate s (panelOf t) ≠ PState.off ∧ s.tiles[t].fenced = false ∧ s.tiles[t].inReset = false) ∧
    (∃ (d : Desc) (c : Coat) (i : Item) (t : TileId) (s : State), s.coat = some c ∧ c.items = [i] ∧ c.bound = [] ∧ c.point = some (d, CommitPoint.now, none) ∧ State.fastOn s = true ∧ regAt i.off = some (Reg.tile t TReg.dac) ∧ s.tiles[t].fenced = true) ∧
    (∃ (d : Desc) (ch : Fin 256) (c : Coat) (stages : List Stage) (links : List LinkRec) (pl : Placement) (s : State), s.coat = some c ∧ c.own = true ∧ c.items = [] ∧ c.bound = [Bound.release d ch] ∧ c.point = none ∧ State.fastOn s = true ∧ s.chains[ch].cdef = some (stages, links) ∧ s.chains[ch].placement = some pl ∧ pl.stages = [] ∧ pl.routes = []) ∧
    (∃ (t : TileId) (due : Nat) (s : State), (t, due) ∈ s.readback ∧ s.tiles[t].fenced = false ∧ s.mem.errs = []) ∧
    (∃ (s : State), (∀ (p : PanelId) (k : Fin 256), s.panels[p].sinks[k] = 256)) ∧
    (∃ (t : TileId) (s : State) (d : Desc) (op : Byte), s.coat = none ∧ State.isPlaced s t = false ∧ List.find? (fun (m : TileId × Option (Byte × Desc)) => m.fst == t) s.moves = some (t, some (op, d))) ∧
    (∃ (t : TileId) (s : State), s.coat = none ∧ State.isPlaced s t = false ∧ List.find? (fun (m : TileId × Option (Byte × Desc)) => m.fst == t) s.moves = some (t, none)) :=
  ⟨⟨(ds 0 [] : Desc), (⟨3, [⟨0x8158, 0x12345678, 0xFFFFFFFF⟩], [], some (ds 0 [], .now, none), false⟩ : Coat), (⟨0x8158, 0x12345678, 0xFFFFFFFF⟩ : Item), (5 : TileId), ({on.begun 0x25 (ds 0 []) with coat := some ⟨3, [⟨0x8158, 0x12345678, 0xFFFFFFFF⟩], [], some (ds 0 [], .now, none), false⟩} : State), by decide +kernel⟩,
   ⟨(ds 0 [] : Desc), (⟨3, [⟨0x8158, 0x12345678, 0xFFFFFFFF⟩], [], some (ds 0 [], .now, none), false⟩ : Coat), (⟨0x8158, 0x12345678, 0xFFFFFFFF⟩ : Item), (5 : TileId), ({(fencedAt 5).begun 0x25 (ds 0 []) with coat := some ⟨3, [⟨0x8158, 0x12345678, 0xFFFFFFFF⟩], [], some (ds 0 [], .now, none), false⟩} : State), by decide +kernel⟩,
   ⟨(ds 0 [] : Desc), (255 : Fin 256), (⟨3, [], [.release (ds 0 []) 255], none, true⟩ : Coat), (timerStages : List Stage), ([] : List LinkRec), (⟨[],[],[]⟩ : Placement), ({(on.modChain 255 fun _ => { cdef := some (timerStages, []), placement := some ⟨[],[],[]⟩, broken := true }).begun 0x23 (ds 0 []) with coat := some ⟨3, [], [.release (ds 0 []) 255], none, true⟩} : State), by decide +kernel⟩,
   ⟨(5 : TileId), (9 : Nat), ({on with readback := [(5,9),(6,9)]} : State), by decide +kernel⟩,
   ⟨((on.modTile 5 fun x => {x with sheet := true}).modTile 6 fun x => {x with sheet := true, inReset := true} : State), by intro p k; simp [on]⟩,
   ⟨(5 : TileId), ({on.begun 0x83 (ds 0 []) with moves := [(6, none), (5, some (0x83, ds 0 []))]} : State), (ds 0 [] : Desc), (0x83 : Byte), by refine ⟨?_, by simp [State.isPlaced, State.chainsOn, fencedAt, on, State.begun, State.modCq], ?_⟩ <;> decide +kernel⟩,
   ⟨(5 : TileId), ({on with moves := [(6, none), (5, none)]} : State), by refine ⟨?_, by simp [State.isPlaced, State.chainsOn, fencedAt, on, State.begun, State.modCq], ?_⟩ <;> decide +kernel⟩⟩

theorem witness_Chains :
    (∃ (d : Desc) (s : State), State.takes s 32 d (headerFault d 8 BufUse.buffer CoatUse.unbound [(26, 38)]) ∧ 1 ≤ Desc.u d 24 1 ∧ Desc.u d 24 1 ≤ 32 ∧ Desc.u d 25 1 ≤ 64 ∧ Desc.len d = 32 * Desc.u d 24 1 + 8 * Desc.u d 25 1 ∧ State.linkUp s = true ∧ d.rd = Attempt.clean ∧ s.chains[Fin.ofNat 256 (BitVec.toNat d.target)].placement = none ∧ (∀ (r : List Byte), r ∈ chunks 32 (Desc.u d 24 1) (Memory.bytes s.hostMem (BitVec.toNat d.buffer) (Desc.len d)) → stageRecOk (List.map stageOf (chunks 32 (Desc.u d 24 1) (Memory.bytes s.hostMem (BitVec.toNat d.buffer) (Desc.len d)))) r = true) ∧ (∀ (r : List Byte), r ∈ chunks 8 (Desc.u d 25 1) (List.drop (32 * Desc.u d 24 1) (Memory.bytes s.hostMem (BitVec.toNat d.buffer) (Desc.len d))) → linkRecOk (List.map stageOf (chunks 32 (Desc.u d 24 1) (Memory.bytes s.hostMem (BitVec.toNat d.buffer) (Desc.len d)))) r = true) ∧ linksFit (List.map linkOf (chunks 8 (Desc.u d 25 1) (List.drop (32 * Desc.u d 24 1) (Memory.bytes s.hostMem (BitVec.toNat d.buffer) (Desc.len d))))) = true) ∧
    (∃ (d : Desc) (s : State), State.takes s 32 d (headerFault d 8 BufUse.buffer CoatUse.unbound [(26, 38)]) ∧ 1 ≤ Desc.u d 24 1 ∧ Desc.u d 24 1 ≤ 32 ∧ Desc.u d 25 1 ≤ 64 ∧ Desc.len d = 32 * Desc.u d 24 1 + 8 * Desc.u d 25 1 ∧ State.linkUp s = true ∧ d.rd = Attempt.clean ∧ s.chains[Fin.ofNat 256 (BitVec.toNat d.target)].placement = none ∧ ¬((∀ (r : List Byte), r ∈ chunks 32 (Desc.u d 24 1) (Memory.bytes s.hostMem (BitVec.toNat d.buffer) (Desc.len d)) → stageRecOk (List.map stageOf (chunks 32 (Desc.u d 24 1) (Memory.bytes s.hostMem (BitVec.toNat d.buffer) (Desc.len d)))) r = true) ∧ (∀ (r : List Byte), r ∈ chunks 8 (Desc.u d 25 1) (List.drop (32 * Desc.u d 24 1) (Memory.bytes s.hostMem (BitVec.toNat d.buffer) (Desc.len d))) → linkRecOk (List.map stageOf (chunks 32 (Desc.u d 24 1) (Memory.bytes s.hostMem (BitVec.toNat d.buffer) (Desc.len d)))) r = true) ∧ linksFit (List.map linkOf (chunks 8 (Desc.u d 25 1) (List.drop (32 * Desc.u d 24 1) (Memory.bytes s.hostMem (BitVec.toNat d.buffer) (Desc.len d))))) = true)) ∧
    (∃ (d : Desc) (s : State), State.takes s 32 d (headerFault d 8 BufUse.buffer CoatUse.unbound [(26, 38)]) ∧ 1 ≤ Desc.u d 24 1 ∧ Desc.u d 24 1 ≤ 32 ∧ Desc.u d 25 1 ≤ 64 ∧ Desc.len d = 32 * Desc.u d 24 1 + 8 * Desc.u d 25 1 ∧ State.linkUp s = true ∧ d.rd = Attempt.clean ∧ s.chains[Fin.ofNat 256 (BitVec.toNat d.target)].placement ≠ none) ∧
    (∃ (d : Desc) (s : State), State.takes s 33 d (Option.or (headerFault d 8 BufUse.buffer CoatUse.bindable []) (Option.or (if 1 < Desc.u d 24 1 then some 24 else none) (reservedFault d [(25, 39)]))) ∧ Desc.bound d = false ∧ s.coat = none ∧ s.chains[Fin.ofNat 256 (BitVec.toNat d.target)].cdef = none) ∧
    (∃ (d : Desc) (stages : List Stage) (links : List LinkRec) (s : State) (pl : Placement), State.takes s 33 d (Option.or (headerFault d 8 BufUse.buffer CoatUse.bindable []) (Option.or (if 1 < Desc.u d 24 1 then some 24 else none) (reservedFault d [(25, 39)]))) ∧ Desc.bound d = false ∧ s.coat = none ∧ s.chains[Fin.ofNat 256 (BitVec.toNat d.target)].cdef = some (stages, links) ∧ s.chains[Fin.ofNat 256 (BitVec.toNat d.target)].placement = none ∧ State.hwPlaces s = true ∧ s.mem.errs = [] ∧ State.place (State.begun s 33 d) (Fin.ofNat 256 (BitVec.toNat d.target)) stages links = Sum.inr pl ∧ (Desc.u d 24 1 = 1 → List.length (Placement.bytes (Fin.ofNat 256 (BitVec.toNat d.target)) pl) ≤ Desc.len d)) ∧
    (∃ (d : Desc) (stages : List Stage) (links : List LinkRec) (s : State) (pl : Placement), State.takes s 33 d (Option.or (headerFault d 8 BufUse.buffer CoatUse.bindable []) (Option.or (if 1 < Desc.u d 24 1 then some 24 else none) (reservedFault d [(25, 39)]))) ∧ Desc.bound d = false ∧ s.coat = none ∧ s.chains[Fin.ofNat 256 (BitVec.toNat d.target)].cdef = some (stages, links) ∧ s.chains[Fin.ofNat 256 (BitVec.toNat d.target)].placement = none ∧ State.hwPlaces s = true ∧ s.mem.errs = [] ∧ State.place (State.begun s 33 d) (Fin.ofNat 256 (BitVec.toNat d.target)) stages links = Sum.inr pl ∧ Desc.u d 24 1 = 1 ∧ Desc.len d < List.length (Placement.bytes (Fin.ofNat 256 (BitVec.toNat d.target)) pl)) ∧
    (∃ (d : Desc) (stages : List Stage) (links : List LinkRec) (s : State) (f : PlaceFail), State.takes s 33 d (Option.or (headerFault d 8 BufUse.buffer CoatUse.bindable []) (Option.or (if 1 < Desc.u d 24 1 then some 24 else none) (reservedFault d [(25, 39)]))) ∧ Desc.bound d = false ∧ s.coat = none ∧ s.chains[Fin.ofNat 256 (BitVec.toNat d.target)].cdef = some (stages, links) ∧ s.chains[Fin.ofNat 256 (BitVec.toNat d.target)].placement = none ∧ State.hwPlaces s = true ∧ s.mem.errs = [] ∧ State.place (State.begun s 33 d) (Fin.ofNat 256 (BitVec.toNat d.target)) stages links = Sum.inl f) ∧
    (∃ (d : Desc) (stages : List Stage) (links : List LinkRec) (s : State), State.takes s 34 d (headerFault d 8 BufUse.buffer CoatUse.bindable [(24, 40)]) ∧ Desc.bound d = false ∧ s.coat = none ∧ State.linkUp s = true ∧ d.rd = Attempt.clean ∧ s.chains[Fin.ofNat 256 (BitVec.toNat d.target)].cdef = some (stages, links) ∧ s.chains[Fin.ofNat 256 (BitVec.toNat d.target)].placement = none ∧ recordOf (Fin.ofNat 256 (BitVec.toNat d.target)) (Memory.bytes s.hostMem (BitVec.toNat d.buffer) (Desc.len d)) = none) ∧
    (∃ (d : Desc) (stages : List Stage) (links : List LinkRec) (s : State) (ps : List StagePlace) (rs : List Route) (pl : Placement), State.takes s 34 d (headerFault d 8 BufUse.buffer CoatUse.bindable [(24, 40)]) ∧ Desc.bound d = false ∧ s.coat = none ∧ State.linkUp s = true ∧ d.rd = Attempt.clean ∧ s.chains[Fin.ofNat 256 (BitVec.toNat d.target)].cdef = some (stages, links) ∧ s.chains[Fin.ofNat 256 (BitVec.toNat d.target)].placement = none ∧ recordOf (Fin.ofNat 256 (BitVec.toNat d.target)) (Memory.bytes s.hostMem (BitVec.toNat d.buffer) (Desc.len d)) = some (ps, rs) ∧ s.mem.errs = [] ∧ State.checkRecord (State.begun s 34 d) (Fin.ofNat 256 (BitVec.toNat d.target)) stages links ps rs = Sum.inr pl) ∧
    (∃ (d : Desc) (s : State), State.takes s 35 d (headerFault d 8 BufUse.none CoatUse.bindable [(24, 40)]) ∧ Desc.bound d = false ∧ s.chains[Fin.ofNat 256 (BitVec.toNat d.target)].placement = none) ∧
    (∃ (d : Desc) (s : State), State.takes s 35 d (headerFault d 8 BufUse.none CoatUse.bindable [(24, 40)]) ∧ Desc.bound d = false ∧ s.chains[Fin.ofNat 256 (BitVec.toNat d.target)].placement ≠ none ∧ s.coat = none ∧ s.mem.errs = []) ∧
    (∃ (d : Desc) (s : State), State.takes s 35 d (headerFault d 8 BufUse.none CoatUse.bindable [(24, 40)]) ∧ Desc.bound d = false ∧ s.chains[Fin.ofNat 256 (BitVec.toNat d.target)].placement ≠ none ∧ s.coat ≠ none) :=
  ⟨⟨(dsb 255 32 [(24,1,1)] : Desc), (host timerRec on : State), by unfold State.takes; decide +kernel⟩,
   ⟨(dsb 255 32 [(24,1,1)] : Desc), (on.hostWrite 4096 (stageRec 17 0 0 []) : State), by unfold State.takes; decide +kernel⟩,
   ⟨(dsb 255 32 [(24,1,1)] : Desc), (host timerRec chainPlaced : State), by unfold State.takes; decide +kernel⟩,
   ⟨(dsb 255 32 [] : Desc), (on : State), by unfold State.takes; decide +kernel⟩,
   ⟨(dsb 255 32 [] : Desc), (timerStages : List Stage), ([] : List LinkRec), (chained : State), (timerPl : Placement), by unfold State.takes; decide +kernel⟩,
   ⟨(dsb 255 8 [(24,1,1)] : Desc), (timerStages : List Stage), ([] : List LinkRec), (chained : State), (timerPl : Placement), by unfold State.takes; decide +kernel⟩,
   ⟨(dsb 255 32 [] : Desc), ([stageOf (stageRec 12 1 5 [])] : List Stage), ([] : List LinkRec), ((on.modTile 5 fun x => {x with fenced := true}).modChain 255 fun _ => {cdef := some ([stageOf (stageRec 12 1 5 [])], [])} : State), (⟨11,0,false⟩ : PlaceFail), by unfold State.takes; decide +kernel⟩,
   ⟨(dsb 255 16 [] : Desc), (timerStages : List Stage), ([] : List LinkRec), (host [254] chained : State), by unfold State.takes; decide +kernel⟩,
   ⟨(dsb 255 16 [] : Desc), (timerStages : List Stage), ([] : List LinkRec), (host [255, 1] chained : State), ([⟨0,0,0⟩] : List StagePlace), ([] : List Route), (timerPl : Placement), by unfold State.takes; decide +kernel⟩,
   ⟨(ds 255 [] : Desc), (chained : State), by unfold State.takes; decide +kernel⟩,
   ⟨(ds 255 [] : Desc), (chainPlaced : State), by unfold State.takes; decide +kernel⟩,
   ⟨(ds 255 [] : Desc), ({chainPlaced with coat := some ⟨3, [], [], none, false⟩} : State), by unfold State.takes; decide +kernel⟩⟩

set_option maxRecDepth 100000 in
theorem witness_ImagesAndStore :
    (∃ (d : Desc) (s : State), State.takes s 18 d (headerFault d 0 BufUse.buffer CoatUse.unbound [(28, 36)]) ∧ storeFault d = none ∧ storeArea (Desc.u d 24 4) = 5 ∧ State.linkUp s = true ∧ d.rd = Attempt.clean) ∧
    (∃ (d : Desc) (s : State), State.takes s 18 d (headerFault d 0 BufUse.buffer CoatUse.unbound [(28, 36)]) ∧ storeFault d = none ∧ storeArea (Desc.u d 24 4) ≠ 5) ∧
    (∃ (d : Desc) (s : State), State.takes s 19 d (headerFault d 0 BufUse.buffer CoatUse.unbound [(28, 36)]) ∧ storeFault d = none ∧ State.linkUp s = true ∧ d.wr = Attempt.clean ∧ s.sec.lifecycle ≠ Lifecycle.closed ∧ storeArea (Desc.u d 24 4) ≤ 5) ∧
    (∃ (d : Desc) (s : State), State.takes s 19 d (headerFault d 0 BufUse.buffer CoatUse.unbound [(28, 36)]) ∧ storeFault d = none ∧ State.linkUp s = true ∧ d.wr = Attempt.clean ∧ s.sec.lifecycle = Lifecycle.closed ∧ storeArea (Desc.u d 24 4) ≤ 4) ∧
    (∃ (d : Desc) (s : State), State.takes s 16 d (headerFault d 0 BufUse.buffer CoatUse.unbound [(26, 38)]) ∧ Desc.u d 24 1 = 1 ∧ Desc.u d 25 1 ≤ 3 ∧ State.linkUp s = true ∧ d.rd = Attempt.clean ∧ (State.readImage s false (Memory.bytes s.hostMem (BitVec.toNat d.buffer) (Desc.len d))).fail = none) ∧
    (∃ (d : Desc) (s : State) (c : Nat) (off : Nat), State.takes s 16 d (headerFault d 0 BufUse.buffer CoatUse.unbound [(26, 38)]) ∧ Desc.u d 24 1 = 1 ∧ Desc.u d 25 1 ≤ 3 ∧ State.linkUp s = true ∧ d.rd = Attempt.clean ∧ (State.readImage s false (Memory.bytes s.hostMem (BitVec.toNat d.buffer) (Desc.len d))).fail = some (c, off)) ∧
    (∃ (d : Desc) (f : ImgFrame) (s : State), State.takes s 17 d (headerFault d 0 BufUse.none CoatUse.unbound [(25, 39)]) ∧ Desc.u d 24 1 ≤ 3 ∧ s.sec.slots[Fin.ofNat 4 (Desc.u d 24 1)].valid = true ∧ Mode.up s.pwr.mode = true ∧ (State.readImage s (Desc.bound d) (State.slotImage s (Fin.ofNat 4 (Desc.u d 24 1)))).fail = none ∧ (State.readImage s (Desc.bound d) (State.slotImage s (Fin.ofNat 4 (Desc.u d 24 1)))).kind = 2 ∧ (State.readImage s (Desc.bound d) (State.slotImage s (Fin.ofNat 4 (Desc.u d 24 1)))).frames = [f] ∧ ImgFrame.space f = 4 ∧ State.netlistUsed s (ImgFrame.unit f) = false) ∧
    (∃ (d : Desc) (s : State), State.takes s 17 d (headerFault d 0 BufUse.none CoatUse.unbound [(25, 39)]) ∧ Desc.u d 24 1 ≤ 3 ∧ s.sec.slots[Fin.ofNat 4 (Desc.u d 24 1)].valid = false) :=
  ⟨⟨(dsb 0 16 [(24,4,0x3C00000)] : Desc), (host [1,2,3] on : State), by unfold State.takes; decide +kernel⟩,
   ⟨(dsb 0 16 [(24,4,0x3F00000)] : Desc), (host [1,2,3] on : State), by unfold State.takes; decide +kernel⟩,
   ⟨(dsb 0 16 [(24,4,0x3C00000)] : Desc), ({on with sec := {on.sec with store := [(0x3C00001, 9)]}} : State), by unfold State.takes; decide +kernel⟩,
   ⟨(dsb 0 16 [(24,4,0)] : Desc), ({on with sec := {on.sec with lifecycle := .closed}} : State), by unfold State.takes; decide +kernel⟩,
   ⟨(dsb 0 164 [(24,1,1),(25,1,3)] : Desc), (host img on : State), by unfold State.takes; decide +kernel⟩,
   ⟨(dsb 0 164 [(24,1,1),(25,1,3)] : Desc), (host (img.set 30 9) on : State), (6 : Nat), (140 : Nat), by unfold State.takes; decide +kernel⟩,
   ⟨(ds 0 [(24,1,0)] : Desc), (⟨0x40000000, (List.replicate 32 [1, 2, 3, 4]).flatten⟩ : ImgFrame), (slotted : State), by refine ⟨by unfold State.takes; decide +kernel, ?_, ?_, ?_, ?_, ?_, ?_, ?_, by simp [State.netlistUsed, slotted, on]⟩ <;> decide +kernel⟩,
   ⟨(ds 0 [(24,1,3)] : Desc), (slotted : State), by unfold State.takes; decide +kernel⟩⟩

theorem witness_EnginePrograms :
    (∃ (d : Desc) (s : State), State.takes s 48 d (headerFault d (if Desc.u d 24 1 = 1 then 9 else 6) BufUse.buffer CoatUse.unbound [(25, 3), (36, 28)]) ∧ loadProgramFault d = none ∧ State.linkUp s = true ∧ d.rd = Attempt.clean ∧ BitVec.toNat (crc32c (Memory.bytes s.hostMem (BitVec.toNat d.buffer) (Desc.len d))) ≠ Desc.u d 32 4) ∧
    (∃ (d : Desc) (s : State), State.takes s 48 d (headerFault d (if Desc.u d 24 1 = 1 then 9 else 6) BufUse.buffer CoatUse.unbound [(25, 3), (36, 28)]) ∧ loadProgramFault d = none ∧ State.linkUp s = true ∧ d.rd = Attempt.clean ∧ BitVec.toNat (crc32c (Memory.bytes s.hostMem (BitVec.toNat d.buffer) (Desc.len d))) = Desc.u d 32 4 ∧ Desc.u d 24 1 = 0 ∧ State.storeUsed s ↑(Fin.ofNat 64 (BitVec.toNat d.target)) + List.length (Memory.bytes s.hostMem (BitVec.toNat d.buffer) (Desc.len d)) ≤ 2 * 2 ^ 20 ∧ State.programUsed s ↑(Fin.ofNat 64 (BitVec.toNat d.target)) = false) ∧
    (∃ (d : Desc) (s : State), State.takes s 48 d (headerFault d (if Desc.u d 24 1 = 1 then 9 else 6) BufUse.buffer CoatUse.unbound [(25, 3), (36, 28)]) ∧ loadProgramFault d = none ∧ State.linkUp s = true ∧ d.rd = Attempt.clean ∧ BitVec.toNat (crc32c (Memory.bytes s.hostMem (BitVec.toNat d.buffer) (Desc.len d))) = Desc.u d 32 4 ∧ Desc.u d 24 1 = 1 ∧ State.engHeld s (Fin.ofNat 512 (BitVec.toNat d.target)) = false ∧ s.tiles[Fin.ofNat 512 (BitVec.toNat d.target)].eng.st = EngState.stopped) ∧
    (∃ (d : Desc) (s : State), State.takes s 49 d (headerFault d 9 BufUse.none CoatUse.unbound [(25, 3), (36, 28)]) ∧ BitVec.getLsbD d.target 31 = false ∧ Desc.bound d = false ∧ Desc.u d 24 1 = 0 ∧ State.startable s false (Fin.ofNat 512 (BitVec.toNat d.target)) = true) ∧
    (∃ (d : Desc) (s : State), State.takes s 49 d (headerFault d 9 BufUse.none CoatUse.unbound [(25, 3), (36, 28)]) ∧ BitVec.getLsbD d.target 31 = false ∧ Desc.bound d = false ∧ Desc.u d 24 1 = 1 ∧ State.startable s true (Fin.ofNat 512 (BitVec.toNat d.target)) = true) ∧
    (∃ (d : Desc) (s : State), State.takes s 49 d (headerFault d 9 BufUse.none CoatUse.unbound [(25, 3), (36, 28)]) ∧ BitVec.getLsbD d.target 31 = false ∧ Desc.bound d = false ∧ Desc.u d 24 1 = 0 ∧ State.startable s false (Fin.ofNat 512 (BitVec.toNat d.target)) = false) ∧
    (∃ (d : Desc) (s : State), State.takes s 50 d (headerFault d 9 BufUse.none CoatUse.unbound [(25, 39)]) ∧ BitVec.getLsbD d.target 31 = false ∧ Desc.u d 24 1 ≤ 1 ∧ State.engHeld s (Fin.ofNat 512 (BitVec.toNat d.target)) = false) ∧
    (∃ (d : Desc) (s : State), State.takes s 50 d (headerFault d 9 BufUse.none CoatUse.unbound [(25, 39)]) ∧ BitVec.getLsbD d.target 31 = false ∧ Desc.u d 24 1 ≤ 1 ∧ State.engHeld s (Fin.ofNat 512 (BitVec.toNat d.target)) = true) ∧
    (∃ (d : Desc) (s : State), State.takes s 51 d (headerFault d 9 BufUse.none CoatUse.unbound [(26, 2), (44, 20)]) ∧ 1 ≤ Desc.u d 24 1 ∧ Desc.u d 24 1 ≤ 4 ∧ State.engHeld s (Fin.ofNat 512 (BitVec.toNat d.target)) = false ∧ List.length s.tiles[Fin.ofNat 512 (BitVec.toNat d.target)].eng.inbox < 8 ∧ s.tiles[Fin.ofNat 512 (BitVec.toNat d.target)].eng.hostMsgs = []) ∧
    (∃ (d : Desc) (s : State), State.takes s 51 d (headerFault d 9 BufUse.none CoatUse.unbound [(26, 2), (44, 20)]) ∧ 1 ≤ Desc.u d 24 1 ∧ Desc.u d 24 1 ≤ 4 ∧ State.engHeld s (Fin.ofNat 512 (BitVec.toNat d.target)) = false ∧ 8 ≤ List.length s.tiles[Fin.ofNat 512 (BitVec.toNat d.target)].eng.inbox) ∧
    (∃ (d : Desc) (s : State), State.takes s 64 d (headerFault d 9 BufUse.buffer CoatUse.unbound [(28, 36)]) ∧ Desc.u d 24 1 ≤ 15 ∧ Desc.u d 25 1 = 0 ∧ Desc.u d 26 1 ≤ 2 ∧ 1 ≤ Desc.u d 27 1 ∧ Desc.u d 27 1 ≤ 32 ∧ Desc.len d = 8 * Desc.u d 27 1 ∧ State.linkUp s = true ∧ d.rd = Attempt.clean ∧ State.pstate s (panelOf (Fin.ofNat 512 (BitVec.toNat d.target))) ≠ PState.off ∧ State.armedTile s (Fin.ofNat 512 (BitVec.toNat d.target)) = false ∧ segsOk (Desc.u d 26 1) (Desc.u d 27 1) (Memory.bytes s.hostMem (BitVec.toNat d.buffer) (Desc.len d)) = true) ∧
    (∃ (d : Desc) (s : State), State.takes s 64 d (headerFault d 9 BufUse.buffer CoatUse.unbound [(28, 36)]) ∧ Desc.u d 24 1 ≤ 15 ∧ Desc.u d 25 1 = 0 ∧ Desc.u d 26 1 ≤ 2 ∧ 1 ≤ Desc.u d 27 1 ∧ Desc.u d 27 1 ≤ 32 ∧ Desc.len d = 8 * Desc.u d 27 1 ∧ State.linkUp s = true ∧ d.rd = Attempt.clean ∧ State.pstate s (panelOf (Fin.ofNat 512 (BitVec.toNat d.target))) ≠ PState.off ∧ State.armedTile s (Fin.ofNat 512 (BitVec.toNat d.target)) = false ∧ segsOk (Desc.u d 26 1) (Desc.u d 27 1) (Memory.bytes s.hostMem (BitVec.toNat d.buffer) (Desc.len d)) = false) :=
  ⟨⟨(dsb 63 8 [(32,4,1)] : Desc), (on : State), by unfold State.takes; decide +kernel⟩,
   ⟨(dsb 63 8 [(28,4,4),(32,4,(crc32c [1,2,3,4,5,6,7,8]).toNat)] : Desc), (host [1,2,3,4,5,6,7,8] on : State), by refine ⟨by unfold State.takes; decide +kernel, ?_, ?_, ?_, ?_, ?_, ?_, by simp [State.programUsed, on, host, State.hostWrite]⟩ <;> decide +kernel⟩,
   ⟨(dsb 511 8 [(24,1,1),(28,4,4),(32,4,(crc32c [1,2,3,4,5,6,7,8]).toNat)] : Desc), (host [1,2,3,4,5,6,7,8] on : State), by unfold State.takes; decide +kernel⟩,
   ⟨(ds 511 [(28,4,0x12345678),(32,4,0xFFFFFFFF)] : Desc), ({(on.modEng 511 fun e => {e with prog := 63, acc := 5, inbox := [⟨0,0,0,0,[1],0⟩]}) with programs := on.programs.set 63 (some ⟨[1,2,3,4], 0⟩)} : State), by unfold State.takes; decide +kernel⟩,
   ⟨(ds 511 [(24,1,1)] : Desc), (on.modEng 511 fun e => {e with st := .halted, prog := 0xFE, acc := 5} : State), by unfold State.takes; decide +kernel⟩,
   ⟨(ds 511 [(24,1,0)] : Desc), (on : State), by unfold State.takes; decide +kernel⟩,
   ⟨(ds 5 [(24,1,0)] : Desc), (run fun e => {e with arm := some (0,2)} : State), by unfold State.takes; decide +kernel⟩,
   ⟨(ds 5 [(24,1,0)] : Desc), (fencedAt 5 : State), by unfold State.takes; decide +kernel⟩,
   ⟨(ds 5 [(24,1,4),(25,1,9),(28,4,0x12345678)] : Desc), (run : State), by unfold State.takes; decide +kernel⟩,
   ⟨(ds 5 [(24,1,4),(25,1,9),(28,4,0x12345678)] : Desc), (run fun e => {e with inbox := List.replicate 8 ⟨0,0,0,0,[1],0⟩} : State), by unfold State.takes; decide +kernel⟩,
   ⟨(dsb 5 16 [(24,1,15),(26,1,0),(27,1,2)] : Desc), (host ([100,0,10,0,5,0,0,0] ++ [0,0,10,0,5,0]) on : State), by unfold State.takes; decide +kernel⟩,
   ⟨(dsb 5 16 [(24,1,15),(26,1,0),(27,1,2)] : Desc), (host ([100,0,10,0,5,0,0,1] ++ [0,0,10,0,5,0]) on : State), by unfold State.takes; decide +kernel⟩⟩

theorem witness_PrintDefinitions :
    (∃ (d : Desc) (x : HeadDef) (s : State), State.takes s 65 d (headerFault d 3 BufUse.buffer CoatUse.unbound [(43, 21)]) ∧ State.linkUp s = true ∧ d.rd = Attempt.clean ∧ s.heads[Fin.ofNat 8 (BitVec.toNat d.target)].armed = none ∧ headFieldFault s (Fin.ofNat 8 (BitVec.toNat d.target)) d = none ∧ headDefOf d (Memory.bytes s.hostMem (BitVec.toNat d.buffer) (Desc.len d)) = some x ∧ headMapBad s (Fin.ofNat 8 (BitVec.toNat d.target)) x = false) ∧
    (∃ (d : Desc) (x : HeadDef) (s : State), State.takes s 65 d (headerFault d 3 BufUse.buffer CoatUse.unbound [(43, 21)]) ∧ State.linkUp s = true ∧ d.rd = Attempt.clean ∧ s.heads[Fin.ofNat 8 (BitVec.toNat d.target)].armed = none ∧ headFieldFault s (Fin.ofNat 8 (BitVec.toNat d.target)) d = none ∧ headDefOf d (Memory.bytes s.hostMem (BitVec.toNat d.buffer) (Desc.len d)) = some x ∧ headMapBad s (Fin.ofNat 8 (BitVec.toNat d.target)) x = true) ∧
    (∃ (d : Desc) (s : State), State.takes s 65 d (headerFault d 3 BufUse.buffer CoatUse.unbound [(43, 21)]) ∧ Option.isSome s.heads[Fin.ofNat 8 (BitVec.toNat d.target)].armed = true) ∧
    (∃ (d : Desc) (x : HeadDef) (j : JobDef) (s : State), State.takes s 66 d (jobHeader d) ∧ Desc.u d 24 1 ≤ 7 ∧ State.linkUp s = true ∧ d.rd = Attempt.clean ∧ State.jobArmed s (Fin.ofNat 64 (BitVec.toNat d.target)) = false ∧ s.heads[Fin.ofNat 8 (Desc.u d 24 1)].hdef = some x ∧ jobFieldFault d = none ∧ Desc.len d = jobBlockLen d x ∧ jobOfBlock x d (Memory.bytes s.hostMem (BitVec.toNat d.buffer) (Desc.len d)) = some j ∧ s.jobs[Fin.ofNat 64 (BitVec.toNat d.target)].jdef = none ∧ State.printUsed s + j.used ≤ 16777216) ∧
    (∃ (d : Desc) (l : List (Byte × Glyph)) (s : State), State.takes s 67 d (headerFault d 2 BufUse.buffer CoatUse.unbound [(29, 35)]) ∧ Desc.u d 24 2 ≤ 255 ∧ 1 ≤ Desc.u d 26 2 ∧ Desc.u d 24 2 + Desc.u d 26 2 ≤ 256 ∧ 1 ≤ Desc.u d 28 1 ∧ Desc.u d 28 1 ≤ 64 ∧ State.linkUp s = true ∧ d.rd = Attempt.clean ∧ glyphsOf (Desc.u d 28 1) (Desc.u d 26 2) (Desc.u d 24 2) (Memory.bytes s.hostMem (BitVec.toNat d.buffer) (Desc.len d)) = some l ∧ State.printUsed s + GlyphTable.bytes { height := Desc.u d 28 1, glyphs := (if s.glyphs[Fin.ofNat 4 (BitVec.toNat d.target)].height = Desc.u d 28 1 then List.filter (fun (g : Byte × Glyph) => !List.any l fun (x : Byte × Glyph) => x.fst == g.fst) s.glyphs[Fin.ofNat 4 (BitVec.toNat d.target)].glyphs else []) ++ l } ≤ 16777216) ∧
    (∃ (d : Desc) (x : JobDef) (s : State), State.takes s 72 d (headerFault d 6 BufUse.none CoatUse.unbound [(25, 3), (32, 32)]) ∧ s.jobs[Fin.ofNat 64 (BitVec.toNat d.target)].jdef = some x ∧ Desc.u d 24 1 < List.length x.counters) ∧
    (∃ (d : Desc) (x : JobDef) (s : State), State.takes s 72 d (headerFault d 6 BufUse.none CoatUse.unbound [(25, 3), (32, 32)]) ∧ s.jobs[Fin.ofNat 64 (BitVec.toNat d.target)].jdef = some x ∧ List.length x.counters ≤ Desc.u d 24 1) ∧
    (∃ (d : Desc) (s : State), State.takes s 68 d (headerFault d 0 BufUse.buffer CoatUse.unbound [(28, 36)]) ∧ Desc.len d = 80 * Desc.u d 25 1 ∧ Desc.u d 24 1 ≤ 31 ∧ 1 ≤ Desc.u d 25 1 ∧ Desc.u d 24 1 + Desc.u d 25 1 ≤ 32 ∧ State.linkUp s = true ∧ d.rd = Attempt.clean) ∧
    (∃ (w : SlotWrite) (x : DateSlot) (i : Fin 32) (s : State), s.dates.wait = [w] ∧ w.index = ↑i ∧ w.slots = [x]) ∧
    (∃ (s : State), State.serving s = true ∧ s.dates.lowArmed = true ∧ State.dateShort s = true) ∧
    (∃ (s : State), State.serving s = true ∧ (s.dates.lowArmed = false ∨ State.dateShort s = false)) :=
  ⟨⟨(hdD : Desc), (hdx : HeadDef), (host (hdB) on : State), by unfold State.takes; decide +kernel⟩,
   ⟨({hdD with body := hdD.body} : Desc), (hdx 100 : HeadDef), (host (hdB 100) on : State), by unfold State.takes; decide +kernel⟩,
   ⟨(hdD : Desc), (armed : State), by unfold State.takes; decide +kernel⟩,
   ⟨(jobD : Desc), (hdx : HeadDef), (jobX : JobDef), (host [] (on.modHead 7 fun x => {x with hdef := some (hdx)}) : State), by unfold State.takes; decide +kernel⟩,
   ⟨(dsb 3 12 [(24,2,65),(26,2,1),(28,1,8)] : Desc), ([(65, ⟨2, [[1,0,0,0,0,0,0,0],[2,0,0,0,0,0,0,0]]⟩)] : List (Byte × Glyph)), (host [2,2,0,0,1,0,0,0,2,0,0,0] on : State), by unfold State.takes; decide +kernel⟩,
   ⟨(ds 3 [(24,1,1),(28,4,99)] : Desc), ({jd with counters := [⟨true,3,false,1,9,1,1⟩,⟨true,3,false,1,9,1,2⟩]} : JobDef), (jobbed (j := {jd with counters := [⟨true,3,false,1,9,1,1⟩,⟨true,3,false,1,9,1,2⟩]}) : State), by unfold State.takes; decide +kernel⟩,
   ⟨(ds 3 [(24,1,1),(28,4,99)] : Desc), (jd : JobDef), (jobbed : State), by unfold State.takes; decide +kernel⟩,
   ⟨(dsb 0 80 [(24,1,31),(25,1,1),(26,2,7)] : Desc), (host [1] on : State), by unfold State.takes; decide +kernel⟩,
   ⟨(⟨ds 0 [], 31, [⟨1, 9, List.replicate 4 (List.replicate 16 0)⟩], 7⟩ : SlotWrite), (⟨1, 9, List.replicate 4 (List.replicate 16 0)⟩ : DateSlot), (31 : Fin 32), ({on with dates := {on.dates with wait := [⟨ds 0 [], 31, [⟨1, 9, List.replicate 4 (List.replicate 16 0)⟩], 7⟩]}} : State), by decide +kernel⟩,
   ⟨(on : State), by decide +kernel⟩,
   ⟨({on with dates := {on.dates with lowArmed := false}} : State), by decide +kernel⟩⟩

theorem witness_Arming :
    (∃ (d : Desc) (jd : JobDef) (hd : HeadDef) (s : State) (st : List (Nat × Int)), State.takes s 69 d (headerFault d 6 BufUse.none CoatUse.unbound [(24, 40)]) ∧ s.jobs[Fin.ofNat 64 (BitVec.toNat d.target)].jdef = some jd ∧ State.jobArmed s (Fin.ofNat 64 (BitVec.toNat d.target)) = false ∧ s.heads[jd.head].hdef = some hd ∧ s.heads[jd.head].armed = none ∧ (State.armPlan (State.begun s 69 d) jd.head hd (Fin.ofNat 64 (BitVec.toNat d.target)) jd !State.anyArmed s) = Sum.inr st) ∧
    (∃ (d : Desc) (jd : JobDef) (hd : HeadDef) (s : State) (f : Status × Nat), State.takes s 69 d (headerFault d 6 BufUse.none CoatUse.unbound [(24, 40)]) ∧ s.jobs[Fin.ofNat 64 (BitVec.toNat d.target)].jdef = some jd ∧ State.jobArmed s (Fin.ofNat 64 (BitVec.toNat d.target)) = false ∧ s.heads[jd.head].hdef = some hd ∧ s.heads[jd.head].armed = none ∧ (State.armPlan (State.begun s 69 d) jd.head hd (Fin.ofNat 64 (BitVec.toNat d.target)) jd !State.anyArmed s) = Sum.inl f) ∧
    (∃ (d : Desc) (jd : JobDef) (hd : HeadDef) (h : HeadId) (st : List (Nat × Int)) (s : State), State.takes s 70 d (headerFault d 6 BufUse.none CoatUse.unbound [(25, 39)]) ∧ Desc.u d 24 1 ≤ 63 ∧ s.jobs[Fin.ofNat 64 (BitVec.toNat d.target)].jdef = some jd ∧ List.find? (fun (h : HeadId) => s.heads[h].armed == some (Fin.ofNat 64 (Desc.u d 24 1))) allHeads = some h ∧ s.heads[h].hdef = some hd ∧ State.jobArmed s (Fin.ofNat 64 (BitVec.toNat d.target)) = false ∧ jd.head = h ∧ s.heads[h].disarm = [] ∧ s.heads[h].swap = none ∧ State.armPlan (State.begun s 70 d) h hd (Fin.ofNat 64 (BitVec.toNat d.target)) jd s.heads[h].hlvShare = Sum.inr st) ∧
    (∃ (d : Desc) (h : HeadId) (s : State), State.takes s 71 d (headerFault d 6 BufUse.none CoatUse.unbound [(25, 39)]) ∧ List.find? (fun (h : HeadId) => s.heads[h].armed == some (Fin.ofNat 64 (BitVec.toNat d.target))) allHeads = some h ∧ s.heads[h].swap = none ∧ Desc.u d 24 1 = 0 ∧ s.heads[h].products ≠ []) ∧
    (∃ (d : Desc) (h : HeadId) (s : State), State.takes s 71 d (headerFault d 6 BufUse.none CoatUse.unbound [(25, 39)]) ∧ List.find? (fun (h : HeadId) => s.heads[h].armed == some (Fin.ofNat 64 (BitVec.toNat d.target))) allHeads = some h ∧ s.heads[h].swap = none ∧ Desc.u d 24 1 = 1 ∧ s.heads[h].products ≠ []) ∧
    (∃ (d : Desc) (h : HeadId) (s : State), State.takes s 71 d (headerFault d 6 BufUse.none CoatUse.unbound [(25, 39)]) ∧ List.find? (fun (h : HeadId) => s.heads[h].armed == some (Fin.ofNat 64 (BitVec.toNat d.target))) allHeads = some h ∧ s.heads[h].swap = none ∧ Desc.u d 24 1 ≤ 1 ∧ s.heads[h].products = [] ∧ s.heads[h].disarm = [] ∧ s.heads[h].compWait = [] ∧ s.heads[h].waveWait = []) ∧
    (∃ (d : Desc) (s : State), State.takes s 83 d (headerFault d 3 BufUse.none CoatUse.unbound [(26, 2), (32, 32)]) ∧ Desc.u d 24 1 ≤ 1 ∧ Desc.u d 25 1 ≤ 1 ∧ Option.isSome s.heads[Fin.ofNat 8 (BitVec.toNat d.target)].hdef = true ∧ s.heads[Fin.ofNat 8 (BitVec.toNat d.target)].armed = none) ∧
    (∃ (d : Desc) (s : State), State.takes s 83 d (headerFault d 3 BufUse.none CoatUse.unbound [(26, 2), (32, 32)]) ∧ Desc.u d 24 1 ≤ 1 ∧ Desc.u d 25 1 ≤ 1 ∧ Option.isSome s.heads[Fin.ofNat 8 (BitVec.toNat d.target)].hdef = true ∧ Option.isSome s.heads[Fin.ofNat 8 (BitVec.toNat d.target)].armed = true) :=
  ⟨⟨(ds 3 [] : Desc), (jd : JobDef), (hd : HeadDef), (jobbed : State), ([(0,0)] : List (Nat × Int)), by unfold State.takes; decide +kernel⟩,
   ⟨(ds 3 [] : Desc), (jd : JobDef), (hd : HeadDef), ({jobbed with pwr := {jobbed.pwr with panels := Vector.replicate 8 .off}} : State), ((.state,0) : Status × Nat), by unfold State.takes; decide +kernel⟩,
   ⟨(ds 4 [(24,1,3)] : Desc), (jd : JobDef), (hd : HeadDef), (7 : HeadId), ([(0,0)] : List (Nat × Int)), ({armed with jobs := armed.jobs.set 4 {jdef := some jd}} : State), by unfold State.takes; decide +kernel⟩,
   ⟨(ds 3 [(24,1,0)] : Desc), (7 : HeadId), (printing : State), by unfold State.takes; decide +kernel⟩,
   ⟨(ds 3 [(24,1,1)] : Desc), (7 : HeadId), ((printing.modTrowel 5 fun w => {w with due := some due}) : State), by unfold State.takes; decide +kernel⟩,
   ⟨(ds 3 [(24,1,1)] : Desc), (7 : HeadId), (armed : State), by unfold State.takes; decide +kernel⟩,
   ⟨(ds 7 [(24,1,1),(28,2,5)] : Desc), (headed : State), by unfold State.takes; decide +kernel⟩,
   ⟨(ds 7 [(24,1,1),(28,2,5)] : Desc), (armed : State), by unfold State.takes; decide +kernel⟩⟩

theorem witness_Products :
    (∃ (h : HeadId) (j : Fin 64) (jd : JobDef) (time : BitVec 64) (counts : List Word) (rest : List (BitVec 64 × List Word)) (s : State), s.heads[h].armed = some j ∧ State.jobOf s h = some jd ∧ Mode.up s.pwr.mode = true ∧ s.heads[h].disarm = [] ∧ JobDef.freeRun jd = false ∧ s.heads[h].edges = (time, counts) :: rest ∧ (∃ (l : Word), s.heads[h].lastC0 = some l ∧ BitVec.toInt (List.getD counts (↑jd.encoder) 0 - l) < ↑(BitVec.toNat jd.minPitch))) ∧
    (∃ (h : HeadId) (j : Fin 64) (jd : JobDef) (time : BitVec 64) (counts : List Word) (rest : List (BitVec 64 × List Word)) (s : State) (hd : HeadDef), s.heads[h].armed = some j ∧ State.jobOf s h = some jd ∧ Mode.up s.pwr.mode = true ∧ s.heads[h].disarm = [] ∧ JobDef.freeRun jd = false ∧ s.heads[h].edges = (time, counts) :: rest ∧ s.heads[h].hdef = some hd ∧ s.heads[h].lastC0 = none ∧ s.heads[h].products = [] ∧ s.heads[h].swap = none ∧ s.heads[h].compWait = [] ∧ s.heads[h].waveWait = [] ∧ s.coat = none ∧ s.mem.errs = [] ∧ JobDef.dated jd = false ∧ Word.field (BitVec.setWidth 32 s.fnMode) 11 10 ≠ 1 ∧ (∀ (t : TileId), s.tiles[t].trowel.listen = none) ∧ jd.rejectPin = 255) ∧
    (∃ (h : HeadId) (hd : HeadDef) (n : Fin 8) (p : Product) (s : State), s.heads[h].hdef = some hd ∧ s.heads[h].products = [p] ∧ p.done = false ∧ p.raster = Raster.awaited ∧ State.pqOf s h = some n ∧ State.linkUp s = true ∧ s.pqs[n].rdidx ≠ s.pqs[n].tail ∧ le (Memory.bytes s.hostMem (BitVec.toNat s.pqs[n].base + 32 * BitVec.toNat s.pqs[n].rdidx) 32) 12 1 = 0 ∧ le (Memory.bytes s.hostMem (BitVec.toNat s.pqs[n].base + 32 * BitVec.toNat s.pqs[n].rdidx) 32) 13 3 = 0 ∧ (∀ (b : Byte), b ∈ List.drop 20 (Memory.bytes s.hostMem (BitVec.toNat s.pqs[n].base + 32 * BitVec.toNat s.pqs[n].rdidx) 32) → b = 0) ∧ le (Memory.bytes s.hostMem (BitVec.toNat s.pqs[n].base + 32 * BitVec.toNat s.pqs[n].rdidx) 32) 8 4 = p.jdef.columns * columnBytes (HeadDef.n hd) hd.selBits ∧ le (Memory.bytes s.hostMem (BitVec.toNat s.pqs[n].base + 32 * BitVec.toNat s.pqs[n].rdidx) 32) 0 8 % 8 = 0 ∧ BitVec.ofNat 32 (le (Memory.bytes s.hostMem (BitVec.toNat s.pqs[n].base + 32 * BitVec.toNat s.pqs[n].rdidx) 32) 16 4) = p.seq) ∧
    (∃ (h : HeadId) (hd : HeadDef) (n : Fin 8) (p : Product) (a : BitVec 64) (cols : List (List Nat)) (s : State), s.heads[h].hdef = some hd ∧ s.heads[h].products = [p] ∧ p.done = false ∧ p.raster = Raster.host a n cols false ∧ List.length cols < p.jdef.columns ∧ State.linkUp s = true) :=
  ⟨⟨(7 : HeadId), (3 : Fin 64), (jd : JobDef), (77 : BitVec 64), ([5] : List Word), ([(88,[6])] : List (BitVec 64 × List Word)), (armed fun x => {x with edges := [(77, [5]), (88, [6])], lastC0 := some 4} : State), by refine ⟨?_, ?_, ?_, ?_, ?_, ?_, ⟨4, by decide +kernel⟩⟩ <;> decide +kernel⟩,
   ⟨(7 : HeadId), (3 : Fin 64), ({jd with rejectPin := 255, counters := [⟨true,3,false,1,9,1,1⟩]} : JobDef), (77 : BitVec 64), ([5] : List Word), ([(88,[6])] : List (BitVec 64 × List Word)), (armed (fun x => {x with edges := [(77, [5]), (88, [6])]}) {jd with rejectPin := 255, counters := [⟨true,3,false,1,9,1,1⟩]} : State), (hd : HeadDef), by refine ⟨?_, ?_, ?_, ?_, ?_, ?_, ?_, ?_, ⟨?_, ?_, ?_, ?_, ?_, ?_, ?_, ?_, by intro t; simp [on, armed, jobbed, headed, printing, State.modHead, State.modTile, State.modTrowel, fencedAt, chainPlaced, probed5, State.modChain], ?_⟩⟩ <;> decide +kernel⟩,
   ⟨(7 : HeadId), (hd : HeadDef), (2 : Fin 8), ({pr with raster := .awaited} : Product), ({(State.hostWrite (printing ({pr with raster := .awaited})) 4096 (natLe 8 8192 ++ natLe 4 16 ++ [0,0,0,0] ++ natLe 4 0 ++ List.replicate 12 0)) with pqs := on.pqs.set 2 {base := 4096, en := true, headId := 7, size := 3, tail := 1, rdidx := 0}} : State), by decide +kernel⟩,
   ⟨(7 : HeadId), (hd : HeadDef), (2 : Fin 8), ({pr with raster := .host 8192 2 [[1,1]] false} : Product), (8192 : BitVec 64), ([[1,1]] : List (List Nat)), ({(State.hostWrite (printing ({pr with raster := .host 8192 2 [[1,1]] false})) 8192 (List.replicate 32 7)) with pqs := on.pqs.set 2 {base := 4096, en := true, headId := 7, size := 3, tail := 1, rdidx := 0}} : State), by decide +kernel⟩⟩

theorem witness_VerdictsAndEncoders :
    (∃ (h : HeadId) (hd : HeadDef) (p : Product) (s : State), s.heads[h].hdef = some hd ∧ s.heads[h].products = [p] ∧ p.done = true ∧ State.quietFor s hd h p.seq = true ∧ s.heads[h].disarm = [] ∧ s.heads[h].armed = none) ∧
    (∃ (p : Product), p.cause ≠ Cause.none) ∧
    (∃ (p : Product), p.cause = Cause.none ∧ Product.coverage p < p.jdef.coverMin) ∧
    (∃ (p : Product), p.cause = Cause.none ∧ p.jdef.coverMin ≤ Product.coverage p ∧ p.unreliable = false) ∧
    (∃ (r : Reject) (s : State), s.aon.rejects = [r] ∧ s.aon.up = true ∧ r.ends = none ∧ s.gpio.pins[r.pin].hold = false ∧ 0 ≤ BitVec.toInt (s.aon.enc[r.channel].count - r.dueAt) ∧ r.call = some true) ∧
    (∃ (r : Reject) (s : State), s.aon.rejects = [r] ∧ s.aon.up = true ∧ r.ends = none ∧ (s.gpio.pins[r.pin].hold = true ∨ BitVec.toInt (s.aon.enc[r.channel].count - r.dueAt) < 0)) ∧
    (∃ (r : Reject) (s : State) (e : Nat), s.aon.rejects = [r] ∧ s.aon.up = true ∧ r.ends = some e ∧ e ≤ s.aon.ticks) ∧
    (∃ (r : Reject) (s : State) (e : Nat), s.aon.rejects = [r] ∧ s.aon.up = true ∧ r.ends = some e ∧ s.aon.ticks < e) ∧
    (∃ (n : Fin 8) (a : Bool) (b : Bool) (gap : Nat) (s : State), s.aon.up = true ∧ Word.field s.aon.enc[n].cfg 29 28 = 1 ∧ BitVec.getLsbD s.aon.enc[n].cfg 27 = false ∧ (∀ (h : HeadId), State.jobOf s h = none) ∧ State.paused s n = false ∧ (∀ (h : HeadId), s.heads[h].column = none) ∧ (∀ (p : PanelId) (k : Fin 32), s.panels[p].pinLine[k] = 128) ∧ (a ≠ s.aon.enc[n].lvlA ∧ b = s.aon.enc[n].lvlB ∨ a = s.aon.enc[n].lvlA ∧ b ≠ s.aon.enc[n].lvlB) ∧ 40 ≤ gap) ∧
    (∃ (n : Fin 8) (a : Bool) (b : Bool) (s : State), s.aon.up = true ∧ Word.field s.aon.enc[n].cfg 29 28 = 1 ∧ BitVec.getLsbD s.aon.enc[n].cfg 27 = false ∧ (∀ (h : HeadId), State.jobOf s h = none) ∧ State.paused s n = false ∧ (∀ (h : HeadId), s.heads[h].column = none) ∧ (∀ (p : PanelId) (k : Fin 32), s.panels[p].pinLine[k] = 128) ∧ a ≠ s.aon.enc[n].lvlA ∧ b ≠ s.aon.enc[n].lvlB) :=
  ⟨⟨(7 : HeadId), (hd : HeadDef), ({pr with done := true} : Product), ({headed (fun x => {x with products := [{pr with done := true}]}) with sts := on.sts.set 4 {base := 16384, isOpen := true, size := 0, sources := [.verdict 7], rseq := 5}} : State), by decide +kernel⟩,
   ⟨({pr with cause := .fault} : Product), by decide +kernel⟩,
   ⟨({pr with dots := 5, jdef := {jd with coverMin := 9}} : Product), by decide +kernel⟩,
   ⟨(pr : Product), by decide +kernel⟩,
   ⟨(⟨7,3,0,9,0,0,5,some true,none⟩ : Reject), ({on with aon := {on.aon with rejects := [⟨7,3,0,9,0,0,5,some true,none⟩]}} : State), by decide +kernel⟩,
   ⟨(⟨7,3,0,9,0,5,5,none,none⟩ : Reject), ({on with aon := {on.aon with rejects := [⟨7,3,0,9,0,5,5,none,none⟩]}} : State), by decide +kernel⟩,
   ⟨(⟨7,3,0,9,0,0,5,none,some 100000⟩ : Reject), ({on with aon := {on.aon with rejects := [⟨7,3,0,9,0,0,5,none,some 100000⟩]}} : State), (100000 : Nat), by decide +kernel⟩,
   ⟨(⟨7,3,0,9,0,0,5,none,some 100001⟩ : Reject), ({on with aon := {on.aon with rejects := [⟨7,3,0,9,0,0,5,none,some 100001⟩]}} : State), (100001 : Nat), by decide +kernel⟩,
   ⟨(6 : Fin 8), (true : Bool), (true : Bool), (40 : Nat), (enc6 true false : State), by decide +kernel⟩,
   ⟨(6 : Fin 8), (true : Bool), (true : Bool), (enc6 false false : State), by decide +kernel⟩⟩

theorem witness_Strokes :
    (∃ (h : HeadId) (hd : HeadDef) (p : Product) (s : State), s.heads[h].hdef = some hd ∧ s.heads[h].products = [p] ∧ p.done = false ∧ State.fastOn s = true ∧ Mode.up s.pwr.mode = true ∧ p.col < Product.strokes p ∧ State.firing s h hd = false ∧ State.boundaryCame s h p p.col = false) ∧
    (∃ (h : HeadId) (hd : HeadDef) (p : Product) (s : State), s.heads[h].hdef = some hd ∧ s.heads[h].products = [p] ∧ p.done = false ∧ State.fastOn s = true ∧ Mode.up s.pwr.mode = true ∧ p.col < Product.strokes p ∧ State.firing s h hd = false ∧ State.columnOver s h hd = true ∧ State.boundaryCame s h p p.col = true ∧ s.heads[h].pass = none ∧ s.cal.waits = [] ∧ (0 < p.col ∨ p.started = true ∨ p.rendered = true ∧ p.raster ≠ Raster.awaited) ∧ s.mem.errs = [] ∧ s.mem.flipArm = false ∧ s.heads[h].stealNext = false ∧ (∀ (q : PanelId), s.panels[q].frames = [])) ∧
    (∃ (h : HeadId) (hd : HeadDef) (p : Product) (s : State), s.heads[h].hdef = some hd ∧ s.heads[h].products = [p] ∧ p.done = false ∧ State.fastOn s = true ∧ Mode.up s.pwr.mode = true ∧ p.col < Product.strokes p ∧ State.firing s h hd = false ∧ State.columnOver s h hd = true ∧ State.boundaryCame s h p p.col = true ∧ s.heads[h].pass = none ∧ s.cal.waits = [] ∧ p.col = 0 ∧ p.started = false ∧ p.rendered = false) ∧
    (∃ (q : PanelId) (f : Frame) (rest : List Frame) (hd : HeadDef) (s : State), s.panels[q].frames = f :: rest ∧ s.heads[f.head].hdef = some hd ∧ s.heads[f.head].pass = none ∧ s.cal.waits = [] ∧ State.fastOn s = true ∧ s.mem.errs = [] ∧ s.aon.fck < Frame.soonest f hd q) ∧
    (∃ (q : PanelId) (f : Frame) (rest : List Frame) (ec : List Nat) (hd : HeadDef) (s : State), s.panels[q].frames = f :: rest ∧ s.heads[f.head].hdef = some hd ∧ s.heads[f.head].pass = none ∧ s.cal.waits = [] ∧ State.fastOn s = true ∧ s.mem.errs = [] ∧ Frame.soonest f hd q ≤ s.aon.fck ∧ HeadDef.echoMatches hd q f.onQck f.codes ec = true ∧ f.again = false ∧ State.ltHeld s hd q f = false ∧ State.ltFall s hd q f ≤ s.aon.fck ∧ f.fire = false) ∧
    (∃ (q : PanelId) (f : Frame) (rest : List Frame) (ec : List Nat) (hd : HeadDef) (s : State), s.panels[q].frames = f :: rest ∧ s.heads[f.head].hdef = some hd ∧ s.heads[f.head].pass = none ∧ s.cal.waits = [] ∧ State.fastOn s = true ∧ s.mem.errs = [] ∧ Frame.soonest f hd q ≤ s.aon.fck ∧ HeadDef.echoMatches hd q f.onQck f.codes ec = true ∧ f.again = false ∧ State.ltHeld s hd q f = false ∧ State.ltFall s hd q f ≤ s.aon.fck ∧ f.fire = true) ∧
    (∃ (q : PanelId) (f : Frame) (rest : List Frame) (ec : List Nat) (hd : HeadDef) (s : State), s.panels[q].frames = f :: rest ∧ s.heads[f.head].hdef = some hd ∧ s.heads[f.head].pass = none ∧ s.cal.waits = [] ∧ State.fastOn s = true ∧ s.mem.errs = [] ∧ Frame.soonest f hd q ≤ s.aon.fck ∧ HeadDef.echoMatches hd q f.onQck f.codes ec = false ∧ f.again = false ∧ State.roomFor s hd q f (Frame.soonest f hd q + Frame.length f hd q) = true) ∧
    (∃ (q : PanelId) (f : Frame) (rest : List Frame) (ec : List Nat) (hd : HeadDef) (s : State), s.panels[q].frames = f :: rest ∧ s.heads[f.head].hdef = some hd ∧ s.heads[f.head].pass = none ∧ s.cal.waits = [] ∧ State.fastOn s = true ∧ s.mem.errs = [] ∧ Frame.soonest f hd q ≤ s.aon.fck ∧ HeadDef.echoMatches hd q f.onQck f.codes ec = false ∧ f.again = true ∧ f.fire = true) ∧
    (∃ (t : TileId) (d : DueFire) (s : State), s.tiles[t].trowel.due = some d ∧ d.by_ = FireBy.dacs ∧ State.fastOn s = true ∧ State.withheld (State.modTrowel s t fun (w : Trowel) => { cfg := w.cfg, trip := w.trip, fold := w.fold, buddyAct := w.buddyAct, taken := w.taken, play := w.play, phase := w.phase, wave := w.wave, lastFire := w.lastFire, playAt := w.playAt, samples := w.samples, level := w.level, cut := w.cut, listenAt := w.listenAt, closedAt := w.closedAt, chopAt := w.chopAt, current := w.current, lastCol := w.lastCol, suspect := w.suspect, reenable := w.reenable, takeover := w.takeover, chopOn := w.chopOn, evenFire := w.evenFire, listen := w.listen, armedWarned := w.armedWarned, clipWarned := w.clipWarned, phaseSteps := w.phaseSteps }) t (Option.getD d.wave (Trowel.waveIdx s.tiles[t].trowel)) s.aon.fck = none ∧ s.mem.errs = []) ∧
    (∃ (t : TileId) (d : DueFire) (s : State), s.tiles[t].trowel.due = some d ∧ d.by_ = FireBy.dacs ∧ State.fastOn s = true ∧ State.withheld (State.modTrowel s t fun (w : Trowel) => { cfg := w.cfg, trip := w.trip, fold := w.fold, buddyAct := w.buddyAct, taken := w.taken, play := w.play, phase := w.phase, wave := w.wave, lastFire := w.lastFire, playAt := w.playAt, samples := w.samples, level := w.level, cut := w.cut, listenAt := w.listenAt, closedAt := w.closedAt, chopAt := w.chopAt, current := w.current, lastCol := w.lastCol, suspect := w.suspect, reenable := w.reenable, takeover := w.takeover, chopOn := w.chopOn, evenFire := w.evenFire, listen := w.listen, armedWarned := w.armedWarned, clipWarned := w.clipWarned, phaseSteps := w.phaseSteps }) t (Option.getD d.wave (Trowel.waveIdx s.tiles[t].trowel)) s.aon.fck = some Withheld.overspeed) ∧
    (∃ (t : TileId) (d : DueFire) (s : State), s.tiles[t].trowel.due = some d ∧ d.by_ = FireBy.dacs ∧ State.fastOn s = true ∧ State.withheld (State.modTrowel s t fun (w : Trowel) => { cfg := w.cfg, trip := w.trip, fold := w.fold, buddyAct := w.buddyAct, taken := w.taken, play := w.play, phase := w.phase, wave := w.wave, lastFire := w.lastFire, playAt := w.playAt, samples := w.samples, level := w.level, cut := w.cut, listenAt := w.listenAt, closedAt := w.closedAt, chopAt := w.chopAt, current := w.current, lastCol := w.lastCol, suspect := w.suspect, reenable := w.reenable, takeover := w.takeover, chopOn := w.chopOn, evenFire := w.evenFire, listen := w.listen, armedWarned := w.armedWarned, clipWarned := w.clipWarned, phaseSteps := w.phaseSteps }) t (Option.getD d.wave (Trowel.waveIdx s.tiles[t].trowel)) s.aon.fck = some Withheld.quiet) ∧
    (∃ (t : TileId) (d : DueFire) (hd : HeadDef) (i : Nat) (s : State), s.tiles[t].trowel.due = some d ∧ d.by_ = FireBy.column ∧ State.fastOn s = true ∧ s.heads[d.head].hdef = some hd ∧ State.columnWaits s hd d = false ∧ d.latched = true ∧ State.fireInstant s t d = some i ∧ s.aon.fck < (State.firePlace s d i).fst) ∧
    (∃ (t : TileId) (d : DueFire) (hd : HeadDef) (i : Nat) (s : State), s.tiles[t].trowel.due = some d ∧ d.by_ = FireBy.column ∧ State.fastOn s = true ∧ s.heads[d.head].hdef = some hd ∧ State.columnWaits s hd d = false ∧ d.latched = true ∧ State.fireInstant s t d = some i ∧ (State.firePlace s d i).fst ≤ s.aon.fck ∧ s.mem.errs = [] ∧ s.cal.waits = [] ∧ s.heads[d.head].pass = none ∧ State.withheld (State.modTrowel s t fun (w : Trowel) => { cfg := w.cfg, trip := w.trip, fold := w.fold, buddyAct := w.buddyAct, taken := w.taken, play := w.play, phase := w.phase, wave := w.wave, lastFire := w.lastFire, playAt := w.playAt, samples := w.samples, level := w.level, cut := w.cut, listenAt := w.listenAt, closedAt := w.closedAt, chopAt := w.chopAt, current := w.current, lastCol := w.lastCol, suspect := w.suspect, reenable := w.reenable, takeover := w.takeover, chopOn := w.chopOn, evenFire := w.evenFire, listen := w.listen, armedWarned := w.armedWarned, clipWarned := w.clipWarned, phaseSteps := w.phaseSteps }) t (Option.getD d.wave (Trowel.waveIdx s.tiles[t].trowel)) (State.firePlace s d i).fst = none) ∧
    (∃ (t : TileId) (d : DueFire) (s : State), s.tiles[t].trowel.current = some d ∧ s.tiles[t].trowel.play = Play.playing ∧ s.tiles[t].trowel.phase ≠ TripPhase.second ∧ s.tiles[t].trowel.cut = false ∧ State.playOver s t = false) ∧
    (∃ (t : TileId) (d : DueFire) (s : State), s.tiles[t].trowel.current = some d ∧ s.tiles[t].trowel.play = Play.playing ∧ s.tiles[t].trowel.phase ≠ TripPhase.second ∧ s.tiles[t].trowel.cut = false ∧ State.playOver s t = true ∧ d.by_ = FireBy.dacs) ∧
    (∃ (t : TileId) (d : DueFire) (s : State) (hd : HeadDef) (p : Product), s.tiles[t].trowel.current = some d ∧ s.tiles[t].trowel.play = Play.playing ∧ s.tiles[t].trowel.phase ≠ TripPhase.second ∧ s.tiles[t].trowel.cut = false ∧ State.playOver s t = true ∧ d.by_ = FireBy.column ∧ d.listen = none ∧ s.heads[d.head].hdef = some hd ∧ s.heads[d.head].products = [p] ∧ p.seq = d.seq ∧ s.heads[d.head].pass = none ∧ s.cal.waits = [] ∧ BitVec.getLsbD s.panels[panelOf t].listen 0 = false) ∧
    (∃ (t : TileId) (s : State), State.fastOn s = true ∧ State.trowelMode s t = 4 ∧ s.tiles[t].trowel.play = Play.playing ∧ s.tiles[t].trowel.cut = false ∧ s.aon.fck < s.tiles[t].trowel.chopAt) ∧
    (∃ (t : TileId) (s : State), State.fastOn s = true ∧ State.trowelMode s t = 4 ∧ s.tiles[t].trowel.play = Play.playing ∧ s.tiles[t].trowel.cut = false ∧ s.tiles[t].trowel.chopAt ≤ s.aon.fck ∧ (∀ (c : Cmp), Comparator.latch (Tile.cmp s.tiles[t] c) ≠ 2)) :=
  ⟨⟨(7 : HeadId), (hd : HeadDef), (pr : Product), (printing : State), by decide +kernel⟩,
   ⟨(7 : HeadId), (hd : HeadDef), ({pr with c0 := 0xFFFFFF9C} : Product), (printing ({pr with c0 := 0xFFFFFF9C}) : State), by decide +kernel⟩,
   ⟨(7 : HeadId), (hd : HeadDef), ({{pr with c0 := 0xFFFFFF9C} with rendered := false} : Product), (printing ({{pr with c0 := 0xFFFFFF9C} with rendered := false}) : State), by decide +kernel⟩,
   ⟨(0 : PanelId), ({fr with start := 5000000} : Frame), ([fr] : List Frame), (hd : HeadDef), ((printing.modPanel 0 fun x => {x with frames := [{fr with start := 5000000}, fr]}).modTrowel 5 fun w => {w with due := some {due with latched := false}} : State), by decide +kernel⟩,
   ⟨(0 : PanelId), ({fr with fire := false} : Frame), ([fr] : List Frame), ([] : List Nat), (hd : HeadDef), (printing.modPanel 0 fun x => {x with frames := [{fr with fire := false}, fr]} : State), by decide +kernel⟩,
   ⟨(0 : PanelId), (fr : Frame), ([fr] : List Frame), ([] : List Nat), (hd : HeadDef), ((printing.modPanel 0 fun x => {x with frames := [fr, fr]}).modTrowel 5 fun w => {w with due := some {due with latched := false}} : State), by decide +kernel⟩,
   ⟨(0 : PanelId), (fr : Frame), ([fr] : List Frame), ([] : List Nat), ({hd with echoEn := true} : HeadDef), (((printing.modHead 7 fun x => {x with hdef := some {hd with echoEn := true}}).modPanel 0 fun x => {x with frames := [fr, fr]}).modTrowel 5 fun w => {w with due := some {due with latched := false}} : State), by decide +kernel⟩,
   ⟨(0 : PanelId), ({fr with again := true} : Frame), ([fr] : List Frame), ([] : List Nat), ({hd with echoEn := true} : HeadDef), (((printing.modHead 7 fun x => {x with hdef := some {hd with echoEn := true}}).modPanel 0 fun x => {x with frames := [{fr with again := true}, fr]}).modTrowel 5 fun w => {w with due := some {due with latched := false}} : State), by decide +kernel⟩,
   ⟨(5 : TileId), ({due with by_ := .dacs, wave := some 2} : DueFire), ((on.modPanel 0 fun x => {x with pvhOk := true}).modTile 5 fun x => {x with waves := x.waves.set 2 {domain := 0, segs := [⟨5,100,9⟩]}, trowel := {x.trowel with cfg := 0x003F3000, due := some ({due with by_ := .dacs, wave := some 2}), lastFire := none}} : State), by decide +kernel⟩,
   ⟨(5 : TileId), ({due with by_ := .dacs, wave := some 2} : DueFire), ((on.modPanel 0 fun x => {x with pvhOk := true}).modTile 5 fun x => {x with waves := x.waves.set 2 {domain := 0, segs := [⟨5,100,9⟩]}, trowel := {x.trowel with cfg := 0x003F3000, due := some ({due with by_ := .dacs, wave := some 2}), lastFire := some 4999999}} : State), by decide +kernel⟩,
   ⟨(5 : TileId), ({due with by_ := .dacs, wave := some 2} : DueFire), ((on.modPanel 0 fun x => {x with pvhOk := true}).modTile 5 fun x => {x with waves := x.waves.set 2 {domain := 0, segs := [⟨5,100,9⟩]}, trowel := {x.trowel with cfg := 0x001F3000, due := some ({due with by_ := .dacs, wave := some 2}), lastFire := none}} : State), by decide +kernel⟩,
   ⟨(5 : TileId), ({due with nominal := some 50000000} : DueFire), (hd : HeadDef), (50000000 : Nat), (printing.modTrowel 5 fun w => {w with due := some {due with nominal := some 50000000}} : State), by decide +kernel⟩,
   ⟨(5 : TileId), ({due with nominal := some 39999999} : DueFire), (hd : HeadDef), (39999999 : Nat), ((printing.modPanel 0 fun x => {x with pvhOk := true}).modTile 5 fun x => {x with waves := x.waves.set 0 {domain := 0, segs := [⟨5,100,0⟩]}, trowel := {x.trowel with cfg := 0x003F3000, due := some {due with nominal := some 39999999}}} : State), by decide +kernel⟩,
   ⟨(5 : TileId), ({due with by_ := .dacs, wave := some 2} : DueFire), (on.modTile 5 fun x => {x with waves := x.waves.set 2 {domain := 0, segs := [⟨5,100,9⟩]}, trowel := {x.trowel with play := .playing, wave := 2, playAt := 39999999, current := some ({due with by_ := .dacs, wave := some 2})}} : State), by decide +kernel⟩,
   ⟨(5 : TileId), ({due with by_ := .dacs, wave := some 2} : DueFire), (on.modTile 5 fun x => {x with waves := x.waves.set 2 {domain := 0, segs := [⟨5,100,9⟩]}, trowel := {x.trowel with play := .playing, wave := 2, playAt := 39000000, current := some ({due with by_ := .dacs, wave := some 2})}} : State), by decide +kernel⟩,
   ⟨(5 : TileId), ({due with dots := 3, weight := 7} : DueFire), ((printing.modTrowel 5 fun w => {w with play := .playing, current := some ({due with dots := 3, weight := 7})}).modPanel 0 fun x => {x with listen := 0} : State), (hd : HeadDef), (pr : Product), by decide +kernel⟩,
   ⟨(5 : TileId), (on.modTrowel 5 fun w => {w with cfg := 0x009F3000, play := .playing, chopAt := 5000001} : State), by decide +kernel⟩,
   ⟨(5 : TileId), (on.modTrowel 5 fun w => {w with cfg := 0x009F3000, play := .playing, chopAt := 5000000} : State), by refine ⟨?_, ?_, ?_, ?_, ?_, by intro c; cases c <;> decide +kernel⟩ <;> decide +kernel⟩⟩

theorem witness_ListeningAndNozzles :
    (∃ (t : TileId) (l : Listen) (hd : HeadDef) (s : State), s.tiles[t].trowel.listen = some l ∧ s.heads[l.head].hdef = some hd ∧ State.fastOn s = true ∧ l.openNow = false ∧ l.closed = false ∧ s.tiles[t].trowel.play = Play.idle ∧ State.awaitsFrame s t l = false ∧ s.aon.fck < max s.tiles[t].trowel.listenAt s.panels[panelOf t].ltLow) ∧
    (∃ (t : TileId) (l : Listen) (hd : HeadDef) (s : State) (c : Nat), s.tiles[t].trowel.listen = some l ∧ s.heads[l.head].hdef = some hd ∧ State.fastOn s = true ∧ l.openNow = false ∧ l.closed = false ∧ s.tiles[t].trowel.play = Play.idle ∧ State.awaitsFrame s t l = false ∧ max s.tiles[t].trowel.listenAt s.panels[panelOf t].ltLow ≤ s.aon.fck ∧ State.prelock s = false ∧ (State.trowelMode s t = 1 ∨ State.trowelMode s t = 2) ∧ State.windowOf s l.head hd t l (max s.tiles[t].trowel.listenAt s.panels[panelOf t].ltLow) = some (c, false)) ∧
    (∃ (t : TileId) (l : Listen) (hd : HeadDef) (s : State), s.tiles[t].trowel.listen = some l ∧ s.heads[l.head].hdef = some hd ∧ State.fastOn s = true ∧ l.openNow = false ∧ l.closed = false ∧ s.tiles[t].trowel.play = Play.idle ∧ State.awaitsFrame s t l = false ∧ max s.tiles[t].trowel.listenAt s.panels[panelOf t].ltLow ≤ s.aon.fck ∧ State.prelock s = false ∧ (State.trowelMode s t = 1 ∨ State.trowelMode s t = 2) ∧ State.windowOf s l.head hd t l (max s.tiles[t].trowel.listenAt s.panels[panelOf t].ltLow) = none ∧ s.heads[l.head].products = [] ∧ s.heads[l.head].pass = none ∧ s.cal.waits = []) ∧
    (∃ (t : TileId) (l : Listen) (hd : HeadDef) (trace : List (BitVec 14)) (s : State), s.tiles[t].trowel.listen = some l ∧ s.heads[l.head].hdef = some hd ∧ s.heads[l.head].pass = none ∧ s.heads[l.head].products = [] ∧ s.cal.waits = [] ∧ l.openNow = true ∧ List.length trace = l.window ∧ l.opened + 60 * l.window ≤ s.aon.fck) ∧
    (∃ (t : TileId) (l : Listen) (hd : HeadDef) (trace : List (BitVec 14)) (s : State), s.tiles[t].trowel.listen = some l ∧ s.heads[l.head].hdef = some hd ∧ s.heads[l.head].pass = none ∧ s.heads[l.head].products = [] ∧ s.cal.waits = [] ∧ l.openNow = true ∧ (List.length trace ≠ l.window ∨ s.aon.fck < l.opened + 60 * l.window)) ∧
    (∃ (t : TileId) (l : Listen) (hd : HeadDef) (x : NozzleStat) (s : State), s.tiles[t].trowel.listen = some l ∧ s.heads[l.head].hdef = some hd ∧ s.heads[l.head].pass = none ∧ s.heads[l.head].products = [] ∧ s.cal.waits = [] ∧ l.closed = true ∧ l.closedAt + 1200 ≤ s.aon.fck ∧ s.mem.errs = [] ∧ l.kind = 0 ∧ State.classModes s l.head l.seq = (false, false) ∧ s.heads[l.head].stats[l.nozzle]? = some x ∧ x.status = 0 ∧ x.pending = false ∧ x.byHost = false) ∧
    (∃ (t : TileId) (l : Listen) (s : State), s.tiles[t].trowel.listen = some l ∧ s.aon.fck < l.closedAt + 1200) ∧
    (∃ (d : Desc) (hd : HeadDef) (s : State), State.takes s 73 d (headerFault d 3 BufUse.none CoatUse.unbound [(34, 30)]) ∧ s.heads[Fin.ofNat 8 (BitVec.toNat d.target)].hdef = some hd ∧ rangeFault (HeadDef.n hd) (Desc.u d 24 2) (Desc.u d 26 2) = none ∧ Desc.u d 28 2 ≠ 0 ∧ Desc.u d 30 1 ≠ 0 ∧ Desc.u d 30 1 < 2 ^ hd.selBits ∧ Desc.u d 31 1 ≤ 1 ∧ 9 ≤ Desc.u d 32 2 ∧ State.belowArmed s hd = false ∧ Head.busy s.heads[Fin.ofNat 8 (BitVec.toNat d.target)] = false ∧ State.overGrant s = false) ∧
    (∃ (d : Desc) (hd : HeadDef) (s : State), State.takes s 73 d (headerFault d 3 BufUse.none CoatUse.unbound [(34, 30)]) ∧ s.heads[Fin.ofNat 8 (BitVec.toNat d.target)].hdef = some hd ∧ rangeFault (HeadDef.n hd) (Desc.u d 24 2) (Desc.u d 26 2) = none ∧ Desc.u d 28 2 ≠ 0 ∧ Desc.u d 30 1 ≠ 0 ∧ Desc.u d 30 1 < 2 ^ hd.selBits ∧ Desc.u d 31 1 ≤ 1 ∧ 9 ≤ Desc.u d 32 2 ∧ State.belowArmed s hd = false ∧ Head.busy s.heads[Fin.ofNat 8 (BitVec.toNat d.target)] = true) ∧
    (∃ (d : Desc) (hd : HeadDef) (s : State), State.takes s 82 d (headerFault d 3 BufUse.none CoatUse.unbound (sweepReserved d)) ∧ s.heads[Fin.ofNat 8 (BitVec.toNat d.target)].hdef = some hd ∧ State.belowArmed s hd = false ∧ Head.busy s.heads[Fin.ofNat 8 (BitVec.toNat d.target)] = false ∧ State.overGrant s = false ∧ Desc.u d 24 1 = 0 ∧ Desc.u d 25 1 ≤ 1) ∧
    (∃ (d : Desc) (hd : HeadDef) (s : State), State.takes s 82 d (headerFault d 3 BufUse.none CoatUse.unbound (sweepReserved d)) ∧ s.heads[Fin.ofNat 8 (BitVec.toNat d.target)].hdef = some hd ∧ State.belowArmed s hd = false ∧ Head.busy s.heads[Fin.ofNat 8 (BitVec.toNat d.target)] = false ∧ State.overGrant s = false ∧ Desc.u d 24 1 = 1 ∧ searchFault d = none) ∧
    (∃ (h : HeadId) (hd : HeadDef) (p : Pass) (s : State), s.heads[h].hdef = some hd ∧ s.heads[h].pass = some p ∧ State.gap s h hd = true ∧ s.heads[h].products = [] ∧ s.cal.waits = [] ∧ p.spit = true ∧ p.left ≠ [] ∧ State.periodOver s hd p.period = true ∧ p.fired + 1 < p.fires) ∧
    (∃ (h : HeadId) (hd : HeadDef) (p : Pass) (s : State), s.heads[h].hdef = some hd ∧ s.heads[h].pass = some p ∧ State.gap s h hd = true ∧ s.heads[h].products = [] ∧ s.cal.waits = [] ∧ p.spit = false ∧ p.again = [] ∧ p.inclOut = true ∧ p.own = false ∧ List.filter (fun (n : Nat) => !List.contains (List.map (fun (x : TileId × Nat) => x.snd) (HeadDef.firsts hd p.left)) n) p.left ≠ []) ∧
    (∃ (h : HeadId) (hd : HeadDef) (y : PhaseSearch) (s : State), s.heads[h].hdef = some hd ∧ s.heads[h].search = some y ∧ State.fastOn s = true ∧ Mode.up s.pwr.mode = true ∧ y.dropsLeft = 0 ∧ y.desc = none ∧ s.aon.fck < y.nextAt) ∧
    (∃ (h : HeadId) (hd : HeadDef) (y : PhaseSearch) (s : State), s.heads[h].hdef = some hd ∧ s.heads[h].search = some y ∧ State.fastOn s = true ∧ Mode.up s.pwr.mode = true ∧ y.dropsLeft = 0 ∧ Option.isSome y.desc = true) ∧
    (∃ (h : HeadId) (hd : HeadDef) (y : PhaseSearch) (s : State) (c : Nat), s.heads[h].hdef = some hd ∧ s.heads[h].search = some y ∧ State.fastOn s = true ∧ Mode.up s.pwr.mode = true ∧ y.dropsLeft ≠ 0 ∧ y.charged = some c ∧ s.aon.fck < c + usFck (y.flight + y.span)) ∧
    (∃ (h : HeadId) (hd : HeadDef) (y : PhaseSearch) (s : State) (c : Nat), s.heads[h].hdef = some hd ∧ s.heads[h].search = some y ∧ State.fastOn s = true ∧ Mode.up s.pwr.mode = true ∧ y.dropsLeft ≠ 0 ∧ y.charged = some c ∧ c + usFck (y.flight + y.span) ≤ s.aon.fck ∧ 1 < y.dropsLeft) ∧
    (∃ (h : HeadId) (hd : HeadDef) (y : PhaseSearch) (s : State) (c : Nat), s.heads[h].hdef = some hd ∧ s.heads[h].search = some y ∧ State.fastOn s = true ∧ Mode.up s.pwr.mode = true ∧ y.dropsLeft ≠ 0 ∧ y.charged = some c ∧ c + usFck (y.flight + y.span) ≤ s.aon.fck ∧ y.dropsLeft = 1 ∧ y.step + 1 < y.steps ∧ y.drops ≠ 0) ∧
    (∃ (h : HeadId) (hd : HeadDef) (y : PhaseSearch) (s : State) (c : Nat) (v : Nat) (n : Nat), s.heads[h].hdef = some hd ∧ s.heads[h].search = some y ∧ State.fastOn s = true ∧ Mode.up s.pwr.mode = true ∧ y.dropsLeft ≠ 0 ∧ y.charged = some c ∧ c + usFck (y.flight + y.span) ≤ s.aon.fck ∧ y.dropsLeft = 1 ∧ y.steps = y.step + 1 ∧ y.desc = none ∧ y.every ≠ 0 ∧ y.again = false ∧ Option.isSome s.heads[h].armed = true ∧ State.phaseOf s hd { desc := y.desc, chargeTile := y.chargeTile, detectTile := y.detectTile, steps := y.steps, drops := y.drops, hitsMin := y.hitsMin, flight := y.flight, span := y.span, every := y.every, step := y.steps, hits := if y.hit = true then List.modify y.hits y.step fun (x : Nat) => x + 1 else y.hits, again := y.again, nextAt := y.nextAt } (if y.hit = true then List.modify y.hits y.step fun (x : Nat) => x + 1 else y.hits) = some (v, n)) ∧
    (∃ (h : HeadId) (hd : HeadDef) (y : PhaseSearch) (s : State) (c : Nat), s.heads[h].hdef = some hd ∧ s.heads[h].search = some y ∧ State.fastOn s = true ∧ Mode.up s.pwr.mode = true ∧ y.dropsLeft ≠ 0 ∧ y.charged = some c ∧ c + usFck (y.flight + y.span) ≤ s.aon.fck ∧ y.dropsLeft = 1 ∧ y.steps = y.step + 1 ∧ y.desc = none ∧ y.every ≠ 0 ∧ y.again = false ∧ State.phaseOf s hd { desc := y.desc, chargeTile := y.chargeTile, detectTile := y.detectTile, steps := y.steps, drops := y.drops, hitsMin := y.hitsMin, flight := y.flight, span := y.span, every := y.every, step := y.steps, hits := if y.hit = true then List.modify y.hits y.step fun (x : Nat) => x + 1 else y.hits, again := y.again, nextAt := y.nextAt } (if y.hit = true then List.modify y.hits y.step fun (x : Nat) => x + 1 else y.hits) = none) ∧
    (∃ (h : HeadId) (hd : HeadDef) (y : PhaseSearch) (s : State) (c : Nat), s.heads[h].hdef = some hd ∧ s.heads[h].search = some y ∧ State.fastOn s = true ∧ Mode.up s.pwr.mode = true ∧ y.dropsLeft ≠ 0 ∧ y.charged = some c ∧ c + usFck (y.flight + y.span) ≤ s.aon.fck ∧ y.dropsLeft = 1 ∧ y.steps = y.step + 1 ∧ y.desc = none ∧ y.every ≠ 0 ∧ y.again = true ∧ State.phaseOf s hd { desc := y.desc, chargeTile := y.chargeTile, detectTile := y.detectTile, steps := y.steps, drops := y.drops, hitsMin := y.hitsMin, flight := y.flight, span := y.span, every := y.every, step := y.steps, hits := if y.hit = true then List.modify y.hits y.step fun (x : Nat) => x + 1 else y.hits, again := y.again, nextAt := y.nextAt } (if y.hit = true then List.modify y.hits y.step fun (x : Nat) => x + 1 else y.hits) = none) ∧
    (∃ (h : HeadId) (hd : HeadDef) (y : PhaseSearch) (s : State), s.heads[h].hdef = some hd ∧ s.heads[h].search = some y ∧ State.fastOn s = true ∧ Mode.up s.pwr.mode = true ∧ y.dropsLeft ≠ 0 ∧ y.charged = none ∧ State.gap s h hd = true ∧ y.chargeTile ∈ HeadDef.tiles hd) ∧
    (∃ (d : Desc) (hd : HeadDef) (s : State), State.takes s 80 d (headerFault d 3 BufUse.none CoatUse.unbound [(30, 34)]) ∧ Desc.u d 29 1 ≤ 1 ∧ s.heads[Fin.ofNat 8 (BitVec.toNat d.target)].hdef = some hd ∧ rangeFault (HeadDef.n hd) (Desc.u d 24 2) (Desc.u d 26 2) = none ∧ (Desc.u d 28 1 < 2 ∨ Desc.u d 28 1 = 3)) :=
  ⟨⟨(5 : TileId), (lst : Listen), (hd : HeadDef), ((listening lst).modPanel 0 fun x => {x with ltLow := 5000001} : State), by decide +kernel⟩,
   ⟨(5 : TileId), (lst : Listen), (hd : HeadDef), (listening lst : State), (38400 : Nat), by decide +kernel⟩,
   ⟨(5 : TileId), (lst : Listen), (hd : HeadDef), ((listening lst).modPanel 0 fun x => {x with listen := 0x05F00000} : State), by decide +kernel⟩,
   ⟨(5 : TileId), ({lst with openNow := true, window := 2} : Listen), (hd : HeadDef), ([1,2] : List (BitVec 14)), (listening ({lst with openNow := true, window := 2}) : State), by decide +kernel⟩,
   ⟨(5 : TileId), ({lst with openNow := true, window := 2} : Listen), (hd : HeadDef), ([1] : List (BitVec 14)), (listening ({lst with openNow := true, window := 2}) : State), by decide +kernel⟩,
   ⟨(5 : TileId), ({lst with closed := true, trace := [5000, 9000, 7000, 7500, 7200]} : Listen), (hd : HeadDef), ({} : NozzleStat), (listening ({lst with closed := true, trace := [5000, 9000, 7000, 7500, 7200]}) : State), by decide +kernel⟩,
   ⟨(5 : TileId), ({lst with closed := true, closedAt := 5000000} : Listen), (listening ({lst with closed := true, closedAt := 5000000}) : State), by decide +kernel⟩,
   ⟨(ds 7 [(24,2,1),(26,2,1),(28,2,3),(30,1,2),(32,2,9)] : Desc), (hd : HeadDef), (headed : State), by unfold State.takes; decide +kernel⟩,
   ⟨(ds 7 [(24,2,1),(26,2,1),(28,2,3),(30,1,2),(32,2,9)] : Desc), (hd : HeadDef), (headed fun x => {x with pass := some ⟨none,true,0,1,1,1,false,9,true,false,[0],0,[],[]⟩} : State), by unfold State.takes; decide +kernel⟩,
   ⟨(ds 7 [(25,1,1)] : Desc), (hd : HeadDef), (headed : State), by unfold State.takes; decide +kernel⟩,
   ⟨(ds 7 [(24,1,1),(28,2,5),(30,2,6),(32,1,8),(34,2,10),(36,2,3),(42,2,1)] : Desc), (hd : HeadDef), (headed : State), by unfold State.takes; decide +kernel⟩,
   ⟨(7 : HeadId), (hd : HeadDef), (⟨none,true,0,2,3,1,false,9,true,false,[0,1],0,[],[]⟩ : Pass), (headed fun x => {x with pass := some ⟨none,true,0,2,3,1,false,9,true,false,[0,1],0,[],[]⟩} : State), by decide +kernel⟩,
   ⟨(7 : HeadId), (hd : HeadDef), (⟨none,false,0,2,1,3,true,0,true,false,[0,1],0,[],[]⟩ : Pass), (headed fun x => {x with pass := some ⟨none,false,0,2,1,3,true,0,true,false,[0,1],0,[],[]⟩} : State), by decide +kernel⟩,
   ⟨(7 : HeadId), (hd : HeadDef), (({desc := none, chargeTile := 5, detectTile := 6, steps := 8, drops := 10, hitsMin := 3, flight := 1, span := 1, every := 1, nextAt := 5000001}) : PhaseSearch), (armed fun x => {x with search := some ({desc := none, chargeTile := 5, detectTile := 6, steps := 8, drops := 10, hitsMin := 3, flight := 1, span := 1, every := 1, nextAt := 5000001})} : State), by decide +kernel⟩,
   ⟨(7 : HeadId), (hd : HeadDef), ({desc := some (ds 7 []), chargeTile := 5, detectTile := 6, steps := 8, drops := 10, hitsMin := 3, flight := 1, span := 1, every := 1} : PhaseSearch), (headed fun x => {x with search := some ({desc := some (ds 7 []), chargeTile := 5, detectTile := 6, steps := 8, drops := 10, hitsMin := 3, flight := 1, span := 1, every := 1})} : State), by decide +kernel⟩,
   ⟨(7 : HeadId), (hd : HeadDef), (({desc := none, chargeTile := 5, detectTile := 6, steps := 8, drops := 10, hitsMin := 3, flight := 1, span := 1, every := 1, step := 2, dropsLeft := 1, charged := some 5000000}) : PhaseSearch), (armed fun x => {x with search := some ({desc := none, chargeTile := 5, detectTile := 6, steps := 8, drops := 10, hitsMin := 3, flight := 1, span := 1, every := 1, step := 2, dropsLeft := 1, charged := some 5000000})} : State), (5000000 : Nat), by decide +kernel⟩,
   ⟨(7 : HeadId), (hd : HeadDef), (({desc := none, chargeTile := 5, detectTile := 6, steps := 8, drops := 10, hitsMin := 3, flight := 1, span := 1, every := 1, step := 2, dropsLeft := 2, hit := true, charged := some 50, hits := [3,4,0,0,0,0,0,0]}) : PhaseSearch), (armed fun x => {x with search := some ({desc := none, chargeTile := 5, detectTile := 6, steps := 8, drops := 10, hitsMin := 3, flight := 1, span := 1, every := 1, step := 2, dropsLeft := 2, hit := true, charged := some 50, hits := [3,4,0,0,0,0,0,0]})} : State), (50 : Nat), by decide +kernel⟩,
   ⟨(7 : HeadId), (hd : HeadDef), (({desc := none, chargeTile := 5, detectTile := 6, steps := 8, drops := 10, hitsMin := 3, flight := 1, span := 1, every := 1, step := 2, dropsLeft := 1, hit := true, charged := some 50, hits := [3,4,0,0,0,0,0,0]}) : PhaseSearch), (armed fun x => {x with search := some ({desc := none, chargeTile := 5, detectTile := 6, steps := 8, drops := 10, hitsMin := 3, flight := 1, span := 1, every := 1, step := 2, dropsLeft := 1, hit := true, charged := some 50, hits := [3,4,0,0,0,0,0,0]})} : State), (50 : Nat), by decide +kernel⟩,
   ⟨(7 : HeadId), (hd : HeadDef), (({desc := none, chargeTile := 5, detectTile := 6, steps := 8, drops := 10, hitsMin := 3, flight := 1, span := 1, every := 1, step := 7, dropsLeft := 1, charged := some 50, hits := [3,4,0,0,0,0,0,0]}) : PhaseSearch), (armed fun x => {x with search := some ({desc := none, chargeTile := 5, detectTile := 6, steps := 8, drops := 10, hitsMin := 3, flight := 1, span := 1, every := 1, step := 7, dropsLeft := 1, charged := some 50, hits := [3,4,0,0,0,0,0,0]})} : State), (50 : Nat), (0 : Nat), (2 : Nat), by decide +kernel⟩,
   ⟨(7 : HeadId), (hd : HeadDef), (({desc := none, chargeTile := 5, detectTile := 6, steps := 8, drops := 10, hitsMin := 3, flight := 1, span := 1, every := 1, step := 7, dropsLeft := 1, charged := some 50, hits := [0,0,0,0,0,0,0,2]}) : PhaseSearch), (armed fun x => {x with search := some ({desc := none, chargeTile := 5, detectTile := 6, steps := 8, drops := 10, hitsMin := 3, flight := 1, span := 1, every := 1, step := 7, dropsLeft := 1, charged := some 50, hits := [0,0,0,0,0,0,0,2]})} : State), (50 : Nat), by decide +kernel⟩,
   ⟨(7 : HeadId), (hd : HeadDef), (({desc := none, chargeTile := 5, detectTile := 6, steps := 8, drops := 10, hitsMin := 3, flight := 1, span := 1, every := 1, step := 7, dropsLeft := 1, charged := some 50, hits := [0,0,0,0,0,0,0,2], again := true}) : PhaseSearch), (armed fun x => {x with search := some ({desc := none, chargeTile := 5, detectTile := 6, steps := 8, drops := 10, hitsMin := 3, flight := 1, span := 1, every := 1, step := 7, dropsLeft := 1, charged := some 50, hits := [0,0,0,0,0,0,0,2], again := true})} : State), (50 : Nat), by decide +kernel⟩,
   ⟨(7 : HeadId), (hd : HeadDef), ({desc := none, chargeTile := 5, detectTile := 6, steps := 8, drops := 10, hitsMin := 3, flight := 1, span := 1, every := 1, dropsLeft := 3} : PhaseSearch), (headed fun x => {x with search := some ({desc := none, chargeTile := 5, detectTile := 6, steps := 8, drops := 10, hitsMin := 3, flight := 1, span := 1, every := 1, dropsLeft := 3})} : State), by decide +kernel⟩,
   ⟨(ds 7 [(24,2,1),(26,2,1),(28,1,0),(29,1,1)] : Desc), (hd : HeadDef), (headed : State), by unfold State.takes; decide +kernel⟩⟩

theorem witness_NozzleMapCopied :
    (∃ (d : Desc) (s : State), State.takes s 81 d (headerFault d 3 BufUse.buffer CoatUse.unbound [(28, 36)]) ∧ s.heads[Fin.ofNat 8 (BitVec.toNat d.target)].hdef = none) ∧
    (∃ (d : Desc) (s : State) (hd : HeadDef) (off : Nat), State.takes s 81 d (headerFault d 3 BufUse.buffer CoatUse.unbound [(28, 36)]) ∧ s.heads[Fin.ofNat 8 (BitVec.toNat d.target)].hdef = some hd ∧ rangeFault (HeadDef.n hd) (Desc.u d 24 2) (Desc.u d 26 2) = some off) ∧
    (∃ (d : Desc) (s : State) (hd : HeadDef), State.takes s 81 d (headerFault d 3 BufUse.buffer CoatUse.unbound [(28, 36)]) ∧ s.heads[Fin.ofNat 8 (BitVec.toNat d.target)].hdef = some hd ∧ rangeFault (HeadDef.n hd) (Desc.u d 24 2) (Desc.u d 26 2) = none ∧ Desc.len d ≠ 2 * Desc.u d 26 2) ∧
    (∃ (d : Desc) (s : State) (hd : HeadDef), State.takes s 81 d (headerFault d 3 BufUse.buffer CoatUse.unbound [(28, 36)]) ∧ s.heads[Fin.ofNat 8 (BitVec.toNat d.target)].hdef = some hd ∧ rangeFault (HeadDef.n hd) (Desc.u d 24 2) (Desc.u d 26 2) = none ∧ Desc.len d = 2 * Desc.u d 26 2 ∧ State.linkUp s = true ∧ d.wr = Attempt.clean) :=
  ⟨⟨(dsb 7 2 [(24,2,1),(26,2,1)] : Desc), (on : State), by unfold State.takes; decide +kernel⟩,
   ⟨(dsb 7 2 [(24,2,1),(26,2,2)] : Desc), (headed : State), (hd : HeadDef), (26 : Nat), by unfold State.takes; decide +kernel⟩,
   ⟨(dsb 7 4 [(24,2,1),(26,2,1)] : Desc), (headed : State), (hd : HeadDef), by unfold State.takes; decide +kernel⟩,
   ⟨(dsb 7 2 [(24,2,1),(26,2,1)] : Desc), (headed : State), (hd : HeadDef), by unfold State.takes; decide +kernel⟩⟩

theorem witness_EngineWordsRoundTrip :
    (∃ (i : Instr) (t : TileId) (w : Word), encodeEngine i = some (t, w)) ∧
    (∃ (i : Instr) (t : TileId) (w : Word), decodeEngine t w = some i) :=
  ⟨⟨(.addi 5 6 0 16 : Instr), (5 : TileId), (0x05800010 : Word), by decide +kernel⟩,
   ⟨(.addi 5 6 0 16 : Instr), (5 : TileId), (0x05800010 : Word), by decide +kernel⟩⟩

theorem witness_CalibrationAndBist :
    (∃ (d : Desc) (s : State), State.takes s 96 d (Option.or (headerFault d (if (Desc.u d 25 1 == 1) = true then 3 else 0) BufUse.buffer CoatUse.unbound []) (Option.or (if 1 < Desc.u d 32 1 then some 32 else none) (reservedFault d [(33, 31)]))) ∧ calFault (Option.getD (Option.map HeadDef.n s.heads[Fin.ofNat 8 (BitVec.toNat d.target)].hdef) 8192) (State.hostFits s) d = none ∧ Desc.u d 30 1 = 0 ∧ Mode.up s.pwr.mode = true ∧ (∀ (t : TileId), t ∈ calTiles s.heads[Fin.ofNat 8 (BitVec.toNat d.target)].hdef d → PState.live (State.pstate s (panelOf t)) = true) ∧ State.alloc s ≤ BitVec.toNat s.pwr.grant ∧ (Desc.u d 25 1 = 1 → Option.isSome s.heads[Fin.ofNat 8 (BitVec.toNat d.target)].hdef = true ∧ s.heads[Fin.ofNat 8 (BitVec.toNat d.target)].pass = none) ∧ Option.isSome s.cal.run = true) ∧
    (∃ (d : Desc) (s : State), State.takes s 96 d (Option.or (headerFault d (if (Desc.u d 25 1 == 1) = true then 3 else 0) BufUse.buffer CoatUse.unbound []) (Option.or (if 1 < Desc.u d 32 1 then some 32 else none) (reservedFault d [(33, 31)]))) ∧ calFault (Option.getD (Option.map HeadDef.n s.heads[Fin.ofNat 8 (BitVec.toNat d.target)].hdef) 8192) (State.hostFits s) d = none ∧ Desc.u d 30 1 = 0 ∧ Mode.up s.pwr.mode = true ∧ (∀ (t : TileId), t ∈ calTiles s.heads[Fin.ofNat 8 (BitVec.toNat d.target)].hdef d → PState.live (State.pstate s (panelOf t)) = true) ∧ State.alloc s ≤ BitVec.toNat s.pwr.grant ∧ (Desc.u d 25 1 = 1 → Option.isSome s.heads[Fin.ofNat 8 (BitVec.toNat d.target)].hdef = true ∧ s.heads[Fin.ofNat 8 (BitVec.toNat d.target)].pass = none) ∧ s.cal.run = none ∧ List.filter (fun (u : Nat × Nat) => !State.calSkips s (Fin.ofNat 8 (BitVec.toNat d.target)) (Desc.u d 32 1 == 1) u) (calUnits s.heads[Fin.ofNat 8 (BitVec.toNat d.target)].hdef d) ≠ []) ∧
    (∃ (d : Desc) (s : State), State.takes s 96 d (Option.or (headerFault d (if (Desc.u d 25 1 == 1) = true then 3 else 0) BufUse.buffer CoatUse.unbound []) (Option.or (if 1 < Desc.u d 32 1 then some 32 else none) (reservedFault d [(33, 31)]))) ∧ calFault (Option.getD (Option.map HeadDef.n s.heads[Fin.ofNat 8 (BitVec.toNat d.target)].hdef) 8192) (State.hostFits s) d = none ∧ Desc.u d 30 1 = 0 ∧ Mode.up s.pwr.mode = true ∧ (∀ (t : TileId), t ∈ calTiles s.heads[Fin.ofNat 8 (BitVec.toNat d.target)].hdef d → PState.live (State.pstate s (panelOf t)) = true) ∧ State.alloc s ≤ BitVec.toNat s.pwr.grant ∧ (Desc.u d 25 1 = 1 → Option.isSome s.heads[Fin.ofNat 8 (BitVec.toNat d.target)].hdef = true ∧ s.heads[Fin.ofNat 8 (BitVec.toNat d.target)].pass = none) ∧ s.cal.run = none ∧ List.filter (fun (u : Nat × Nat) => !State.calSkips s (Fin.ofNat 8 (BitVec.toNat d.target)) (Desc.u d 32 1 == 1) u) (calUnits s.heads[Fin.ofNat 8 (BitVec.toNat d.target)].hdef d) = [] ∧ State.hostFits s = true ∧ Desc.len d = 0) ∧
    (∃ (first : List CalFit) (r : CalRun) (u : Nat × Nat) (v : Nat × Nat) (rest : List (Nat × Nat)) (s : State), s.cal.run = some r ∧ r.left = u :: v :: rest ∧ State.calRuns s r u = true ∧ State.hostFits s = false ∧ fitsGroup r.head u first = true ∧ List.all first fitPasses = true ∧ r.store = false) ∧
    (∃ (first : List CalFit) (again : List CalFit) (r : CalRun) (u : Nat × Nat) (v : Nat × Nat) (rest : List (Nat × Nat)) (s : State), s.cal.run = some r ∧ r.left = u :: v :: rest ∧ State.calRuns s r u = true ∧ State.hostFits s = false ∧ fitsGroup r.head u first = true ∧ List.all first fitPasses = false ∧ fitsGroup r.head u again = true ∧ List.all again fitPasses = false) ∧
    (∃ (d : Desc) (s : State), State.takes s 97 d (headerFault d 0 BufUse.buffer CoatUse.unbound [(30, 34)]) ∧ (Desc.u d 24 1 = 5 ∨ Desc.u d 24 1 = 6) ∧ State.linkUp s = true ∧ d.wr = Attempt.clean) ∧
    (∃ (d : Desc) (s : State), State.takes s 98 d (headerFault d 0 BufUse.buffer CoatUse.unbound [(30, 34)]) ∧ (Desc.u d 24 1 = 5 ∨ Desc.u d 24 1 = 6) ∧ Desc.u d 25 1 = 0 ∧ Desc.u d 26 2 = 0 ∧ Desc.u d 28 2 = 0 ∧ Desc.len d % 8 = 0 ∧ Desc.len d < 2 ^ 20 ∧ State.linkUp s = true ∧ d.rd = Attempt.clean ∧ List.all (calEntries (Desc.len d / 8) (Memory.bytes s.hostMem (BitVec.toNat d.buffer) (Desc.len d))) (State.calEntryOk s false) = true) ∧
    (∃ (d : Desc) (s : State), State.takes s 99 d (headerFault d 0 BufUse.none CoatUse.bindable [(25, 39)]) ∧ Desc.bound d = false ∧ s.cal.waits = [] ∧ Desc.u d 24 1 = 0 ∧ List.all (State.calChanges s 0) (State.changeDue s) = true) ∧
    (∃ (d : Desc) (s : State), State.takes s 99 d (headerFault d 0 BufUse.none CoatUse.bindable [(25, 39)]) ∧ Desc.bound d = false ∧ s.cal.waits = [] ∧ Desc.u d 24 1 = 1) ∧
    (∃ (d : Desc) (s : State), Desc.u d 24 1 ≤ 1 ∧ State.takes s 128 d (headerFault d 9 BufUse.none CoatUse.unbound [(25, 3), (40, 24)]) ∧ s.sec.lifecycle ≠ Lifecycle.closed ∧ (Desc.u d 24 1 = 1 → Desc.u d 28 8 ≠ 0 ∧ 1 ≤ Desc.u d 36 4 ∧ Desc.u d 36 4 ≤ 2 ^ 24) ∧ s.tiles[Fin.ofNat 512 (BitVec.toNat d.target)].fenced = true ∧ (∀ (r : BistRun), r ∈ s.bist → r.tile ≠ Fin.ofNat 512 (BitVec.toNat d.target))) ∧
    (∃ (d : Desc) (s : State), Desc.u d 24 1 ≤ 1 ∧ State.takes s 128 d (headerFault d 9 BufUse.none CoatUse.unbound [(25, 3), (40, 24)]) ∧ s.sec.lifecycle ≠ Lifecycle.closed ∧ (Desc.u d 24 1 = 1 → Desc.u d 28 8 ≠ 0 ∧ 1 ≤ Desc.u d 36 4 ∧ Desc.u d 36 4 ≤ 2 ^ 24) ∧ s.tiles[Fin.ofNat 512 (BitVec.toNat d.target)].fenced = false) ∧
    (∃ (t : TileId) (r : BistRun) (d : Desc) (s : State), s.bist = [r] ∧ r.tile = t ∧ r.mode = 0 ∧ r.desc = some d ∧ r.readmit = false ∧ r.again = false ∧ State.tileLive s t = true ∧ State.bistGap s t = true ∧ r.done + 1 < r.slices) ∧
    (∃ (t : TileId) (r : BistRun) (d : Desc) (s : State), s.bist = [r] ∧ r.tile = t ∧ r.mode = 0 ∧ r.desc = some d ∧ r.readmit = false ∧ r.again = false ∧ State.tileLive s t = true ∧ State.bistGap s t = true ∧ r.slices ≤ r.done + 1) :=
  ⟨⟨(ds 0 [(24,1,1),(26,2,5),(28,2,3)] : Desc), ({on with cal := {on.cal with run := some ⟨ds 0 [], 0, false, [(1,2)],[],0,0,0,[]⟩}} : State), by unfold State.takes; decide +kernel⟩,
   ⟨(ds 0 [(24,1,1),(26,2,5),(28,2,3)] : Desc), (on : State), by unfold State.takes; decide +kernel⟩,
   ⟨(ds 0 [(24,1,1),(26,2,5),(28,2,3)] : Desc), ({((tl 5 (fun x => {x with fenced := true}) (tl 6 (fun x => {x with fenced := true}) (tl 7 (fun x => {x with fenced := true}) on)))) with fnMode := 64} : State), by unfold State.takes; decide +kernel⟩,
   ⟨([⟨1,0,2,5,3,true⟩] : List CalFit), (⟨ds 0 [], 0, false, [(1,2),(1,3)],[],0,0,0,[]⟩ : CalRun), ((1,2) : Nat × Nat), ((1,3) : Nat × Nat), ([] : List (Nat × Nat)), ({on with cal := {on.cal with run := some ⟨ds 0 [], 0, false, [(1,2),(1,3)],[],0,0,0,[]⟩, marks := [(1,0,2),(3,0,4)]}} : State), by decide +kernel⟩,
   ⟨([⟨1,0,2,5000,3,true⟩] : List CalFit), ([⟨1,0,2,5000,3,true⟩] : List CalFit), (⟨ds 0 [], 0, false, [(1,2),(1,3)],[],0,0,0,[]⟩ : CalRun), ((1,2) : Nat × Nat), ((1,3) : Nat × Nat), ([] : List (Nat × Nat)), ({on with cal := {on.cal with run := some ⟨ds 0 [], 0, false, [(1,2),(1,3)],[],0,0,0,[]⟩, marks := [(1,0,2),(3,0,4)]}} : State), by decide +kernel⟩,
   ⟨(dsb 0 8 [(24,1,5),(25,1,1),(26,2,2),(28,2,5)] : Desc), ({on with cal := {on.cal with live := [⟨1,0,2,5⟩,⟨1,0,3,6⟩,⟨2,0,3,7⟩]}} : State), by unfold State.takes; decide +kernel⟩,
   ⟨(dsb 0 8 [(24,1,6)] : Desc), (host [1,0,3,0,9,0,0,0] on : State), by unfold State.takes; decide +kernel⟩,
   ⟨(ds 0 [(24,1,0)] : Desc), ({on with cal := {on.cal with pending := [⟨1,0,2,5⟩,⟨1,0,3,6⟩,⟨2,0,3,7⟩], marks := [(1,0,2)], override := [(1,0,3)]}} : State), by unfold State.takes; decide +kernel⟩,
   ⟨(ds 0 [(24,1,1)] : Desc), ({on with cal := {on.cal with pending := [⟨1,0,2,5⟩,⟨1,0,3,6⟩,⟨2,0,3,7⟩], marks := [(1,0,2)], override := [(1,0,3)]}} : State), by unfold State.takes; decide +kernel⟩,
   ⟨(ds 5 [(24,1,0)] : Desc), (tl 5 (fun x => {x with fenced := true}) on : State), by unfold State.takes; decide +kernel⟩,
   ⟨(ds 5 [(24,1,1),(28,8,3),(36,4,5000)] : Desc), (on : State), by unfold State.takes; decide +kernel⟩,
   ⟨(5 : TileId), (⟨some (ds 5 []), 5, 0, 48, 3, false, false⟩ : BistRun), (ds 5 [] : Desc), ({on with bist := [⟨some (ds 5 []), 5, 0, 48, 3, false, false⟩]} : State), by decide +kernel⟩,
   ⟨(5 : TileId), (⟨some (ds 5 []), 5, 0, 48, 47, false, false⟩ : BistRun), (ds 5 [] : Desc), ({on with bist := [⟨some (ds 5 []), 5, 0, 48, 47, false, false⟩]} : State), by decide +kernel⟩⟩

theorem witness_Trowels :
    (∃ (t : TileId) (s : State), State.trowelMode s t ≠ 0 ∧ State.trowelMode s t ≠ 3 ∧ Trowel.off s.tiles[t].trowel = false ∧ s.tiles[t].trowel.fold = false ∧ s.cal.waits = [] ∧ (∀ (d : DueFire), s.tiles[t].trowel.current = some d → s.heads[d.head].pass = none) ∧ (s.tiles[t].trowel.phase ≠ TripPhase.second ∨ s.tiles[t].trowel.play ≠ Play.playing)) ∧
    (∃ (t : TileId) (s : State), State.trowelMode s t ≠ 0 ∧ State.trowelMode s t ≠ 3 ∧ Trowel.off s.tiles[t].trowel = false ∧ s.tiles[t].trowel.fold = false ∧ s.cal.waits = [] ∧ (∀ (d : DueFire), s.tiles[t].trowel.current = some d → s.heads[d.head].pass = none) ∧ s.tiles[t].trowel.phase = TripPhase.second ∧ s.tiles[t].trowel.play = Play.playing) ∧
    (∃ (t : TileId) (s : State), (s.tiles[t].trowel.fold = true ∨ Trowel.off s.tiles[t].trowel = true ∨ State.trowelMode s t = 0 ∨ State.trowelMode s t = 3)) ∧
    (∃ (t : TileId) (s : State), s.tiles[t].trowel.phase = TripPhase.returning) ∧
    (∃ (t : TileId) (s : State), s.tiles[t].trowel.phase = TripPhase.recovering) ∧
    (∃ (t : TileId) (s : State), s.tiles[t].trowel.phase ≠ TripPhase.returning ∧ s.tiles[t].trowel.phase ≠ TripPhase.recovering ∧ s.tiles[t].trowel.reenable = true ∧ State.fastOn s = true ∧ State.armedTile s t = false) ∧
    (∃ (t : TileId) (s : State), s.tiles[t].trowel.phase ≠ TripPhase.returning ∧ s.tiles[t].trowel.phase ≠ TripPhase.recovering ∧ s.tiles[t].trowel.reenable = false) ∧
    (∃ (t : TileId) (s : State) (c : Int), 115 < c ∧ State.tileLive s t = true ∧ s.tiles[t].trowel.fold = false) ∧
    (∃ (c : Int), c ≤ 115) ∧
    (∃ (t : TileId) (s : State) (c : Int), c < 105 ∧ s.tiles[t].trowel.fold = true) ∧
    (∃ (c : Int), 105 ≤ c) ∧
    (∃ (t : TileId) (s : State), State.tileBoundary s t = true ∧ s.tiles[t].trowel.takeover = some true ∧ s.tiles[t].trowel.taken = false) ∧
    (∃ (t : TileId) (s : State), State.tileBoundary s t = true ∧ s.tiles[t].trowel.takeover = some false ∧ s.tiles[t].trowel.taken = true) ∧
    (∃ (t : TileId) (s : State), State.tileBoundary s t = false) :=
  ⟨⟨(5 : TileId), ((printing.modTile 5 fun x => {x with trowel := {x.trowel with cfg := 0x003F3000, play := .playing, current := some due, phase := .awaiting}}) : State), by decide +kernel⟩,
   ⟨(5 : TileId), ((printing.modTile 5 fun x => {x with trowel := {x.trowel with cfg := 0x003F3000, play := .playing, current := some due, phase := .second}}) : State), by decide +kernel⟩,
   ⟨(5 : TileId), ((printing.modTile 5 fun x => {x with trowel := {x.trowel with cfg := 0x003F3000, trip := true}}) : State), by decide +kernel⟩,
   ⟨(5 : TileId), (on.modTrowel 5 fun w => {w with cfg := 0x003F3000, phase := .returning} : State), by decide +kernel⟩,
   ⟨(5 : TileId), (on.modTrowel 5 fun w => {w with cfg := 0x003F3000, phase := .recovering} : State), by decide +kernel⟩,
   ⟨(5 : TileId), (on.modTrowel 5 fun w => {w with reenable := true, taken := true} : State), by decide +kernel⟩,
   ⟨(5 : TileId), (on : State), by decide +kernel⟩,
   ⟨(5 : TileId), (on.modTrowel 5 fun w => {w with cfg := 0x003F3000, fold := false} : State), (116 : Int), by decide +kernel⟩,
   ⟨(115 : Int), by decide +kernel⟩,
   ⟨(5 : TileId), (on.modTrowel 5 fun w => {w with cfg := 0x003F3000, fold := true} : State), (104 : Int), by decide +kernel⟩,
   ⟨(105 : Int), by decide +kernel⟩,
   ⟨(5 : TileId), (on.modTrowel 5 fun w => {w with cfg := 0x003F3000, takeover := some true} : State), by decide +kernel⟩,
   ⟨(5 : TileId), ((on.modTrowel 4 fun w => {w with buddyAct := true}).modTrowel 5 fun w => {w with cfg := 0x003F3000, takeover := some false, taken := true} : State), by decide +kernel⟩,
   ⟨(5 : TileId), (armed.modTrowel 5 fun w => {w with play := .playing} : State), by decide +kernel⟩⟩

theorem witness_Comparators :
    (∃ (t : TileId) (c : Cmp) (s : State) (uv : Int) (past : List Int), s.aon.up = true ∧ (Tile.cmp s.tiles[t] c).powered = true ∧ (Tile.cmp s.tiles[t] c).unres = false ∧ State.tileLive s t = true ∧ State.fastOn s = true ∧ Comparator.win s.tiles[t].cmpA = false ∧ (Tile.cmp s.tiles[t] c).lvl = State.cmpLvl s t c ∧ (∀ (c' : Cmp), c' ≠ c → (Tile.cmp s.tiles[t] c').unres = false ∧ (Tile.cmp s.tiles[t] c').lvl = State.cmpLvl s t c' ∧ State.currentCmp s t c' = false ∧ ∀ (e : Int), (Tile.cmp s.tiles[t] c').seen = some e → State.cmpSide (bqRun s.aon.fck (State.cmpPoint s t c) t past s) t c' e = some (Tile.cmp s.tiles[t] c').raw) ∧ State.cmpSide (bqRun s.aon.fck (State.cmpPoint s t c) t past s) t c uv = none) ∧
    (∃ (t : TileId) (c : Cmp) (s : State) (uv : Int) (past : List Int), s.aon.up = true ∧ (Tile.cmp s.tiles[t] c).powered = true ∧ (Tile.cmp s.tiles[t] c).unres = false ∧ State.tileLive s t = true ∧ State.fastOn s = true ∧ Comparator.win s.tiles[t].cmpA = false ∧ (Tile.cmp s.tiles[t] c).lvl = State.cmpLvl s t c ∧ (∀ (c' : Cmp), c' ≠ c → (Tile.cmp s.tiles[t] c').unres = false ∧ (Tile.cmp s.tiles[t] c').lvl = State.cmpLvl s t c' ∧ State.currentCmp s t c' = false ∧ ∀ (e : Int), (Tile.cmp s.tiles[t] c').seen = some e → State.cmpSide (bqRun s.aon.fck (State.cmpPoint s t c) t past s) t c' e = some (Tile.cmp s.tiles[t] c').raw) ∧ State.cmpSide (bqRun s.aon.fck (State.cmpPoint s t c) t past s) t c uv = some (Tile.cmp s.tiles[t] c).raw ∧ State.currentCmp s t c = false) ∧
    (∃ (t : TileId) (c : Cmp) (s : State) (uv : Int) (past : List Int), s.aon.up = true ∧ (Tile.cmp s.tiles[t] c).powered = true ∧ (Tile.cmp s.tiles[t] c).unres = false ∧ State.tileLive s t = true ∧ State.fastOn s = true ∧ Comparator.win s.tiles[t].cmpA = false ∧ (Tile.cmp s.tiles[t] c).lvl = State.cmpLvl s t c ∧ (∀ (c' : Cmp), c' ≠ c → (Tile.cmp s.tiles[t] c').unres = false ∧ (Tile.cmp s.tiles[t] c').lvl = State.cmpLvl s t c' ∧ State.currentCmp s t c' = false ∧ ∀ (e : Int), (Tile.cmp s.tiles[t] c').seen = some e → State.cmpSide (bqRun s.aon.fck (State.cmpPoint s t c) t past s) t c' e = some (Tile.cmp s.tiles[t] c').raw) ∧ State.cmpSide (bqRun s.aon.fck (State.cmpPoint s t c) t past s) t c uv = some true ∧ (Tile.cmp s.tiles[t] c).raw = true ∧ State.currentCmp s t c = true) ∧
    (∃ (t : TileId) (c : Cmp) (s : State) (uv : Int) (past : List Int) (b : Bool), s.aon.up = true ∧ (Tile.cmp s.tiles[t] c).powered = true ∧ (Tile.cmp s.tiles[t] c).unres = false ∧ State.tileLive s t = true ∧ State.fastOn s = true ∧ Comparator.win s.tiles[t].cmpA = false ∧ (Tile.cmp s.tiles[t] c).lvl = State.cmpLvl s t c ∧ (∀ (c' : Cmp), c' ≠ c → (Tile.cmp s.tiles[t] c').unres = false ∧ (Tile.cmp s.tiles[t] c').lvl = State.cmpLvl s t c' ∧ State.currentCmp s t c' = false ∧ ∀ (e : Int), (Tile.cmp s.tiles[t] c').seen = some e → State.cmpSide (bqRun s.aon.fck (State.cmpPoint s t c) t past s) t c' e = some (Tile.cmp s.tiles[t] c').raw) ∧ State.cmpSide (bqRun s.aon.fck (State.cmpPoint s t c) t past s) t c uv = some b ∧ b ≠ (Tile.cmp s.tiles[t] c).raw ∧ State.currentCmp s t c = false ∧ (Tile.cmp s.tiles[t] c).stuckPhase ≠ StuckPhase.first ∧ (Tile.cmp s.tiles[t] c).acc ≠ (b != Comparator.pol (Tile.cmp s.tiles[t] c)) ∧ State.minwFck s (State.cmpProfile s t c) ≠ 0) ∧
    (∃ (t : TileId) (c : Cmp) (s : State) (uv : Int) (past : List Int) (b : Bool), s.aon.up = true ∧ (Tile.cmp s.tiles[t] c).powered = true ∧ (Tile.cmp s.tiles[t] c).unres = false ∧ State.tileLive s t = true ∧ State.fastOn s = true ∧ Comparator.win s.tiles[t].cmpA = false ∧ (Tile.cmp s.tiles[t] c).lvl = State.cmpLvl s t c ∧ (∀ (c' : Cmp), c' ≠ c → (Tile.cmp s.tiles[t] c').unres = false ∧ (Tile.cmp s.tiles[t] c').lvl = State.cmpLvl s t c' ∧ State.currentCmp s t c' = false ∧ ∀ (e : Int), (Tile.cmp s.tiles[t] c').seen = some e → State.cmpSide (bqRun s.aon.fck (State.cmpPoint s t c) t past s) t c' e = some (Tile.cmp s.tiles[t] c').raw) ∧ State.cmpSide (bqRun s.aon.fck (State.cmpPoint s t c) t past s) t c uv = some b ∧ b ≠ (Tile.cmp s.tiles[t] c).raw ∧ State.currentCmp s t c = false ∧ (Tile.cmp s.tiles[t] c).stuckPhase ≠ StuckPhase.first ∧ (Tile.cmp s.tiles[t] c).acc = (b != Comparator.pol (Tile.cmp s.tiles[t] c)) ∧ (Tile.cmp s.tiles[t] c).woke = false) ∧
    (∃ (t : TileId) (c : Cmp) (s : State) (lvl : Bool) (due : Nat) (g : Nat), (Tile.cmp s.tiles[t] c).cand = some (lvl, due) ∧ State.fastOn s = true ∧ due ≤ s.aon.fck ∧ (Tile.cmp s.tiles[t] c).gapUntil = some g ∧ s.aon.fck < g ∧ Comparator.edgeHits (Tile.cmp s.tiles[t] c) lvl = true) ∧
    (∃ (t : TileId) (c : Cmp) (s : State) (lvl : Bool) (due : Nat), (Tile.cmp s.tiles[t] c).cand = some (lvl, due) ∧ State.fastOn s = true ∧ due ≤ s.aon.fck ∧ (Tile.cmp s.tiles[t] c).gapUntil = none ∧ (Tile.cmp s.tiles[t] c).filt ≠ lvl ∧ (Tile.cmp s.tiles[t] c).stuck = false ∧ State.anyArmed s = false ∧ s.mem.errs = [] ∧ State.unrouted s t c = true) ∧
    (∃ (t : TileId) (c : Cmp) (s : State) (g : Nat), (Tile.cmp s.tiles[t] c).gapUntil = some g ∧ g ≤ s.aon.fck ∧ State.fastOn s = true ∧ (Tile.cmp s.tiles[t] c).filt = (Tile.cmp s.tiles[t] c).acc) ∧
    (∃ (t : TileId) (c : Cmp) (s : State) (g : Nat), (Tile.cmp s.tiles[t] c).gapUntil = some g ∧ g ≤ s.aon.fck ∧ State.fastOn s = true ∧ (Tile.cmp s.tiles[t] c).filt ≠ (Tile.cmp s.tiles[t] c).acc ∧ State.cmpMute s t c = false ∧ State.anyArmed s = false ∧ s.mem.errs = [] ∧ State.unrouted s t c = true) ∧
    (∃ (t : TileId) (c : Cmp) (s : State) (a : Nat), profMax (State.cmpProfile s t c) ≠ 0 ∧ (Tile.cmp s.tiles[t] c).lvl = true ∧ (Tile.cmp s.tiles[t] c).stuck = false ∧ (Tile.cmp s.tiles[t] c).activeSince = some a ∧ a + 16 * profMax (State.cmpProfile s t c) < s.aon.ticks ∧ (Tile.cmp s.tiles[t] c).stuckPhase = StuckPhase.none ∧ State.unrouted s t c = true) ∧
    (∃ (t : TileId) (c : Cmp) (s : State) (since : Nat), (Tile.cmp s.tiles[t] c).stuckPhase = StuckPhase.watched since ∧ since + 1024 ≤ s.aon.ticks) :=
  ⟨⟨(5 : TileId), (.b : Cmp), (((on.modPanel 0 fun x => {x with cmpFilt := x.cmpFilt.set 0 0x05000000}).modCmp 5 .b fun x => {x with powered := true, cfg := 0x08024000}) : State), (1650000 : Int), ([] : List Int), by refine ⟨?_, ?_, ?_, ?_, ?_, ?_, ?_, by intro c' h; cases c' <;> first | exact absurd rfl h | exact ⟨by decide +kernel, by decide +kernel, by decide +kernel, fun e he => absurd (he.symm.trans (by decide +kernel)) (Option.some_ne_none e)⟩, ?_⟩ <;> decide +kernel⟩,
   ⟨(5 : TileId), (.b : Cmp), (((on.modPanel 0 fun x => {x with cmpFilt := x.cmpFilt.set 0 0x05000000}).modCmp 5 .b fun x => {x with powered := true, cfg := 0x08024000}) : State), (1000000 : Int), ([] : List Int), by refine ⟨?_, ?_, ?_, ?_, ?_, ?_, ?_, by intro c' h; cases c' <;> first | exact absurd rfl h | exact ⟨by decide +kernel, by decide +kernel, by decide +kernel, fun e he => absurd (he.symm.trans (by decide +kernel)) (Option.some_ne_none e)⟩, ?_, ?_⟩ <;> decide +kernel⟩,
   ⟨(5 : TileId), (.b : Cmp), (((on.modPanel 0 fun x => {x with cmpFilt := x.cmpFilt.set 0 0}).modCmp 5 .b fun x => {x with powered := true, cfg := 0x08024000, raw := true, lvl := true, acc := true}).modTrowel 5 fun w => {w with cfg := 0x009F3800, play := .playing, chopOn := true} : State), (20000000 : Int), ([] : List Int), by refine ⟨?_, ?_, ?_, ?_, ?_, ?_, ?_, by intro c' h; cases c' <;> first | exact absurd rfl h | exact ⟨by decide +kernel, by decide +kernel, by decide +kernel, fun e he => absurd (he.symm.trans (by decide +kernel)) (Option.some_ne_none e)⟩, ?_, ?_, ?_⟩ <;> decide +kernel⟩,
   ⟨(5 : TileId), (.b : Cmp), (((on.modPanel 0 fun x => {x with cmpFilt := x.cmpFilt.set 0 0x05000000}).modCmp 5 .b fun x => {x with powered := true, cfg := 0x08024000}) : State), (2000000 : Int), ([] : List Int), (true : Bool), by refine ⟨?_, ?_, ?_, ?_, ?_, ?_, ?_, by intro c' h; cases c' <;> first | exact absurd rfl h | exact ⟨by decide +kernel, by decide +kernel, by decide +kernel, fun e he => absurd (he.symm.trans (by decide +kernel)) (Option.some_ne_none e)⟩, ?_, ?_, ?_, ?_, ?_, ?_⟩ <;> decide +kernel⟩,
   ⟨(5 : TileId), (.b : Cmp), (((on.modPanel 0 fun x => {x with cmpFilt := x.cmpFilt.set 0 0x05000000}).modCmp 5 .b fun x => {x with powered := true, cfg := 0x08024000, raw := true, lvl := true}) : State), (1000000 : Int), ([] : List Int), (false : Bool), by refine ⟨?_, ?_, ?_, ?_, ?_, ?_, ?_, by intro c' h; cases c' <;> first | exact absurd rfl h | exact ⟨by decide +kernel, by decide +kernel, by decide +kernel, fun e he => absurd (he.symm.trans (by decide +kernel)) (Option.some_ne_none e)⟩, ?_, ?_, ?_, ?_, ?_, ?_⟩ <;> decide +kernel⟩,
   ⟨(5 : TileId), (.b : Cmp), ((on.modPanel 0 fun x => {x with cmpFilt := x.cmpFilt.set 0 0}).modCmp 5 .b fun x => {x with powered := true, cand := some (true, 4999999), gapUntil := some 5000001} : State), (true : Bool), (4999999 : Nat), (5000001 : Nat), by decide +kernel⟩,
   ⟨(5 : TileId), (.b : Cmp), (((on.modPanel 0 fun x => {x with cmpFilt := x.cmpFilt.set 0 0x00030000}).modCmp 5 .b fun x => {x with powered := true, cand := some (true, 4999999)}) : State), (true : Bool), (4999999 : Nat), by refine ⟨?_, ?_, ?_, ?_, ?_, ?_, ?_, ?_, by simp [State.unrouted, State.portStarts, State.links, on, localOf, cmpNum, State.modCmp, State.modTile, State.modEng, run, panelOf, State.modPanel, show ((5 : TileId) : Nat) = 5 from rfl, show ((510 : TileId) : Nat) = 510 from rfl]⟩ <;> decide +kernel⟩,
   ⟨(5 : TileId), (.b : Cmp), (((on.modPanel 0 fun x => {x with cmpFilt := x.cmpFilt.set 0 0}).modCmp 5 .b fun x => {x with powered := true, gapUntil := some 5000000}) : State), (5000000 : Nat), by decide +kernel⟩,
   ⟨(5 : TileId), (.b : Cmp), (((on.modPanel 0 fun x => {x with cmpFilt := x.cmpFilt.set 0 0x00030000}).modCmp 5 .b fun x => {x with powered := true, gapUntil := some 5000000, acc := true, lvl := true}) : State), (5000000 : Nat), by refine ⟨?_, ?_, ?_, ?_, ?_, ?_, ?_, by simp [State.unrouted, State.portStarts, State.links, on, localOf, cmpNum, State.modCmp, State.modTile, State.modEng, run, panelOf, State.modPanel, show ((5 : TileId) : Nat) = 5 from rfl, show ((510 : TileId) : Nat) = 510 from rfl]⟩ <;> decide +kernel⟩,
   ⟨(5 : TileId), (.b : Cmp), ((on.modPanel 0 fun x => {x with cmpFilt := x.cmpFilt.set 0 0x0100}).modCmp 5 .b fun x => {x with powered := true, cfg := 0x10, filt := true, lvl := true, activeSince := some 99983} : State), (99983 : Nat), by refine ⟨?_, ?_, ?_, ?_, ?_, ?_, by simp [State.unrouted, State.portStarts, State.links, on, localOf, cmpNum, State.modCmp, State.modTile, State.modEng, run, panelOf, State.modPanel, show ((5 : TileId) : Nat) = 5 from rfl, show ((510 : TileId) : Nat) = 510 from rfl]⟩ <;> decide +kernel⟩,
   ⟨(5 : TileId), (.b : Cmp), ((on.modPanel 0 fun x => {x with cmpFilt := x.cmpFilt.set 0 0}).modCmp 5 .b fun x => {x with powered := true, stuckPhase := .watched 98976} : State), (98976 : Nat), by decide +kernel⟩⟩

theorem witness_PinsAndTimers :
    (∃ (p : PinId) (s : State) (b : Bool), s.aon.up = true ∧ State.pinDrive s p = none ∧ s.gpio.pins[p].sync ≠ b ∧ s.gpio.pins[p].filt ≠ b ∧ s.gpio.pins[p].cand = none ∧ State.fastOn s = true ∧ State.minwFck s (State.pinProfile s p) ≠ 0) ∧
    (∃ (s : State), s.aon.up = false) ∧
    (∃ (p : PinId) (s : State) (lvl : Bool) (due : Nat) (g : Nat), s.gpio.pins[p].cand = some (lvl, due) ∧ State.fastOn s = true ∧ due ≤ s.aon.fck ∧ s.gpio.pins[p].stuck = false ∧ s.gpio.pins[p].stuckPhase = StuckPhase.none ∧ State.anyArmed s = false ∧ s.gpio.pins[p].gapUntil = some g ∧ s.aon.fck < g) ∧
    (∃ (p : PinId) (s : State) (lvl : Bool) (due : Nat), s.gpio.pins[p].cand = some (lvl, due) ∧ State.fastOn s = true ∧ due ≤ s.aon.fck ∧ s.gpio.pins[p].stuck = false ∧ s.gpio.pins[p].stuckPhase = StuckPhase.none ∧ State.anyArmed s = false ∧ s.gpio.pins[p].gapUntil = none ∧ s.gpio.pins[p].held ≠ lvl ∧ (∀ (q : PanelId) (k : Fin 32), s.panels[q].pinLine[k] ≠ ↑p)) ∧
    (∃ (p : PinId) (s : State) (g : Nat), s.gpio.pins[p].gapUntil = some g ∧ g ≤ s.aon.fck ∧ State.filterRuns s p = true ∧ s.gpio.pins[p].held = s.gpio.pins[p].filt) ∧
    (∃ (p : PinId) (s : State) (a : Nat), profMax (State.pinProfile s p) ≠ 0 ∧ s.gpio.pins[p].stuck = false ∧ s.gpio.pins[p].activeSince = some a ∧ State.filterRuns s p = true ∧ a + 16 * profMax (State.pinProfile s p) < s.aon.ticks ∧ s.gpio.pins[p].stuckPhase = StuckPhase.none ∧ (∀ (q : PanelId) (k : Fin 32), s.panels[q].pinLine[k] ≠ ↑p)) ∧
    (∃ (p : PinId) (s : State) (since : Nat), s.gpio.pins[p].stuckPhase = StuckPhase.watched since ∧ since + 1024 ≤ s.aon.ticks) ∧
    (∃ (p : PinId) (s : State), State.holdOver s p = false) ∧
    (∃ (p : PinId) (s : State), State.holdOver s p = true ∧ State.padLevel (State.modPin s p fun (x : Pin) => { cfg := x.cfg, locked := x.locked, out := x.out, pad := x.pad, kept := x.kept, sync := x.sync, filt := x.filt, held := x.held, ist := x.ist, ien := x.ien, stuck := x.stuck, wake := x.wake, stuckPhase := x.stuckPhase, cand := x.cand, gapUntil := x.gapUntil, activeSince := x.activeSince, woke := x.woke, holdAt := x.holdAt, latch := x.latch, reject := x.reject }) p = some s.gpio.pins[p].sync) ∧
    (∃ (k : Fin 16) (s : State), State.fastOn s = true ∧ s.gpio.timers[k].placed = true ∧ s.gpio.timers[k].left = 0 ∧ (∀ (q : PanelId) (i : Fin 32), s.panels[q].pinLine[i] ≠ 129 + ↑k) ∧ (∀ (p : PinId), Pin.oselA s.gpio.pins[p] ≠ 16 + ↑k ∧ Pin.oselB s.gpio.pins[p] ≠ 16 + ↑k) ∧ s.gpio.timers[k].output = true ∧ BitVec.toNat s.gpio.timers[k].period ≤ BitVec.toNat s.gpio.timers[k].high ∧ s.gpio.timers[k].high ≠ 0) ∧
    (∃ (k : Fin 16) (s : State), State.fastOn s = true ∧ s.gpio.timers[k].placed = true ∧ s.gpio.timers[k].left = 0 ∧ (∀ (q : PanelId) (i : Fin 32), s.panels[q].pinLine[i] ≠ 129 + ↑k) ∧ (∀ (p : PinId), Pin.oselA s.gpio.pins[p] ≠ 16 + ↑k ∧ Pin.oselB s.gpio.pins[p] ≠ 16 + ↑k) ∧ s.gpio.timers[k].output = true ∧ BitVec.toNat s.gpio.timers[k].high < BitVec.toNat s.gpio.timers[k].period) ∧
    (∃ (k : Fin 16) (s : State), State.fastOn s = true ∧ s.gpio.timers[k].placed = true ∧ s.gpio.timers[k].left = 0 ∧ (∀ (q : PanelId) (i : Fin 32), s.panels[q].pinLine[i] ≠ 129 + ↑k) ∧ (∀ (p : PinId), Pin.oselA s.gpio.pins[p] ≠ 16 + ↑k ∧ Pin.oselB s.gpio.pins[p] ≠ 16 + ↑k) ∧ s.gpio.timers[k].output = false ∧ s.gpio.timers[k].high ≠ 0) ∧
    (∃ (k : Fin 16) (s : State), State.fastOn s = true ∧ s.gpio.timers[k].placed = true ∧ s.gpio.timers[k].left = 0 ∧ (∀ (q : PanelId) (i : Fin 32), s.panels[q].pinLine[i] ≠ 129 + ↑k) ∧ (∀ (p : PinId), Pin.oselA s.gpio.pins[p] ≠ 16 + ↑k ∧ Pin.oselB s.gpio.pins[p] ≠ 16 + ↑k) ∧ s.gpio.timers[k].output = false ∧ s.gpio.timers[k].high = 0) ∧
    (∃ (k : Fin 16) (s : State), (State.fastOn s = false ∨ s.gpio.timers[k].left ≠ 0)) :=
  ⟨⟨(100 : PinId), (({on with gpio := {on.gpio with filt := on.gpio.filt.set 0 0x05000000}} : State).modPin 100 fun x => {x with pad := none} : State), (true : Bool), by decide +kernel⟩,
   ⟨({on with aon := {on.aon with up := false}} : State), by decide +kernel⟩,
   ⟨(100 : PinId), (({on with gpio := {on.gpio with filt := on.gpio.filt.set 0 0}} : State).modPin 100 fun x => {x with cand := some (true, 4999999), gapUntil := some 5000001} : State), (true : Bool), (4999999 : Nat), (5000001 : Nat), by decide +kernel⟩,
   ⟨(100 : PinId), (({on with gpio := {on.gpio with filt := on.gpio.filt.set 0 0}} : State).modPin 100 fun x => {x with cand := some (true, 4999999), ien := true, cfg := 0} : State), (true : Bool), (4999999 : Nat), by decide +kernel⟩,
   ⟨(100 : PinId), (({on with gpio := {on.gpio with filt := on.gpio.filt.set 0 0}} : State).modPin 100 fun x => {x with gapUntil := some 5000000} : State), (5000000 : Nat), by decide +kernel⟩,
   ⟨(100 : PinId), (({on with gpio := {on.gpio with filt := on.gpio.filt.set 0 0x0100}} : State).modPin 100 fun x => {x with activeSince := some 99983, wake := true} : State), (99983 : Nat), by decide +kernel⟩,
   ⟨(100 : PinId), (({on with gpio := {on.gpio with filt := on.gpio.filt.set 0 0}} : State).modPin 100 fun x => {x with stuckPhase := .watched 98976} : State), (98976 : Nat), by decide +kernel⟩,
   ⟨(100 : PinId), (({on with gpio := {on.gpio with filt := on.gpio.filt.set 0 0}} : State).modPin 100 fun x => {x with hold := true, holdAt := 4999999} : State), by decide +kernel⟩,
   ⟨(100 : PinId), (({on with gpio := {on.gpio with filt := on.gpio.filt.set 0 0}} : State).modPin 100 fun x => {x with hold := true, cfg := 0, pad := some false, holdAt := 4999998} : State), by decide +kernel⟩,
   ⟨(9 : Fin 16), (on.modTimer 9 fun x => {x with placed := true, period := 10, high := 10, output := true} : State), by decide +kernel⟩,
   ⟨(9 : Fin 16), (on.modTimer 9 fun x => {x with placed := true, period := 10, high := 3, output := true} : State), by decide +kernel⟩,
   ⟨(9 : Fin 16), (on.modTimer 9 fun x => {x with placed := true, period := 10, high := 3} : State), by decide +kernel⟩,
   ⟨(9 : Fin 16), (on.modTimer 9 fun x => {x with placed := true, period := 10, high := 0} : State), by decide +kernel⟩,
   ⟨(9 : Fin 16), (on.modTimer 9 fun x => {x with placed := true, period := 10, high := 3, left := 4} : State), by decide +kernel⟩⟩

theorem witness_Converters :
    (∃ (t : TileId) (s : State), State.conversionAt s t = none) ∧
    (∃ (t : TileId) (s : State) (a : Nat), State.conversionAt s t = some a ∧ State.joinedOdd s t = false ∧ State.sarListens s t = true) ∧
    (∃ (t : TileId) (s : State) (a : Nat), State.conversionAt s t = some a ∧ State.joinedOdd s t = false ∧ State.sarListens s t = false ∧ Tile.adcRoute s.tiles[t] = 0 ∧ Tile.adcFifoOn s.tiles[t] = true ∧ s.tiles[t].placed = false ∧ List.length s.tiles[t].eng.adcFifo < 32) ∧
    (∃ (t : TileId) (v : Int) (q : Nat) (s : State), 0 < ↑(State.vref s (panelOf t)) * pv ∧ State.skim0 s 1 0 ↑t = 0 ∧ State.skim0 s 2 0 ↑t = 0 ∧ q ≤ 16383 ∧ ↑q * (↑(State.vref s (panelOf t)) * pv) ≤ v * 16384 ∧ v * 16384 < (↑q + 1) * (↑(State.vref s (panelOf t)) * pv)) ∧
    (∃ (t : TileId) (v : Int) (s : State), 0 < ↑(State.vref s (panelOf t)) * pv ∧ State.skim0 s 1 0 ↑t = 0 ∧ State.skim0 s 2 0 ↑t = 0 ∧ v < 0) ∧
    (∃ (t : TileId) (v : Int) (s : State), 0 < ↑(State.vref s (panelOf t)) * pv ∧ State.skim0 s 1 0 ↑t = 0 ∧ State.skim0 s 2 0 ↑t = 0 ∧ ↑(State.vref s (panelOf t)) * pv ≤ v) ∧
    (∃ (t : TileId) (r : OpenRec) (s : State), s.tiles[t].openRec = some r ∧ r.openedAt + 120000 ≤ s.aon.fck) ∧
    (∃ (g : Fin 16) (f : Nat) (rest : List (Fin 16 × Nat)) (t : TileId) (o : TileId) (s : State), State.fastOn s = true ∧ s.lineSyncs = (g, f) :: rest ∧ f ≤ s.aon.fck ∧ State.syncMember s t (1#16 <<< g.val) = true ∧ State.feeder s t = some o) ∧
    (∃ (g : Fin 16) (s : State), (∀ (l : Fin 16 × Nat), l ∈ s.lineSyncs → l.fst = g → s.aon.fck < l.snd)) ∧
    (∃ (k : Fin 4) (x : Sync) (d : Desc) (s : State), State.fastOn s = true ∧ s.syncs[↑k]? = some x ∧ x.desc = some d ∧ (∀ (t : TileId), State.syncMember s t x.groups = false) ∧ State.syncRipe s x = true) ∧
    (∃ (k : Fin 4) (x : Sync) (d : Desc) (s : State), State.fastOn s = true ∧ s.syncs[↑k]? = some x ∧ x.desc = some d ∧ (∀ (t : TileId), State.syncMember s t x.groups = false) ∧ State.syncRipe s x = false) ∧
    (∃ (d : Desc) (s : State), State.takes s 114 d (syncHeader d) ∧ Desc.u d 24 2 ≠ 0 ∧ Desc.u d 26 1 = 0 ∧ Desc.u d 27 1 = 0) ∧
    (∃ (d : Desc) (s : State), State.takes s 114 d (syncHeader d) ∧ Desc.u d 24 2 ≠ 0 ∧ Desc.u d 26 1 = 1 ∧ Desc.u d 32 8 < BitVec.toNat (State.aonTime s) + 32000) ∧
    (∃ (d : Desc) (s : State), State.takes s 114 d (syncHeader d) ∧ Desc.u d 24 2 ≠ 0 ∧ Desc.u d 26 1 = 1 ∧ BitVec.toNat (State.aonTime s) + 32000 ≤ Desc.u d 32 8 ∧ 4 ≤ State.syncsAhead s) ∧
    (∃ (d : Desc) (s : State), State.takes s 114 d (syncHeader d) ∧ Desc.u d 24 2 ≠ 0 ∧ Desc.u d 26 1 = 1 ∧ Desc.u d 27 1 = 0 ∧ BitVec.toNat (State.aonTime s) + 32000 ≤ Desc.u d 32 8 ∧ State.syncsAhead s < 4) ∧
    (∃ (t : TileId) (out : Fin 64) (level : Bool) (s : State) (s1 : State) (k : TileId), State.sliceRuns s t = true ∧ Tile.teoSrc s.tiles[t] = 0 ∧ s.tiles[t].teo = false ∧ BitVec.getLsbD s.tiles[t].sliceOut ↑out ≠ level ∧ s.mem.errs = [] ∧ s1 = sliceStep t s ∧ BitVec.getLsbD s1.tiles[t].sliceOut ↑out = level ∧ k ≠ t) ∧
    (∃ (t : TileId) (out : Fin 64) (level : Bool) (s : State), State.sliceRuns s t = true ∧ Tile.teoSrc s.tiles[t] = 0 ∧ s.tiles[t].teo = false ∧ BitVec.getLsbD s.tiles[t].sliceOut ↑out ≠ level ∧ s.mem.errs = [] ∧ BitVec.getLsbD (sliceStep t s).tiles[t].sliceOut ↑out ≠ level) ∧
    (∃ (d : Desc) (s : State), State.takes s 133 d (headerFault d 0 BufUse.none CoatUse.bindable [(25, 1), (28, 36)]) ∧ Desc.bound d = false ∧ (∀ (f : Nat), f < 8 → Nat.testBit (Desc.u d 24 1) f = true → fnField (Desc.u d 26 2) f ≤ 1) ∧ (∃ (h : HeadId), Option.isSome s.heads[h].armed = true)) ∧
    (∃ (d : Desc) (s : State), State.takes s 133 d (headerFault d 0 BufUse.none CoatUse.bindable [(25, 1), (28, 36)]) ∧ Desc.bound d = false ∧ (∀ (f : Nat), f < 8 → Nat.testBit (Desc.u d 24 1) f = true → fnField (Desc.u d 26 2) f ≤ 1) ∧ State.anyArmed s = false ∧ (∀ (p : PanelId), PState.live (State.pstate s p) = false)) :=
  ⟨⟨(5 : TileId), (on.modTile 5 fun x => {x with adc := 0x04008D00, sar := {x.sar with en := true, seq := 255, missed := true, nextAt := some 5000001}} : State), by decide +kernel⟩,
   ⟨(5 : TileId), (on.modTile 5 fun x => {x with adc := 0x04008D00, sar := {x.sar with en := true, seq := 255, missed := true, nextAt := some 4999990}, trowel := {x.trowel with listen := some lst}} : State), (4999990 : Nat), by decide +kernel⟩,
   ⟨(5 : TileId), (on.modTile 5 fun x => {x with adc := 0x04008D00, sar := {x.sar with en := true, seq := 255, missed := true, nextAt := some 4999990}} : State), (4999990 : Nat), by decide +kernel⟩,
   ⟨(5 : TileId), (62500000000 : Int), (500 : Nat), (on : State), by decide +kernel⟩,
   ⟨(5 : TileId), (-1 : Int), (on : State), by decide +kernel⟩,
   ⟨(5 : TileId), (2048000000000 : Int), (on : State), by decide +kernel⟩,
   ⟨(5 : TileId), (⟨1000, 4880000, false, 5, [1,2,3]⟩ : OpenRec), (tl 5 (fun x => {x with openRec := some ⟨1000, 4880000, false, 5, [1,2,3]⟩}) on : State), by decide +kernel⟩,
   ⟨(3 : Fin 16), (4999999 : Nat), ([(4, 7)] : List (Fin 16 × Nat)), (5 : TileId), (5 : TileId), ({(on.modTile 5 fun x => {x with adc := 0xFC028D01, flt := 0xB3C00000, sar := {x.sar with en := true, total := 5}, openRec := some ⟨1000, 4880000, false, 5, [1,2,3]⟩}) with lineSyncs := [(3, 4999999), (4, 7)]} : State), by decide +kernel⟩,
   ⟨(3 : Fin 16), ({(on.modTile 5 fun x => {x with adc := 0xFC028D01, flt := 0xB3C00000, sar := {x.sar with en := true, total := 5}, openRec := some ⟨1000, 4880000, false, 5, [1,2,3]⟩}) with lineSyncs := [(3, 5000001), (4, 7)]} : State), by decide +kernel⟩,
   ⟨(1 : Fin 4), (⟨some (ds 0 []), 8, 1000000, none⟩ : Sync), (ds 0 [] : Desc), ({on with syncs := [⟨some (ds 0 []), 8, 3, none⟩, ⟨some (ds 0 []), 8, 1000000, none⟩]} : State), by refine ⟨?_, ?_, ?_, by intro t; simp [State.syncMember, Tile.syncEn, on], ?_⟩ <;> decide +kernel⟩,
   ⟨(1 : Fin 4), (⟨some (ds 0 []), 8, 3, some 5000001⟩ : Sync), (ds 0 [] : Desc), ({on with syncs := [⟨some (ds 0 []), 8, 3, none⟩, ⟨some (ds 0 []), 8, 3, some 5000001⟩]} : State), by refine ⟨?_, ?_, ?_, by intro t; simp [State.syncMember, Tile.syncEn, on], ?_⟩ <;> decide +kernel⟩,
   ⟨(ds 0 [(24, 2, 8)] : Desc), ({on with syncs := []} : State), by unfold State.takes; decide +kernel⟩,
   ⟨(ds 0 [(24, 2, 8),(26, 1, 1),(32, 8, 1031999)] : Desc), ({on with syncs := []} : State), by unfold State.takes; decide +kernel⟩,
   ⟨(ds 0 [(24, 2, 8),(26, 1, 1),(32, 8, 1032000)] : Desc), ({on with syncs := [⟨some (ds 0 []), 8, 1, none⟩, ⟨some (ds 0 []), 8, 2, none⟩, ⟨some (ds 0 []), 8, 3, none⟩, ⟨some (ds 0 []), 8, 4, none⟩]} : State), by unfold State.takes; decide +kernel⟩,
   ⟨(ds 0 [(24, 2, 8),(26, 1, 1),(32, 8, 1032000)] : Desc), ({on with syncs := [⟨some (ds 0 []), 8, 1, none⟩, ⟨some (ds 0 []), 8, 2, none⟩, ⟨some (ds 0 []), 8, 3, some 7⟩, ⟨some (ds 0 []), 8, 4, none⟩]} : State), by unfold State.takes; decide +kernel⟩,
   ⟨(5 : TileId), (3 : Fin 64), (false : Bool), (on.modTile 5 fun x => {x with frames := [(0, [])], sliceOut := 8} : State), (sliceStep 5 (on.modTile 5 fun x => {x with frames := [(0, [])], sliceOut := 8}) : State), (6 : TileId), by refine ⟨?_, ?_, ?_, ?_, ?_, rfl, ?_, ?_⟩ <;> decide +kernel⟩,
   ⟨(5 : TileId), (3 : Fin 64), (true : Bool), (on.modTile 5 fun x => {x with frames := [(0, [])], sliceOut := 0} : State), by decide +kernel⟩,
   ⟨(ds 0 [(24,1,5),(26,2,0x1010)] : Desc), (armed : State), by unfold State.takes; decide +kernel⟩,
   ⟨(ds 0 [(24,1,5),(26,2,0x1010)] : Desc), (({on with pwr := {on.pwr with panels := Vector.replicate 8 .off}, fnMode := 0x4001}) : State), by unfold State.takes; decide +kernel⟩⟩

theorem witness_TallyBus :
    (∃ (st : BitVec 9) (s : State) (at48 : BitVec 48), State.tallyListens s = true ∧ st ≠ s.tally.station ∧ BitVec.getLsbD s.aon.wakeCtrl 29 = false ∧ s.tally.silent = false ∧ BitVec.msb (nearest48 (State.aonTime s) at48 - State.aonTime s) = false ∧ State.syncsAhead s < 4) ∧
    (∃ (st : BitVec 9) (s : State) (at48 : BitVec 48), State.tallyListens s = true ∧ st ≠ s.tally.station ∧ BitVec.getLsbD s.aon.wakeCtrl 29 = false ∧ s.tally.silent = false ∧ BitVec.msb (nearest48 (State.aonTime s) at48 - State.aonTime s) = false ∧ 4 ≤ State.syncsAhead s) ∧
    (∃ (st : BitVec 9) (s : State) (at48 : BitVec 48), State.tallyListens s = true ∧ st ≠ s.tally.station ∧ BitVec.getLsbD s.aon.wakeCtrl 29 = false ∧ s.tally.silent = false ∧ BitVec.msb (nearest48 (State.aonTime s) at48 - State.aonTime s) = true) ∧
    (∃ (st : BitVec 9) (s : State), State.tallyListens s = true ∧ st ≠ s.tally.station ∧ BitVec.getLsbD s.aon.wakeCtrl 29 = false ∧ s.tally.silent = false ∧ (∀ (p : PinId), Pin.oselA s.gpio.pins[p] ≠ 2 ∧ Pin.oselB s.gpio.pins[p] ≠ 2)) ∧
    (∃ (st : BitVec 9) (s : State) (e : BitVec 16), State.tallyListens s = true ∧ st ≠ s.tally.station ∧ BitVec.getLsbD s.aon.wakeCtrl 29 = false ∧ s.tally.silent = false ∧ s.tally.masterNo = some st ∧ s.tally.master = false ∧ BitVec.getLsbD e 15 = false ∧ BitVec.setWidth 9 e = s.tally.station ∧ s.tally.tx = []) ∧
    (∃ (st : BitVec 9) (s : State) (e : BitVec 16), State.tallyListens s = true ∧ st ≠ s.tally.station ∧ BitVec.getLsbD s.aon.wakeCtrl 29 = false ∧ s.tally.silent = false ∧ s.tally.masterNo = some st ∧ s.tally.master = false ∧ BitVec.getLsbD e 15 = false ∧ BitVec.setWidth 9 e ≠ s.tally.station ∧ Tally.facing s.tally (BitVec.setWidth 9 e) = none) ∧
    (∃ (st : BitVec 9) (s : State), State.tallyListens s = true ∧ st ≠ s.tally.station ∧ BitVec.getLsbD s.aon.wakeCtrl 29 = false ∧ s.tally.silent = false ∧ s.tally.masterNo ≠ some st) ∧
    (∃ (st : BitVec 9) (s : State), State.tallyListens s = true ∧ st ≠ s.tally.station ∧ BitVec.getLsbD s.aon.wakeCtrl 29 = false ∧ s.tally.silent = false ∧ BitVec.toNat st ∈ s.tally.absent) ∧
    (∃ (st : BitVec 9) (s : State) (dest : BitVec 16) (x : Stitch), State.tallyListens s = true ∧ st ≠ s.tally.station ∧ BitVec.getLsbD s.aon.wakeCtrl 29 = false ∧ s.tally.silent = false ∧ ¬BitVec.toNat st ∈ s.tally.absent ∧ BitVec.setWidth 9 dest = s.tally.station ∧ Tally.facing s.tally st = some x ∧ s.heads[x.head].armed = none) ∧
    (∃ (st : BitVec 9) (s : State) (dest : BitVec 16), State.tallyListens s = true ∧ st ≠ s.tally.station ∧ BitVec.getLsbD s.aon.wakeCtrl 29 = false ∧ s.tally.silent = false ∧ ¬BitVec.toNat st ∈ s.tally.absent ∧ BitVec.setWidth 9 dest ≠ s.tally.station ∧ s.tally.master = false) ∧
    (∃ (st : BitVec 9) (s : State), State.tallyListens s = true ∧ s.tally.silent = true ∧ st ≠ s.tally.station ∧ BitVec.getLsbD s.aon.wakeCtrl 29 = false ∧ (∀ (p : PinId), Pin.oselA s.gpio.pins[p] ≠ 2 ∧ Pin.oselB s.gpio.pins[p] ≠ 2)) ∧
    (∃ (s : State) (x : TxFrame) (rest : List TxFrame), State.tallyListens s = true ∧ s.tally.silent = false ∧ s.tally.tx = x :: rest ∧ x.failed = false) ∧
    (∃ (s : State) (x : TxFrame) (rest : List TxFrame) (d : Desc), State.tallyListens s = true ∧ s.tally.silent = false ∧ s.tally.tx = x :: rest ∧ x.failed = true ∧ x.desc = some d ∧ (∀ (dst : BitVec 16) (ac hd : Byte), x.frame ≠ TFrame.stitch dst ac hd)) ∧
    (∃ (s : State) (x : TxFrame) (rest : List TxFrame) (st : BitVec 48) (gs : BitVec 16), State.tallyListens s = true ∧ s.tally.silent = false ∧ s.tally.tx = x :: rest ∧ x.desc = none ∧ x.frame = TFrame.sync st gs) ∧
    (∃ (s : State), State.tallyListens s = true ∧ s.tally.silent = false ∧ s.tally.master = true ∧ s.tally.expected = [] ∧ s.tally.absent = [] ∧ s.tally.rollDue ≤ s.aon.fck) ∧
    (∃ (s : State), State.tallyListens s = true ∧ s.tally.silent = false ∧ s.aon.fck < s.tally.rollDue) ∧
    (∃ (s : State), State.tallyListens s = true ∧ s.tally.silent = false ∧ s.tally.master = false ∧ s.tally.lastPeriod ≠ 0 ∧ s.tally.rollAt + 3600000 * BitVec.toNat s.tally.lastPeriod ≤ s.aon.fck) ∧
    (∃ (heard : List Nat) (st : Nat) (s : State), ¬st ∈ heard ∧ ¬st ∈ s.tally.missed) ∧
    (∃ (heard : List Nat) (st : Nat) (s : State), ¬st ∈ heard ∧ st ∈ s.tally.missed ∧ Tally.facing s.tally (BitVec.ofNat 9 st) = none) :=
  ⟨⟨(2 : BitVec 9), ({on with aon := {on.aon with wakeCtrl := 0}, tally := {on.tally with en := true, station := 9}} : State), (1000050 : BitVec 48), by decide +kernel⟩,
   ⟨(2 : BitVec 9), ({on with aon := {on.aon with wakeCtrl := 0}, tally := {on.tally with en := true, station := 9}, syncs := [⟨none,1,1000009,none⟩, ⟨none,1,1000009,none⟩, ⟨none,1,1000009,none⟩, ⟨none,1,1000009,none⟩]} : State), (1000050 : BitVec 48), by decide +kernel⟩,
   ⟨(2 : BitVec 9), ({on with aon := {on.aon with wakeCtrl := 0}, tally := {on.tally with en := true, station := 9, master := false}} : State), (999950 : BitVec 48), by decide +kernel⟩,
   ⟨(2 : BitVec 9), ({on with aon := {on.aon with wakeCtrl := 0}, tally := {on.tally with en := true, station := 9, master := false}} : State), by decide +kernel⟩,
   ⟨(2 : BitVec 9), ({on with aon := {on.aon with wakeCtrl := 0}, tally := {on.tally with en := true, station := 9, masterNo := some 2}} : State), (9 : BitVec 16), by decide +kernel⟩,
   ⟨(2 : BitVec 9), ({on with aon := {on.aon with wakeCtrl := 0}, tally := {on.tally with en := true, station := 9, masterNo := some 2}} : State), (11 : BitVec 16), by decide +kernel⟩,
   ⟨(2 : BitVec 9), ({on with aon := {on.aon with wakeCtrl := 0}, tally := {on.tally with en := true, station := 9, masterNo := some 3}} : State), by decide +kernel⟩,
   ⟨(2 : BitVec 9), ({on with aon := {on.aon with wakeCtrl := 0}, tally := {on.tally with en := true, station := 9, absent := [2]}} : State), by decide +kernel⟩,
   ⟨(2 : BitVec 9), ({on with aon := {on.aon with wakeCtrl := 0}, tally := {on.tally with en := true, station := 9, ranges := #v[none, some {head := 7, first := 0, count := 1, neighbour := 2, owned := false}]}} : State), (9 : BitVec 16), ({head := 7, first := 0, count := 1, neighbour := 2, owned := false} : Stitch), by decide +kernel⟩,
   ⟨(2 : BitVec 9), ({on with aon := {on.aon with wakeCtrl := 0}, tally := {on.tally with en := true, station := 9, ranges := #v[none, some {head := 7, first := 0, count := 1, neighbour := 2, owned := false}]}} : State), (8 : BitVec 16), by decide +kernel⟩,
   ⟨(2 : BitVec 9), ({on with aon := {on.aon with wakeCtrl := 0}, tally := {on.tally with en := true, station := 9, silent := true}} : State), by decide +kernel⟩,
   ⟨({on with aon := {on.aon with wakeCtrl := 0}, tally := {on.tally with en := true, station := 9, tx := [{frame := .sync 5 3, desc := none, failed := false}]}} : State), ({frame := .sync 5 3, desc := none, failed := false} : TxFrame), ([] : List TxFrame), by decide +kernel⟩,
   ⟨({on with aon := {on.aon with wakeCtrl := 0}, tally := {on.tally with en := true, station := 9, tx := [{frame := .sync 5 3, desc := some (ds 0 []), failed := true}]}} : State), ({frame := .sync 5 3, desc := some (ds 0 []), failed := true} : TxFrame), ([] : List TxFrame), (ds 0 [] : Desc), by refine ⟨?_, ?_, ?_, ?_, ?_, by intro _ _ _ h; cases h⟩ <;> decide +kernel⟩,
   ⟨({on with aon := {on.aon with wakeCtrl := 0}, tally := {on.tally with en := true, station := 9, tx := [{frame := .sync 5 3, desc := none, failed := true}]}} : State), ({frame := .sync 5 3, desc := none, failed := true} : TxFrame), ([] : List TxFrame), (5 : BitVec 48), (3 : BitVec 16), by decide +kernel⟩,
   ⟨({on with aon := {on.aon with wakeCtrl := 0}, tally := {on.tally with en := true, station := 9, master := true, period := 30, rollDue := 4999999, nextRoll := 3}} : State), by decide +kernel⟩,
   ⟨({on with aon := {on.aon with wakeCtrl := 0}, tally := {on.tally with en := true, station := 9, master := true, rollDue := 5000001}} : State), by decide +kernel⟩,
   ⟨({on with aon := {on.aon with wakeCtrl := 0}, tally := {on.tally with en := true, station := 9, lastPeriod := 1, rollAt := 1400000}} : State), by decide +kernel⟩,
   ⟨([3] : List Nat), (8 : Nat), ({on with aon := {on.aon with wakeCtrl := 0}, tally := {on.tally with en := true, station := 9, master := true}} : State), by decide +kernel⟩,
   ⟨([3] : List Nat), (8 : Nat), ({on with aon := {on.aon with wakeCtrl := 0}, tally := {on.tally with en := true, station := 9, master := true, missed := [8]}} : State), by decide +kernel⟩⟩

theorem witness_TallyCommands :
    (∃ (d : Desc) (s : State), State.takes s 144 d (tallyHeader d) ∧ tallyFault d = none ∧ State.tallyState s d = false ∧ State.rangeFault s d = none ∧ Desc.u d 24 1 = 0) ∧
    (∃ (d : Desc) (s : State), State.takes s 144 d (tallyHeader d) ∧ tallyFault d = none ∧ State.tallyState s d = false ∧ State.rangeFault s d = none ∧ Desc.u d 24 1 = 1 ∧ Desc.u d 29 1 = 1) ∧
    (∃ (d : Desc) (s : State), State.takes s 144 d (tallyHeader d) ∧ tallyFault d = none ∧ State.tallyState s d = false ∧ State.rangeFault s d = none ∧ Desc.u d 24 1 = 1 ∧ Desc.u d 29 1 = 0) ∧
    (∃ (d : Desc) (s : State), State.takes s 144 d (tallyHeader d) ∧ tallyFault d = none ∧ State.tallyState s d = false ∧ State.rangeFault s d = none ∧ Desc.u d 24 1 = 2) ∧
    (∃ (d : Desc) (s : State), State.takes s 144 d (tallyHeader d) ∧ tallyFault d = none ∧ State.tallyState s d = false ∧ State.rangeFault s d = none ∧ Desc.u d 24 1 = 3 ∧ State.tallyActive s = true) ∧
    (∃ (d : Desc) (s : State), State.takes s 144 d (tallyHeader d) ∧ tallyFault d = none ∧ State.tallyState s d = false ∧ State.rangeFault s d = none ∧ Desc.u d 24 1 = 4 ∧ Desc.len d = 128 ∧ State.linkUp s = true ∧ d.wr = Attempt.clean) ∧
    (∃ (d : Desc) (s : State) (off : Nat), State.takes s 144 d (tallyHeader d) ∧ tallyFault d = some off) ∧
    (∃ (d : Desc) (s : State), State.takes s 144 d (tallyHeader d) ∧ tallyFault d = none ∧ Desc.u d 24 1 < 4 ∧ State.tallyState s d = true) ∧
    (∃ (d : Desc) (s : State), State.takes s 145 d (headerFault d 0 BufUse.none CoatUse.unbound [(25, 3), (32, 32)]) ∧ Desc.u d 24 1 = 1 ∧ State.tallyActive s = true) ∧
    (∃ (d : Desc) (s : State) (x : Stitch), State.takes s 145 d (headerFault d 0 BufUse.none CoatUse.unbound [(25, 3), (32, 32)]) ∧ Desc.u d 24 1 = 3 ∧ State.tallyActive s = true ∧ Tally.facing s.tally (BitVec.setWidth 9 (BitVec.ofNat 16 (Desc.u d 28 2))) = some x) ∧
    (∃ (d : Desc) (s : State), State.takes s 145 d (headerFault d 0 BufUse.none CoatUse.unbound [(25, 3), (32, 32)]) ∧ (Desc.u d 24 1 = 1 ∨ Desc.u d 24 1 = 3) ∧ State.tallyActive s = false) :=
  ⟨⟨(ds 0 [(24,1,0),(26,2,7),(28,1,1)] : Desc), (on : State), by unfold State.takes; decide +kernel⟩,
   ⟨(ds 0 [(24,1,1),(29,1,1),(30,2,50)] : Desc), ({on with aon := {on.aon with wakeCtrl := 0}, tally := {on.tally with en := true, station := 9, master := false}} : State), by unfold State.takes; decide +kernel⟩,
   ⟨(ds 0 [(24,1,1),(29,1,0),(30,2,50)] : Desc), ({on with aon := {on.aon with wakeCtrl := 0}, tally := {on.tally with en := true, station := 9, master := true}} : State), by unfold State.takes; decide +kernel⟩,
   ⟨(ds 0 [(24,1,2),(32,1,1),(33,1,7),(34,2,1),(36,2,1),(38,2,8),(40,1,1)] : Desc), ({headed with aon := {headed.aon with wakeCtrl := 0}, tally := {headed.tally with en := true, station := 9, master := true}} : State), by unfold State.takes; decide +kernel⟩,
   ⟨(ds 0 [(24,1,3),(26,2,7)] : Desc), ({on with aon := {on.aon with wakeCtrl := 0}, tally := {on.tally with en := true, station := 9, master := true, absent := [3,7]}} : State), by unfold State.takes; decide +kernel⟩,
   ⟨(dsb 0 128 [(24,1,4)] : Desc), ({on with aon := {on.aon with wakeCtrl := 0}, tally := {on.tally with en := true, station := 9, master := true, absent := [3,7]}} : State), by unfold State.takes; decide +kernel⟩,
   ⟨(ds 0 [(24,1,1),(29,1,2),(30,2,50)] : Desc), (on : State), (29 : Nat), by unfold State.takes; decide +kernel⟩,
   ⟨(ds 0 [(24,1,1),(29,1,1),(30,2,50)] : Desc), (on : State), by unfold State.takes; decide +kernel⟩,
   ⟨(ds 0 [(24,1,1),(28,1,2),(29,1,255),(30,2,9)] : Desc), ({on with aon := {on.aon with wakeCtrl := 0}, tally := {on.tally with en := true, station := 9, master := true}} : State), by unfold State.takes; decide +kernel⟩,
   ⟨(ds 0 [(24,1,3),(28,2,2),(30,1,1)] : Desc), ({on with aon := {on.aon with wakeCtrl := 0}, tally := {on.tally with en := true, station := 9, ranges := #v[none, some {head := 7, first := 0, count := 1, neighbour := 2, owned := false}]}} : State), ({head := 7, first := 0, count := 1, neighbour := 2, owned := false} : Stitch), by unfold State.takes; decide +kernel⟩,
   ⟨(ds 0 [(24,1,3),(28,2,2),(30,1,1)] : Desc), (on : State), by unfold State.takes; decide +kernel⟩⟩

end Sys2Proof.Tests
end

section
/-!
PROOFS. What reports and the scrubber's reads leave alone: the memories' errors, and what O34 and O35 frame.
-/
namespace Sys2Proof.Machine

open Sys2Proof

/-! ### Reports and the errors of the memories -/

theorem raiseMsix_mem (v : Fin 64) (s : State) : (raiseMsix v s).mem = s.mem := by
  unfold raiseMsix; simp only []; split
  · rfl
  · split <;> rfl

theorem linkWake_mem (s : State) : (linkWake s).mem = s.mem := by
  unfold linkWake; split
  · simp only []; split <;> rfl
  · rfl

theorem putRecord_mem (n : Fin 32) (ty : Nat) (p : List Byte) (s : State) : (putRecord n ty p s).mem = s.mem := by
  unfold putRecord; simp only []; split
  · rw [State.modSt_mem, State.hostWrite_mem, State.hostWrite_mem]
  · rw [State.modSt_mem, State.hostWrite_mem]

theorem signalRing_mem (n : Fin 32) (s : State) : (signalRing n s).mem = s.mem := by
  unfold signalRing fireRing; simp only []; split
  · rw [raiseMsix_mem, State.modSt_mem, State.modSt_mem]
  · rw [State.modSt_mem]

theorem dropRecord_mem (n : Fin 32) (ty : Nat) (s : State) : (dropRecord n ty s).mem = s.mem := rfl

theorem writeRecord_mem (n : Fin 32) (ty : Nat) (p : List Byte) (s : State) :
    (writeRecord n ty p s).2.mem = s.mem := by
  rw [← linkWake_mem s]
  unfold writeRecord
  generalize linkWake s = w
  simp only []
  rw [apply_ite Prod.snd, apply_ite State.mem, signalRing_mem, putRecord_mem, dropRecord_mem]
  cases (w.sts[n]).gap with
  | none => exact ite_self _
  | some g => simp only [State.modSt_mem, putRecord_mem, ite_self]

theorem setEvent_mem (e : Ev) (s : State) : (setEvent e s).mem = s.mem := by
  unfold setEvent; simp only []; split
  · rw [raiseMsix_mem]
  · rfl

theorem raiseEventN_mem (k : Nat) (e : Ev) (src : Word) (s : State) : (raiseEventN k e src s).mem = s.mem := by
  induction k generalizing e src s with
  | zero => exact setEvent_mem e s
  | succ k ih =>
    simp only [raiseEventN]; split
    · exact setEvent_mem e s
    · split
      · rw [ih, writeRecord_mem, setEvent_mem]
      · rw [writeRecord_mem, setEvent_mem]

theorem raiseEvent_mem (e : Ev) (src : Word) (s : State) : (raiseEvent e src s).mem = s.mem :=
  raiseEventN_mem 2 e src s

theorem emit_mem (src : Source) (ty : Nat) (p : List Byte) (s : State) : (emit src ty p s).2.mem = s.mem := by
  unfold emit; split
  · rfl
  · simp only []; split
    · rw [raiseEvent_mem, writeRecord_mem]
    · rw [writeRecord_mem]

/-- Every word that is not clean lies in the ledger's ring (region 10 of R307). -/
def State.errsInLedger (s : State) : Prop := ∀ e ∈ s.mem.errs, e.loc.region = 10

theorem State.errsInLedger_of_clean {s : State} (h : s.mem.errs = []) : s.errsInLedger := by
  simp [State.errsInLedger, h]

theorem State.errsInLedger_dropErr (l : Loc) {s : State} (h : s.errsInLedger) : (s.dropErr l).errsInLedger :=
  fun e he => h e (List.mem_filter.mp he).1

theorem State.errsInLedger_putErr (e : WordErr) (he : e.loc.region = 10) {s : State} (h : s.errsInLedger) :
    (s.putErr e).errsInLedger := by
  unfold State.putErr; simp only []
  split
  · exact State.errsInLedger_dropErr e.loc h
  · intro x hx
    rcases List.mem_cons.mp hx with rfl | hx
    · exact he
    · exact State.errsInLedger_dropErr e.loc h x hx

/-- A write into the ledger's ring can flip bits of the word written and of no other (R316). -/
theorem State.errsInLedger_wholeWrite (l : Loc) (hl : l.region = 10) {s : State} (h : s.errsInLedger) :
    (wholeWrite l s).errsInLedger := by
  have hd : (s.dropErr l).errsInLedger := State.errsInLedger_dropErr l h
  unfold wholeWrite applyFlips
  generalize s.dropErr l = u at hd
  split
  · exact fun e he => State.errsInLedger_putErr _ hl hd e he
  · exact hd

theorem State.errsInLedger_appendEntry (cls : LClass) (kind : Byte) (source : BitVec 16) (a0 a1 a2 count : Word)
    {s : State} (h : s.errsInLedger) : (appendEntry cls kind source a0 a1 a2 count s).errsInLedger := by
  have words : ∀ (q : Word) (ks : List Nat) (u : State), u.errsInLedger →
      (ks.foldl (fun s k => wholeWrite (ledgerLoc q k) s) u).errsInLedger := by
    intro q ks
    induction ks with
    | nil => exact fun _ hu => hu
    | cons k ks ih => exact fun u hu => ih _ (State.errsInLedger_wholeWrite _ rfl hu)
  have hw := words (nextSeq s.ledger.seq) (List.range 4) s h
  simp only [State.errsInLedger, appendEntry, apply_ite State.mem, raiseEvent_mem, emit_mem, ite_self]
  exact hw

theorem State.errsInLedger_log (cls : LClass) (kind : Byte) (source : BitVec 16) (a0 a1 a2 : Word) {s : State}
    (h : s.errsInLedger) : (log cls kind source a0 a1 a2 s).errsInLedger := by
  unfold log; simp only []; split
  · exact h
  · exact State.errsInLedger_appendEntry _ _ _ _ _ _ _ h

theorem State.errsInLedger_scrubVote {s : State} (h : s.errsInLedger) : (scrubVote s).errsInLedger := by
  unfold scrubVote; simp only []; split
  · exact h
  · split <;> exact State.errsInLedger_log _ _ _ _ _ _ h

/-! ### What the scrubber leaves alone -/

/-- The AON domain and the power states stay, and under `p` the tiles. -/
structure State.Keeps (p : Prop) (s t : State) : Prop where
  aon : t.aon = s.aon
  pwr : t.pwr = s.pwr
  tiles : p → t.tiles = s.tiles

namespace State.Keeps

variable {p q : Prop} {s t u : State}

theorem refl : State.Keeps p s s := ⟨rfl, rfl, fun _ => rfl⟩

theorem trans (h : State.Keeps p s t) (k : State.Keeps p t u) : State.Keeps p s u :=
  ⟨k.aon.trans h.aon, k.pwr.trans h.pwr, fun hp => (k.tiles hp).trans (h.tiles hp)⟩

theorem imp (pq : q → p) (h : State.Keeps p s t) : State.Keeps q s t := ⟨h.aon, h.pwr, fun hq => h.tiles (pq hq)⟩

/-- A report keeps them. -/
theorem quiet (h : State.Keeps p s t) (q : u.quiet = t.quiet) : State.Keeps p s u :=
  h.trans ⟨State.quiet_aon q, State.quiet_pwr q, fun _ => State.quiet_tiles q⟩

theorem log (h : State.Keeps p s t) (cls : LClass) (kind : Byte) (source : BitVec 16) (a0 a1 a2 : Word) :
    State.Keeps p s (log cls kind source a0 a1 a2 t) := h.quiet (log_quiet ..)

theorem logMem (h : State.Keeps p s t) (cls : LClass) (kind : Byte) (l : Loc) (f : BitVec 80) :
    State.Keeps p s (logMem cls kind l f t) := h.log ..

theorem drawBit (h : State.Keeps p s t) : State.Keeps p s t.drawBit.2 := ⟨h.aon, h.pwr, h.tiles⟩

theorem correct (h : State.Keeps p s t) (l : Loc) (f : BitVec 80) : State.Keeps p s (correct l f t) := by
  have cleaned : ∀ (m : Integrity) (c : Scrub), State.Keeps p s { t with mem := m, scrub := c } :=
    fun _ _ => ⟨h.aon, h.pwr, h.tiles⟩
  unfold Machine.correct; simp only []
  split
  · exact ((cleaned _ _).logMem ..).logMem ..
  · exact (cleaned _ _).logMem ..

theorem lasting (h : State.Keeps p s t) (fatal : Bool) (l : Loc) (f : BitVec 80) :
    State.Keeps p s (lasting fatal l f t) := by
  have counted : ∀ c : Scrub, State.Keeps p s { t with scrub := c } := fun _ => ⟨h.aon, h.pwr, h.tiles⟩
  exact (counted _).logMem ..

/-- A transient read counts toward the WATCH of the tile whose memory it is (R321): beyond region 6 that is no tile. -/
theorem transientRead (h : State.Keeps p s t) (l : Loc) (hl : p → 6 < l.region.val) (f : BitVec 80) :
    State.Keeps p s (transientRead l f t) := by
  have dropped : State.Keeps p s (t.dropErr l) := ⟨h.aon, h.pwr, h.tiles⟩
  have logged := dropped.logMem .transient 0x02 l f
  unfold Machine.transientRead; simp only []
  split
  next hr => exact ⟨logged.aon, logged.pwr, fun hp => absurd (hl hp) (by omega)⟩
  next => exact logged

theorem secondRead (h : State.Keeps p s t) (fatal : Bool) (e : WordErr) (he : p → 6 < e.loc.region.val) :
    State.Keeps p s (secondRead fatal e t).2 := by
  simp only [Machine.secondRead]
  split
  · exact h.lasting ..
  · split
    · exact h.drawBit.transientRead _ he _
    · exact h.drawBit.lasting ..

theorem scrubWord (h : State.Keeps p s t) (l : Loc) (hl : p → 6 < l.region.val) :
    State.Keeps p s (scrubWord l t).2 := by
  unfold Machine.scrubWord
  split
  · exact h
  next e _ =>
    simp only []
    split
    · exact h.secondRead false { e with loc := l } hl
    · split
      · exact h.correct ..
      · exact h.secondRead false { e with loc := l } hl
      · split
        · exact h.drawBit.secondRead false { e with loc := l } hl
        · exact h.drawBit
      · exact h

end State.Keeps

/-- The reads of a list of words touch tiles only through words of regions 0 to 6. -/
theorem scrubWords_keeps {p : Prop} (es : List WordErr) (hp : p → ∀ e ∈ es, 6 < e.loc.region.val) {s t : State}
    (h : State.Keeps p s t) : State.Keeps p s (es.foldl (fun s e => (scrubWord e.loc s).2) t) := by
  induction es generalizing t with
  | nil => exact h
  | cons e es ih =>
    exact ih (fun hq x hx => hp hq x (List.mem_cons_of_mem _ hx))
      (h.scrubWord e.loc fun hq => hp hq e List.mem_cons_self)

theorem scrubAdvance_keeps (n : Nat) (s : State) : State.Keeps s.errsInLedger s (scrubAdvance n s) := by
  have read := scrubWords_keeps (p := s.errsInLedger) (s := s) (s.mem.errs.filter fun e =>
      s.locLive e.loc && ((List.range n).any fun k => passLoc ((s.scrubPtr + k) % passWords) == e.loc))
    (fun h e he => by rw [h e (List.mem_filter.mp he).1]; decide) .refl
  unfold scrubAdvance; simp only []
  split <;> exact ⟨read.aon, read.pwr, read.tiles⟩

theorem scrubVote_keeps (p : Prop) (s : State) : State.Keeps p s (scrubVote s) := by
  have voted : ∀ c : Scrub, State.Keeps p s { s with scrub := c } := fun _ => ⟨rfl, rfl, fun _ => rfl⟩
  unfold scrubVote; simp only []; split
  · exact .refl
  · split <;> exact (voted _).log ..

/-- Over clean memories the pass only moves on (R313). -/
theorem scrubAdvance_of_clean (n : Nat) (s : State) (h : s.mem.errs = []) :
    scrubAdvance n s = { s with scrub := { s.scrub with
      copies := s.scrub.copies.map fun c => { c with ptr := (s.scrubPtr + n) % passWords }, accAt := s.aon.fck
      passes := if passWords ≤ s.scrubPtr + n then s.scrub.passes + 1 else s.scrub.passes } } := by
  unfold scrubAdvance
  rw [h]
  by_cases hw : passWords ≤ s.scrubPtr + n <;> simp [hw, State.setScrub]

end Sys2Proof.Machine
end
section
/-!
PROOFS. SCK ticks and PTM (O34).
-/
namespace Sys2Proof.Machine

open Sys2Proof

/-- A tick without discipline: nothing to slew and no rate to correct (R16). -/
theorem discipline_of_idle (s : State) (hs : s.aon.slew = 0) (hr : s.aon.ptmRate = 0) :
    discipline s = (0, s.aon.slew, s) := by
  simp [discipline, hs, hr]

theorem tickTime_ticks (s : State) (hs : s.aon.slew = 0) (hr : s.aon.ptmRate = 0) :
    (tickTime s).aon.ticks = s.aon.ticks + 1 := by
  simp [tickTime, discipline_of_idle s hs hr]

theorem tickTime_sysBase (s : State) (hs : s.aon.slew = 0) (hr : s.aon.ptmRate = 0) :
    (tickTime s).aon.sysBase = s.aon.sysBase + (if (s.aon.ticks + 1) % 4 = 0 then 488282 else 488281) := by
  simp only [tickTime, discipline_of_idle s hs hr]
  split <;> rfl

theorem tickTime_frame (s : State) (hs : s.aon.slew = 0) (hr : s.aon.ptmRate = 0) :
    (tickTime s).tiles = s.tiles ∧ (tickTime s).pwr = s.pwr ∧ (tickTime s).mem = s.mem := by
  simp [tickTime, discipline_of_idle s hs hr]

/-- The vote and the pass that follow the tick of SYSTIME (R313, R314). -/
theorem execSckTick_keeps (s : State) (hu : s.aon.up = true) :
    ∃ t, execSckTick s = .next t ∧ State.Keeps (tickTime s).errsInLedger (tickTime s) t := by
  refine ⟨_, rfl, ?_⟩
  simp only [hu, Bool.not_true, Bool.false_eq_true, if_false]
  generalize tickTime s = u
  have hv := scrubVote_keeps u.errsInLedger u
  split
  · exact .refl
  · split
    · exact hv.trans ((scrubAdvance_keeps _ _).imp State.errsInLedger_scrubVote)
    · exact hv

theorem linkWake_of_L0 (s : State) (h : s.link.inL1 = false) : linkWake s = s := by simp [linkWake, h]

theorem logPtmStep_aon (old new : BitVec 64) (s : State) : (logPtmStep old new s).aon = s.aon :=
  State.quiet_aon (appendEntry_quiet ..)

/-- The state in which a dialogue was held, with what it measured (R258). -/
def State.ptmHeld (s : State) (host : BitVec 64) (rate : BitVec 16) : State :=
  let off := (s.aon.sysNow - host).toInt
  { s with aon := { s.aon with
    ptmAt := some s.aon.ticks, ptmOffset := BitVec.ofInt 32 (max (-(2 ^ 31)) (min (2 ^ 31 - 1) off)), ptmRate := rate
    ptmDialogues := s.aon.ptmDialogues + 1, ptmAligned := true, slew := if s.aon.ptmAligned then -off else 0 } }

theorem execPtmDialogue_of_due (host : BitVec 64) (rate : BitVec 16) (s : State) (hu : s.aon.up = true)
    (hl : s.linkUp = true) (he : s.link.ptmEn = true) (hd : s.link.d3hot = false) (h1 : s.link.inL1 = false)
    (hp : s.ptmDue = true) :
    execPtmDialogue host rate s = .next (if s.aon.ptmAligned then s.ptmHeld host rate
      else logPtmStep s.aon.sysNow host { s.ptmHeld host rate with aon := { (s.ptmHeld host rate).aon with
        sysBase := host, sysNow := host, interpFrom := host, interp := 0 } }) := by
  cases ha : s.aon.ptmAligned <;>
    simp [execPtmDialogue, hu, hl, he, hd, h1, hp, ha, linkWake_of_L0 s h1, State.ptmHeld]

/-- Settles O34: a tick without discipline, and a PTM dialogue that is due. -/
theorem systime : Obligations.Systime := by
  constructor
  · intro s hu hs hr
    obtain ⟨t, ht, hk⟩ := execSckTick_keeps s hu
    obtain ⟨htiles, hpwr, hmem⟩ := tickTime_frame s hs hr
    refine ⟨t, ht, ?_, ?_, fun herr => ⟨?_, hk.pwr.trans hpwr⟩⟩
    · rw [hk.aon, tickTime_ticks s hs hr]
    · rw [hk.aon, tickTime_sysBase s hs hr]
    · have clean : (tickTime s).errsInLedger := State.errsInLedger_of_clean (by rw [hmem, herr])
      rw [hk.tiles clean, htiles]
  · intro host rate s hu hl he hd h1 hp
    have hx : exec (.ptmDialogue host rate) s = _ := execPtmDialogue_of_due host rate s hu hl he hd h1 hp
    constructor
    · intro ha
      rw [ha] at hx
      refine ⟨_, hx, ?_⟩
      simp [logPtmStep_aon, State.ptmHeld, ha]
    · intro ha
      rw [ha] at hx
      refine ⟨_, hx, ?_⟩
      simp [State.ptmHeld, ha]

end Sys2Proof.Machine
end

section
/-!
PROOFS. Wakes, the fast clocks and the scrubber's accesses (O35).
-/
namespace Sys2Proof.Machine

open Sys2Proof

/-! ### Updates that write what is there -/

/-- A state that every element leaves as it is comes out of the whole list as it is. -/
theorem foldl_of_fixed {α : Type} {f : State → α → State} {s : State} (h : ∀ a : α, f s a = s) (l : List α) :
    l.foldl f s = s := by
  induction l with
  | nil => rfl
  | cons a l ih => rw [List.foldl_cons, h a, ih]

theorem State.modTile_of_fixed (s : State) (t : TileId) (f : Tile → Tile) (h : f s.tiles[t] = s.tiles[t]) :
    s.modTile t f = s := by
  simp only [State.modTile, h]
  simp

theorem State.modPin_of_fixed (s : State) (p : PinId) (f : Pin → Pin) (h : f s.gpio.pins[p] = s.gpio.pins[p]) :
    s.modPin p f = s := by
  simp only [State.modPin, h]
  simp

theorem State.modCmp_of_fixed (s : State) (t : TileId) (c : Cmp) (f : Comparator → Comparator)
    (h : f ((s.tiles[t]).cmp c) = (s.tiles[t]).cmp c) : s.modCmp t c f = s := by
  refine s.modTile_of_fixed t _ ?_
  cases c with
  | a => exact congrArg (fun y => { s.tiles[t] with cmpA := y }) h
  | b => exact congrArg (fun y => { s.tiles[t] with cmpB := y }) h

/-! ### What starts with QCK finds nothing to do -/

theorem retimeHead_of_noColumn (n : Fin 8) (h : HeadId) (s : State) (hc : (s.heads[h]).column = none) :
    retimeHead n h s = s := by
  unfold retimeHead
  rw [hc]
  split
  next hn => exact nomatch hn
  next => rfl

/-- No generator has a column to take up again (R75). -/
theorem retake_of_noColumn (s : State) (hc : ∀ h : HeadId, (s.heads[h]).column = none) : retake s = s := by
  have retimed : ∀ n : Fin 8, retimes n s = s := fun n =>
    foldl_of_fixed (fun h => retimeHead_of_noColumn n h s (hc h)) allHeads
  unfold retake; simp only []
  rw [foldl_of_fixed (s := s) ?_ allHeads]
  · exact foldl_of_fixed (f := fun s n => retimes n s) retimed _
  · intro h
    rw [hc h]
    split <;> rfl

theorem tileLive_of_panels (s : State) (hp : ∀ p : PanelId, (s.pstate p).live = false) (t : TileId) :
    s.tileLive t = false := by
  simp [State.tileLive, hp]

/-- A change waits in no filter of the pin, its level is the filtered one, and neither gap nor active time runs. -/
def Pin.atRest (x : Pin) : Prop := x.cand = none ∧ x.sync = x.filt ∧ x.gapUntil = none ∧ x.activeSince = none

theorem Pin.stoodStill_of_atRest (x : Pin) (h : x.atRest) (fck ticks : Nat) : x.stoodStill fck ticks = x := by
  obtain ⟨-, -, hg, ha⟩ := h
  cases x
  cases hg
  cases ha
  rfl

theorem pinFilter_of_atRest (p : PinId) (s : State) (h : (s.gpio.pins[p]).atRest) : pinFilter p s = ([], s) := by
  obtain ⟨hc, hs, -, -⟩ := h
  simp only [pinFilter, hc, hs, Option.isSome_none, Bool.false_and, Bool.false_eq_true, if_false, BEq.rfl, if_true]

/-- No pin's filter has anything to take up again (R367). -/
theorem pinsRestart_of_atRest (s : State) (h : ∀ p : PinId, (s.gpio.pins[p]).atRest) : pinsRestart s = s := by
  unfold pinsRestart; simp only []
  refine foldl_of_fixed (fun p => ?_) _
  rw [s.modPin_of_fixed p _ (Pin.stoodStill_of_atRest _ (h p) _ _), ite_self, (h p).1]
  simp only [pinFilter_of_atRest p s (h p)]
  rfl

theorem Comparator.refilter_of_noCand (x : Comparator) (h : x.cand = none) (due : Nat) :
    { x with cand := x.cand.map fun k => (k.1, due) } = x := by
  cases x
  cases h
  rfl

theorem cmpRefilter_of_noCand (t : TileId) (c : Cmp) (s : State) (h : ((s.tiles[t]).cmp c).cand = none) :
    cmpRefilter t c s = s := by
  unfold cmpRefilter; simp only []
  exact s.modCmp_of_fixed t c _ (Comparator.refilter_of_noCand _ h _)

/-- A sink of a panel that is not live follows nothing (R168). -/
theorem sinkFollow_of_notLive (p : PanelId) (k : Fin 256) (s : State) (h : (s.pstate p).live = false) :
    sinkFollow p k s = s := by
  simp [sinkFollow, State.reaches, h]

theorem resample_of_notLive (s : State) (hp : ∀ p : PanelId, (s.pstate p).live = false) : resample s = s :=
  foldl_of_fixed (fun p => foldl_of_fixed (fun k => sinkFollow_of_notLive p k s (hp p)) _) _

/-- With no live panel, no column and nothing in a filter, there is nothing to start again (R75, R133, R164, R168). -/
theorem restart_of_idle (s : State) (hp : ∀ p : PanelId, (s.pstate p).live = false)
    (hh : ∀ h : HeadId, (s.heads[h]).column = none)
    (hc : ∀ (t : TileId) (c : Cmp), ((s.tiles[t]).cmp c).cand = none) (hg : ∀ p : PinId, (s.gpio.pins[p]).atRest) :
    resample (allTiles.foldl (fun s t => cmpRefilter t .b (cmpRefilter t .a s))
      (pinsRestart (allTiles.foldl (fun s t => if s.tileLive t then sarResume t s else s) (retake s)))) = s := by
  have resumed : allTiles.foldl (fun s t => if s.tileLive t then sarResume t s else s) s = s :=
    foldl_of_fixed (fun t => by rw [tileLive_of_panels s hp t]; rfl) allTiles
  have refiltered : allTiles.foldl (fun s t => cmpRefilter t .b (cmpRefilter t .a s)) s = s :=
    foldl_of_fixed (fun t => by
      rw [cmpRefilter_of_noCand t .a s (hc t .a), cmpRefilter_of_noCand t .b s (hc t .b)]) allTiles
  rw [retake_of_noColumn s hh, resumed, pinsRestart_of_atRest s hg, refiltered, resample_of_notLive s hp]

/-- In such a module only the clock and the time change (R13, R17). -/
theorem execQckUsable_of_idle (s : State) (hf : s.clk.fast = .starting) (hq : s.clk.qckAt ≤ s.aon.fck)
    (hp : ∀ p : PanelId, (s.pstate p).live = false) (hh : ∀ h : HeadId, (s.heads[h]).column = none)
    (hc : ∀ (t : TileId) (c : Cmp), ((s.tiles[t]).cmp c).cand = none) (hg : ∀ p : PinId, (s.gpio.pins[p]).atRest) :
    execQckUsable s = .next { s with
      clk := { s.clk with fast := .qck }
      aon := { s.aon with
        interp := 0, interpFrom := s.aon.sysBase
        enc := s.aon.enc.map fun e => { e with intervals := [], lastAt := none } } } := by
  unfold execQckUsable
  rw [if_pos ⟨hf, hq⟩]
  exact congrArg Host.Outcome.next (restart_of_idle _ hp hh hc hg)

/-! ### The PLL and the clocks -/

theorem wake_of_stopped (src : BitVec 4) (s : State) (hm : s.pwr.mode = .armed) (hf : s.clk.fast = .stopped) :
    wake src s = { s with clk := startingClocks s.clk s.aon.fck, aon := { s.aon with wakeLast := src } } := by
  simp [wake, hm, hf]

theorem logPll_frame (cls : LClass) (s : State) : (logPll cls s).clk = s.clk ∧ (logPll cls s).tiles = s.tiles ∧
    (logPll cls s).aon = s.aon ∧ (logPll cls s).pwr = s.pwr := by
  have h : (logPll cls s).quiet = s.quiet := log_quiet ..
  exact ⟨State.quiet_clk h, State.quiet_tiles h, State.quiet_aon h, State.quiet_pwr h⟩

theorem execWakeTimerExpiry_of_due (s : State) (hu : s.aon.up = true) (he : s.aon.wakeCtrl.getLsbD 31 = true)
    (ht : ((s.aon.sysBase >>> 16).setWidth 32 - s.aon.wakeTime).toNat < 2 ^ 31) :
    execWakeTimerExpiry s =
      .next (wake 4 { s with aon := { s.aon with wakeCtrl := s.aon.wakeCtrl &&& 0x7FFFFFFF#32 } }) := by
  have hm : ((s.aon.sysBase >>> 16).setWidth 32 - s.aon.wakeTime).msb = false :=
    BitVec.msb_eq_false_iff_two_mul_lt.mpr (by omega)
  simp only [execWakeTimerExpiry, hu, he, hm]
  rfl

theorem execPllLock_first (s : State) (hp : s.clk.pll = .locking false) (ht : s.clk.pllAt + 14400 ≤ s.aon.fck) :
    execPllLock s =
      .next { s with clk := { s.clk with pll := .locked, changeoverDue := true, lockAt := s.aon.fck } } := by
  have late : ¬ s.aon.fck < s.clk.pllAt + usFck 12 := by unfold usFck; omega
  simp only [execPllLock, hp, late, if_false]
  rfl

theorem execPllLockTimeout_first (s : State) (hp : s.clk.pll = .locking false) (ht : s.clk.pllAt + 60000 ≤ s.aon.fck) :
    execPllLockTimeout s = .next { s with clk := { s.clk with pll := .locking true, pllAt := s.aon.fck } } := by
  have late : ¬ s.aon.fck < s.clk.pllAt + usFck 50 := by unfold usFck; omega
  simp only [execPllLockTimeout, hp, late, if_false]

theorem execPllLockTimeout_again (s : State) (hp : s.clk.pll = .locking true) (ht : s.clk.pllAt + 60000 ≤ s.aon.fck) :
    execPllLockTimeout s = .next (logPll .lasting { s with clk := { s.clk with pll := .failed } }) := by
  have late : ¬ s.aon.fck < s.clk.pllAt + usFck 50 := by unfold usFck; omega
  simp only [execPllLockTimeout, hp, late, if_false]

theorem execChangeover_of_due (s : State) (hf : s.clk.fast = .qck) (hd : s.clk.changeoverDue = true)
    (hg : s.generating = false) : execChangeover s = .next { s with
      clk := { s.clk with fast := .fck, changeoverDue := false, fckAt := s.aon.fck }
      aon := { s.aon with
        interp := s.aon.interp % 12
        interpFrom := s.aon.interpFrom + BitVec.ofNat 64 (160 * (s.aon.interp / 12)) } } := by
  simp [execChangeover, hg, changeover, hf, hd, interpStep]

theorem stopClocks_of_sarsOff (s : State) (hs : ∀ t : TileId, (s.tiles[t]).sar.en = false) :
    stopClocks s = { s with clk := { stopFck := s.aon.fck, stopTick := s.aon.ticks } } := by
  have paused : allTiles.foldl (fun s t => sarPause t s) s = s :=
    foldl_of_fixed (fun t => by rw [sarPause, hs t]; rfl) allTiles
  unfold stopClocks; simp only []
  rw [paused, ite_self]

theorem execFastClockStop_of_idle (s : State) (hm : s.pwr.mode = .armed) (hc : s.pwr.change = none)
    (hf : s.fastOn = true) (hw : s.clockWork = false) : execFastClockStop s = .next (stopClocks s) := by
  simp [execFastClockStop, hm, hc, hf, hw]

/-! ### The scrubber's accesses -/

theorem execScrubBurst_of_due (s : State) (hr : s.scrubRuns = true) (hm : s.pwr.mode = .armed)
    (hf : s.clk.fast = .stopped) (ht : s.scrub.burstAt + 64 ≤ s.aon.ticks) :
    execScrubBurst s = .next (scrubAdvance (64 * s.scrubRate)
      { s with scrub := { s.scrub with burstAt := s.aon.ticks } }) := by
  simp [execScrubBurst, hr, hm, hf, ht]

theorem execScrubStarvationGrant_of_due (s : State) (hr : s.scrubRuns = true) (hf : s.fastOn = true)
    (ht : s.scrub.accAt + 4096 ≤ s.aon.fck) : execScrubStarvationGrant s = .next (scrubAdvance 1 s) := by
  simp [execScrubStarvationGrant, hr, hf, ht]

/-- Settles O35, clause by clause: what each event of the clocks and the scrubber does when it is due. -/
theorem clocksAndScrubber : Obligations.ClocksAndScrubber := by
  intro s
  refine ⟨?wakeTimer, ?scheduled, ?qck, ?lock, ?restart, ?failed, ?changeover, ?stop, ?burst, ?grant⟩
  case wakeTimer =>
    intro hu he ht hm hf
    exact (execWakeTimerExpiry_of_due s hu he ht).trans (congrArg Host.Outcome.next (wake_of_stopped 4 _ hm hf))
  case scheduled =>
    intro hs hm hf
    have due : execScheduledWake s = .next (wake 7 s) := by simp [execScheduledWake, hs]
    exact due.trans (congrArg Host.Outcome.next (wake_of_stopped 7 s hm hf))
  case qck => exact execQckUsable_of_idle s
  case lock => exact execPllLock_first s
  case restart => exact execPllLockTimeout_first s
  case failed =>
    intro hp ht
    exact ⟨_, execPllLockTimeout_again s hp ht, logPll_frame ..⟩
  case changeover => exact execChangeover_of_due s
  case stop =>
    intro hm hc hf hw hs
    exact (execFastClockStop_of_idle s hm hc hf hw).trans (congrArg Host.Outcome.next (stopClocks_of_sarsOff s hs))
  case burst =>
    intro hr hm hf ht he
    exact (execScrubBurst_of_due s hr hm hf ht).trans (congrArg Host.Outcome.next (scrubAdvance_of_clean _ _ he))
  case grant =>
    intro hr hf ht he
    exact (execScrubStarvationGrant_of_due s hr hf ht).trans (congrArg Host.Outcome.next (scrubAdvance_of_clean 1 s he))

end Sys2Proof.Machine
end

section
/-!
PROOFS. What reports do to the ledger and to EV_STATUS: a status event and a record leave the ledger alone, no report takes an
event away, and an entry that merges with none carries the next sequence number.
-/
namespace Sys2Proof.Machine

open Sys2Proof

/-- What a record in a stream ring and an interrupt leave alone: the ledger and EV_STATUS. -/
def State.books (s : State) : Ledger × Events := (s.ledger, s.ev)

theorem raiseMsix_books (v : Fin 64) (s : State) : (raiseMsix v s).books = s.books := by
  unfold raiseMsix; simp only []; split
  · rfl
  · split <;> rfl

theorem linkWake_books (s : State) : (linkWake s).books = s.books := by
  unfold linkWake; split
  · simp only []; split <;> rfl
  · rfl

theorem State.modSt_books (n : Fin 32) (f : Stream → Stream) (s : State) : (s.modSt n f).books = s.books := rfl

theorem putRecord_books (n : Fin 32) (ty : Nat) (p : List Byte) (s : State) :
    (putRecord n ty p s).books = s.books := by
  unfold putRecord; simp only []; split <;> rfl

theorem signalRing_books (n : Fin 32) (s : State) : (signalRing n s).books = s.books := by
  unfold signalRing fireRing; simp only []; split
  · rw [raiseMsix_books, State.modSt_books, State.modSt_books]
  · rfl

theorem writeRecord_books (n : Fin 32) (ty : Nat) (p : List Byte) (s : State) :
    (writeRecord n ty p s).2.books = s.books := by
  refine Eq.trans ?_ (linkWake_books s)
  unfold writeRecord
  generalize linkWake s = w
  simp only []
  rw [apply_ite Prod.snd, apply_ite State.books, signalRing_books, putRecord_books]
  cases (w.sts[n]).gap with
  | none => exact ite_self _
  | some g =>
    simp only [State.modSt_books, putRecord_books]
    exact ite_self _

/-- A report leaves the ledger's entries alone, and EV_STATUS keeps every event it shows. -/
structure State.Reported (s t : State) : Prop where
  ledger : t.ledger = s.ledger
  events : ∀ i, s.ev.status.getLsbD i = true → t.ev.status.getLsbD i = true

theorem State.Reported.trans {s t u : State} (h : State.Reported s t) (k : State.Reported t u) : State.Reported s u :=
  ⟨k.ledger.trans h.ledger, fun i hi => k.events i (h.events i hi)⟩

theorem State.reported_of_books {s t : State} (h : t.books = s.books) : State.Reported s t := by
  obtain ⟨hl, he⟩ := Prod.mk.inj h
  exact ⟨hl, fun i hi => by rw [he, hi]⟩

theorem State.Reported.refl (s : State) : State.Reported s s := State.reported_of_books rfl

theorem setEvent_books (e : Ev) (s : State) :
    (setEvent e s).books = (s.ledger, { s.ev with status := s.ev.status ||| (1#13 <<< e.idx) }) := by
  unfold setEvent; simp only []; split
  · exact raiseMsix_books ..
  · rfl

theorem setEvent_status (e : Ev) (s : State) : (setEvent e s).ev.status = s.ev.status ||| (1#13 <<< e.idx) :=
  congrArg (fun b : Ledger × Events => b.2.status) (setEvent_books e s)

theorem setEvent_reported (e : Ev) (s : State) : State.Reported s (setEvent e s) :=
  ⟨congrArg Prod.fst (setEvent_books e s), fun i hi => by rw [setEvent_status, BitVec.getLsbD_or, hi, Bool.true_or]⟩

theorem setEvent_shows (e : Ev) (s : State) : (setEvent e s).ev.status.getLsbD e.idx = true := by
  rw [setEvent_status, BitVec.getLsbD_or]
  cases e <;> simp [Ev.idx]

theorem raiseEventN_reported (k : Nat) (e : Ev) (src : Word) (s : State) :
    State.Reported (setEvent e s) (raiseEventN k e src s) := by
  induction k generalizing e src s with
  | zero => exact .refl _
  | succ k ih =>
    simp only [raiseEventN]
    split
    · exact .refl _
    · next n _ =>
      have recorded := State.reported_of_books (writeRecord_books n 6 (statusPayload (setEvent e s) e src) (setEvent e s))
      split
      · exact recorded.trans ((setEvent_reported _ _).trans (ih ..))
      · exact recorded

theorem raiseEvent_reported (e : Ev) (src : Word) (s : State) : State.Reported s (raiseEvent e src s) :=
  (setEvent_reported e s).trans (raiseEventN_reported 2 e src s)

theorem raiseEvent_shows (e : Ev) (src : Word) (s : State) : (raiseEvent e src s).ev.status.getLsbD e.idx = true :=
  (raiseEventN_reported 2 e src s).events e.idx (setEvent_shows e s)

theorem emit_reported (src : Source) (ty : Nat) (p : List Byte) (s : State) : State.Reported s (emit src ty p s).2 := by
  unfold emit; split
  · exact .refl _
  · next n _ =>
    have recorded := State.reported_of_books (writeRecord_books n ty p s)
    simp only []; split
    · exact recorded.trans (raiseEvent_reported ..)
    · exact recorded

/-! ### Ledger entries -/

theorem wholeWrite_books (l : Loc) (s : State) : (wholeWrite l s).books = s.books := by
  unfold wholeWrite applyFlips State.putErr; simp only []; split
  · split <;> rfl
  · rfl

/-- The writes into the ledger's memory (R322). -/
theorem ledgerWrites_books (q : Word) (ks : List Nat) (s : State) :
    (ks.foldl (fun s k => wholeWrite (ledgerLoc q k) s) s).books = s.books := by
  induction ks generalizing s with
  | nil => rfl
  | cons k ks ih => rw [List.foldl_cons, ih, wholeWrite_books]

theorem State.reported_ite {c : Prop} [Decidable c] {s t : State} (h : State.Reported s t) :
    State.Reported s (if c then t else s) := by
  split
  · exact h
  · exact .refl s

/-- An appended entry takes the next sequence number; what follows it are reports. -/
theorem appendEntry_reported (cls : LClass) (kind : Byte) (source : BitVec 16) (a0 a1 a2 count : Word) (s : State) :
    ∃ u : State, u.ledger.seq = nextSeq s.ledger.seq ∧ u.ev = s.ev ∧
      State.Reported u (appendEntry cls kind source a0 a1 a2 count s) := by
  obtain ⟨-, he⟩ := Prod.mk.inj (ledgerWrites_books (nextSeq s.ledger.seq) (List.range 4) s)
  unfold appendEntry
  refine ⟨_, ?_, ?_, (State.reported_ite (emit_reported ..)).trans (State.reported_ite (raiseEvent_reported ..))⟩
  · rfl
  · exact he

theorem log_events (cls : LClass) (kind : Byte) (source : BitVec 16) (a0 a1 a2 : Word) (s : State) (i : Nat)
    (h : s.ev.status.getLsbD i = true) : (log cls kind source a0 a1 a2 s).ev.status.getLsbD i = true := by
  unfold log; simp only []; split
  · exact h
  · obtain ⟨u, -, he, reported⟩ := appendEntry_reported cls kind source a0 a1 a2 1 s
    exact reported.events i (by rw [he, h])

theorem log_seq_of_unmerged (cls : LClass) (kind : Byte) (source : BitVec 16) (a0 a1 a2 : Word) (s : State)
    (h : (s.ledger.entries.any fun e => e.merges cls kind source s.aon.ticks) = false) :
    (log cls kind source a0 a1 a2 s).ledger.seq = nextSeq s.ledger.seq := by
  simp only [log, h, Bool.false_eq_true, if_false]
  obtain ⟨u, hq, -, reported⟩ := appendEntry_reported cls kind source a0 a1 a2 1 s
  rw [reported.ledger, hq]

end Sys2Proof.Machine
end

section
/-!
PROOFS. Trowel trips, idle levels, fold-back and takeover (O55).
-/
namespace Sys2Proof.Machine

open Sys2Proof

/-! ### The trowel of a tile -/

theorem State.modTrowel_modTrowel (s : State) (t : TileId) (f g : Trowel → Trowel) :
    (s.modTrowel t f).modTrowel t g = s.modTrowel t fun w => g (f w) := by
  simp [State.modTrowel, State.modTile]

theorem State.modTrowel_congr (s : State) (t : TileId) {f g : Trowel → Trowel}
    (h : f (s.tiles[t]).trowel = g (s.tiles[t]).trowel) : s.modTrowel t f = s.modTrowel t g := by
  simp only [State.modTrowel, State.modTile, h]

theorem State.modTrowel_tile (s : State) (t : TileId) (f : Trowel → Trowel) :
    (s.modTrowel t f).tiles[t] = { s.tiles[t] with trowel := f (s.tiles[t]).trowel } := State.modTile_hit ..

theorem State.modTrowel_miss (s : State) {t k : TileId} (f : Trowel → Trowel) (h : k ≠ t) :
    (s.modTrowel t f).tiles[k] = s.tiles[k] := State.modTile_miss s t k _ h.symm

theorem partner_ne (t : TileId) : partner t ≠ t := by
  intro h
  have hv := congrArg Fin.val h
  unfold partner at hv
  split at hv <;> simp only [] at hv <;> omega

/-- Tiles, heads and calibration are as they were: what a trip's entries and its settling head leave alone. -/
structure State.Beside (s t : State) : Prop where
  tiles : t.tiles = s.tiles
  heads : t.heads = s.heads
  cal : t.cal = s.cal

theorem State.beside_of_quiet {s t : State} (h : t.quiet = s.quiet) : State.Beside s t :=
  ⟨State.quiet_tiles h, State.quiet_heads h, State.quiet_cal h⟩

theorem logTrip_beside (cls : LClass) (t : TileId) (s : State) : State.Beside s (logTrip cls t s) := by
  obtain ⟨ht, hh, hc⟩ := State.beside_of_quiet (log_quiet s.drawWord.2 cls 0x13 (srcTile t) (arg t.val) 0
    (s.drawWord.1.setWidth 32))
  exact ⟨ht, hh, hc⟩

theorem logBuddy_quiet (cls : LClass) (t : TileId) (what : Nat) (s : State) : (logBuddy cls t what s).quiet = s.quiet :=
  log_quiet ..

theorem logFold_quiet (t : TileId) (entry : Nat) (degC : Int) (s : State) : (logFold t entry degC s).quiet = s.quiet :=
  log_quiet ..

/-! ### How a head settles when nothing of it is in hand -/

/-- The end of a head's columns changes that head only, and not its pass (R30, R70). -/
theorem columnsDone_eq_modHead (h : HeadId) (hd : HeadDef) (s : State) :
    ∃ f : Head → Head, columnsDone h hd s = s.modHead h f ∧ ∀ x, (f x).pass = x.pass := by
  have same : s = s.modHead h id := by simp [State.modHead]
  have twice : ∀ (u : State) (f g : Head → Head), (u.modHead h f).modHead h g = u.modHead h fun x => g (f x) := by
    intro u f g
    simp [State.modHead]
  unfold columnsDone
  split
  · next p _ =>
    split
    · simp only [modProduct, twice]
      split
      · split
        · exact ⟨_, rfl, fun _ => rfl⟩
        · exact ⟨_, rfl, fun _ => rfl⟩
      · exact ⟨_, rfl, fun _ => rfl⟩
    · exact ⟨id, same, fun _ => rfl⟩
  · exact ⟨id, same, fun _ => rfl⟩

theorem passDone_of_noPass (h : HeadId) (hd : HeadDef) (s : State) (hp : (s.heads[h]).pass = none) :
    passDone h hd s = s := by
  unfold passDone
  rw [hp]

theorem calSettle_of_noWaits (s : State) (hw : s.cal.waits = []) : calSettle s = s := by
  have same : { s with cal := { s.cal with waits := [] } } = s := by rw [← hw]
  unfold calSettle
  simp only [hw, List.foldl_nil]
  exact same

theorem headSettle_keeps (h : HeadId) (s : State) (hw : s.cal.waits = []) (hp : (s.heads[h]).pass = none) :
    (headSettle h s).tiles = s.tiles ∧ (headSettle h s).ledger = s.ledger := by
  unfold headSettle
  split
  · next hd _ =>
    obtain ⟨f, hf, pass⟩ := columnsDone_eq_modHead h hd s
    have none' : ((s.modHead h f).heads[h]).pass = none := by
      rw [Fin.getElem_fin, State.modHead_hit, pass]
      exact hp
    rw [hf, passDone_of_noPass h hd _ none', calSettle_of_noWaits (s.modHead h f) hw]
    exact ⟨rfl, rfl⟩
  · exact ⟨rfl, rfl⟩

/-- The head of the fire that a trowel had in hand settles without it. -/
def settleFire (c : Option DueFire) (s : State) : State :=
  match c with
  | some d => if d.isOf d.head then headSettle d.head s else s
  | none => s

theorem settleFire_keeps (c : Option DueFire) (s : State) (hw : s.cal.waits = [])
    (hp : ∀ d : DueFire, c = some d → (s.heads[d.head]).pass = none) :
    (settleFire c s).tiles = s.tiles ∧ (settleFire c s).ledger = s.ledger := by
  cases c with
  | none => exact ⟨rfl, rfl⟩
  | some d =>
    simp only [settleFire]
    split
    · exact headSettle_keeps d.head s hw (hp d rfl)
    · exact ⟨rfl, rfl⟩

/-! ### Trips (R96) -/

/-- A takeover is refused, or scheduled in the failed trowel (R98). -/
theorem askBuddy_beside (t : TileId) (s : State) :
    ∃ o : Option Bool, State.Beside (s.modTrowel t fun w => { w with takeover := o }) (askBuddy t s) := by
  have kept : s.modTrowel t (fun w => { w with takeover := (s.tiles[t]).trowel.takeover }) = s :=
    s.modTile_of_fixed t _ rfl
  unfold askBuddy
  split
  · exact ⟨_, by rw [kept]; exact ⟨rfl, rfl, rfl⟩⟩
  · split
    · exact ⟨_, by rw [kept]; exact State.beside_of_quiet (logBuddy_quiet ..)⟩
    · exact ⟨some true, rfl, rfl, rfl⟩

/-- The trowel that a trip has switched off; after the second attempt's trip TRIP is set. -/
def Trowel.tripped (w : Trowel) (second : Bool) : Trowel :=
  { w with
    play := .idle, current := none, listen := none, chopOn := false, phase := if second then .none else .returning
    trip := second }

theorem execTrowelTrip_blocked (t : TileId) (s : State)
    (h : (s.tiles[t]).trowel.fold = true ∨ (s.tiles[t]).trowel.off = true ∨ s.trowelMode t = 0 ∨ s.trowelMode t = 3) :
    execTrowelTrip t s = .next s := by
  have blocked : ((s.tiles[t]).trowel.off || (s.tiles[t]).trowel.fold || decide (s.trowelMode t = 0) ||
      decide (s.trowelMode t = 3)) = true := by
    rcases h with h | h | h | h <;> simp only [h, Bool.or_true, Bool.true_or, decide_true]
  simp only [execTrowelTrip, blocked, if_true]

section
variable (t : TileId) (s : State) (hm0 : s.trowelMode t ≠ 0) (hm3 : s.trowelMode t ≠ 3)
  (ho : (s.tiles[t]).trowel.off = false) (hf : (s.tiles[t]).trowel.fold = false)
include hm0 hm3 ho hf

theorem execTrowelTrip_first (h : (s.tiles[t]).trowel.phase ≠ .second ∨ (s.tiles[t]).trowel.play ≠ .playing) :
    execTrowelTrip t s = .next (settleFire (s.tiles[t]).trowel.current (s.modTrowel t (·.tripped false))) := by
  have first : ((s.tiles[t]).trowel.phase == .second && (s.tiles[t]).trowel.play == .playing) = false := by
    rw [Bool.and_eq_false_iff]
    exact h.imp beq_eq_false_iff_ne.mpr beq_eq_false_iff_ne.mpr
  simp only [execTrowelTrip, hm0, hm3, ho, hf, first]
  rfl

/-- A trip in the second attempt degrades the tile and leaves its trowel off with TRIP set; no other tile changes. -/
theorem execTrowelTrip_second (hp : (s.tiles[t]).trowel.phase = .second) (hy : (s.tiles[t]).trowel.play = .playing) :
    ∃ (o : Option Bool) (u : State), execTrowelTrip t s = .next (settleFire (s.tiles[t]).trowel.current u) ∧
      u.heads = s.heads ∧ u.cal = s.cal ∧
      u.tiles[t] = { s.tiles[t] with
        degraded := true, trowel := { (s.tiles[t]).trowel.tripped true with takeover := o } } ∧
      ∀ k, k ≠ t → u.tiles[k] = s.tiles[k] := by
  let v := (s.modTrowel t (·.tripped true)).modTile t fun x => { x with degraded := true }
  have run : execTrowelTrip t s =
      .next (settleFire (s.tiles[t]).trowel.current (askBuddy t (logTrip .lasting t v))) := by
    simp only [execTrowelTrip, hm0, hm3, ho, hf, hp, hy]
    rfl
  have hit : v.tiles[t] = { s.tiles[t] with degraded := true, trowel := (s.tiles[t]).trowel.tripped true } := by
    simp [v, State.modTrowel]
  obtain ⟨ht, hh, hc⟩ := logTrip_beside .lasting t v
  obtain ⟨o, bt, bh, bc⟩ := askBuddy_beside t (logTrip .lasting t v)
  refine ⟨o, _, run, bh.trans hh, bc.trans hc, ?_, fun k hk => ?_⟩
  · rw [bt, State.modTrowel_tile, ht, hit]
  · rw [bt, State.modTrowel_miss _ _ hk, ht]
    exact (State.modTile_miss _ t k _ hk.symm).trans (State.modTrowel_miss s _ hk)

end

/-! ### Waits and the re-enable (R96, R99) -/

theorem reenable_of_scheduled (t : TileId) (s : State) (h : (s.tiles[t]).trowel.reenable = true) :
    reenable t s = s.modTrowel t fun w => { w with
      reenable := false, phase := .recovering, takeover := if w.taken = true then some false else none } := by
  simp only [reenable, endBuddy, h, if_true, State.modTrowel_tile, State.modTrowel_modTrowel]
  split
  · next hk => exact s.modTrowel_congr t (by rw [if_pos hk])
  · next hk => exact s.modTrowel_congr t (by rw [if_neg hk])

theorem execTrowelIdleReached_otherwise (t : TileId) (s : State) (h1 : (s.tiles[t]).trowel.phase ≠ .returning)
    (h2 : (s.tiles[t]).trowel.phase ≠ .recovering) : execTrowelIdleReached t s =
      .next (if (s.tiles[t]).trowel.reenable && s.fastOn && !s.armedTile t then reenable t s else s) := by
  simp only [execTrowelIdleReached, h1, h2, if_false]

/-! ### Fold-back (R97) -/

/-- Fold-back changes the tile's trowel and leaves one entry. -/
theorem logFold_modTrowel (t : TileId) (entry : Nat) (c : Int) (f : Trowel → Trowel) (s : State) :
    ((logFold t entry c (s.modTrowel t f)).tiles[t]).trowel = f (s.tiles[t]).trowel ∧
      (logFold t entry c (s.modTrowel t f)).heads = s.heads ∧
      ((s.ledger.entries.any fun e => e.merges .info 0x14 (srcTile t) s.aon.ticks) = false →
        (logFold t entry c (s.modTrowel t f)).ledger.seq = nextSeq s.ledger.seq) := by
  have q := State.beside_of_quiet (logFold_quiet t entry c (s.modTrowel t f))
  refine ⟨?_, q.heads, fun hm => log_seq_of_unmerged _ _ _ _ _ _ (s.modTrowel t f) hm⟩
  rw [q.tiles, State.modTrowel_tile]

/-! ### Takeover (R98, R99) -/

/-- The step of a takeover changes the two trowels of the pair. -/
theorem takeover_tiles (t : TileId) (what : Nat) (f g : Trowel → Trowel) (s : State) :
    let s' := logBuddy .info t what ((s.modTrowel t f).modTrowel (partner t) g)
    (s'.tiles[t]).trowel = f (s.tiles[t]).trowel ∧
      (s'.tiles[partner t]).trowel = g (s.tiles[partner t]).trowel ∧
      ∀ k, k ≠ t → k ≠ partner t → s'.tiles[k] = s.tiles[k] := by
  intro s'
  have ht : s'.tiles = ((s.modTrowel t f).modTrowel (partner t) g).tiles := State.quiet_tiles (logBuddy_quiet ..)
  rw [ht]
  refine ⟨?_, ?_, fun k hk hp => ?_⟩
  · rw [State.modTrowel_miss _ _ (partner_ne t).symm, State.modTrowel_tile]
  · rw [State.modTrowel_tile, State.modTrowel_miss _ _ (partner_ne t)]
  · rw [State.modTrowel_miss _ _ hp, State.modTrowel_miss _ _ hk]

/-- Settles O55, clause by clause: what each event of a trowel does under its conditions. -/
theorem trowels : Obligations.Trowels := by
  intro t s w foldMerges
  refine ⟨fun hm0 hm3 ho hf hw hp => ⟨fun hk => ?first, fun hk hy => ?second⟩, ?blocked, fun h => ?returning,
    fun h => ?recovering, fun h1 h2 => ⟨fun hr hq ha => ?reenabled, fun hr => ?nothing⟩,
    fun c => ⟨fun hc hl hf => ?entry, fun hc => ?noEntry, fun hc hf => ?exit, fun hc => ?noExit⟩, fun hb ho hk => ?start,
    fun hb ho hk => ?stop, fun hb => ?unbounded⟩
  case first =>
    obtain ⟨ht, hl⟩ := settleFire_keeps w.current (s.modTrowel t (·.tripped false)) hw hp
    refine ⟨_, execTrowelTrip_first t s hm0 hm3 ho hf hk, ?_, hl, fun k hne => ?_⟩
    · rw [ht, State.modTrowel_tile]
      rfl
    · rw [ht, State.modTrowel_miss s _ hne]
  case second =>
    obtain ⟨o, u, run, uh, uc, ut, others⟩ := execTrowelTrip_second t s hm0 hm3 ho hf hk hy
    obtain ⟨ht, -⟩ := settleFire_keeps w.current u (by rw [uc]; exact hw) (by rw [uh]; exact hp)
    refine ⟨_, run, ?_⟩
    rw [ht, ut]
    exact ⟨rfl, rfl, rfl, rfl, rfl, others⟩
  case blocked => exact execTrowelTrip_blocked t s
  case returning => exact congrArg Host.Outcome.next (if_pos h)
  case recovering =>
    have hne : ¬ (s.tiles[t]).trowel.phase = .returning := fun e => nomatch h.symm.trans e
    exact congrArg Host.Outcome.next ((if_neg hne).trans (if_pos h))
  case reenabled =>
    refine (execTrowelIdleReached_otherwise t s h1 h2).trans (congrArg Host.Outcome.next ?_)
    rw [← reenable_of_scheduled t s hr]
    simp only [show (s.tiles[t]).trowel.reenable = true from hr, hq, ha]
    rfl
  case nothing =>
    refine (execTrowelIdleReached_otherwise t s h1 h2).trans (congrArg Host.Outcome.next ?_)
    simp only [show (s.tiles[t]).trowel.reenable = false from hr]
    rfl
  case entry =>
    refine ⟨_, congrArg Host.Outcome.next (if_pos ⟨hc, hl, ?_⟩), logFold_modTrowel t 1 c _ s⟩
    rw [show (s.tiles[t]).trowel.fold = false from hf]
    rfl
  case noEntry => exact congrArg Host.Outcome.next (if_neg fun h => by omega)
  case exit => exact ⟨_, congrArg Host.Outcome.next (if_pos ⟨hc, hf⟩), logFold_modTrowel t 0 c _ s⟩
  case noExit => exact congrArg Host.Outcome.next (if_neg fun h => by omega)
  case start =>
    refine ⟨_, congrArg Host.Outcome.next (if_pos ⟨ho, ?_, hb⟩), takeover_tiles t 0 _ _ s⟩
    rw [show (s.tiles[t]).trowel.taken = false from hk]
    rfl
  case stop => exact ⟨_, congrArg Host.Outcome.next (if_pos ⟨ho, hk, hb⟩), takeover_tiles t 1 _ _ s⟩
  case unbounded =>
    have off : ¬ s.tileBoundary t = true := by simp [hb]
    exact ⟨congrArg Host.Outcome.next (if_neg fun h => off h.2.2), congrArg Host.Outcome.next (if_neg fun h => off h.2.2)⟩

end Sys2Proof.Machine
end

section
/-!
PROOFS. Rails, references, measurement and FAULT_HOLD (O37).
-/
namespace Sys2Proof.Machine

open Sys2Proof

/-! ### Lists of updates -/

/-- What no update of a list changes, the whole list leaves alone. -/
theorem foldl_keeps {α β : Type} (view : State → β) (f : State → α → State) (h : ∀ s a, view (f s a) = view s)
    (l : List α) (s : State) : view (l.foldl f s) = view s := by
  induction l generalizing s with
  | nil => rfl
  | cons a l ih => rw [List.foldl_cons, ih, h]

/-- A state that every member of a list leaves as it is comes out of the list as it is. -/
theorem foldl_of_fixed_mem {α : Type} {f : State → α → State} {s : State} (l : List α) (h : ∀ a ∈ l, f s a = s) :
    l.foldl f s = s := by
  induction l with
  | nil => rfl
  | cons a l ih => rw [List.foldl_cons, h a List.mem_cons_self, ih fun b hb => h b (List.mem_cons_of_mem _ hb)]

/-! ### Rail starts (R94, R275, R276) -/

theorem execRailGood_first (r : Rail) (uF : Nat) (s : State) (hs : s.railStarting r = true) (ht : s.pwr.railTried = [])
    (hr : s.railRamp r = 0 ∨ s.railRan r (s.railRamp r) = true) :
    execRailGood r uF s = .next (noteRails (railUp r uF s)) := by
  have ran : (s.railStarting r && (s.railRamp r == 0 || s.railRan r (s.railRamp r))) = true := by
    rw [hs, Bool.true_and, Bool.or_eq_true, beq_iff_eq]
    exact hr
  simp only [execRailGood, ran, ht, if_true, List.contains_nil, Bool.false_eq_true, if_false]

/-- The reservoir of a rail that comes up with 30 uF or more (R94). -/
theorem measureCrs_of_enough (p : PanelId) (uF : Nat) (s : State) (hd : (s.panels[p]).crsDue = true) (hu : 30 ≤ uF) :
    measureCrs p uF s = s.modPanel p fun x => { x with crsDue := false, crsCap := satNat 16 uF, crsOk := true } := by
  have low : ¬ uF < 30 := by omega
  simp only [measureCrs, hd, low, hu, if_true, if_false, decide_true]

/-- The panel whose rail has come up, with its reservoir of 30 uF or more as measured. -/
def Panel.railUp (x : Panel) (uF : Nat) : Panel :=
  { x with pvhOn := true, pvhOk := true, crsDue := false, crsCap := satNat 16 uF, crsOk := true }

theorem railUp_pvh_of_enough (p : PanelId) (uF : Nat) (s : State) (hd : (s.panels[p]).crsDue = true) (hu : 30 ≤ uF) :
    railUp (.pvh p) uF s = s.modPanel p (·.railUp uF) := by
  have due : ((s.modPanel p fun x => { x with pvhOn := true, pvhOk := true }).panels[p]).crsDue = true := by
    rw [Fin.getElem_fin, State.modPanel_hit]
    exact hd
  simp only [Machine.railUp, measureCrs_of_enough p uF _ due hu]
  simp [State.modPanel, Panel.railUp]

theorem satNat_toNat (w n : Nat) : (satNat w n).toNat = min n (2 ^ w - 1) := by
  have := Nat.two_pow_pos w
  rw [satNat, BitVec.toNat_ofNat, Nat.mod_eq_of_lt]
  omega

/-- The first start that fails is noted, and the rail is tried again (R275). -/
theorem execRailStartTimeout_hlv_first (s : State) (hs : s.railStarting .hlv = true) (ht : s.pwr.railTried = [])
    (hr : s.railRan .hlv 5000 = true) : execRailStartTimeout .hlv s = .next (noteRails { s with pwr := { s.pwr with
      railTried := [.hlv], railFrom := s.pwr.railFrom.filter fun x => x.1 != .hlv } }) := by
  have ran : (s.railStarting .hlv && s.railRan .hlv (s.railRamp .hlv + 5000)) = true := by
    rw [hs, Bool.true_and]
    exact hr
  simp only [execRailStartTimeout, ran, ht]
  rfl

theorem execHlvLimitTimeout_of_due (s : State) (ho : s.pwr.hlvOk = true) (hf : s.pwr.hlvAt + 12000000 ≤ s.aon.fck) :
    execHlvLimitTimeout s = .next (raiseEvent .powerOver noUnit { s with pwr := { s.pwr with hlvOver := true } }) := by
  have due : (s.pwr.hlvOk && decide (s.pwr.hlvAt + usFck 10000 ≤ s.aon.fck)) = true := by simp [ho, usFck, hf]
  simp only [execHlvLimitTimeout, due, if_true]

/-! ### FAULT_HOLD (R273, R274) -/

theorem railDown_pvhOn (p q : PanelId) (s : State) (h : q = p ∨ (s.panels[q]).pvhOn = false) :
    ((railDown p s).panels[q]).pvhOn = false := by
  unfold railDown
  by_cases hq : p = q
  · subst hq
    rw [Fin.getElem_fin, State.modPanel_hit]
  · rw [Fin.getElem_fin, State.modPanel_miss s p q _ hq]
    exact h.resolve_left fun e => hq e.symm

theorem railDown_all_pvhOn (ps : List PanelId) (q : PanelId) (s : State) (h : q ∈ ps ∨ (s.panels[q]).pvhOn = false) :
    ((ps.foldl (fun s p => railDown p s) s).panels[q]).pvhOn = false := by
  induction ps generalizing s with
  | nil => exact h.resolve_left List.not_mem_nil
  | cons p ps ih =>
    refine ih _ ?_
    rcases h with h | h
    · exact (List.mem_cons.mp h).symm.imp_right fun e => railDown_pvhOn p q s (.inl e)
    · exact .inr (railDown_pvhOn p q s (.inr h))

/-- FAULT_HOLD with its cause: every rail and supply is off, no step runs, the fast clocks stand, NFAULT is driven. -/
structure State.Held (c : BitVec 3) (s : State) : Prop where
  mode : s.pwr.mode = .faultHold
  cause : s.pwr.fcause = c
  nfault : s.pwr.nfault = true
  hlv : s.pwr.hlvOk = false
  vdda : s.pwr.vddaGood = false
  change : s.pwr.change = none
  clocks : s.clk.fast = .stopped
  rails : ∀ p : PanelId, (s.panels[p]).pvhOn = false

theorem State.Held.of_eq {c : BitVec 3} {s t : State} (h : State.Held c s) (hp : t.pwr = s.pwr) (hc : t.clk = s.clk)
    (hn : t.panels = s.panels) : State.Held c t :=
  { mode := hp ▸ h.mode, cause := hp ▸ h.cause, nfault := hp ▸ h.nfault, hlv := hp ▸ h.hlv, vdda := hp ▸ h.vdda
    change := hp ▸ h.change, clocks := hc ▸ h.clocks, rails := hn ▸ h.rails }

theorem State.Held.quiet {c : BitVec 3} {s t : State} (h : State.Held c s) (q : t.quiet = s.quiet) : State.Held c t :=
  h.of_eq (State.quiet_pwr q) (State.quiet_clk q) (State.quiet_panels q)

/-- What the entry writes into the power domain once the rails are off (R273). -/
def State.holdEntered (c : BitVec 3) (s : State) : State :=
  { s with pwr := { s.pwr with
    mode := .faultHold, fcause := c, fclear := false, nfault := true, change := none, dormantDue := false
    vddaGood := false, vddaEn := false, pvhEn := Vector.replicate 8 false, railTried := [], railFrom := [] } }

/-- A SET_POWER_STATE that the entry breaks off is aborted. -/
def abortChange (ch : Option Change) (s : State) : State :=
  match ch with
  | some c => refuse 0x02 c.desc .aborted s
  | none => s

theorem State.Held.abortChange {c : BitVec 3} {s : State} (h : State.Held c s) (ch : Option Change) :
    State.Held c (abortChange ch s) := by
  cases ch with
  | none => exact h
  | some x =>
    have calm := finish_calm 0x02 x.desc .aborted 0 0 s
    exact h.of_eq (State.calm_pwr calm) (State.calm_clk calm) (State.calm_panels calm)

/-- The entry first halts heads, clocks and rails, whatever they were doing. -/
theorem enterFaultHold_eq (c : BitVec 3) (s : State) :
    ∃ u : State, u.pwr.hlvOk = false ∧ u.clk.fast = .stopped ∧ (∀ p : PanelId, (u.panels[p]).pvhOn = false) ∧
      enterFaultHold c s = abortChange u.pwr.change (u.holdEntered c) := by
  unfold enterFaultHold
  simp only []
  generalize allHeads.foldl (fun s h => haltHead h s) _ = w
  have hp : (allPanels.foldl (fun s p => railDown p s) (hlvDown (stopClocks w))).pwr.hlvOk = false :=
    foldl_keeps (fun s => s.pwr.hlvOk) (fun s p => railDown p s) (fun _ _ => rfl) allPanels _
  have hc : (allPanels.foldl (fun s p => railDown p s) (hlvDown (stopClocks w))).clk.fast = .stopped :=
    foldl_keeps (fun s => s.clk.fast) (fun s p => railDown p s) (fun _ _ => rfl) allPanels _
  have hr := fun q : PanelId => railDown_all_pvhOn allPanels q (hlvDown (stopClocks w)) (.inl (List.mem_finRange q))
  generalize allPanels.foldl (fun s p => railDown p s) (hlvDown (stopClocks w)) = u at hp hc hr
  refine ⟨u, hp, hc, hr, ?_⟩
  unfold abortChange
  cases u.pwr.change <;> rfl

theorem enterFaultHold_held (c : BitVec 3) (s : State) : State.Held c (enterFaultHold c s) := by
  obtain ⟨u, hlv, clocks, rails, entry⟩ := enterFaultHold_eq c s
  have held : State.Held c (u.holdEntered c) :=
    { mode := rfl, cause := rfl, nfault := rfl, hlv, vdda := rfl, change := rfl, clocks, rails }
  rw [entry]
  exact held.abortChange _

theorem State.Held.atTrip {c : BitVec 3} {s : State} (h : State.Held c s) (n : Nat) :
    State.Held c { s with pwr := { s.pwr with tripAt := n } } := by
  obtain ⟨mode, cause, nfault, hlv, vdda, change, clocks, rails⟩ := h
  exact ⟨mode, cause, nfault, hlv, vdda, change, clocks, rails⟩

section
variable (c : BitVec 3) (s : State) (h0 : c ≠ 0) (h7 : c ≠ 7) (hu : s.aon.up = true)
include h0 h7 hu

theorem faultHoldTrip_accepted : ¬ (c = 0 ∨ c = 7 ∨ (!s.aon.up) = true) := by
  rintro (h | h | h)
  · exact h0 h
  · exact h7 h
  · rw [hu] at h
    cases h

theorem execFaultHoldTrip_again (m : Word) (hm : s.pwr.mode = .faultHold) : execFaultHoldTrip c m s =
    .next (log .lasting 0x3A srcModule (c.setWidth 32) m 0
      { s with pwr := { s.pwr with fclear := false, tripAt := s.aon.ticks } }) := by
  rw [execFaultHoldTrip, if_neg (faultHoldTrip_accepted c s h0 h7 hu)]
  simp only [hm, if_true]

theorem execFaultHoldTrip_entry (m : Word) (hm : s.pwr.mode ≠ .faultHold) :
    ∃ t, execFaultHoldTrip c m s = .next t ∧ State.Held c t ∧ t.ev.status.getLsbD 3 = true := by
  let e := raiseEvent .faultHold noUnit (enterFaultHold c s)
  have held : State.Held c e := (enterFaultHold_held c s).quiet (raiseEvent_quiet ..)
  have run : execFaultHoldTrip c m s = .next (log .lasting 0x3A srcModule (c.setWidth 32) m 0
      { e with pwr := { e.pwr with tripAt := e.aon.ticks } }) := by
    rw [execFaultHoldTrip, if_neg (faultHoldTrip_accepted c s h0 h7 hu)]
    simp only [hm, if_false, e]
  exact ⟨_, run, (held.atTrip _).quiet (log_quiet ..), log_events _ _ _ _ _ _ _ 3 (raiseEvent_shows .faultHold ..)⟩

end

/-! ### Measurement (R262, R265) -/

/-- What a measuring window has taken, the grant, and the tiles. -/
def State.measured (s : State) : BitVec 16 × BitVec 12 × BitVec 16 × BitVec 16 × Vector Tile 512 :=
  (s.pwr.pin, s.pwr.vin, s.pwr.pinMax, s.pwr.grant, s.tiles)

theorem State.measured_of_quiet {s t : State} (h : t.quiet = s.quiet) : t.measured = s.measured := by
  simp only [State.measured, State.quiet_pwr h, State.quiet_tiles h]

theorem railsSeen_measured (a b : Nat) (s : State) : (railsSeen a b s).measured = s.measured := rfl

theorem overGrant_measured (pin : Nat) (s : State) : (overGrant pin s).measured = s.measured := by
  unfold overGrant
  simp only []
  generalize (if s.pwr.grant.toNat < pin then min 3 (s.pwr.overWindows + 1) else 0) = n
  split
  · rw [State.measured_of_quiet (raiseEvent_quiet ..), State.measured_of_quiet (log_quiet ..)]
    rfl
  · rfl

theorem execPowerWindow_measured (pin vin : BitVec 16) (rails pvh : List Word) (s : State) (hu : s.aon.up = true) :
    ∃ t, execPowerWindow pin vin rails pvh s = .next t ∧ t.measured = (pin, satNat 12 vin.toNat,
      if s.pwr.pinMax.toNat < pin.toNat then pin else s.pwr.pinMax, s.pwr.grant, s.tiles) := by
  refine ⟨_, rfl, ?_⟩
  simp only [hu, Bool.not_true, Bool.false_eq_true, if_false]
  rw [apply_ite State.measured, overGrant_measured, ite_self, railsSeen_measured]
  refine (foldl_keeps State.measured _ (fun u p => ?_) ..).trans rfl
  split <;> rfl

/-! ### References and sensors (R136, R137, R359) -/

theorem cmpPowerUp_of_disabled (t : TileId) (c : Cmp) (s : State) (h : ((s.tiles[t]).cmp c).en = false) :
    cmpPowerUp t c s = s := by
  simp only [cmpPowerUp, h, Bool.false_and, Bool.false_eq_true, if_false]

theorem cmpPanelUp_of_disabled (p : PanelId) (s : State)
    (h : ∀ k ∈ tilesOf p, (s.tiles[k]).cmpA.en = false ∧ (s.tiles[k]).cmpB.en = false) : cmpPanelUp p s = s :=
  foldl_of_fixed_mem (tilesOf p) fun k hk => by
    rw [cmpPowerUp_of_disabled k .a s (h k hk).1, cmpPowerUp_of_disabled k .b s (h k hk).2]

theorem execRefokSettle_of_due (p : PanelId) (s : State) (hm : s.pwr.mode.up = true) (hl : (s.pstate p).live = true)
    (ho : (s.panels[p]).refOk = false) (hf : (s.panels[p]).refFault = false)
    (ht : (s.panels[p]).refAt + 1200 * (s.panels[p]).refTime ≤ s.aon.fck) :
    execRefokSettle p s = .next (cmpPanelUp p (s.modPanel p fun x => { x with refOk := true, refSeen := true })) := by
  have due : s.refDue p = true := by
    simp only [State.refDue, hm, hl, ho, hf, usFck, ht]
    rfl
  simp only [execRefokSettle, due, if_true]

/-- The panel with a voltage measured at VREFINp: outside 1.000 V to 3.300 V it is a fault (R137). -/
def Panel.refMeasured (x : Panel) (mv : BitVec 12) : Panel :=
  let bad := decide (mv.toNat < 1000) || decide (3300 < mv.toNat)
  { x with vext := mv, refFault := bad, refOk := x.refOk && !bad }

theorem execRefMeasure_external (p : PanelId) (mv : BitVec 12) (s : State) (hl : (s.pstate p).live = true)
    (he : (s.panels[p]).refExt = true) :
    ∃ t, execRefMeasure p mv s = .next t ∧ t.panels = (s.modPanel p (·.refMeasured mv)).panels := by
  refine ⟨_, rfl, ?_⟩
  simp only [hl, he, Bool.and_true, if_true]
  rw [apply_ite State.panels, State.quiet_panels (log_quiet ..), ite_self]
  rfl

/-- The highest temperature seen, with those of a new reading. -/
def State.peakWith (s : State) (a b c : BitVec 16) : BitVec 16 :=
  let higher := fun x y : BitVec 16 => if x.toInt < y.toInt then y else x
  higher (higher (higher s.pwr.peakTemp c) a) b

/-- With INTERP clear a reading is taken and nothing recomputed (R359). -/
theorem execTempInterpolation_reading (p : PanelId) (a b c : BitVec 16) (s : State) (hs : s.serving = true)
    (ho : s.pstate p ≠ .off) (hi : (s.panels[p]).calInterp = false)
    (ht : ∀ k, (s.panels[p]).tempAt = some k → k + 64 ≤ s.aon.ticks) :
    execTempInterpolation p a b c s = .next (State.modPanel
      { s with pwr := { s.pwr with coreTemp := c, peakTemp := s.peakWith a b c } } p
      fun x => { x with tempSensor := a, tempMax := b, tempAt := some s.aon.ticks }) := by
  have due : ((s.panels[p]).tempAt.all fun k => decide (k + 64 ≤ s.aon.ticks)) = true := by
    cases hk : (s.panels[p]).tempAt with
    | none => rfl
    | some k => exact decide_eq_true (ht k hk)
  refine congrArg Host.Outcome.next ?_
  simp only [hs, due, Bool.or_true, Bool.not_true, Bool.or_false, Bool.false_eq_true, if_false]
  refine (if_neg ho).trans ?_
  simp only [hi, Bool.false_and, Bool.false_eq_true, if_false]
  rfl

/-- Settles O37, clause by clause. -/
theorem railsAndHolds : Obligations.RailsAndHolds := by
  refine ⟨fun p uF s hs ht hd hr hu => ?pvh, fun s hs ht => ⟨?hlv, fun hr => ?timeout⟩,
    fun s ho => ⟨fun hf => ?release, fun hf => ?limit⟩, fun c m s h0 h7 hu hm => ?again, fun c m s h0 h7 hu hm => ?trip,
    fun s hm ht => ?clear, fun pin vin rails pvh s hu => ?window, fun p s hm hl ho hf ht hk => ?settle,
    fun p mv s hl he => ?measure, fun p a b c s hs ho hi ht => ?reading⟩
  case pvh =>
    have ramp : s.railRamp (.pvh p) = 25 * (s.panels[p]).rail50 := by simp only [State.railRamp, hd, if_true]
    have up := execRailGood_first (.pvh p) uF s hs ht (.inr (by rw [ramp]; exact hr))
    rw [railUp_pvh_of_enough p uF s hd hu] at up
    refine ⟨_, up, ?_⟩
    have hit := State.modPanel_hit s p (·.railUp uF)
    exact ⟨congrArg Panel.pvhOk hit, congrArg Panel.crsOk hit,
      (congrArg (fun x : Panel => x.crsCap.toNat) hit).trans (satNat_toNat 16 uF),
      fun k hk => State.modPanel_miss s p k (·.railUp uF) hk.symm⟩
  case hlv => exact ⟨_, execRailGood_first .hlv 0 s hs ht (.inl rfl), rfl, rfl⟩
  case timeout => exact ⟨_, execRailStartTimeout_hlv_first s hs ht hr, rfl, rfl⟩
  case release =>
    have due : (s.pwr.hlvOk && decide (s.pwr.hlvAt + usFck 1000 ≤ s.aon.fck)) = true := by simp [ho, usFck, hf]
    exact congrArg Host.Outcome.next (if_pos due)
  case limit =>
    refine ⟨_, execHlvLimitTimeout_of_due s ho hf, ?_, raiseEvent_shows .powerOver ..⟩
    rw [State.quiet_pwr (raiseEvent_quiet ..)]
  case again =>
    have q := log_quiet { s with pwr := { s.pwr with fclear := false, tripAt := s.aon.ticks } } .lasting 0x3A srcModule
      (c.setWidth 32) m 0
    refine ⟨_, execFaultHoldTrip_again c s h0 h7 hu m hm, ?_⟩
    rw [State.quiet_pwr q, State.quiet_tiles q]
    exact ⟨hm, rfl, rfl, rfl⟩
  case trip =>
    obtain ⟨t, ht, held, shown⟩ := execFaultHoldTrip_entry c s h0 h7 hu m hm
    exact ⟨t, ht, held.mode, held.cause, held.nfault, held.hlv, held.vdda, held.change, held.clocks, shown, held.rails⟩
  case clear => exact congrArg Host.Outcome.next (if_pos ⟨hm, ht⟩)
  case window =>
    obtain ⟨t, ht, hw⟩ := execPowerWindow_measured pin vin rails pvh s hu
    simp only [State.measured, Prod.mk.injEq] at hw
    obtain ⟨hpin, hvin, hmax, hgrant, htiles⟩ := hw
    refine ⟨t, ht, hpin, ?_, ?_, hgrant, htiles⟩
    · rw [hvin]
      exact satNat_toNat 12 _
    · rw [hmax]
      split <;> omega
  case settle =>
    exact (execRefokSettle_of_due p s hm hl ho hf ht).trans (congrArg Host.Outcome.next (cmpPanelUp_of_disabled p _ hk))
  case measure =>
    obtain ⟨t, ht, hp⟩ := execRefMeasure_external p mv s hl he
    have hit : t.panels[p] = (s.panels[p]).refMeasured mv := by
      simp only [hp]
      exact State.modPanel_hit ..
    refine ⟨t, ht, ?_⟩
    rw [hit]
    refine ⟨rfl, (Bool.decide_or ..).symm, fun hlow => ?_⟩
    simp [Panel.refMeasured, hlow]
  case reading =>
    refine ⟨_, execTempInterpolation_reading p a b c s hs ho hi ht, ?_, ?_, rfl, rfl, rfl⟩ <;> rw [Fin.getElem_fin, State.modPanel_hit]

end Sys2Proof.Machine
end

section
/-!
PROOFS. O16 fails: a write that clears STUCK makes the comparator look at its input again.
-/
namespace Sys2Proof.Machine

open Sys2Proof

/-- Tile 510's CMPA is STUCK with LVL 1: its input rose to 1 V above the threshold, and since then the ramp (RSLOPE 25.5 mV a DAC
sample, 125 samples) has carried the threshold past the input (R159). No command has made the comparator look since. What it
routes is LAT, which is 0. -/
def rampPastInput : State :=
  State.modTile
    { aon := { fck := 5000000, run := 1000, ticks := 100000 }, clk := { fast := .fck, pll := .locked },
      pwr := { mode := .active, panels := Vector.replicate 8 .active } } 510 fun x =>
    { x with
      dac := 0xFF000000
      cmpA := { x.cmpA with
        cfg := 0x401, powered := true, raw := true, lvl := true, acc := true, stuck := true, stuckPhase := .first
        rampAt := some 0, seen := some 1000000 } }

/-- The raw output of tile 510's CMPA after an instruction. -/
def rawAfter : Result → Option Bool
  | .next u => some (u.tiles[(510 : TileId)]).cmpA.raw
  | _ => none

theorem rampPastInput_unrouted : rampPastInput.unrouted 510 .a = true := by decide +kernel

/-- The write that clears STUCK leaves the raw output at 0: the input now lies below the threshold (R154). -/
theorem stuckClear_looks : rawAfter (exec (.comparatorStuckClear 510 .a 0x10000401#32) rampPastInput) = some false := by
  decide +kernel

/-- Refutes O16: its clause for STUCK says that a write which clears STUCK changes nothing else of the comparator, but the write
also makes it look at its input, and where a ramp has carried the threshold past the input the output follows. -/
theorem not_tileAndPanelWrites : ¬ Obligations.TileAndPanelWrites := by
  intro h
  obtain ⟨-, tileWrites⟩ := h
  obtain ⟨-, -, -, -, cmpWrites⟩ := tileWrites 510 0x10000401#32 rampPastInput (by decide +kernel) (by decide +kernel)
    (by decide +kernel)
  obtain ⟨clears, -⟩ := cmpWrites .a rfl rfl rampPastInput_unrouted (by decide)
  have claimed := clears (by decide) (by decide +kernel) (by decide +kernel) (by decide +kernel) (by decide +kernel)
    (by decide +kernel)
  have looked := stuckClear_looks
  rw [claimed] at looked
  exact absurd looked (by decide +kernel)

end Sys2Proof.Machine
end

section
/-!
PROOFS. READ_NOZZLE_MAP (O52).
-/
namespace Sys2Proof.Machine

open Sys2Proof

/-- Settles O52: past the shared checks of R283 the command looks at the head, the range and the length in this order, and its
buffer takes the entries as they stand: that the descriptor has begun is no part of the map. -/
theorem nozzleMapCopied : Obligations.NozzleMapCopied := by
  intro d s ht h
  rw [show exec (.readNozzleMap d) s = execReadNozzleMap d s from rfl, execReadNozzleMap, runDesc_takes _ _ _ _ _ ht]
  refine ⟨fun hn => ?undefined, fun hd hh => ?defined⟩
  case undefined =>
    have hb : ((s.begun 0x51 d).heads[h]).hdef = none := hn
    simp only [show Fin.ofNat 8 d.target.toNat = h from rfl, hb, refuse]
  case defined =>
    have hb : ((s.begun 0x51 d).heads[h]).hdef = some hd := hh
    simp only [show Fin.ofNat 8 d.target.toNat = h from rfl, hb]
    refine ⟨fun off ho => ?range, fun ho hl => ?length, fun ho hl hu hw => ?copied⟩ <;> simp only [ho]
    case range => rfl
    case length => rw [if_pos hl]; rfl
    case copied => rw [if_neg (not_not_intro hl), writeOut_clean 0x51 d [] _ 0 (s.begun 0x51 d) hu hw]; rfl

end Sys2Proof.Machine
end

section
/-!
PROOFS. How a head with nothing in hand settles, and listen windows (O51, R103, R104).
-/
namespace Sys2Proof.Machine

open Sys2Proof

/-! ### How a head settles when it has no product -/

theorem State.modHead_modHead (s : State) (h : HeadId) (f g : Head → Head) :
    (s.modHead h f).modHead h g = s.modHead h fun x => g (f x) := by
  simp [State.modHead]

/-- A head without products has no column to end (R30, R70). -/
theorem columnsDone_of_noProduct (h : HeadId) (hd : HeadDef) (s : State) (hp : (s.heads[h]).products = []) :
    columnsDone h hd s = s := by
  unfold columnsDone
  rw [hp]
  rfl

/-- A pass with nozzles to visit goes on (R116, R117). -/
theorem passDone_of_left (h : HeadId) (hd : HeadDef) (s : State) (p : Pass) (hp : (s.heads[h]).pass = some p)
    (hl : p.left ≠ []) : passDone h hd s = s := by
  unfold passDone
  rw [hp]
  simp [hl]

/-- With no product to end, no pass to complete and no change waiting, a head settles as it is. -/
theorem headSettle_of_settled (h : HeadId) (s : State) (hp : (s.heads[h]).products = [])
    (pass : ∀ hd : HeadDef, passDone h hd s = s) (hw : s.cal.waits = []) : headSettle h s = s := by
  unfold headSettle
  split
  · next hd _ => rw [columnsDone_of_noProduct h hd s hp, pass hd, calSettle_of_noWaits s hw]
  · rfl

theorem headSettle_of_idle (h : HeadId) (s : State) (hp : (s.heads[h]).products = []) (hs : (s.heads[h]).pass = none)
    (hw : s.cal.waits = []) : headSettle h s = s :=
  headSettle_of_settled h s hp (fun hd => passDone_of_noPass h hd s hs) hw

/-! ### Listen start (R103, R104) -/

section
variable {t : TileId} {l : Listen} {hd : HeadDef} {s : State} (hl : (s.tiles[t]).trowel.listen = some l)
  (hh : (s.heads[l.head]).hdef = some hd)
include hl hh

theorem execListenStart_early (early : s.aon.fck < s.listenStart t) : exec (.listenStart t) s = .next s := by
  refine congrArg Host.Outcome.next ?_
  simp only [hl, hh, early, decide_true, Bool.or_true, if_true]

variable (hf : s.fastOn = true) (ho : l.openNow = false) (hc : l.closed = false)
  (hp : (s.tiles[t]).trowel.play = .idle) (ha : s.awaitsFrame t l = false) (due : s.listenStart t ≤ s.aon.fck)
  (hq : s.prelock = false) (hm : s.trowelMode t = 1 ∨ s.trowelMode t = 2)
include hf ho hc hp ha due hq hm

/-- What is due on a trowel that drives a pin goes by its window: it opens the window, perhaps with a steal, or skips it. -/
theorem execListenStart_due : exec (.listenStart t) s = .next (
    let drop := s.modTrowel t fun w => { w with listen := none }
    (s.windowOf l.head hd t l (s.listenStart t)).elim
      (headSettle l.head (if (s.slotLimit l.head).isSome && l.seq == noProduct then drop else countSkipped t drop))
      fun w => (if w.2 then takeSteal l.head hd s else s).modTrowel t fun x =>
        { x with
          play := .listening
          listen := some { l with start := s.stamp, opened := s.listenStart t, window := w.1 / 60, openNow := true } }) := by
  refine congrArg Host.Outcome.next ?_
  have late : decide (s.aon.fck < s.listenStart t) = false := decide_eq_false (Nat.not_lt.mpr due)
  have mode : (s.trowelMode t != 1 && s.trowelMode t != 2) = false := by
    rcases hm with e | e <;> rw [e] <;> rfl
  simp only [hl, hh, hf, ho, hc, hp, ha, late, hq, mode, Bool.not_true, Bool.or_false, bne_self_eq_false, Bool.false_eq_true,
    if_false]
  cases s.windowOf l.head hd t l (s.listenStart t) <;> rfl

/-- A window that does not fit skips the listen. -/
theorem execListenStart_skips (window : s.windowOf l.head hd t l (s.listenStart t) = none)
    (hn : (s.heads[l.head]).products = []) (hs : (s.heads[l.head]).pass = none) (hw : s.cal.waits = []) :
    exec (.listenStart t) s = .next (countSkipped t (s.modTrowel t fun w => { w with listen := none })) := by
  have limit : s.slotLimit l.head = none := by
    unfold State.slotLimit
    rw [hn]
    rfl
  rw [execListenStart_due hl hh hf ho hc hp ha due hq hm, window]
  simp only [limit, Option.elim_none, Option.isSome_none, Bool.false_and, Bool.false_eq_true, if_false]
  exact congrArg Host.Outcome.next (headSettle_of_idle l.head (countSkipped t (s.modTrowel t _)) hn hs hw)
end

/-! ### Window close (R103) -/

section
variable {t : TileId} {l : Listen} {s : State} {trace : List (BitVec 14)} (hl : (s.tiles[t]).trowel.listen = some l)
include hl

theorem execListenWindowClose_due (ho : l.openNow = true) (hn : trace.length = l.window)
    (due : l.opened + 60 * l.window ≤ s.aon.fck) (hp : (s.heads[l.head]).products = [])
    (hs : (s.heads[l.head]).pass = none) (hw : s.cal.waits = []) :
    exec (.listenWindowClose t trace) s = .next (s.modTrowel t fun w =>
      { w with
        play := .idle, closedAt := l.opened + 60 * l.window
        listen := some { l with openNow := false, closed := true, closedAt := l.opened + 60 * l.window, trace } }) := by
  refine congrArg Host.Outcome.next ?_
  simp only [hl, ho, hn, due, BEq.rfl, decide_true, Bool.and_self, if_true]
  exact headSettle_of_idle l.head (s.modTrowel t _) hp hs hw

theorem execListenWindowClose_otherwise (h : trace.length ≠ l.window ∨ s.aon.fck < l.opened + 60 * l.window) :
    exec (.listenWindowClose t trace) s = .next s := by
  refine congrArg Host.Outcome.next ?_
  simp only [hl]
  refine if_neg fun open_ => ?_
  simp only [Bool.and_eq_true, beq_iff_eq, decide_eq_true_eq] at open_
  omega
end

end Sys2Proof.Machine
end

section
/-!
PROOFS. What a class does (O51, R107 to R112).
-/
namespace Sys2Proof.Machine

open Sys2Proof

/-! ### Reads and records while no word of a memory fails -/

theorem wordsBad_of_clean (r : Fin 16) (unit : Option Nat) (s : State) (h : s.mem.errs = []) :
    wordsBad r unit s = (false, s) := by
  unfold wordsBad
  rw [h]
  rfl

theorem keepRead_of_clean (t : TileId) (s : State) (h : s.mem.errs = []) : keepRead t s = (true, s) := by
  unfold keepRead
  rw [wordsBad_of_clean 1 _ s h]
  rfl

theorem emitListen_quiet (r : ListenRec) (s : State) (h : s.mem.errs = []) : (emitListen r s).quiet = s.quiet := by
  unfold emitListen emitStaged
  rw [wordsBad_of_clean 9 none s h]
  simp only []
  split <;> exact emit_quiet ..

/-! ### Roundings (log 10) -/

/-- Only free values have been drawn. -/
def State.Drew (s u : State) : Prop := ∃ n : Nat, u = { s with free := n }

theorem State.Drew.refl (s : State) : State.Drew s s := ⟨s.free, rfl⟩

theorem State.Drew.roundOpen {s u v : State} (h : State.Drew s u) {num x : Int} {den : Nat}
    (e : roundOpen num den u = (x, v)) : State.Drew s v := by
  obtain rfl : (Machine.roundOpen num den u).2 = v := congrArg Prod.snd e
  obtain ⟨n, rfl⟩ := h
  unfold Machine.roundOpen
  split
  · exact ⟨n, rfl⟩
  · exact ⟨n + 1, rfl⟩

theorem State.Drew.unrounded {s u v : State} (h : State.Drew s u) {x : Int} (e : ((0 : Int), u) = (x, v)) :
    State.Drew s v := (Prod.mk.inj e).2 ▸ h

/-! ### The class of a listen (R107 to R109) -/

/-- The class of what a closed window has heard. -/
def State.classHeard (s : State) (t : TileId) (l : Listen) : Nat :=
  let pn := s.panels[panelOf t]
  classOf (featuresOf l.trace (s.tapScale t) (4 * Word.field pn.cls1 7 0) (s.tiles[t]).idleLevel)
    (s.baselines l.head l.nozzle) pn.cls0 pn.cls1

theorem execClassifyResult_early {t : TileId} {l : Listen} {s : State} (hl : (s.tiles[t]).trowel.listen = some l)
    (early : s.aon.fck < l.closedAt + 1200) : exec (.classifyResult t) s = .next s := by
  have run : exec (.classifyResult t) s = execClassifyResult t s := rfl
  rw [run, execClassifyResult, hl]
  exact congrArg Host.Outcome.next (if_pos (by rw [decide_eq_true early, Bool.or_true]))

/-- What a state comes to when the class of a listen is formed in it: the class goes to the host or through the retry rule, and
the head settles; only free values, the roundings', have been drawn before (R109, R111, R120). -/
def State.Classed (s : State) (t : TileId) (l : Listen) (x : State) : Prop :=
  ∃ (r : ListenRec) (u : State), State.Drew s u ∧ r.head = l.head ∧ r.kind = l.kind.toNat ∧ r.nozzle = l.nozzle ∧
    r.tile = t ∧ r.cls = s.classHeard t l ∧ x = headSettle l.head (
      let m := u.classModes l.head l.seq
      let v := u.modTrowel t fun w => { w with listen := none }
      if m.1 then hostListen r v else classFormed r m.2 v)

/-- A class that is due is formed from the trace and the baselines, and goes to the host or through the retry rule. -/
theorem execClassifyResult_due {t : TileId} {l : Listen} {s : State} (hl : (s.tiles[t]).trowel.listen = some l)
    (hc : l.closed = true) (due : l.closedAt + 1200 ≤ s.aon.fck) (hm : s.mem.errs = []) :
    ∃ x : State, exec (.classifyResult t) s = .next x ∧ State.Classed s t l x := by
  have run : exec (.classifyResult t) s = execClassifyResult t s := rfl
  have notLate : ¬ (!l.closed || decide (s.aon.fck < l.closedAt + 1200)) = true := by
    rw [hc, decide_eq_false (Nat.not_lt.mpr due)]
    exact Bool.false_ne_true
  have fair : ¬ (!(true, s).1) = true := Bool.false_ne_true
  rw [run, execClassifyResult, hl, keepRead_of_clean t s hm]
  refine ⟨_, congrArg Host.Outcome.next ((if_neg notLate).trans (if_neg fair)), ?_⟩
  extract_lets u pn f base
  have hf : classOf f base pn.cls0 pn.cls1 = s.classHeard t l := rfl
  have hu : State.Drew s u := .refl s
  -- The features go in as a variable: evaluated, they are too large to check.
  obtain ⟨g, same⟩ : ∃ g, f = g := ⟨f, rfl⟩
  rw [same] at hf ⊢
  split
  next fr u1 e1 =>
  split
  next tau u2 e2 =>
  split
  next a1 u3 e3 =>
  split
  next vOff u4 e4 =>
  have d1 : State.Drew s u1 := by
    split at e1
    · exact hu.roundOpen e1
    · exact hu.unrounded e1
  have d2 : State.Drew s u2 := by
    split at e2
    · exact d1.roundOpen e2
    · exact d1.unrounded e2
  exact ⟨_, _, (d2.roundOpen e3).roundOpen e4, rfl, rfl, rfl, rfl, hf, rfl⟩

/-! ### The retry rule (R111) -/

/-- A class of a nozzle that is IN, without PENDING and untouched by the host, is its first attempt. -/
theorem retryRule_first (h : HeadId) (n c : Nat) (p : PanelId) (s : State) (x : NozzleStat)
    (hx : (s.heads[h]).stats[n]? = some x) (hs : x.status = 0) (hp : x.pending = false) (hb : x.byHost = false) :
    retryRule h n c p s =
      (0, c != 0, modStat h n (fun y => { y with last := BitVec.ofNat 3 c, pending := c != 0 }) s) := by
  have at_ : (s.heads[h]).stats.getD n {} = x := by rw [List.getD_eq_getElem?_getD, hx, Option.getD_some]
  unfold retryRule
  simp only [at_, hs, hp, hb, Bool.false_eq_true, if_false]
  rfl

/-- A first attempt of printing counts in LISTENED and sets LAST, and PENDING on an anomaly; the rest are reports. -/
theorem classFormed_first {r : ListenRec} {s : State} {h : HeadId} {n c : Nat} {t : TileId} {x : NozzleStat}
    (rh : r.head = h) (rk : r.kind = 0) (rn : r.nozzle = n) (rt : r.tile = t) (rc : r.cls = c) (hm : s.mem.errs = [])
    (hx : (s.heads[h]).stats[n]? = some x) (hs : x.status = 0) (hp : x.pending = false) (hb : x.byHost = false) :
    (classFormed r false s).quiet = (modStat h n (fun y => { y with last := BitVec.ofNat 3 c, pending := c != 0 })
      (s.modPanel (panelOf t) fun y => { y with listened := y.listened + 1 })).quiet := by
  subst rh rn rt rc
  have first := retryRule_first r.head r.nozzle r.cls (panelOf r.tile)
    (s.modPanel (panelOf r.tile) fun y => { y with listened := y.listened + 1 }) x hx hs hp hb
  have print : ∀ (again : Bool) (u : State), passResult r.head r.kind r.nozzle r.cls again u = u := by
    intro again u
    simp [passResult, rk]
  unfold classFormed
  simp only [Bool.false_eq_true, if_false, first, print]
  split
  · exact emitListen_quiet _ _ hm
  · rfl

/-- A due class of printing, when the module both classifies and acts, is a first attempt of its nozzle (R109 to R111). -/
theorem execClassifyResult_first {t : TileId} {l : Listen} {x : NozzleStat} {s : State}
    (hl : (s.tiles[t]).trowel.listen = some l) (hs : (s.heads[l.head]).pass = none)
    (hp : (s.heads[l.head]).products = []) (hw : s.cal.waits = []) (hc : l.closed = true)
    (due : l.closedAt + 1200 ≤ s.aon.fck) (hm : s.mem.errs = []) (hk : l.kind = 0)
    (modes : s.classModes l.head l.seq = (false, false)) (hx : (s.heads[l.head]).stats[l.nozzle]? = some x)
    (h0 : x.status = 0) (hn : x.pending = false) (hb : x.byHost = false) :
    ∃ s' : State, exec (.classifyResult t) s = .next s' ∧ (s'.tiles[t]).trowel.listen = none ∧
      (s'.panels[panelOf t]).listened = (s.panels[panelOf t]).listened + 1 ∧
      (s'.heads[l.head]).stats = (s.heads[l.head]).stats.modify l.nozzle (fun y =>
        { y with last := BitVec.ofNat 3 (s.classHeard t l), pending := decide (s.classHeard t l ≠ 0) }) := by
  obtain ⟨_, run, r, u, ⟨n, rfl⟩, rh, rk, rn, rt, rc, rfl⟩ := execClassifyResult_due hl hc due hm
  have modes' : State.classModes { s with free := n } l.head l.seq = (false, false) := modes
  have q := classFormed_first (s := State.modTrowel { s with free := n } t fun w => { w with listen := none })
    rh (by rw [rk, hk]; rfl) rn rt rc hm hx h0 hn hb
  simp only [modes', Bool.false_eq_true, if_false] at run
  generalize classFormed r false _ = v at q run
  have vt : v.tiles = (s.modTrowel t fun w => { w with listen := none }).tiles := (State.quiet_tiles q).trans rfl
  have vp : v.panels = (s.modPanel (panelOf t) fun y => { y with listened := y.listened + 1 }).panels :=
    (State.quiet_panels q).trans rfl
  have vh : v.heads[l.head] = { s.heads[l.head] with
      stats := (s.heads[l.head]).stats.modify l.nozzle fun y =>
        { y with last := BitVec.ofNat 3 (s.classHeard t l), pending := decide (s.classHeard t l ≠ 0) } } := by
    have pend : decide (s.classHeard t l ≠ 0) = (s.classHeard t l != 0) := by rw [Bool.eq_iff_iff]; simp
    rw [State.quiet_heads q, pend]
    exact State.modHead_hit ..
  rw [headSettle_of_idle l.head v (by rw [vh]; exact hp) (by rw [vh]; exact hs) (by rw [State.quiet_cal q]; exact hw)] at run
  refine ⟨v, run, ?_, ?_, ?_⟩
  · rw [vt, State.modTrowel_tile]
  · rw [vp]
    exact congrArg Panel.listened (State.modPanel_hit ..)
  · rw [vh]

end Sys2Proof.Machine
end

section
/-!
PROOFS. Slots, SPIT fires and test drops of a head in a gap (O51, R114, R117, R123).
-/
namespace Sys2Proof.Machine

open Sys2Proof

/-! ### What a stroke does to ports and leaves of heads -/

/-- Whose frame it is: what of a frame its start and its second sending leave alone. -/
def Frame.owner (f : Frame) : Bool × HeadId × Word := (f.fire, f.head, f.seq)

theorem startFrame_owners (hd : HeadDef) (p q : PanelId) (s : State) :
    ((startFrame hd p s).panels[q]).frames.map Frame.owner = (s.panels[q]).frames.map Frame.owner := by
  unfold startFrame
  by_cases e : p = q
  · subst e
    simp only [Fin.getElem_fin, State.modPanel_hit]
    cases (s.panels[(p : Nat)]).frames <;> rfl
  · simp only [Fin.getElem_fin, State.modPanel_miss _ _ _ _ e]

theorem queueFrame_owners (hd : HeadDef) (p q : PanelId) (f : Frame) (s : State) :
    ((queueFrame hd p f s).panels[q]).frames.map Frame.owner =
      (s.panels[q]).frames.map Frame.owner ++ if p = q then [f.owner] else [] := by
  have joined : (((s.modPanel p fun x => { x with frames := x.frames ++ [f] }).panels[q]).frames.map Frame.owner) =
      (s.panels[q]).frames.map Frame.owner ++ if p = q then [f.owner] else [] := by
    by_cases e : p = q
    · subst e
      simp
    · simp [State.modPanel_miss _ _ _ _ e, e]
  unfold queueFrame
  simp only []
  split
  · rw [startFrame_owners, joined]
  · exact joined

/-- Frames that join other ports. -/
theorem queueFrames_others (hd : HeadDef) (f : PanelId → Frame) {q : PanelId} (ps : List PanelId) (hq : q ∉ ps) (s : State) :
    ((ps.foldl (fun s p => queueFrame hd p (f p) s) s).panels[q]).frames.map Frame.owner =
      (s.panels[q]).frames.map Frame.owner := by
  induction ps generalizing s with
  | nil => rfl
  | cons p ps ih =>
    rw [List.foldl_cons, ih (List.not_mem_of_not_mem_cons hq), queueFrame_owners,
      if_neg (List.ne_of_not_mem_cons hq).symm, List.append_nil]

/-- One frame joins every port of a list without repetitions. -/
theorem queueFrames_owners (hd : HeadDef) (f : PanelId → Frame) {q : PanelId} (ps : List PanelId) (hn : ps.Nodup)
    (hq : q ∈ ps) (s : State) :
    ((ps.foldl (fun s p => queueFrame hd p (f p) s) s).panels[q]).frames.map Frame.owner =
      (s.panels[q]).frames.map Frame.owner ++ [(f q).owner] := by
  induction ps generalizing s with
  | nil => exact absurd hq List.not_mem_nil
  | cons p ps ih =>
    obtain ⟨hp, hn⟩ := List.nodup_cons.mp hn
    rw [List.foldl_cons]
    rcases List.mem_cons.mp hq with rfl | hq
    · rw [queueFrames_others hd f ps hp, queueFrame_owners, if_pos rfl]
    · have ne : p ≠ q := fun e => hp (e ▸ hq)
      rw [ih hn hq, queueFrame_owners, if_neg ne, List.append_nil]

/-- What due fires are no part of. -/
def State.besideTrowels (s : State) : Vector Panel 8 × Vector Head 8 × Cal := (s.panels, s.heads, s.cal)

/-- Working out an instant draws a free value at most (R75). -/
theorem retime_besideTrowels (d : DueFire) (s : State) : (retime d s).2.besideTrowels = s.besideTrowels := by
  unfold retime
  simp only []
  split
  · rfl
  · split
    · rfl
    · rw [apply_ite Prod.snd, apply_ite State.besideTrowels]
      exact ite_self _

theorem queueFrame_headsCal (hd : HeadDef) (p : PanelId) (f : Frame) (s : State) :
    ((queueFrame hd p f s).heads, (queueFrame hd p f s).cal) = (s.heads, s.cal) := by
  unfold queueFrame
  simp only []
  split <;> rfl

/-- The FIRE frame of a stroke on a port (R57). -/
def HeadDef.fireFrame (hd : HeadDef) (base : DueFire) (cells : List Cell) (p : PanelId) : Frame :=
  { fire := true, head := base.head, seq := base.seq, col := base.col, codes := portCodes hd p (cells.map (·.code)) }

/-- Past its frames, a stroke touches trowels only. -/
theorem stroke_besideTrowels (base : DueFire) (rem : TileId → Int) (hd : HeadDef) (cells : List Cell)
    (gs : List GroupFire) (s : State) : (stroke base rem hd cells gs s).besideTrowels =
      (hd.portList.foldl (fun s p => queueFrame hd p (hd.fireFrame base cells p) s) s).besideTrowels := by
  unfold stroke
  refine foldl_keeps State.besideTrowels _ (fun s t => ?_) _ _
  simp only []
  split
  · next d _ =>
    split
    · exact retime_besideTrowels d s
    · rfl
  · rfl

/-- A stroke leaves heads and calibration alone, and its FIRE frame joins every port of the head. -/
theorem stroke_ports (base : DueFire) (rem : TileId → Int) (hd : HeadDef) (cells : List Cell) (gs : List GroupFire)
    (s : State) : (stroke base rem hd cells gs s).heads = s.heads ∧ (stroke base rem hd cells gs s).cal = s.cal ∧
      ∀ q ∈ hd.portList, ((stroke base rem hd cells gs s).panels[q]).frames.map Frame.owner =
        (s.panels[q]).frames.map Frame.owner ++ [(true, base.head, base.seq)] := by
  obtain ⟨panels, heads, cal⟩ : _ ∧ _ ∧ _ := by
    have k := stroke_besideTrowels base rem hd cells gs s
    simpa only [State.besideTrowels, Prod.mk.injEq] using k
  obtain ⟨framedHeads, framedCal⟩ := Prod.mk.inj (foldl_keeps (fun s : State => (s.heads, s.cal)) _
    (fun s p => queueFrame_headsCal hd p (hd.fireFrame base cells p) s) hd.portList s)
  refine ⟨heads.trans framedHeads, cal.trans framedCal, fun q hq => ?_⟩
  rw [panels]
  exact queueFrames_owners hd (hd.fireFrame base cells) _ ((List.nodup_finRange 8).filter _) hq s

/-! ### Slots, SPIT fires and test drops -/

/-- A head in a gap has no frame on its ports. -/
theorem frames_of_gap {s : State} {h : HeadId} {hd : HeadDef} (hg : s.gap h hd = true) {q : PanelId} (hq : q ∈ hd.portList) :
    (s.panels[q]).frames = [] := by
  unfold State.gap at hg
  obtain ⟨-, empty⟩ := Bool.and_eq_true_iff.mp hg
  exact List.isEmpty_iff.mp (List.all_eq_true.mp empty q hq)

/-- A fire outside products, of a head in a gap, leaves its ports with one FIRE frame each. -/
theorem slotFire_ports {s u : State} {h : HeadId} {hd : HeadDef} (hg : s.gap h hd = true) (hu : u.panels = s.panels)
    (by_ : FireBy) (cells : List Cell) (gs : List GroupFire) {q : PanelId} (hq : q ∈ hd.portList) :
    ((stroke (u.slotFire h by_) (fun _ => 0) hd cells gs u).panels[q]).frames.map (fun f => (f.fire, f.head, f.seq)) =
      [(true, h, 0xFFFFFFFF#32)] := by
  obtain ⟨-, -, ports⟩ := stroke_ports (u.slotFire h by_) (fun _ => 0) hd cells gs u
  have put := ports q hq
  rw [hu, frames_of_gap hg hq] at put
  exact put

theorem slotStroke_beside (h : HeadId) (hd : HeadDef) (by_ : FireBy) (code : Nat) (listens : Bool)
    (picks : List (TileId × Nat)) (s : State) : (slotStroke h hd by_ code listens picks s).heads = s.heads ∧
      (slotStroke h hd by_ code listens picks s).cal = s.cal := by
  obtain ⟨heads, cal, -⟩ := stroke_ports (s.slotFire h by_) (fun _ => 0) hd _ _ s
  exact ⟨heads, cal⟩

theorem slotStroke_ports {s : State} {h : HeadId} {hd : HeadDef} (hg : s.gap h hd = true) (f : Head → Head) (by_ : FireBy)
    (code : Nat) (listens : Bool) (picks : List (TileId × Nat)) {q : PanelId} (hq : q ∈ hd.portList) :
    ((slotStroke h hd by_ code listens picks (s.modHead h f)).panels[q]).frames.map (fun f => (f.fire, f.head, f.seq)) =
      [(true, h, 0xFFFFFFFF#32)] :=
  slotFire_ports (u := s.modHead h f) hg rfl by_ _ _ hq

/-- A pass that still has nozzles to visit after its fires keeps the head from settling. -/
theorem slotStroke_settles {s : State} {h : HeadId} {hd : HeadDef} {p : Pass} (hp : (s.heads[h]).products = [])
    (hw : s.cal.waits = []) (left : p.left ≠ []) (by_ : FireBy) (code : Nat) (listens : Bool) (picks : List (TileId × Nat)) :
    let u := slotStroke h hd by_ code listens picks (s.modHead h fun x => { x with pass := some p })
    headSettle h u = u ∧ (u.heads[h]).pass = some p := by
  intro u
  obtain ⟨heads, cal⟩ := slotStroke_beside h hd by_ code listens picks (s.modHead h fun x => { x with pass := some p })
  have uh : u.heads[h] = { s.heads[h] with pass := some p } := by
    rw [show u.heads = _ from heads]
    exact State.modHead_hit ..
  have pass : (u.heads[h]).pass = some p := by rw [uh]
  exact ⟨headSettle_of_settled h u (by rw [uh]; exact hp) (fun hd => passDone_of_left h hd u p pass left)
    (by rw [show u.cal = _ from cal]; exact hw), pass⟩

section
variable {h : HeadId} {hd : HeadDef} {p : Pass} {s : State} (hh : (s.heads[h]).hdef = some hd)
  (hp : (s.heads[h]).pass = some p) (hg : s.gap h hd = true) (hn : (s.heads[h]).products = []) (hw : s.cal.waits = [])
include hh hp hg hn hw

/-- A SPIT fire that is not the last of its round counts, and its frames go out (R117). -/
theorem execSpitFire_within (hs : p.spit = true) (hl : p.left ≠ []) (rest : s.periodOver hd p.period = true)
    (more : p.fired + 1 < p.fires) :
    ∃ t, exec (.spitFire h) s = .next t ∧ (t.heads[h]).pass = some { p with fired := p.fired + 1 } ∧
      ∀ q : PanelId, q ∈ hd.portList → (t.panels[q]).frames.map (fun f => (f.fire, f.head, f.seq)) =
        [(true, h, 0xFFFFFFFF#32)] := by
  have last : (p.fired + 1 == p.fires) = false := beq_eq_false_iff_ne.mpr (Nat.ne_of_lt more)
  have fires : ¬ (!p.spit || p.left.isEmpty || !s.gap h hd || !s.periodOver hd p.period) = true := by
    rw [hs, List.isEmpty_eq_false_iff.mpr hl, hg, rest]
    exact Bool.false_ne_true
  obtain ⟨settled, pass⟩ := slotStroke_settles (hd := hd) (p := { p with fired := p.fired + 1 }) hn hw hl .spit p.code false
    (hd.firsts p.left)
  refine ⟨_, congrArg Host.Outcome.next ?_, pass, fun q hq => slotStroke_ports hg _ _ _ _ _ hq⟩
  simp only [hh, hp, if_neg fires, last, Bool.and_false, Bool.false_eq_true, if_false]
  exact settled

/-- A slot of a pass that takes OUT nozzles too: every group's next nozzle is visited, and their frames go out (R114). -/
theorem execSpitListenSlot_all (hs : p.spit = false) (ha : p.again = []) (hi : p.inclOut = true) (ho : p.own = false)
    (hl : (p.left.filter fun n => !((hd.firsts p.left).map (·.2)).contains n) ≠ []) :
    ∃ t, exec (.spitListenSlot h) s = .next t ∧ (t.heads[h]).pass = some { p with
        left := p.left.filter fun n => !((hd.firsts p.left).map (·.2)).contains n } ∧
      ∀ q : PanelId, q ∈ hd.portList → (t.panels[q]).frames.map (fun f => (f.fire, f.head, f.seq)) =
        [(true, h, 0xFFFFFFFF#32)] := by
  have slot : ¬ (p.spit || !s.gap h hd) = true := by
    rw [hs, hg]
    exact Bool.false_ne_true
  have all : (p.left.filter fun n => s.visits hd p n || !s.outNozzle h n) = p.left := by
    simp [State.visits, ho, hi]
  obtain ⟨settled, pass⟩ := slotStroke_settles (hd := hd)
    (p := { p with left := p.left.filter fun n => !((hd.firsts p.left).map (·.2)).contains n }) hn hw hl .slot p.code true
    (hd.firsts p.left)
  refine ⟨_, congrArg Host.Outcome.next ?_, pass, fun q hq => slotStroke_ports hg _ _ _ _ _ hq⟩
  simp only [hh, hp, if_neg slot, ha, all, List.nil_append, List.filter_nil, List.contains_nil, Bool.or_false]
  rw [← ha]
  exact settled
end

/-- A test drop touches no head, and its frames go out (R123). -/
theorem testDrop_ports {s : State} {h : HeadId} {hd : HeadDef} (hg : s.gap h hd = true) (nozzles : List Nat) (code : Nat) :
    (testDrop h hd nozzles code s).heads = s.heads ∧ ∀ q : PanelId, q ∈ hd.portList →
      ((testDrop h hd nozzles code s).panels[q]).frames.map (fun f => (f.fire, f.head, f.seq)) =
        [(true, h, 0xFFFFFFFF#32)] :=
  ⟨(stroke_ports ..).1, fun _ hq => slotFire_ports hg rfl .test _ _ hq⟩

end Sys2Proof.Machine
end

section
/-!
PROOFS. SPIT, LISTEN_SWEEP and SET_NOZZLE_STATUS past the shared checks (O51, R112, R116, R117).
-/
namespace Sys2Proof.Machine

open Sys2Proof

/-- The pass that a SPIT asks for (R117). -/
def spitPass (d : Desc) : Pass :=
  { desc := some d, spit := true, first := d.u 24 2, count := d.u 26 2, fires := d.u 28 2, code := d.u 30 1,
    listens := d.u 31 1 == 1, period := d.u 32 2, inclOut := true, left := (List.range (d.u 26 2)).map (d.u 24 2 + ·) }

/-- The pass that a LISTEN_SWEEP of mode 0 asks for (R114, R116). -/
def sweepPass (d : Desc) (hd : HeadDef) : Pass :=
  { desc := some d, spit := false, first := 0, count := hd.n, fires := 1, code := 2 ^ hd.selBits - 1, listens := true
    period := 0, inclOut := d.u 25 1 == 1, left := List.range hd.n }

/-- The phase search that a LISTEN_SWEEP of mode 1 asks for (R123). -/
def sweepSearch (d : Desc) : PhaseSearch :=
  { desc := some d, chargeTile := Fin.ofNat 512 (d.u 28 2), detectTile := Fin.ofNat 512 (d.u 30 2), steps := d.u 32 1
    drops := d.u 34 2, hitsMin := d.u 36 2, flight := d.u 38 2, span := d.u 40 2, every := d.u 42 2 }

section
variable {d : Desc} {hd : HeadDef} {s : State}

/-- A SPIT whose fields are in range looks at the head's other passes and the grant. -/
theorem execSpit_inRange (ht : s.takes 0x49 d (headerFault d 3 .none .unbound [(34, 30)]))
    (hh : (s.heads[(Fin.ofNat 8 d.target.toNat : HeadId)]).hdef = some hd)
    (range : rangeFault hd.n (d.u 24 2) (d.u 26 2) = none) (fires : d.u 28 2 ≠ 0) (code : d.u 30 1 ≠ 0)
    (codeMax : d.u 30 1 < 2 ^ hd.selBits) (listen : d.u 31 1 ≤ 1) (period : 9 ≤ d.u 32 2)
    (live : s.belowArmed hd = false) :
    exec (.spit d) s = .next (
      if (s.heads[(Fin.ofNat 8 d.target.toNat : HeadId)]).busy then refuse 0x49 d .busy (s.begun 0x49 d)
      else if s.overGrant then refuse 0x49 d .power (s.begun 0x49 d)
      else (s.begun 0x49 d).modHead (Fin.ofNat 8 d.target.toNat) fun x => { x with pass := some (spitPass d) }) := by
  have hb : ((s.begun 0x49 d).heads[(Fin.ofNat 8 d.target.toNat : HeadId)]).hdef = some hd := hh
  have live' : (s.begun 0x49 d).belowArmed hd = false := live
  have codes : ¬ (d.u 30 1 = 0 ∨ 2 ^ hd.selBits ≤ d.u 30 1) := by omega
  rw [show exec (.spit d) s = execSpit d s from rfl, execSpit, runDesc_takes _ _ _ _ _ ht]
  simp only [hb, range, if_neg fires, if_neg codes, if_neg (Nat.not_lt.mpr listen), if_neg (Nat.not_lt.mpr period), live',
    Bool.false_eq_true, if_false]
  rfl

/-- A sweep or phase search of a free head is taken up (R116, R123). -/
theorem execListenSweep_free (ht : s.takes 0x52 d (headerFault d 3 .none .unbound (sweepReserved d)))
    (hh : (s.heads[(Fin.ofNat 8 d.target.toNat : HeadId)]).hdef = some hd) (live : s.belowArmed hd = false)
    (free : (s.heads[(Fin.ofNat 8 d.target.toNat : HeadId)]).busy = false) (power : s.overGrant = false)
    (mode : d.u 24 1 ≤ 1) (incl : d.u 24 1 = 0 → d.u 25 1 ≤ 1)
    (fields : d.u 24 1 = 1 → searchFault d = none) :
    exec (.listenSweep d) s = .next ((s.begun 0x52 d).modHead (Fin.ofNat 8 d.target.toNat) fun x =>
      if d.u 24 1 = 0 then { x with pass := some (sweepPass d hd) } else { x with search := some (sweepSearch d) }) := by
  have hb : ((s.begun 0x52 d).heads[(Fin.ofNat 8 d.target.toNat : HeadId)]).hdef = some hd := hh
  have live' : (s.begun 0x52 d).belowArmed hd = false := live
  have free' : ((s.begun 0x52 d).heads[(Fin.ofNat 8 d.target.toNat : HeadId)]).busy = false := free
  have power' : (s.begun 0x52 d).overGrant = false := power
  have inclOut : ¬ (d.u 24 1 = 0 ∧ 1 < d.u 25 1) := fun h => absurd (incl h.1) (Nat.not_le.mpr h.2)
  have search : (if d.u 24 1 = 1 then searchFault d else none) = none := by
    split
    · next h => exact fields h
    · rfl
  rw [show exec (.listenSweep d) s = execListenSweep d s from rfl, execListenSweep, runDesc_takes _ _ _ _ _ ht]
  simp only [if_neg (Nat.not_lt.mpr mode), if_neg inclOut, search, hb, live', free', power', Bool.false_eq_true, if_false]
  split <;> rfl

/-! ### SET_NOZZLE_STATUS (R112) -/

/-- What the purge request is no part of: heads, tiles and jobs. -/
def State.besidePurge (s : State) : Vector Head 8 × Vector Tile 512 × Vector Job 64 := (s.heads, s.tiles, s.jobs)

theorem State.besidePurge_of_quiet {s t : State} (q : t.quiet = s.quiet) : t.besidePurge = s.besidePurge := by
  unfold State.besidePurge
  rw [State.quiet_heads q, State.quiet_tiles q, State.quiet_jobs q]

/-- The look at a panel's OUT nozzles changes the panel and reports (R118). -/
theorem purgeCheck_beside (p : PanelId) (s : State) : (purgeCheck p s).besidePurge = s.besidePurge := by
  unfold purgeCheck
  simp only []
  split
  · split
    · rfl
    · exact (State.besidePurge_of_quiet ((raiseEvent_quiet ..).trans (log_quiet ..))).trans rfl
  · rfl

/-- Reserved bytes add to the faults of a header, and nothing else. -/
theorem headerFault_none (d : Desc) (w : Nat) (b : BufUse) (c : CoatUse) (rs : List (Nat × Nat)) :
    headerFault d w b c rs = none ↔ headerFault d w b c [] = none ∧ reservedFault d rs = none := by
  simp only [headerFault, Option.or_eq_none_iff, reservedFault, List.findSome?_nil, and_true, and_assoc]

/-- The entry that SET_NOZZLE_STATUS writes (R112). -/
def hostStatus (d : Desc) (y : NozzleStat) : NozzleStat :=
  { y with status := BitVec.ofNat 2 (d.u 28 1), pending := false, byHost := true
           transients := if d.u 29 1 = 1 then 0 else y.transients }

/-- SET_NOZZLE_STATUS of a range writes its entries; the rest are reports. -/
theorem execSetNozzleStatus_inRange (ht : s.takes 0x50 d (headerFault d 3 .none .unbound [(30, 34)])) (clear : d.u 29 1 ≤ 1)
    (hh : (s.heads[(Fin.ofNat 8 d.target.toNat : HeadId)]).hdef = some hd)
    (range : rangeFault hd.n (d.u 24 2) (d.u 26 2) = none) (status : d.u 28 1 < 2 ∨ d.u 28 1 = 3) :
    ∃ t, exec (.setNozzleStatus d) s = .next t ∧
      t.heads = (s.modHead (Fin.ofNat 8 d.target.toNat) (modStats (d.u 24 2) (d.u 26 2) (hostStatus d))).heads ∧
      t.tiles = s.tiles ∧ t.jobs = s.jobs := by
  obtain ⟨runs, fault, standby⟩ := ht
  obtain ⟨header, reserved⟩ := (headerFault_none d 3 .none .unbound [(30, 34)]).mp fault
  have taken : s.takes 0x50 d ((headerFault d 3 .none .unbound []).or
      ((if 1 < d.u 29 1 then some 29 else none).or (reservedFault d [(30, 34)]))) := by
    refine ⟨runs, ?_, standby⟩
    rw [header, reserved, if_neg (Nat.not_lt.mpr clear)]
    rfl
  have hb : ((s.begun 0x50 d).heads[(Fin.ofNat 8 d.target.toNat : HeadId)]).hdef = some hd := hh
  have valid : ¬ (3 < d.u 28 1 ∨ d.u 28 1 = 2) := by omega
  rw [show exec (.setNozzleStatus d) s = execSetNozzleStatus d s from rfl, execSetNozzleStatus, runDesc_takes _ _ _ _ _ taken]
  simp only [hb, range, if_neg valid, beq_iff_eq]
  refine ⟨_, rfl, ?_⟩
  have calm := finish_calm 0x50 d .ok 0 0
  have kept := foldl_keeps State.besidePurge (fun s p => purgeCheck p s)
    (fun s p => purgeCheck_beside p s) hd.panels
  unfold okay
  rw [State.calm_heads (calm _), State.calm_tiles (calm _), State.calm_jobs (calm _)]
  have k := kept ((s.begun 0x50 d).modHead (Fin.ofNat 8 d.target.toNat) (modStats (d.u 24 2) (d.u 26 2) (hostStatus d)))
  simp only [State.besidePurge, Prod.mk.injEq] at k
  exact k
end

end Sys2Proof.Machine
end

section
/-!
PROOFS. The phase search (O51, R123).
-/
namespace Sys2Proof.Machine

open Sys2Proof

/-! ### A test drop's window -/

/-- The search with the hit of the present drop counted, and no drop charged. -/
def PhaseSearch.counted (y : PhaseSearch) : PhaseSearch :=
  { y with hits := if y.hit = true then y.hits.modify y.step (· + 1) else y.hits, charged := none, hit := false }

/-- Another drop of the step follows. -/
theorem PhaseSearch.dropOver_drop (y : PhaseSearch) (h : 1 < y.dropsLeft) :
    y.dropOver = { y.counted with dropsLeft := y.dropsLeft - 1 } := if_pos h

/-- The next step follows. -/
theorem PhaseSearch.dropOver_step (y : PhaseSearch) (h : y.dropsLeft = 1) (hs : y.step + 1 < y.steps) :
    y.dropOver = { y.counted with step := y.step + 1, dropsLeft := y.drops } := by
  have last : ¬ 1 < y.dropsLeft := by omega
  refine (if_neg last).trans ?_
  rw [if_pos hs]
  rfl

/-- The search when every step has had its drops. -/
def PhaseSearch.ended (y : PhaseSearch) : PhaseSearch := { y.counted with step := y.steps, dropsLeft := 0 }

theorem PhaseSearch.dropOver_last (y : PhaseSearch) (h : y.dropsLeft = 1) (hs : y.steps = y.step + 1) :
    y.dropOver = y.ended := by
  have last : ¬ 1 < y.dropsLeft := by omega
  have noStep : ¬ y.step + 1 < y.steps := by omega
  refine (if_neg last).trans ?_
  rw [if_neg noStep]
  exact congrArg (fun n : Nat => { y.counted with step := n, dropsLeft := 0 }) hs.symm

/-! ### The end of a run -/

section
variable {h : HeadId} {hd : HeadDef} {y : PhaseSearch} {s : State}

/-- A tracking search that ends waits for its next run, and posts no completion. -/
theorem searchEnds_tracking (hd : y.desc = none) (he : y.every ≠ 0) (st : Status) (result : Nat) :
    searchEnds h y st result s = s.modHead h fun x => { x with search := some (y.rest s.aon.fck) } := by
  simp only [searchEnds, hd, if_neg he]

/-- A phase found at the first run of an armed head waits for the product boundary. -/
theorem searchOver_found (hd' : y.desc = none) (he : y.every ≠ 0) (first : y.again = false)
    (armed : (s.heads[h]).armed.isSome = true) {v : Nat × Nat} (found : s.phaseOf hd y y.hits = some v) :
    searchOver h hd y s = s.modHead h fun x =>
      { x with phaseWait := some (y.chargeTile, (v.1 : Int)), search := some (y.rest s.aon.fck) } := by
  have armed' : ((s.modHead h fun x => { x with phaseWait := some (y.chargeTile, (v.1 : Int)) }).heads[h]).armed.isSome =
      true := by
    rw [Fin.getElem_fin, State.modHead_hit]
    exact armed
  unfold searchOver takePhase
  simp only [found, first, Bool.false_eq_true, if_false, armed', if_true]
  rw [searchEnds_tracking hd' he, State.modHead_modHead]
  rfl

/-- A first run in which no step passes is repeated. -/
theorem searchOver_again (first : y.again = false) (lost : s.phaseOf hd y y.hits = none) :
    searchOver h hd y s = s.modHead h fun x => { x with search := some (y.begin_ true) } := by
  unfold searchOver
  simp only [lost, first, Bool.false_eq_true, if_false]

/-- A second run in which no step passes is a failure: PHASE_LOST is raised, and the phase stays as it is. -/
theorem searchOver_lost (hd' : y.desc = none) (he : y.every ≠ 0) (second : y.again = true)
    (lost : s.phaseOf hd y y.hits = none) :
    (searchOver h hd y s).ev.status.getLsbD 7 = true ∧
      ((searchOver h hd y s).heads[h]).search = some (y.rest s.aon.fck) ∧
      ((searchOver h hd y s).heads[h]).phaseWait = (s.heads[h]).phaseWait := by
  have quiet : (raiseEvent .phaseLost (arg h.val) (logPhase .lasting h y s)).quiet = s.quiet :=
    (raiseEvent_quiet ..).trans (log_quiet ..)
  unfold searchOver
  simp only [lost, second, if_true]
  rw [searchEnds_tracking hd' he, State.quiet_aon quiet]
  refine ⟨raiseEvent_shows .phaseLost _ _, ?_, ?_⟩ <;> rw [Fin.getElem_fin, State.modHead_hit]
  rw [State.quiet_heads quiet]
  rfl
end

/-! ### PHASE_TRACK_SEARCH -/

section
variable {h : HeadId} {hd : HeadDef} {y : PhaseSearch} {s : State} (hh : (s.heads[h]).hdef = some hd)
  (hy : (s.heads[h]).search = some y) (hf : s.fastOn = true) (hu : s.pwr.mode.up = true) (nozzles : List Nat) (code : Nat)
include hh hy hf hu

theorem execPhaseTrackSearch_waits (hl : y.dropsLeft = 0) (hd' : y.desc = none) (early : s.aon.fck < y.nextAt) :
    exec (.phaseTrackSearch h nozzles code) s = .next s := by
  have wait : decide (y.nextAt ≤ s.aon.fck) = false := decide_eq_false (Nat.not_le.mpr early)
  refine congrArg Host.Outcome.next ?_
  simp only [hh, hy, hf, hu, hl, hd', wait, Bool.not_true, Bool.or_self, Option.isSome_none, Bool.false_and,
    Bool.false_eq_true, if_false, if_true]

theorem execPhaseTrackSearch_starts (hl : y.dropsLeft = 0) (hd' : y.desc.isSome = true) :
    exec (.phaseTrackSearch h nozzles code) s = .next (s.modHead h fun x => { x with search := some (y.begin_ false) }) := by
  refine congrArg Host.Outcome.next ?_
  simp only [hh, hy, hf, hu, hl, hd', Bool.not_true, Bool.or_self, Bool.true_or, Bool.false_eq_true, if_false, if_true]

theorem execPhaseTrackSearch_inWindow (hl : y.dropsLeft ≠ 0) {c : Nat} (hc : y.charged = some c)
    (early : s.aon.fck < c + usFck (y.flight + y.span)) : exec (.phaseTrackSearch h nozzles code) s = .next s := by
  refine congrArg Host.Outcome.next ?_
  simp only [hh, hy, hf, hu, if_neg hl, hc, if_pos early, Bool.not_true, Bool.or_self, Bool.false_eq_true, if_false]

theorem execPhaseTrackSearch_dropOver (hl : y.dropsLeft ≠ 0) {c : Nat} (hc : y.charged = some c)
    (due : c + usFck (y.flight + y.span) ≤ s.aon.fck) : exec (.phaseTrackSearch h nozzles code) s = .next (
      if y.dropOver.dropsLeft = 0 then searchOver h hd y.dropOver s
      else s.modHead h fun x => { x with search := some y.dropOver }) := by
  refine congrArg Host.Outcome.next ?_
  simp only [hh, hy, hf, hu, if_neg hl, hc, if_neg (Nat.not_lt.mpr due), Bool.not_true, Bool.or_self, Bool.false_eq_true, if_false]

theorem execPhaseTrackSearch_fires (hl : y.dropsLeft ≠ 0) (hc : y.charged = none) (hg : s.gap h hd = true)
    (ht : y.chargeTile ∈ hd.tiles) :
    exec (.phaseTrackSearch h nozzles code) s = .next (testDrop h hd nozzles code s) := by
  refine congrArg Host.Outcome.next ?_
  simp only [hh, hy, hf, hu, if_neg hl, hc, hg, List.contains_iff_mem.mpr ht, Bool.not_true, Bool.or_self,
    Bool.false_eq_true, if_false, if_true]
end

end Sys2Proof.Machine
end

section
/-!
PROOFS. Listening, sweeps and nozzle status (O51).
-/
namespace Sys2Proof.Machine

open Sys2Proof

/-- Settles O51, clause by clause from what each row does: listen windows and their classes, SPIT and sweeps with their fires, the
phase search, and SET_NOZZLE_STATUS. -/
theorem listeningAndNozzles : Obligations.ListeningAndNozzles := by
  refine ⟨?opens, ?closes, ?classed, fun t l s hl early => execClassifyResult_early hl early, ?spit, ?sweep, ?slots, ?search,
    ?status⟩
  case opens =>
    intro t l hd s hl hh hf ho hc hp ha start
    refine ⟨fun early => execListenStart_early hl hh early, fun due hq hm => ⟨fun c window => ?_, fun window hn hs hw =>
      execListenStart_skips hl hh hf ho hc hp ha due hq hm window hn hs hw⟩⟩
    rw [execListenStart_due hl hh hf ho hc hp ha due hq hm, show s.windowOf l.head hd t l (s.listenStart t) = _ from window]
    rfl
  case closes =>
    intro t l hd trace s hl hh hs hp hw ho close
    exact ⟨fun hn due => execListenWindowClose_due hl ho hn due hp hs hw, fun h => execListenWindowClose_otherwise hl h⟩
  case classed =>
    intro t l hd x s hl hh hs hp hw hc due hm hk modes hx h0 hn hb f c
    exact execClassifyResult_first hl hs hp hw hc due hm hk modes hx h0 hn hb
  case spit =>
    intro d hd s ht h hh range fires code codeMax listen period live
    have run := execSpit_inRange ht hh range fires code codeMax listen period live
    refine ⟨fun free power => run.trans ?_, fun busy => run.trans ?_⟩
    · rw [if_neg (Bool.eq_false_iff.mp free), if_neg (Bool.eq_false_iff.mp power)]
      rfl
    · rw [if_pos busy]
      rfl
  case sweep =>
    intro d hd s ht h hh live free power
    refine ⟨fun mode incl => ?_, fun mode fields => ?_⟩
    · have one : d.u 24 1 ≠ 1 := by omega
      rw [execListenSweep_free ht hh live free power (by omega) (fun _ => incl) (fun e => absurd e one)]
      simp only [if_pos mode]
      rfl
    · have zero : d.u 24 1 ≠ 0 := by omega
      rw [execListenSweep_free ht hh live free power (by omega) (fun e => absurd e zero) (fun _ => fields)]
      simp only [if_neg zero]
      rfl
  case slots =>
    intro h hd p s hh hp hg hn hw
    exact ⟨fun hs hl rest more => execSpitFire_within hh hp hg hn hw hs hl rest more,
      fun hs ha hi ho hl => execSpitListenSlot_all hh hp hg hn hw hs ha hi ho hl⟩
  case search =>
    intro h hd y nozzles code s hh hy hf hu now put
    refine ⟨fun hl hd' early => execPhaseTrackSearch_waits hh hy hf hu nozzles code hl hd' early,
      fun hl hd' => execPhaseTrackSearch_starts hh hy hf hu nozzles code hl hd',
      fun c hl hc => ⟨fun early => execPhaseTrackSearch_inWindow hh hy hf hu nozzles code hl hc early, fun due => ?_⟩,
      fun hl hc hg ht => ⟨_, execPhaseTrackSearch_fires hh hy hf hu nozzles code hl hc hg ht,
        testDrop_ports hg nozzles code⟩⟩
    have run := execPhaseTrackSearch_dropOver hh hy hf hu nozzles code hl hc due
    refine ⟨fun more => run.trans ?drop, fun last next drops => run.trans ?step, fun last ended hd' he => ?run⟩
    case drop =>
      have left : ¬ y.dropsLeft - 1 = 0 := by omega
      rw [y.dropOver_drop more, if_neg left]
      rfl
    case step =>
      rw [y.dropOver_step last next, if_neg drops]
      rfl
    case run =>
      rw [y.dropOver_last last ended, if_pos (show y.ended.dropsLeft = 0 from rfl)] at run
      refine ⟨fun v n first armed found => run.trans (congrArg Host.Outcome.next ?_), fun first lost =>
        run.trans (congrArg Host.Outcome.next ?_), fun second lost => ⟨_, run, ?_⟩⟩
      · exact searchOver_found (y := y.ended) hd' he first armed found
      · exact searchOver_again (y := y.ended) first lost
      · exact searchOver_lost (y := y.ended) hd' he second lost
  case status =>
    intro d hd s ht clear h hh range status
    exact execSetNozzleStatus_inRange ht clear hh range status

end Sys2Proof.Machine
end

section
/-!
PROOFS. O58 fails: a conversion runs every biquad on the way to its input, and one of them can belong to another tile.
-/
namespace Sys2Proof.Machine

open Sys2Proof

/-- A placed chain: the FILTER stage on tile 6 drives the TB pin of tile 5 through port 4 of its own tile and port 0 of tile 5. No
stage of it sits on tile 5 (R212, R231). The placer takes ports for stages on tiles only; O58 speaks of every state, and none of its
premises looks at the chains. -/
def filterToPin : Chain :=
  { cdef := some (
      [{ kind := kFilter, fixed := false, grouped := false, fix := 0, group := 0, heat := 0, params := [] },
       { kind := kPinOut, fixed := true, grouped := false, fix := 5, group := 0, heat := 0, params := [] }],
      [{ src := 0, srcPort := 4, dst := 1, dstPort := 0, ty := 0, budget := 0, hold := false }])
    placement := some
      { stages := [{ stage := 0, unit := 0, tile := 6 }, { stage := 1, unit := 5, tile := 5 }]
        routes := [{ link := 0, kind := 0, panel := 0, item := 0 }]
        aps := [{ key := 256, tile := 6, ap := 4 }, { key := 0, tile := 5, ap := 0 }] } }

/-- Tile 6's biquad filters its own TB pin. Tile 5, whose SAR has ROUTE 0 and the FIFO set, converts its analogue port 0 (MUX 1),
which carries that biquad's output; the conversion that is due started 10 FCK cycles ago. -/
def convertingFiltered : State :=
  (({ aon := { sysNow := 1000000, sysBase := 1000000, fck := 5000000, ticks := 100000 },
      clk := { fast := .fck, pll := .locked },
      pwr := { mode := .active, panels := Vector.replicate 8 .active },
      chains := Vector.set (Vector.replicate 256 {}) 0 filterToPin } : State).modTile 6 fun x =>
    { x with placed := true, flt := 0xB0400A00 }).modTile 5 fun x =>
    { x with adc := 0x04008D00, sar := { x.sar with en := true, nextAt := some 4999990 } }

/-- The last base clock edge that tile 6's biquad has seen after an instruction. -/
def biquadSeenAt : Result → Option Nat
  | .next u => some (u.tiles[(6 : TileId)]).bq.at_
  | _ => none

/-- PLACED of the chain's two tiles is what its placement makes it (R231). -/
theorem convertingFiltered_placed (t : TileId) (h : t ∈ [(5 : TileId), 6]) :
    (convertingFiltered.tiles[t]).placed = convertingFiltered.isPlaced t := by
  decide +kernel +revert

theorem convertingFiltered_noStage : convertingFiltered.isPlaced 5 = false := by decide +kernel

/-- The conversion on tile 5, with the level of its source given at one base clock edge, is an edge of tile 6's biquad (R128). -/
theorem conversion_runs_otherBiquad :
    biquadSeenAt (exec (.adcConversion 5 ⟨0, [0]⟩) convertingFiltered) = some 4999990 := by
  decide +kernel

/-- Refutes O58: its clause for a delivered conversion says that no other tile changes, and takes PLACED clear on the converting
tile for that. But PLACED speaks of stages on the tile: an analogue port of the tile can still carry the biquad of another tile,
and the conversion brings that biquad up to date. -/
theorem not_converters : ¬ Obligations.Converters := by
  intro h
  obtain ⟨conversions, -⟩ := h
  obtain ⟨-, converts⟩ := conversions 5 0 [0] convertingFiltered
  obtain ⟨-, delivers⟩ := converts 4999990 (by decide +kernel) (by decide +kernel)
  obtain ⟨s', w, ran, -, -, -, -, -, -, -, -, -, -, -, -, others⟩ := delivers (by decide +kernel) (by decide +kernel)
    (by decide +kernel) ((convertingFiltered_placed 5 List.mem_cons_self).trans convertingFiltered_noStage) (by decide +kernel)
  have untouched : biquadSeenAt (exec (.adcConversion 5 ⟨0, [0]⟩) convertingFiltered) =
      some (convertingFiltered.tiles[(6 : TileId)]).bq.at_ := by
    rw [ran, ← others 6 (by decide)]
    rfl
  rw [conversion_runs_otherBiquad] at untouched
  exact absurd untouched (by decide +kernel)

end Sys2Proof.Machine
end

section
/-!
PROOFS. A comparator's own state, its launches into the crossbar, and what its inputs and its level rest on: facts about the
comparators of a tile that O56 uses.
-/
namespace Sys2Proof.Machine

open Sys2Proof

/-! ### The comparator of a tile -/

theorem State.modCmp_cmp (s : State) (t : TileId) (c : Cmp) (f : Comparator → Comparator) :
    ((s.modCmp t c f).tiles[t]).cmp c = f ((s.tiles[t]).cmp c) := by
  cases c <;> simp [State.modCmp, Tile.cmp]

theorem State.modCmp_miss (s : State) {t k : TileId} (c : Cmp) (f : Comparator → Comparator) (h : k ≠ t) :
    (s.modCmp t c f).tiles[k] = s.tiles[k] := State.modTile_miss s t k _ h.symm

theorem State.modCmp_modCmp (s : State) (t : TileId) (c : Cmp) (f g : Comparator → Comparator) :
    (s.modCmp t c f).modCmp t c g = s.modCmp t c fun x => g (f x) := by
  cases c <;> simp [State.modCmp, State.modTile]

theorem State.modCmp_congr (s : State) (t : TileId) (c : Cmp) {f g : Comparator → Comparator}
    (h : f ((s.tiles[t]).cmp c) = g ((s.tiles[t]).cmp c)) : s.modCmp t c f = s.modCmp t c g := by
  cases c <;> simp only [Tile.cmp] at h <;> simp only [State.modCmp, State.modTile, h]

/-- A reading of a tile that an update of the tile does not move. -/
theorem State.modTile_read {α : Type} (s : State) (t : TileId) (f : Tile → Tile) (g : Tile → α) (h : ∀ x, g (f x) = g x)
    (k : TileId) : g (s.modTile t f).tiles[k] = g s.tiles[k] := by
  by_cases hk : t = k
  · subst hk
    exact (congrArg g (State.modTile_hit s t f)).trans (h _)
  · exact congrArg g (State.modTile_miss s t k f hk)

/-- A reading of a tile that does not look at its comparators. -/
theorem State.modCmp_read {α : Type} (s : State) (t : TileId) (c : Cmp) (f : Comparator → Comparator) (g : Tile → α)
    (ha : ∀ x y, g { x with cmpA := y } = g x) (hb : ∀ x y, g { x with cmpB := y } = g x) (k : TileId) :
    g (s.modCmp t c f).tiles[k] = g s.tiles[k] := by
  cases c with
  | a => exact s.modTile_read t _ g (fun x => ha x _) k
  | b => exact s.modTile_read t _ g (fun x => hb x _) k

theorem State.cmpProfile_modCmp (s : State) (t : TileId) (c : Cmp) (f : Comparator → Comparator)
    (h : ∀ x, (f x).cfg = x.cfg) : (s.modCmp t c f).cmpProfile t c = s.cmpProfile t c := by
  have prof : (((s.modCmp t c f).tiles[t]).cmp c).prof = ((s.tiles[t]).cmp c).prof := by
    rw [State.modCmp_cmp, Comparator.prof, h, Comparator.prof]
  simp only [State.cmpProfile, prof, State.modCmp_panels]

theorem State.cmpMute_modCmp (s : State) (t : TileId) (c : Cmp) (f : Comparator → Comparator)
    (h : ∀ x, (f x).stuck = x.stuck) : (s.modCmp t c f).cmpMute t c = s.cmpMute t c := by
  unfold State.cmpMute
  rw [State.modCmp_cmp, h, s.modCmp_read t c f Tile.fenced (fun _ _ => rfl) (fun _ _ => rfl),
    s.modCmp_read t c f Tile.inReset (fun _ _ => rfl) (fun _ _ => rfl)]
  rfl

/-! ### A comparator that no sink takes (R168, R169) -/

theorem State.unrouted_congr {s u : State} (hp : u.panels = s.panels) (hc : u.chains = s.chains) (t : TileId) (c : Cmp) :
    u.unrouted t c = s.unrouted t c := by
  simp only [State.unrouted, State.portStarts, State.links, hp, hc]

/-- Work and state that no sink changes come out of all sinks as they are. -/
theorem foldl_launch_of_fixed {α : Type} {f : List Work × State → α → List Work × State} {r : List Work × State}
    (h : ∀ a, f r a = r) (l : List α) : l.foldl f r = r := by
  induction l with
  | nil => rfl
  | cons a l ih => rw [List.foldl_cons, h a, ih]

theorem launchSinks_of_untaken (l : Launch) (s : State) (h : ∀ k : Fin 256, (s.panels[l.panel]).sinks[k] ≠ l.source) :
    launchSinks l s = ([], s) := by
  have passed : ∀ k : Fin 256, ((s.panels[l.panel]).sinks[k] == l.source) = false := fun k => beq_eq_false_iff_ne.mpr (h k)
  unfold launchSinks
  split
  · exact foldl_launch_of_fixed (fun k => by simp only [passed k, Bool.false_and, Bool.false_eq_true, if_false]) _
  · rfl

/-- A source below the pin event lines feeds no sync line (R171). -/
theorem syncEvent_of_noLine (l : Launch) (s : State) (h : l.source < 224) : syncEvent l s = s := by
  simp [syncEvent, h]

theorem launch_of_unrouted (t : TileId) (c : Cmp) (lvl : Bool) (s : State) (h : s.unrouted t c = true) :
    launch (cmpLaunch t c lvl) s = s := by
  simp only [State.unrouted, Bool.and_eq_true, List.all_eq_true, List.mem_finRange, true_imp_iff, bne_iff_ne, ne_eq,
    List.isEmpty_iff] at h
  obtain ⟨sinks, ports⟩ := h
  have source : (cmpLaunch t c lvl).source < 224 := by
    cases c <;> simp only [cmpLaunch, cmpNum, localOf] <;> omega
  have one : launchOne (cmpLaunch t c lvl) s = ([], s) := by
    simp only [launchOne, launchSinks_of_untaken (cmpLaunch t c lvl) s sinks, syncEvent_of_noLine _ s source]
    simp only [cmpLaunch, ports, List.map_nil, List.append_nil, ite_self]
  simp only [launch, works, workOne, one, List.nil_append]

theorem cmpRoute_of_unrouted (t : TileId) (c : Cmp) (was : Bool) (s : State) (h : s.unrouted t c = true) :
    cmpRoute t c was s = s := by
  simp only [cmpRoute, launch_of_unrouted t c _ s h, ite_self]

theorem cmpRoute_of_same (t : TileId) (c : Cmp) (s : State) : cmpRoute t c ((s.tiles[t]).cmp c).routed s = s := by
  simp [cmpRoute]

/-! ### What no armed job and no failing word leave out -/

theorem jobOf_of_noneArmed (s : State) (h : s.anyArmed = false) (hd : HeadId) : s.jobOf hd = none := by
  have none := List.any_eq_false.mp h hd (List.mem_finRange hd)
  rw [Bool.not_eq_true, Option.isSome_eq_false_iff, Option.isNone_iff_eq_none] at none
  rw [State.jobOf, none]

/-- An edge that no armed job waits for (R45). -/
theorem noteEdge_of_noneArmed (code : BitVec 16) (lvl : Bool) (time : BitVec 64) (counts : List Word) (s : State)
    (h : s.anyArmed = false) : noteEdge code lvl time counts s = s :=
  foldl_of_fixed (fun hd => by rw [jobOf_of_noneArmed s h hd]) allHeads

theorem panelCfgFails_of_clean (p : PanelId) (s : State) (h : s.mem.errs = []) : s.panelCfgFails p = false := by
  simp [State.panelCfgFails, h]

/-! ### The event itself (R161, R163, R166) -/

/-- The comparator once an event of it is recorded at an FCK count: LAT set, and MIN_GAP running where it is not off. -/
def Comparator.fired (now gap : Nat) (x : Comparator) : Comparator :=
  { x with lat := true, evAt := some now, gapUntil := if gap = 0 then none else some (now + 64 * gap) }

/-- Of tiles, panels and chains only the engine of tile `t` has changed. -/
structure State.EngineAside (t : TileId) (s u : State) : Prop where
  panels : u.panels = s.panels
  chains : u.chains = s.chains
  others : ∀ k : TileId, k ≠ t → u.tiles[k] = s.tiles[k]
  tile : ∃ e : Engine, u.tiles[t] = { s.tiles[t] with eng := e }

namespace State.EngineAside

variable {t : TileId} {s u v : State}

theorem of_eq (ht : u.tiles = s.tiles) (hp : u.panels = s.panels) (hc : u.chains = s.chains) : State.EngineAside t s u :=
  ⟨hp, hc, fun _ _ => by rw [ht], _, by rw [ht]⟩

theorem trans (h : State.EngineAside t s u) (k : State.EngineAside t u v) : State.EngineAside t s v := by
  obtain ⟨e, he⟩ := h.tile
  obtain ⟨f, hf⟩ := k.tile
  exact ⟨k.panels.trans h.panels, k.chains.trans h.chains, fun n hn => (k.others n hn).trans (h.others n hn), f,
    by rw [hf, he]⟩

theorem ite {p : Prop} [Decidable p] (h : State.EngineAside t s u) : State.EngineAside t s (if p then u else s) := by
  split
  · exact h
  · exact of_eq rfl rfl rfl

theorem modEng (f : Engine → Engine) : State.EngineAside t s (s.modEng t f) :=
  ⟨rfl, rfl, fun k hk => State.modTile_miss s t k _ hk.symm, _, State.modTile_hit s t _⟩

theorem cmp (h : State.EngineAside t s u) (c : Cmp) : (u.tiles[t]).cmp c = (s.tiles[t]).cmp c := by
  obtain ⟨e, he⟩ := h.tile
  rw [he]
  cases c <;> rfl

theorem fenced (h : State.EngineAside t s u) : (u.tiles[t]).fenced = (s.tiles[t]).fenced := by
  obtain ⟨e, he⟩ := h.tile
  rw [he]

end State.EngineAside

/-- Tiles, panels and chains. -/
def State.fabric (s : State) : Vector Tile 512 × Vector Panel 8 × Vector Chain 256 := (s.tiles, s.panels, s.chains)

/-- A hit of a phase search is noted in its head alone (R123). -/
theorem phaseHit_fabric (t : TileId) (s : State) : (phaseHit t s).fabric = s.fabric := by
  unfold phaseHit
  refine foldl_keeps State.fabric _ (fun u h => ?_) allHeads s
  split
  · split
    · split <;> rfl
    · rfl
  · rfl

theorem phaseHit_keeps (t d : TileId) (s : State) : State.EngineAside t s (phaseHit d s) := by
  obtain ⟨tiles, rest⟩ := Prod.mk.inj (phaseHit_fabric d s)
  obtain ⟨panels, chains⟩ := Prod.mk.inj rest
  exact .of_eq tiles panels chains

theorem capture_keeps (t : TileId) (src : BitVec 3) (s : State) : State.EngineAside t s (capture t src s) := by
  unfold capture
  exact .modEng _

theorem setEvm_keeps (t : TileId) (bit : Nat) (s : State) : State.EngineAside t s (setEvm t bit s) := by
  unfold setEvm
  split
  · exact .of_eq rfl rfl rfl
  · exact .modEng _

theorem setEvm_shows (t : TileId) (bit : Nat) (s : State) (hb : bit < 16) (hf : (s.tiles[t]).fenced = false) :
    ((setEvm t bit s).tiles[t]).eng.evm.getLsbD bit = true := by
  have sets := State.modEng_hit s t fun e => { e with evm := e.evm ||| (1#16 <<< bit) }
  rw [setEvm, if_neg (Bool.eq_false_iff.mp hf)]
  refine (congrArg (fun e : Engine => e.evm.getLsbD bit) sets).trans ?_
  simp [hb]

theorem cmpSummary_quiet (t : TileId) (c : Cmp) (was : Bool) (s : State) : (cmpSummary t c was s).quiet = s.quiet := by
  unfold cmpSummary
  split
  · exact raiseMsix_quiet ..
  · rfl

/-- The routes of an event that are enabled, before its EVM bit and its summary. -/
theorem cmpEvent_routes (t : TileId) (c : Cmp) (s : State) (h : s.panelCfgFails (panelOf t) = false) :
    ∃ u : State, State.EngineAside t (s.modCmp t c (Comparator.fired s.aon.fck (profGap (s.cmpProfile t c)))) u ∧
      cmpEvent t c s = cmpSummary t c ((s.tiles[t]).cmpSum c) (setEvm t (3 + cmpNum c) u) := by
  unfold cmpEvent
  rw [h]
  exact ⟨_, (State.EngineAside.ite (phaseHit_keeps t t _)).trans (.ite (capture_keeps ..)), rfl⟩

/-- An event sets LAT and starts MIN_GAP; beside the comparator only its tile's engine takes note of it. -/
theorem cmpEvent_keeps (t : TileId) (c : Cmp) (s : State) (h : s.panelCfgFails (panelOf t) = false) :
    State.EngineAside t (s.modCmp t c (Comparator.fired s.aon.fck (profGap (s.cmpProfile t c)))) (cmpEvent t c s) := by
  obtain ⟨u, routes, he⟩ := cmpEvent_routes t c s h
  rw [he]
  have q := cmpSummary_quiet t c ((s.tiles[t]).cmpSum c) (setEvm t (3 + cmpNum c) u)
  exact routes.trans ((setEvm_keeps ..).trans (.of_eq (State.quiet_tiles q) (State.quiet_panels q) (State.quiet_chains q)))

theorem cmpEvent_shows (t : TileId) (c : Cmp) (s : State) (h : s.panelCfgFails (panelOf t) = false)
    (hf : (s.tiles[t]).fenced = false) : ((cmpEvent t c s).tiles[t]).eng.evm.getLsbD (3 + cmpNum c) = true := by
  obtain ⟨u, routes, he⟩ := cmpEvent_routes t c s h
  rw [he, State.quiet_tiles (cmpSummary_quiet ..)]
  refine setEvm_shows t _ u (by cases c <;> decide) ?_
  rw [routes.fenced, s.modCmp_read t c _ Tile.fenced (fun _ _ => rfl) (fun _ _ => rfl), hf]

theorem cmpEvent_unrouted (t : TileId) (c : Cmp) (s : State) (h : s.panelCfgFails (panelOf t) = false) :
    (cmpEvent t c s).unrouted t c = s.unrouted t c :=
  State.unrouted_congr (cmpEvent_keeps t c s h).panels (cmpEvent_keeps t c s h).chains t c

end Sys2Proof.Machine
end

section
/-!
PROOFS. Which side of its band a comparator's input lies on, and its level: what they rest on, and how a tile's comparators look at
their inputs when one of them has moved and the other is settled (O56).
-/
namespace Sys2Proof.Machine

open Sys2Proof

/-! ### The analogue cell without a comparator's output -/

/-- What a comparator's threshold and input are made of: its settings and its ramp. -/
def Comparator.still (x : Comparator) : Comparator := { cfg := x.cfg, rampAt := x.rampAt }

/-- The tile without the output of one comparator, and without the chopper that current mode switches (R92). -/
def Tile.still (x : Tile) (c : Cmp) : Tile :=
  let y := { x with trowel := { x.trowel with chopOn := false } }
  match c with
  | .a => { y with cmpA := y.cmpA.still }
  | .b => { y with cmpB := y.cmpB.still }

theorem Tile.still_cmp_ne {c d : Cmp} (h : d ≠ c) (x : Tile) : (x.still c).cmp d = x.cmp d := by
  cases c with
  | a => cases d with
    | a => exact absurd rfl h
    | b => rfl
  | b => cases d with
    | a => rfl
    | b => exact absurd rfl h

def State.still (s : State) (t : TileId) (c : Cmp) : State := s.modTile t fun x => x.still c

theorem State.still_modCmp (s : State) (t : TileId) (c : Cmp) (f : Comparator → Comparator)
    (h : ∀ x, (f x).still = x.still) : (s.modCmp t c f).still t c = s.still t c := by
  cases c <;> simp [State.still, State.modCmp, State.modTile, Tile.still, h]

theorem State.still_modTrowel (s : State) (t : TileId) (c : Cmp) :
    (s.modTrowel t fun w => { w with chopOn := false }).still t c = s.still t c := by
  cases c <;> simp [State.still, State.modTrowel, State.modTile, Tile.still]

section
variable (s : State) (t : TileId) (c : Cmp)

/-- A reading of a tile that looks neither at comparators nor at the chopper. -/
theorem State.still_read {α : Type} (g : Tile → α) (h : ∀ x, g (x.still c) = g x) (k : TileId) :
    g (s.still t c).tiles[k] = g s.tiles[k] := s.modTile_read t _ g h k

/-! ### The side of the band (R153, R154, R160) -/

theorem State.matrixOpen_still (k m : TileId) : (s.still t c).matrixOpen k m = s.matrixOpen k m := by
  have fenced := s.still_read t c Tile.fenced fun x => by cases c <;> rfl
  have sheet := s.still_read t c Tile.sheet fun x => by cases c <;> rfl
  simp only [State.matrixOpen, fenced, sheet]

theorem State.path_still (fuel : Nat) (n : Node) (k : TileId) : (s.still t c).path fuel n k = s.path fuel n k := by
  have pgaOn := fun b => s.still_read t c (fun x => x.pgaOn b) fun x => by cases c <;> rfl
  have pgaIn := fun b => s.still_read t c (fun x => x.pgaIn b) fun x => by cases c <;> rfl
  have bqOn := s.still_read t c Tile.bqOn fun x => by cases c <;> rfl
  have bqIn := s.still_read t c Tile.bqIn fun x => by cases c <;> rfl
  have apSource : ∀ u i, (s.still t c).apSource u i = s.apSource u i := fun _ _ => rfl
  induction fuel generalizing n k with
  | zero => rfl
  | succ fuel ih => simp only [State.path, pgaOn, pgaIn, bqOn, bqIn, apSource, State.matrixOpen_still, ih]

theorem State.pgaOut_still (k : TileId) (b : Bool) (v : Int) : (s.still t c).pgaOut k b v = s.pgaOut k b v := by
  have gain := s.still_read t c (fun x => x.pgaGain b) fun x => by cases c <;> rfl
  simp only [State.pgaOut, gain]
  rfl

theorem State.sourceVolt_still (e : Int) (n : Node) (k : TileId) : (s.still t c).sourceVolt e n k = s.sourceVolt e n k := by
  have level := s.still_read t c (fun x => x.trowel.level) fun x => by cases c <;> rfl
  cases n <;> simp only [State.sourceVolt, level] <;> rfl

theorem State.pathVolt_still (e : Int) (path : List (Node × TileId)) : (s.still t c).pathVolt e path = s.pathVolt e path := by
  have bq := s.still_read t c (fun x => x.bq.y1) fun x => by cases c <;> rfl
  have vcm : ∀ p, (s.still t c).vcm p = s.vcm p := fun _ => rfl
  induction path with
  | nil => rfl
  | cons m rest ih =>
    obtain ⟨n, k⟩ := m
    cases rest with
    | nil => exact s.sourceVolt_still t c e n k
    | cons => cases n <;> simp only [State.pathVolt, State.pgaOut_still, bq, vcm, ih]

theorem State.currentCmp_still (k : TileId) (d : Cmp) : (s.still t c).currentCmp k d = s.currentCmp k d := by
  have inReset := s.still_read t c Tile.inReset fun x => by cases c <;> rfl
  have fenced := s.still_read t c Tile.fenced fun x => by cases c <;> rfl
  have mode := s.still_read t c (fun x => x.trowel.modeField) fun x => by cases c <;> rfl
  have cmCmp := s.still_read t c (fun x => x.trowel.cmCmp) fun x => by cases c <;> rfl
  have live : (s.still t c).tileLive k = s.tileLive k := rfl
  have cfgFails : ∀ p, (s.still t c).panelCfgFails p = s.panelCfgFails p := fun _ => rfl
  have ioOff : (s.still t c).pwr = s.pwr := rfl
  simp only [State.currentCmp, State.trowelMode, inReset, fenced, mode, cmCmp, live, cfgFails, ioOff]

theorem State.threshold_still (k : TileId) (d : Cmp) : (s.still t c).threshold k d = s.threshold k d := by
  have thr := s.still_read t c (fun x => (x.cmp d).thr) fun x => by cases c <;> cases d <;> rfl
  have ramp := s.still_read t c (fun x => (x.cmp d).rampAt) fun x => by cases c <;> cases d <;> rfl
  have level := s.still_read t c (fun x => x.trowel.level) fun x => by cases c <;> rfl
  have slope := s.still_read t c (fun x => x.rslope d) fun x => by cases c <;> cases d <;> rfl
  have dir := s.still_read t c (fun x => x.rdir d) fun x => by cases c <;> cases d <;> rfl
  have vcm : ∀ p, (s.still t c).vcm p = s.vcm p := fun _ => rfl
  have vfs : ∀ p, (s.still t c).vfs p = s.vfs p := fun _ => rfl
  have aon : (s.still t c).aon = s.aon := rfl
  simp only [State.threshold, State.thrCode, State.rampSamples, State.currentCmp_still, thr, ramp, level, slope, dir, vcm, vfs,
    aon]

theorem State.cmpPoint_still (k : TileId) (d : Cmp) : (s.still t c).cmpPoint k d = s.cmpPoint k d := by
  have source := s.still_read t c (fun x => x.inputOf d) fun x => by cases c <;> rfl
  have inp := fun e : Cmp => s.still_read t c (fun x => (x.cmp e).inp) fun x => by cases c <;> cases e <;> rfl
  simp only [State.cmpPoint, State.currentCmp_still, source, inp]

/-- The side of a comparator's band rests on no comparator's output and not on the chopper. -/
theorem State.cmpSide_still (k : TileId) (d : Cmp) (e : Int) : (s.still t c).cmpSide k d e = s.cmpSide k d e := by
  have hyst := s.still_read t c (fun x => (x.cmp d).hystPv) fun x => by cases c <;> cases d <;> rfl
  simp only [State.cmpSide, State.volt, State.cmpPoint_still, State.path_still, State.pathVolt_still, State.threshold_still, hyst]
  rfl

end

/-! ### A settled comparator -/

/-- The level of a comparator outside window mode (R154, R155). -/
theorem State.cmpLvl_of_noWindow (s : State) (t : TileId) (c : Cmp) (hw : (s.tiles[t]).cmpA.win = false) :
    s.cmpLvl t c = (((s.tiles[t]).cmp c).powered && s.tileLive t && !((s.tiles[t]).cmp c).unres &&
      (((s.tiles[t]).cmp c).raw != ((s.tiles[t]).cmp c).pol)) := by
  cases c <;> simp only [State.cmpLvl, Tile.cmpRaw, hw, Tile.cmp, Bool.false_eq_true, if_false]

/-- The comparator shows the level of its input, which it has left the band to: looking again changes nothing. -/
structure State.Settled (s : State) (t : TileId) (c : Cmp) : Prop where
  resolved : ((s.tiles[t]).cmp c).unres = false
  level : ((s.tiles[t]).cmp c).lvl = s.cmpLvl t c
  notCurrent : s.currentCmp t c = false
  keeps : ∀ e : Int, ((s.tiles[t]).cmp c).seen = some e → s.cmpSide t c e = some ((s.tiles[t]).cmp c).raw

section
variable {s u : State} {t : TileId} {c d : Cmp}

theorem State.cmpSide_of_still (h : u.still t c = s.still t c) (d : Cmp) (e : Int) : u.cmpSide t d e = s.cmpSide t d e := by
  rw [← u.cmpSide_still t c, h, s.cmpSide_still t c]

theorem State.currentCmp_of_still (h : u.still t c = s.still t c) (d : Cmp) : u.currentCmp t d = s.currentCmp t d := by
  rw [← u.currentCmp_still t c, h, s.currentCmp_still t c]

theorem State.win_of_still (h : u.still t c = s.still t c) : (u.tiles[t]).cmpA.win = (s.tiles[t]).cmpA.win := by
  have win := fun v : State => v.still_read t c (fun x => x.cmpA.win) fun x => by cases c <;> rfl
  rw [← win u, h, win s]

theorem State.cmp_of_still (h : u.still t c = s.still t c) (hd : d ≠ c) : (u.tiles[t]).cmp d = (s.tiles[t]).cmp d := by
  have other := fun v : State => v.still_read t c (fun x => x.cmp d) (Tile.still_cmp_ne hd)
  rw [← other u, h, other s]

theorem State.tileLive_of_still (h : u.still t c = s.still t c) : u.tileLive t = s.tileLive t := by
  have same := congrArg (fun v : State => v.tileLive t) h
  exact same

/-- What one comparator puts out does not unsettle the other. -/
theorem State.Settled.of_still (h : s.Settled t d) (hd : d ≠ c) (hw : (s.tiles[t]).cmpA.win = false)
    (k : u.still t c = s.still t c) : u.Settled t d := by
  have same := State.cmp_of_still k hd
  have level : u.cmpLvl t d = s.cmpLvl t d := by
    rw [u.cmpLvl_of_noWindow t d ((State.win_of_still k).trans hw), s.cmpLvl_of_noWindow t d hw, same, State.tileLive_of_still k]
  refine ⟨by rw [same, h.resolved], by rw [same, level, h.level], by rw [State.currentCmp_of_still k, h.notCurrent], ?_⟩
  rw [same]
  exact fun e he => (State.cmpSide_of_still k d e).trans (h.keeps e he)

/-! ### Looking at the input (R154, R160) -/

/-- An input inside the band, or on the side that the output shows already. -/
theorem cmpLook_of_kept (hr : ((s.tiles[t]).cmp c).unres = false)
    (h : ∀ e : Int, ((s.tiles[t]).cmp c).seen = some e →
      s.cmpSide t c e = none ∨ s.cmpSide t c e = some ((s.tiles[t]).cmp c).raw ∧ s.currentCmp t c = false) :
    cmpLook t c s = s := by
  have inside : s.modCmp t c (fun x => x.input none) = s :=
    s.modCmp_of_fixed t c _ (by simp only [Comparator.input, hr, Bool.false_and]; rw [← hr])
  have onSide : s.modCmp t c (fun x => x.input (some ((s.tiles[t]).cmp c).raw)) = s :=
    s.modCmp_of_fixed t c _ (by simp only [Comparator.input]; rw [← hr])
  cases he : ((s.tiles[t]).cmp c).seen with
  | none => simp only [cmpLook, he, inside]
  | some e =>
    rcases h e he with hs | ⟨hs, hc⟩
    · simp only [cmpLook, he, hs, inside, reduceCtorEq, false_and, if_false, ite_self]
    · simp only [cmpLook, he, hs, onSide, hc, Bool.false_eq_true, and_false, if_false, ite_self]

theorem State.Settled.look (h : s.Settled t c) : cmpLook t c s = s :=
  cmpLook_of_kept h.resolved fun e he => .inr ⟨h.keeps e he, h.notCurrent⟩

/-- A trip of the comparator that current mode has chosen: it switches the trowel off (R92, R160). -/
theorem cmpLook_of_trip {e : Int} (hp : ((s.tiles[t]).cmp c).powered = true) (hr : ((s.tiles[t]).cmp c).unres = false)
    (he : ((s.tiles[t]).cmp c).seen = some e) (hs : s.cmpSide t c e = some true) (hraw : ((s.tiles[t]).cmp c).raw = true)
    (hc : s.currentCmp t c = true) : cmpLook t c s = s.modTrowel t fun w => { w with chopOn := false } := by
  have onSide : s.modCmp t c (fun x => x.input (some true)) = s :=
    s.modCmp_of_fixed t c _ (by simp only [Comparator.input]; rw [← hr, ← hraw])
  simp only [cmpLook, he, hp, hs, onSide, hc, and_self, if_true]

/-- An input beyond the band on the other side. -/
theorem cmpLook_of_moved {e : Int} {b : Bool} (hp : ((s.tiles[t]).cmp c).powered = true)
    (he : ((s.tiles[t]).cmp c).seen = some e) (hs : s.cmpSide t c e = some b) (hc : s.currentCmp t c = false) :
    cmpLook t c s = s.modCmp t c fun x => { x with raw := b, unres := false } := by
  have stays : (s.modCmp t c fun x => x.input (some b)).currentCmp t c = false := by
    rw [← State.currentCmp_still _ t c, State.still_modCmp, State.currentCmp_still, hc]
    exact fun _ => rfl
  simp only [cmpLook, he, hp, hs, stays, Bool.false_eq_true, and_false, if_false, if_true]
  rfl

/-! ### The level follows (R154, R165) -/

theorem cmpLevel_of_same (h : ((s.tiles[t]).cmp c).lvl = s.cmpLvl t c) : cmpLevel t c s = s := if_pos h

/-- A change of level while no first STUCK waits for its end (R167). -/
theorem cmpLevel_of_changed {lvl : Bool} (hl : s.cmpLvl t c = lvl) (h : ((s.tiles[t]).cmp c).lvl ≠ lvl)
    (hs : ((s.tiles[t]).cmp c).stuckPhase ≠ .first) :
    cmpLevel t c s = cmpFilter t c (s.modCmp t c fun x =>
      { x with lvl, activeSince := if lvl then some s.aon.ticks else none }) := by
  have filtered : ∀ f : Comparator → Comparator, (f ((s.tiles[t]).cmp c)).routed = ((s.tiles[t]).cmp c).routed →
      cmpRoute t c ((s.tiles[t]).cmp c).routed (s.modCmp t c f) = s.modCmp t c f := fun f hf => by
    have same := cmpRoute_of_same t c (s.modCmp t c f)
    rwa [State.modCmp_cmp, hf] at same
  unfold cmpLevel
  simp only [hl, h, if_false]
  cases lvl with
  | true =>
    simp only [if_true]
    rw [filtered _ rfl]
  | false =>
    simp only [Bool.false_eq_true, if_false]
    rw [s.modCmp_congr t c (g := fun x => { x with lvl := false, activeSince := none }) (if_neg hs), filtered _ rfl]

/-- A level back at the accepted one is a change dropped; it has woken nothing (R165). -/
theorem cmpFilter_of_accepted (h : ((s.tiles[t]).cmp c).lvl = ((s.tiles[t]).cmp c).acc)
    (hw : ((s.tiles[t]).cmp c).woke = false) : cmpFilter t c s = s.modCmp t c fun x => { x with cand := none } := by
  simp only [cmpFilter, h, hw, if_true, Bool.false_eq_true, if_false]
  exact s.modCmp_congr t c (by rw [← hw])

/-- A change waits for MINW while fast clocks run (R165). -/
theorem cmpFilter_of_waiting (h : ((s.tiles[t]).cmp c).lvl ≠ ((s.tiles[t]).cmp c).acc)
    (hm : s.minwFck (s.cmpProfile t c) ≠ 0) (hf : s.fastOn = true) :
    cmpFilter t c s = s.modCmp t c fun x =>
      { x with cand := some (x.lvl, s.aon.fck + s.minwFck (s.cmpProfile t c)) } := by
  simp only [cmpFilter, h, hm, if_false, decide_false, Bool.and_false, Bool.false_eq_true]
  exact if_pos hf

/-! ### Both comparators of a tile -/

/-- While one comparator is settled, only the other one's look and level count. -/
theorem cmpLooks_of_settled {v : State} (hd : d ≠ c) (hw : (s.tiles[t]).cmpA.win = false)
    (hr : ((s.tiles[t]).cmp c).unres = false) (settled : s.Settled t d) (look : cmpLook t c s = u)
    (lookStill : u.still t c = s.still t c) (level : cmpLevel t c u = v) (levelStill : v.still t c = u.still t c) :
    cmpLooks t s = v := by
  have settledU := settled.of_still hd hw lookStill
  have settledV := settledU.of_still hd ((State.win_of_still lookStill).trans hw) levelStill
  have resolved := settled.resolved
  cases c <;> cases d <;> simp only [ne_eq, not_true_eq_false] at hd <;>
    simp only [Tile.cmp] at hr resolved <;>
    simp only [cmpLooks, cmpLevels, cmpSilent, Tile.cmpRaw, hw, hr, resolved, Bool.false_eq_true, if_false, Bool.false_and]
  · rw [look, settledU.look, level, cmpLevel_of_same settledV.level]
  · rw [settled.look, look, cmpLevel_of_same settledU.level, level]

end

end Sys2Proof.Machine
end

section
/-!
PROOFS. Comparator edges, filters, events, gaps and STUCK (O56).
-/
namespace Sys2Proof.Machine

open Sys2Proof

/-! ### What the biquads' edges leave alone (R128) -/

/-- The module without the states of its biquads. -/
def State.besideBiquads (s : State) : State := { s with tiles := s.tiles.map fun x => { x with bq := {} } }

theorem State.modTile_besideBiquads (s : State) (t : TileId) (f : Tile → Tile)
    (h : ∀ x, { f x with bq := {} } = { x with bq := {} }) : (s.modTile t f).besideBiquads = s.besideBiquads := by
  refine congrArg (fun v : Vector Tile 512 => { s with tiles := v }) (Vector.ext fun i hi => ?_)
  simp only [Vector.getElem_map]
  exact s.modTile_read t f (fun x => { x with bq := {} }) h ⟨i, hi⟩

theorem bqBase_besideBiquads (rest : List (Node × TileId)) (t : TileId) (n : Nat) (e : Int) (s : State) :
    (bqBase rest t n e s).besideBiquads = s.besideBiquads := by
  unfold bqBase
  simp only []
  split
  · rfl
  · exact s.modTile_besideBiquads t _ fun _ => rfl

theorem bqPath_besideBiquads (n : Nat) (e : Int) (path : List (Node × TileId)) (s : State) :
    (bqPath n e path s).besideBiquads = s.besideBiquads := by
  induction path with
  | nil => rfl
  | cons m rest ih =>
    unfold bqPath
    simp only []
    split
    · rw [bqBase_besideBiquads, ih]
    · exact ih

theorem bqRun_besideBiquads (now : Nat) (n : Node) (t : TileId) (past : List Int) (s : State) :
    (bqRun now n t past s).besideBiquads = s.besideBiquads :=
  foldl_keeps State.besideBiquads _ (fun _ _ => bqPath_besideBiquads ..) _ s

section
variable {s u : State} (h : u.besideBiquads = s.besideBiquads)
include h

theorem State.tile_of_besideBiquads {α : Type} (g : Tile → α) (hg : ∀ x, g { x with bq := {} } = g x) (k : TileId) :
    g u.tiles[k] = g s.tiles[k] := by
  have same := congrArg (fun v : State => g v.tiles[k]) h
  simpa only [State.besideBiquads, Fin.getElem_fin, Vector.getElem_map, hg] using same

theorem State.cmp_of_besideBiquads (t : TileId) (c : Cmp) : (u.tiles[t]).cmp c = (s.tiles[t]).cmp c :=
  State.tile_of_besideBiquads h (fun x => x.cmp c) (fun _ => by cases c <;> rfl) t

theorem State.aon_of_besideBiquads : u.aon = s.aon := by
  have same := congrArg State.aon h
  exact same

theorem State.clk_of_besideBiquads : u.clk = s.clk := by
  have same := congrArg State.clk h
  exact same

theorem State.tileLive_of_besideBiquads (t : TileId) : u.tileLive t = s.tileLive t := by
  have same := congrArg (fun v : State => v.tileLive t) h
  exact same

theorem State.cmpLvl_of_besideBiquads (t : TileId) (c : Cmp) : u.cmpLvl t c = s.cmpLvl t c := by
  have raw := State.tile_of_besideBiquads h (fun x => x.cmpRaw c) (fun _ => by cases c <;> rfl) t
  simp only [State.cmpLvl, raw, State.cmp_of_besideBiquads h, State.tileLive_of_besideBiquads h]

theorem State.currentCmp_of_besideBiquads (t : TileId) (c : Cmp) : u.currentCmp t c = s.currentCmp t c := by
  have inReset := State.tile_of_besideBiquads h Tile.inReset (fun _ => rfl) t
  have fenced := State.tile_of_besideBiquads h Tile.fenced (fun _ => rfl) t
  have trowel := State.tile_of_besideBiquads h Tile.trowel (fun _ => rfl) t
  have pwr : u.pwr = s.pwr := by
    have same := congrArg State.pwr h
    exact same
  have cfgFails : u.panelCfgFails (panelOf t) = s.panelCfgFails (panelOf t) := by
    have same := congrArg (fun v : State => v.panelCfgFails (panelOf t)) h
    exact same
  simp only [State.currentCmp, State.trowelMode, inReset, fenced, trowel, pwr, cfgFails, State.tileLive_of_besideBiquads h]

theorem State.cmpProfile_of_besideBiquads (t : TileId) (c : Cmp) : u.cmpProfile t c = s.cmpProfile t c := by
  have panels : u.panels = s.panels := by
    have same := congrArg State.panels h
    exact same
  simp only [State.cmpProfile, State.cmp_of_besideBiquads h, panels]

end

/-! ### An input given (R153 to R156) -/

/-- Outside window mode, a powered comparator that has left its band shows the level of its raw output. -/
structure State.Showing (s : State) (t : TileId) (c : Cmp) : Prop where
  noWindow : (s.tiles[t]).cmpA.win = false
  powered : ((s.tiles[t]).cmp c).powered = true
  resolved : ((s.tiles[t]).cmp c).unres = false
  live : s.tileLive t = true
  level : ((s.tiles[t]).cmp c).lvl = s.cmpLvl t c

section
variable {s u : State} {t : TileId} {c d : Cmp}

theorem State.Showing.lvl (h : s.Showing t c) :
    ((s.tiles[t]).cmp c).lvl = (((s.tiles[t]).cmp c).raw != ((s.tiles[t]).cmp c).pol) := by
  rw [h.level, s.cmpLvl_of_noWindow t c h.noWindow, h.powered, h.resolved, h.live]
  simp

theorem State.Showing.of_biquads (h : s.Showing t c) (k : u.besideBiquads = s.besideBiquads) : u.Showing t c := by
  have same := State.cmp_of_besideBiquads k t
  exact ⟨(congrArg Comparator.win (same .a)).trans h.noWindow, by rw [same, h.powered], by rw [same, h.resolved],
    (State.tileLive_of_besideBiquads k t).trans h.live, by rw [same, h.level, State.cmpLvl_of_besideBiquads k]⟩

/-- What the comparator's source shows, given by a command. -/
def State.shown (s : State) (t : TileId) (c : Cmp) (uv : Int) : State := s.modCmp t c fun x => { x with seen := some uv }

theorem State.shown_still (uv : Int) : (s.shown t c uv).still t c = s.still t c := s.still_modCmp t c _ fun _ => rfl

theorem State.shown_cmp (uv : Int) : ((s.shown t c uv).tiles[t]).cmp c = { (s.tiles[t]).cmp c with seen := some uv } :=
  s.modCmp_cmp t c _

theorem State.shown_side (uv : Int) : (s.shown t c uv).cmpSide t c uv = s.cmpSide t c uv :=
  State.cmpSide_of_still (State.shown_still uv) c uv

theorem State.Showing.shown (h : s.Showing t c) (uv : Int) : (s.shown t c uv).Showing t c := by
  have noWindow := (State.win_of_still (State.shown_still (s := s) (c := c) uv)).trans h.noWindow
  have live := (State.tileLive_of_still (State.shown_still (s := s) (c := c) uv)).trans h.live
  have level := h.level
  rw [s.cmpLvl_of_noWindow t c h.noWindow] at level
  refine ⟨noWindow, by rw [State.shown_cmp, h.powered], by rw [State.shown_cmp, h.resolved], live, ?_⟩
  rw [State.cmpLvl_of_noWindow _ t c noWindow, State.shown_cmp, live, ← h.live]
  exact level

theorem cmpLooks_of_kept (h : s.Showing t c) (hd : d ≠ c) (settled : s.Settled t d)
    (hs : ∀ e : Int, ((s.tiles[t]).cmp c).seen = some e →
      s.cmpSide t c e = none ∨ s.cmpSide t c e = some ((s.tiles[t]).cmp c).raw ∧ s.currentCmp t c = false) :
    cmpLooks t s = s :=
  cmpLooks_of_settled hd h.noWindow h.resolved settled (cmpLook_of_kept h.resolved hs) rfl (cmpLevel_of_same h.level) rfl

theorem cmpLooks_of_trip {e : Int} (h : s.Showing t c) (hd : d ≠ c) (settled : s.Settled t d)
    (he : ((s.tiles[t]).cmp c).seen = some e) (hs : s.cmpSide t c e = some true) (hr : ((s.tiles[t]).cmp c).raw = true)
    (hc : s.currentCmp t c = true) : cmpLooks t s = s.modTrowel t fun w => { w with chopOn := false } := by
  have still := s.still_modTrowel t c
  have same : (((s.modTrowel t fun w => { w with chopOn := false }).tiles[t]).cmp c) = (s.tiles[t]).cmp c := by
    rw [State.modTrowel_tile]
    cases c <;> rfl
  refine cmpLooks_of_settled hd h.noWindow h.resolved settled (cmpLook_of_trip h.powered h.resolved he hs hr hc) still
    (cmpLevel_of_same ?_) rfl
  rw [State.cmpLvl_of_noWindow _ t c ((State.win_of_still still).trans h.noWindow), same, State.tileLive_of_still still, h.level,
    s.cmpLvl_of_noWindow t c h.noWindow]

/-- The input `e` lies on the other side `b` of the band; no current mode and no first STUCK hangs on the comparator. -/
structure State.Crosses (s : State) (t : TileId) (c : Cmp) (e : Int) (b : Bool) : Prop where
  seen : ((s.tiles[t]).cmp c).seen = some e
  side : s.cmpSide t c e = some b
  away : b ≠ ((s.tiles[t]).cmp c).raw
  notCurrent : s.currentCmp t c = false
  notFirst : ((s.tiles[t]).cmp c).stuckPhase ≠ .first

/-- The comparator once its input lies on side `b` of the band. -/
def Comparator.moved (b : Bool) (ticks : Nat) (x : Comparator) : Comparator :=
  { x with raw := b, unres := false, lvl := (b != x.pol), activeSince := if b != x.pol then some ticks else none }

/-- An input that crosses the band moves the level, which enters the width filter. -/
theorem cmpLooks_of_moved {e : Int} {b : Bool} {f : Comparator → Comparator} (h : s.Showing t c) (hd : d ≠ c)
    (settled : s.Settled t d) (crosses : s.Crosses t c e b)
    (filter : cmpFilter t c (s.modCmp t c (Comparator.moved b s.aon.ticks)) =
      (s.modCmp t c (Comparator.moved b s.aon.ticks)).modCmp t c f) (hf : ∀ x, (f x).still = x.still) :
    cmpLooks t s = s.modCmp t c fun x => f (x.moved b s.aon.ticks) := by
  obtain ⟨he, hs, hb, hc, hp⟩ := crosses
  have lookStill : (s.modCmp t c fun x => { x with raw := b, unres := false }).still t c = s.still t c :=
    s.still_modCmp t c _ fun _ => rfl
  have lvl : (s.modCmp t c fun x => { x with raw := b, unres := false }).cmpLvl t c = (b != ((s.tiles[t]).cmp c).pol) := by
    rw [State.cmpLvl_of_noWindow _ t c ((State.win_of_still lookStill).trans h.noWindow), State.modCmp_cmp,
      State.tileLive_of_still lookStill, h.live, h.powered]
    rfl
  have changed : ((s.tiles[t]).cmp c).lvl ≠ (b != ((s.tiles[t]).cmp c).pol) := by
    rw [h.lvl]
    exact fun same => hb (Bool.bne_left_inj.mp same).symm
  have level := cmpLevel_of_changed lvl (by rw [State.modCmp_cmp]; exact changed) (by rw [State.modCmp_cmp]; exact hp)
  have moved : ((s.modCmp t c fun x => { x with raw := b, unres := false }).modCmp t c fun x =>
      { x with
        lvl := (b != ((s.tiles[t]).cmp c).pol)
        activeSince := if b != ((s.tiles[t]).cmp c).pol then some s.aon.ticks else none }) =
      s.modCmp t c (Comparator.moved b s.aon.ticks) :=
    (s.modCmp_modCmp ..).trans (s.modCmp_congr t c rfl)
  rw [State.modCmp_aon, moved, filter, State.modCmp_modCmp] at level
  refine cmpLooks_of_settled hd h.noWindow h.resolved settled (cmpLook_of_moved h.powered he hs hc) lookStill level ?_
  rw [lookStill, s.still_modCmp t c (fun x => f (x.moved b s.aon.ticks)) fun x => hf _]

/-- The level enters the width filter and waits for MINW (R165). -/
theorem cmpLooks_of_waiting {e : Int} {b : Bool} (h : s.Showing t c) (hd : d ≠ c) (settled : s.Settled t d)
    (crosses : s.Crosses t c e b)
    (ha : ((s.tiles[t]).cmp c).acc ≠ (b != ((s.tiles[t]).cmp c).pol)) (hm : s.minwFck (s.cmpProfile t c) ≠ 0)
    (hf : s.fastOn = true) :
    cmpLooks t s = s.modCmp t c fun x =>
      { x.moved b s.aon.ticks with cand := some (b != x.pol, s.aon.fck + s.minwFck (s.cmpProfile t c)) } := by
  have profile := s.cmpProfile_modCmp t c (Comparator.moved b s.aon.ticks) fun _ => rfl
  refine cmpLooks_of_moved (f := fun x => { x with cand := some (x.lvl, s.aon.fck + s.minwFck (s.cmpProfile t c)) }) h hd settled
    crosses ?_ fun _ => rfl
  rw [cmpFilter_of_waiting (s := s.modCmp t c (Comparator.moved b s.aon.ticks)) (by rw [State.modCmp_cmp]; exact ha.symm)
    (by rw [profile]; exact hm) hf, profile]
  rfl

/-- The level is back at the accepted one (R165). -/
theorem cmpLooks_of_accepted {e : Int} {b : Bool} (h : s.Showing t c) (hd : d ≠ c) (settled : s.Settled t d)
    (crosses : s.Crosses t c e b)
    (ha : ((s.tiles[t]).cmp c).acc = (b != ((s.tiles[t]).cmp c).pol)) (hw : ((s.tiles[t]).cmp c).woke = false) :
    cmpLooks t s = s.modCmp t c fun x => { x.moved b s.aon.ticks with cand := none } := by
  refine cmpLooks_of_moved (f := fun x => { x with cand := none }) h hd settled crosses ?_ fun _ => rfl
  exact cmpFilter_of_accepted (by rw [State.modCmp_cmp]; exact ha.symm) (by rw [State.modCmp_cmp]; exact hw)

/-- State `u` is `s` when comparator `c` is about to look: the biquads have run, and the other comparator `d` is settled. -/
structure State.Looking (s u : State) (t : TileId) (c d : Cmp) : Prop where
  ne : d ≠ c
  beside : u.besideBiquads = s.besideBiquads
  showing : u.Showing t c
  settled : u.Settled t d

theorem State.Showing.looking (h : s.Showing t c) (beside : u.besideBiquads = s.besideBiquads) (ne : d ≠ c)
    (other : ((s.tiles[t]).cmp d).unres = false ∧ ((s.tiles[t]).cmp d).lvl = s.cmpLvl t d ∧ s.currentCmp t d = false ∧
      ∀ e : Int, ((s.tiles[t]).cmp d).seen = some e → u.cmpSide t d e = some ((s.tiles[t]).cmp d).raw) :
    s.Looking u t c d := by
  obtain ⟨resolved, level, notCurrent, keeps⟩ := other
  have same := State.cmp_of_besideBiquads beside t d
  refine ⟨ne, beside, h.of_biquads beside, ⟨?_, ?_, ?_, ?_⟩⟩
  · rw [same, resolved]
  · rw [same, level, State.cmpLvl_of_besideBiquads beside]
  · rw [State.currentCmp_of_besideBiquads beside, notCurrent]
  · rw [same]
    exact keeps

namespace State.Looking

variable {uv : Int} {b : Bool} (h : s.Looking u t c d)
include h

theorem cmp : (u.tiles[t]).cmp c = (s.tiles[t]).cmp c := State.cmp_of_besideBiquads h.beside t c

theorem shownSettled : (u.shown t c uv).Settled t d :=
  h.settled.of_still h.ne h.showing.noWindow (State.shown_still uv)

theorem shownCmp : ((u.shown t c uv).tiles[t]).cmp c = { (s.tiles[t]).cmp c with seen := some uv } := by
  rw [State.shown_cmp, h.cmp]

theorem shownSeen : (((u.shown t c uv).tiles[t]).cmp c).seen = some uv := by rw [h.shownCmp]

theorem shownCurrent {on : Bool} (hc : s.currentCmp t c = on) : (u.shown t c uv).currentCmp t c = on :=
  (State.currentCmp_of_still (State.shown_still uv) c).trans ((State.currentCmp_of_besideBiquads h.beside t c).trans hc)

theorem shownAon : (u.shown t c uv).aon = s.aon := by
  have aon := State.aon_of_besideBiquads h.beside
  exact aon

theorem shownMinw :
    (u.shown t c uv).minwFck ((u.shown t c uv).cmpProfile t c) = s.minwFck (s.cmpProfile t c) := by
  have clk := State.clk_of_besideBiquads h.beside
  have profile := (u.cmpProfile_modCmp t c (fun x => { x with seen := some uv }) fun _ => rfl).trans
    (State.cmpProfile_of_besideBiquads h.beside t c)
  rw [State.shown, profile, State.minwFck, State.minwFck, ← clk]
  rfl

/-- Inside the band nothing changes. -/
theorem inside (hs : u.cmpSide t c uv = none) : cmpLooks t (u.shown t c uv) = u.shown t c uv :=
  cmpLooks_of_kept (h.showing.shown uv) h.ne h.shownSettled fun e he => by
    cases h.shownSeen.symm.trans he
    exact .inl ((State.shown_side uv).trans hs)

theorem unmoved (hs : u.cmpSide t c uv = some ((s.tiles[t]).cmp c).raw) (hc : s.currentCmp t c = false) :
    cmpLooks t (u.shown t c uv) = u.shown t c uv :=
  cmpLooks_of_kept (h.showing.shown uv) h.ne h.shownSettled fun e he => by
    cases h.shownSeen.symm.trans he
    exact .inr ⟨by rw [h.shownCmp]; exact (State.shown_side uv).trans hs, h.shownCurrent hc⟩

theorem trip (hs : u.cmpSide t c uv = some true) (hr : ((s.tiles[t]).cmp c).raw = true)
    (hc : s.currentCmp t c = true) :
    cmpLooks t (u.shown t c uv) = (u.shown t c uv).modTrowel t fun w => { w with chopOn := false } :=
  cmpLooks_of_trip (h.showing.shown uv) h.ne h.shownSettled h.shownSeen ((State.shown_side uv).trans hs)
    (by rw [h.shownCmp]; exact hr) (h.shownCurrent hc)

theorem crosses (hs : u.cmpSide t c uv = some b) (hb : b ≠ ((s.tiles[t]).cmp c).raw) (hc : s.currentCmp t c = false)
    (hp : ((s.tiles[t]).cmp c).stuckPhase ≠ .first) : (u.shown t c uv).Crosses t c uv b :=
  ⟨h.shownSeen, (State.shown_side uv).trans hs, by rw [h.shownCmp]; exact hb, h.shownCurrent hc, by rw [h.shownCmp]; exact hp⟩

theorem waiting (crosses : (u.shown t c uv).Crosses t c uv b)
    (ha : ((s.tiles[t]).cmp c).acc ≠ (b != ((s.tiles[t]).cmp c).pol)) (hm : s.minwFck (s.cmpProfile t c) ≠ 0)
    (hf : s.fastOn = true) :
    cmpLooks t (u.shown t c uv) = u.modCmp t c fun x =>
      { x with
        seen := some uv, raw := b, lvl := (b != x.pol), activeSince := if b != x.pol then some s.aon.ticks else none
        cand := some (b != x.pol, s.aon.fck + s.minwFck (s.cmpProfile t c)) } := by
  have fast : (u.shown t c uv).fastOn = true := by
    rw [← hf, State.fastOn, State.fastOn, ← State.clk_of_besideBiquads h.beside]
    rfl
  rw [cmpLooks_of_waiting (h.showing.shown uv) h.ne h.shownSettled crosses (by rw [h.shownCmp]; exact ha)
    (by rw [h.shownMinw]; exact hm) fast, h.shownMinw, h.shownAon, State.shown, State.modCmp_modCmp]
  refine u.modCmp_congr t c ?_
  rw [Comparator.moved, ← h.showing.resolved]
  rfl

theorem accepted (crosses : (u.shown t c uv).Crosses t c uv b)
    (ha : ((s.tiles[t]).cmp c).acc = (b != ((s.tiles[t]).cmp c).pol)) (hw : ((s.tiles[t]).cmp c).woke = false) :
    cmpLooks t (u.shown t c uv) = u.modCmp t c fun x =>
      { x with
        seen := some uv, raw := b, lvl := (b != x.pol), cand := none
        activeSince := if b != x.pol then some s.aon.ticks else none } := by
  rw [cmpLooks_of_accepted (h.showing.shown uv) h.ne h.shownSettled crosses (by rw [h.shownCmp]; exact ha)
    (by rw [h.shownCmp]; exact hw), h.shownAon, State.shown, State.modCmp_modCmp]
  refine u.modCmp_congr t c ?_
  rw [Comparator.moved, ← h.showing.resolved]
  rfl

end State.Looking

theorem execComparatorEdge_of_fast (uv : Int) (past : List Int) (hu : s.aon.up = true) (hf : s.fastOn = true)
    (hw : (s.tiles[t]).cmpA.win = false) :
    exec (.comparatorEdge t c ⟨uv, past⟩) s =
      .next (cmpLooks t ((bqRun s.aon.fck (s.cmpPoint t c) t past s).shown t c uv)) := by
  show execComparatorEdge t c ⟨uv, past⟩ s = _
  simp only [execComparatorEdge, hu, hf, hw, Bool.not_true, Bool.false_eq_true, if_false, if_true]
  rfl

/-! ### A change accepted (R165, R166) -/

/-- The comparator once a change of its level has passed MINW. -/
def Comparator.accepted (lvl : Bool) (x : Comparator) : Comparator := { x with acc := lvl, cand := none, woke := false }

theorem execComparatorMinwAccept_of_due {lvl : Bool} {due : Nat} (hc : ((s.tiles[t]).cmp c).cand = some (lvl, due))
    (hf : s.fastOn = true) (hd : due ≤ s.aon.fck) :
    exec (.comparatorMinwAccept t c) s = .next (cmpAccept t c lvl s) := by
  show execComparatorMinwAccept t c s = _
  simp only [execComparatorMinwAccept, hc, hf, hd, decide_true, Bool.and_true, if_true]

theorem cmpAccept_of_gap {lvl : Bool} {g : Nat} (hg : ((s.tiles[t]).cmp c).gapUntil = some g) (hn : s.aon.fck < g)
    (he : ((s.tiles[t]).cmp c).edgeHits lvl = true) :
    cmpAccept t c lvl s = (s.modCmp t c (Comparator.accepted lvl)).modPanel (panelOf t) fun p =>
      { p with overrun := p.overrun + 1 } := by
  have gap : (((s.modCmp t c (Comparator.accepted lvl)).tiles[t]).cmp c).gapUntil = some g := by rw [State.modCmp_cmp]; exact hg
  have hits : (((s.modCmp t c (Comparator.accepted lvl)).tiles[t]).cmp c).edgeHits lvl = true := by
    rw [State.modCmp_cmp]; exact he
  unfold Comparator.accepted at gap hits ⊢
  simp only [cmpAccept, gap, State.modCmp_aon, hn, hits, if_true]

theorem cmpAccept_of_noGap {lvl : Bool} (hg : ((s.tiles[t]).cmp c).gapUntil = none) :
    cmpAccept t c lvl s = cmpTake t c lvl (s.modCmp t c (Comparator.accepted lvl)) := by
  have gap : (((s.modCmp t c (Comparator.accepted lvl)).tiles[t]).cmp c).gapUntil = none := by rw [State.modCmp_cmp]; exact hg
  unfold Comparator.accepted at gap ⊢
  simp only [cmpAccept, gap]

/-- A filtered level taken as an event of a comparator that no sink takes. -/
theorem cmpTake_of_event {lvl : Bool} (hl : ((s.tiles[t]).cmp c).filt ≠ lvl) (ha : s.anyArmed = false) (hm : s.mem.errs = [])
    (hu : s.unrouted t c = true) (he : ((s.tiles[t]).cmp c).edgeHits lvl = true) (hq : s.cmpMute t c = false) :
    cmpTake t c lvl s = cmpEvent t c (s.modCmp t c fun x => { x with filt := lvl }) := by
  have armed : ∀ f, (s.modCmp t c f).anyArmed = false := fun _ => ha
  have clean : ∀ f, (s.modCmp t c f).panelCfgFails (panelOf t) = false := fun _ => panelCfgFails_of_clean _ _ hm
  simp only [cmpTake, hl, hq, he, Bool.not_false, Bool.and_self, Bool.false_eq_true, if_false, if_true]
  rw [noteEdge_of_noneArmed _ _ _ _ _ (armed _)]
  exact cmpRoute_of_unrouted t c _ _ ((cmpEvent_unrouted t c _ (clean _)).trans hu)

/-- A filtered level taken without an event: the edge is not of the chosen kind, or the comparator gives none. -/
theorem cmpTake_of_noEvent {lvl : Bool} (hl : ((s.tiles[t]).cmp c).filt ≠ lvl) (ha : s.anyArmed = false)
    (hu : s.unrouted t c = true) (he : (((s.tiles[t]).cmp c).edgeHits lvl && !s.cmpMute t c) = false) :
    cmpTake t c lvl s = s.modCmp t c fun x => { x with filt := lvl } := by
  have armed : ∀ f, (s.modCmp t c f).anyArmed = false := fun _ => ha
  simp only [cmpTake, hl, he, Bool.false_eq_true, if_false]
  rw [noteEdge_of_noneArmed _ _ _ _ _ (armed _), ite_self]
  exact cmpRoute_of_unrouted t c _ _ hu

/-- The comparator once a change has passed the width filter and no gap holds it. -/
def Comparator.taken (lvl : Bool) (x : Comparator) : Comparator := { x.accepted lvl with filt := lvl }

theorem cmpAccept_of_event {lvl : Bool} (hg : ((s.tiles[t]).cmp c).gapUntil = none) (hl : ((s.tiles[t]).cmp c).filt ≠ lvl)
    (ha : s.anyArmed = false) (hm : s.mem.errs = []) (hu : s.unrouted t c = true)
    (he : ((s.tiles[t]).cmp c).edgeHits lvl = true) (hq : s.cmpMute t c = false) :
    cmpAccept t c lvl s = cmpEvent t c (s.modCmp t c (Comparator.taken lvl)) := by
  have mute := (s.cmpMute_modCmp t c (Comparator.accepted lvl) fun _ => rfl).trans hq
  rw [cmpAccept_of_noGap hg, cmpTake_of_event (s := s.modCmp t c (Comparator.accepted lvl)) (by rw [State.modCmp_cmp]; exact hl)
    ha hm hu (by rw [State.modCmp_cmp]; exact he) mute, State.modCmp_modCmp]
  rfl

theorem cmpAccept_of_noEvent {lvl : Bool} (hg : ((s.tiles[t]).cmp c).gapUntil = none) (hl : ((s.tiles[t]).cmp c).filt ≠ lvl)
    (ha : s.anyArmed = false) (hu : s.unrouted t c = true)
    (he : (((s.tiles[t]).cmp c).edgeHits lvl && !s.cmpMute t c) = false) :
    cmpAccept t c lvl s = s.modCmp t c (Comparator.taken lvl) := by
  have mute := s.cmpMute_modCmp t c (Comparator.accepted lvl) fun _ => rfl
  rw [cmpAccept_of_noGap hg, cmpTake_of_noEvent (s := s.modCmp t c (Comparator.accepted lvl)) (by rw [State.modCmp_cmp]; exact hl)
    ha hu (by rw [State.modCmp_cmp, mute]; exact he), State.modCmp_modCmp]
  rfl

/-- An event after an update of the comparator: what the comparator shows. -/
theorem cmpEvent_cmp (f : Comparator → Comparator) (hf : ∀ x, (f x).cfg = x.cfg) (hm : s.mem.errs = []) :
    ((cmpEvent t c (s.modCmp t c f)).tiles[t]).cmp c =
      (f ((s.tiles[t]).cmp c)).fired s.aon.fck (profGap (s.cmpProfile t c)) := by
  have keeps := cmpEvent_keeps t c (s.modCmp t c f) (panelCfgFails_of_clean _ _ hm)
  rw [keeps.cmp c, State.modCmp_cmp, State.modCmp_cmp, s.cmpProfile_modCmp t c f hf, State.modCmp_aon]

theorem cmpEvent_others (f : Comparator → Comparator) (hm : s.mem.errs = []) {k : TileId} (hk : k ≠ t) :
    (cmpEvent t c (s.modCmp t c f)).tiles[k] = s.tiles[k] := by
  have keeps := cmpEvent_keeps t c (s.modCmp t c f) (panelCfgFails_of_clean _ _ hm)
  rw [keeps.others k hk, State.modCmp_miss _ c _ hk, State.modCmp_miss _ c _ hk]

theorem cmpMute_fenced (h : s.cmpMute t c = false) : (s.tiles[t]).fenced = false := by
  simp only [State.cmpMute, Bool.or_eq_false_iff] at h
  obtain ⟨⟨-, fenced⟩, -⟩ := h
  exact fenced

theorem cmpEvent_evm (f : Comparator → Comparator) (hm : s.mem.errs = []) (hq : s.cmpMute t c = false) :
    ((cmpEvent t c (s.modCmp t c f)).tiles[t]).eng.evm.getLsbD (3 + cmpNum c) = true := by
  refine cmpEvent_shows t c _ (panelCfgFails_of_clean _ _ hm) ?_
  rw [s.modCmp_read t c f Tile.fenced (fun _ _ => rfl) (fun _ _ => rfl), cmpMute_fenced hq]

/-! ### The gap's end (R166) -/

theorem execComparatorMinGapEnd_of_same {g : Nat} (hg : ((s.tiles[t]).cmp c).gapUntil = some g) (hn : g ≤ s.aon.fck)
    (hf : s.fastOn = true) (hx : ((s.tiles[t]).cmp c).filt = ((s.tiles[t]).cmp c).acc) :
    exec (.comparatorMinGapEnd t c) s = .next (s.modCmp t c fun x => { x with gapUntil := none }) := by
  show execComparatorMinGapEnd t c s = _
  simp only [execComparatorMinGapEnd, hg, hn, hf, hx, decide_true, Bool.and_self, if_true]

/-- A level that has changed while the gap ran is an event. -/
theorem execComparatorMinGapEnd_of_changed {g : Nat} (hg : ((s.tiles[t]).cmp c).gapUntil = some g) (hn : g ≤ s.aon.fck)
    (hf : s.fastOn = true) (hx : ((s.tiles[t]).cmp c).filt ≠ ((s.tiles[t]).cmp c).acc) (hq : s.cmpMute t c = false)
    (ha : s.anyArmed = false) (hm : s.mem.errs = []) (hu : s.unrouted t c = true) :
    exec (.comparatorMinGapEnd t c) s =
      .next (cmpEvent t c (s.modCmp t c fun x => { x with gapUntil := none, filt := x.acc })) := by
  have mute := (s.cmpMute_modCmp t c (fun x => { x with gapUntil := none }) fun _ => rfl).trans hq
  have armed : ∀ f, (s.modCmp t c f).anyArmed = false := fun _ => ha
  have clean : ∀ f, (s.modCmp t c f).panelCfgFails (panelOf t) = false := fun _ => panelCfgFails_of_clean _ _ hm
  show execComparatorMinGapEnd t c s = _
  simp only [execComparatorMinGapEnd, hg, hn, hf, hx, mute, decide_true, Bool.and_self, Bool.false_eq_true, if_true, if_false,
    State.modCmp_modCmp]
  rw [noteEdge_of_noneArmed _ _ _ _ _ (armed _), cmpRoute_of_unrouted t c _ _ ((cmpEvent_unrouted t c _ (clean _)).trans hu)]

/-! ### STUCK (R167) -/

theorem execComparatorMaxactExpiry_first {a : Nat} (hm : profMax (s.cmpProfile t c) ≠ 0) (hl : ((s.tiles[t]).cmp c).lvl = true)
    (hs : ((s.tiles[t]).cmp c).stuck = false) (ha : ((s.tiles[t]).cmp c).activeSince = some a)
    (hd : a + 16 * profMax (s.cmpProfile t c) < s.aon.ticks) (hp : ((s.tiles[t]).cmp c).stuckPhase = .none)
    (hu : s.unrouted t c = true) :
    exec (.comparatorMaxactExpiry t c) s = .next (s.modCmp t c fun x =>
      { x with stuck := true, stuckPhase := .first, cfg := x.cfg &&& 0xFFFFFFEF#32 }) := by
  show execComparatorMaxactExpiry t c s = _
  simp only [execComparatorMaxactExpiry, ha, hm, hl, hs, hd, hp, ne_eq, not_false_eq_true, decide_true, Bool.not_false,
    Bool.and_self, Bool.false_eq_true, if_true, if_false]
  exact congrArg Host.Outcome.next (cmpRoute_of_unrouted t c _ _ hu)

/-- An entry of class TRANSIENT merges with none (R323). -/
theorem Entry.merges_transient (e : Entry) (kind : Byte) (source : BitVec 16) (tick : Nat) :
    e.merges .transient kind source tick = false := by
  simp [Entry.merges]

theorem tileTransient_cmp (s : State) (t : TileId) (c : Cmp) : ((tileTransient t s).tiles[t]).cmp c = (s.tiles[t]).cmp c := by
  refine (congrArg (fun x : Tile => x.cmp c) (State.modTile_hit s t _)).trans ?_
  cases c <;> rfl

/-- The watch of a comparator that has not become STUCK again ends with an entry. -/
theorem execStuckResumeWindowEnd_of_due {since : Nat} (hp : ((s.tiles[t]).cmp c).stuckPhase = .watched since)
    (hd : since + 1024 ≤ s.aon.ticks) :
    ∃ s', exec (.stuckResumeWindowEnd (.cmp t c)) s = .next s' ∧ ((s'.tiles[t]).cmp c).stuckPhase = .none ∧
      s'.ledger.seq = nextSeq s.ledger.seq ∧ s'.panels = s.panels ∧ (∀ k, k ≠ t → s'.tiles[k] = s.tiles[k]) := by
  have runs : exec (.stuckResumeWindowEnd (.cmp t c)) s =
      .next (tileTransient t (logStuckCmp .transient t c (s.modCmp t c fun x => { x with stuckPhase := .none }))) := by
    show execStuckResumeWindowEnd (.cmp t c) s = _
    simp only [execStuckResumeWindowEnd, hp, hd, if_true]
  have quiet := log_quiet (s.modCmp t c fun x => { x with stuckPhase := .none }) .transient 0x23 (srcTile t) (arg t.val)
    (arg (cmpNum c)) 0
  have panels := State.quiet_panels quiet
  refine ⟨_, runs, ?_, ?_, panels, fun k hk => ?_⟩
  · rw [tileTransient_cmp, logStuckCmp, State.quiet_tiles quiet, State.modCmp_cmp]
  · exact log_seq_of_unmerged _ _ _ _ _ _ _ (List.any_eq_false.mpr fun e _ => by rw [Entry.merges_transient]; decide)
  · refine (State.modTile_miss _ t k _ hk.symm).trans ?_
    rw [logStuckCmp]
    exact (congrArg (fun v : Vector Tile 512 => v[k]) (State.quiet_tiles quiet)).trans (State.modCmp_miss s c _ hk)

end

/-- Settles O56. An edge is one look of one comparator while the other is settled; a change accepted is an event or is counted,
and only the comparator, its tile's engine and reports take note of it. -/
theorem comparators : Obligations.Comparators := by
  unfold Obligations.Comparators
  intro t c s x prof
  refine ⟨fun uv past => ?_, fun lvl due hc hf hd => ⟨fun g hg hn he => ?_, fun hg hl hs ha hm hu => ?_⟩,
    fun g hg hn hf => ⟨fun hx => execComparatorMinGapEnd_of_same hg hn hf hx, fun hx hq ha hm hu => ?_⟩,
    fun a hm hl hs ha hd hp hu => execComparatorMaxactExpiry_first hm hl hs ha hd hp hu,
    fun since hp hd => execStuckResumeWindowEnd_of_due hp hd⟩
  · intro s1 hup powered resolved live hf noWindow level others
    obtain ⟨d, hd⟩ : ∃ d : Cmp, d ≠ c := ⟨if c = .a then .b else .a, by cases c <;> decide⟩
    have beside : s1.besideBiquads = s.besideBiquads := bqRun_besideBiquads ..
    have showing : s.Showing t c := ⟨noWindow, powered, resolved, live, level⟩
    have looking : s.Looking s1 t c d := showing.looking beside hd (others d hd)
    rw [execComparatorEdge_of_fast uv past hup hf noWindow]
    refine ⟨fun hs => congrArg _ (looking.inside hs), fun hs hc => congrArg _ (looking.unmoved hs hc),
      fun hs hr hc => congrArg _ (looking.trip hs hr hc), fun b hs hb hc hp => ?_⟩
    have crosses := looking.crosses hs hb hc hp
    exact ⟨fun ha hm => congrArg _ (looking.waiting crosses ha hm hf), fun ha hw => congrArg _ (looking.accepted crosses ha hw)⟩
  · rw [execComparatorMinwAccept_of_due hc hf hd, cmpAccept_of_gap hg hn he]
    rfl
  · rw [execComparatorMinwAccept_of_due hc hf hd]
    cases event : x.edgeHits lvl && !s.cmpMute t c with
    | true =>
      obtain ⟨hits, quiet⟩ := Bool.and_eq_true_iff.mp event
      have mute : s.cmpMute t c = false := by simpa using quiet
      refine ⟨_, congrArg _ (cmpAccept_of_event hg hl ha hm hu hits mute), ?_⟩
      rw [cmpEvent_cmp (Comparator.taken lvl) (fun _ => rfl) hm]
      exact ⟨rfl, rfl, rfl, fun _ _ => ⟨rfl, cmpEvent_evm _ hm mute, rfl⟩,
        fun misses => absurd (hits.symm.trans misses) (by decide), fun k hk => cmpEvent_others _ hm hk⟩
    | false =>
      refine ⟨_, congrArg _ (cmpAccept_of_noEvent hg hl ha hu event), ?_⟩
      rw [State.modCmp_cmp]
      refine ⟨rfl, rfl, rfl, fun hits mute => ?_, fun _ => ⟨rfl, rfl⟩, fun k hk => s.modCmp_miss c _ hk⟩
      rw [hits, mute] at event
      exact absurd event (by decide)
  · refine ⟨_, execComparatorMinGapEnd_of_changed hg hn hf hx hq ha hm hu, ?_⟩
    rw [cmpEvent_cmp (fun x => { x with gapUntil := none, filt := x.acc }) (fun _ => rfl) hm]
    exact ⟨rfl, rfl, rfl, fun k hk => cmpEvent_others _ hm hk⟩

end Sys2Proof.Machine
end
section
/-!
PROOFS. Coats are opened, take their commit point, are discarded and aborted (O41, R232, R235).
-/
namespace Sys2Proof.Machine

open Sys2Proof

/-! ### Aborts without bound descriptors (R236) -/

theorem abortCoat_of_noPoint {c : Coat} (hb : c.bound = []) (hp : c.point = none) (n : Nat) (s : State) :
    abortCoat c n s = markReady { s with coat := none } := by
  simp only [abortCoat, hb, hp, List.foldl_nil]

theorem abortCoat_of_point {c : Coat} {d : Desc} {p : CommitPoint} {limit : Option Nat} (hb : c.bound = [])
    (hp : c.point = some (d, p, limit)) (n : Nat) (s : State) :
    abortCoat c n s = finish 0x25 d .aborted n 0 (markReady { s with coat := none }) := by
  simp only [abortCoat, hb, hp, List.foldl_nil]

/-! ### STAGE_COAT (R232) -/

section
variable {d : Desc} {s : State} (ht : s.takes 0x24 d (headerFault d 0 .buffer .unbound [(26, 38)])) (hn : d.u 24 2 ≤ 1024)
  (hl : d.len = 12 * d.u 24 2) (hu : s.linkUp = true) (hr : d.rd = .clean)
include ht hn hl hu hr

/-- A buffer of the right length is read, and its items decide: a bad offset before an open coat. -/
theorem execStageCoat_read {items : List Item} (hi : coatItems (d.u 24 2) (s.hostMem.bytes d.buffer.toNat d.len) = items) :
    exec (.stageCoat d .clean) s = .next (
      if !items.all Item.inBlocks then badField 0x24 d inBuffer (s.begun 0x24 d)
      else if s.coat.isSome then refuse 0x24 d .busy (s.begun 0x24 d)
      else finish 0x24 d .ok 0 (s.coatNo + 1).toNat (markReady { s.begun 0x24 d with
        coatNo := s.coatNo + 1, coat := some { number := s.coatNo + 1, items } })) := by
  subst hi
  rw [show exec (.stageCoat d .clean) s = execStageCoat d .clean s from rfl, execStageCoat, runDesc_takes _ _ _ _ _ ht,
    if_neg (Nat.not_lt.mpr hn), if_neg (not_not_intro hl), withBuffer_clean _ _ _ (s.begun 0x24 d) hu hr]
  simp only [okayRead, hr, ite_self]
  rfl

end

/-! ### COMMIT_COAT (R235) -/

/-- The FCK count at which MAX_WAIT of a command that commits at a boundary has passed. -/
def waitLimit (d : Desc) (s : State) : Option Nat :=
  if d.u 24 1 ≤ 1 ∧ d.u 28 4 ≠ 0 then some (s.aon.fck + usFck (1000 * d.u 28 4)) else none

section
variable {d : Desc} {c : Coat} {s : State} (ht : s.takes 0x25 d (headerFault d 32 .none .commit [(26, 2), (40, 24)]))
  (hc : s.coat = some c) (ho : c.own = false) (hn : c.number = d.coat.setWidth 16)
include ht hc ho hn

theorem execCommitCoat_discards (hk : d.u 24 1 = 4) :
    exec (.commitCoat d) s = .next (okay 0x25 d 0 (abortCoat c 0 (s.begun 0x25 d))) := by
  have hb : (s.begun 0x25 d).coat = some c := hc
  rw [show exec (.commitCoat d) s = execCommitCoat d s from rfl, execCommitCoat, runDesc_takes _ _ _ _ _ ht]
  simp only [hb]
  rw [if_neg (by omega), if_neg (by omega), if_neg (by simp [ho, hn]), if_pos hk]

variable (hk : d.u 24 1 ≤ 3) (hh : d.u 24 1 ≤ 1 → d.u 25 1 ≤ 7)
  (hm : d.u 24 1 = 2 → s.aon.sysNow.toNat + 32000 ≤ d.u 32 8)
include hk hh hm

/-- A coat that waits for its commit point already takes no other. -/
theorem execCommitCoat_busy (hp : c.point ≠ none) :
    exec (.commitCoat d) s = .next (refuse 0x25 d .busy (s.begun 0x25 d)) := by
  have hb : (s.begun 0x25 d).coat = some c := hc
  have late : ¬ (d.u 24 1 = 2 ∧ d.u 32 8 < (s.begun 0x25 d).aon.sysNow.toNat + 32000) :=
    fun h => Nat.not_lt.mpr (hm h.1) h.2
  rw [show exec (.commitCoat d) s = execCommitCoat d s from rfl, execCommitCoat, runDesc_takes _ _ _ _ _ ht]
  simp only [hb]
  rw [if_neg (by omega), if_neg (by omega), if_neg (by simp [ho, hn]), if_neg (by omega), if_neg late,
    if_pos (Option.isSome_iff_ne_none.mpr hp)]

/-- Any other coat notes its commit point and waits for it. -/
theorem execCommitCoat_points (hz : d.u 24 1 ≠ 0) (hp : c.point = none) :
    exec (.commitCoat d) s = .next { s.begun 0x25 d with
      coat := some { c with point := some (d, commitPoint d, waitLimit d s) } } := by
  have hb : (s.begun 0x25 d).coat = some c := hc
  have late : ¬ (d.u 24 1 = 2 ∧ d.u 32 8 < (s.begun 0x25 d).aon.sysNow.toNat + 32000) :=
    fun h => Nat.not_lt.mpr (hm h.1) h.2
  rw [show exec (.commitCoat d) s = execCommitCoat d s from rfl, execCommitCoat, runDesc_takes _ _ _ _ _ ht]
  simp only [hb]
  rw [if_neg (by omega), if_neg (by omega), if_neg (by simp [ho, hn]), if_neg (by omega), if_neg late,
    if_neg (by simp [hp]), if_neg fun h => hz h.1]
  rfl

end

/-! ### MAX_WAIT (R235) -/

section
variable {d : Desc} {c : Coat} {p : CommitPoint} {limit : Nat} {s : State} (hc : s.coat = some c)
  (hp : c.point = some (d, p, some limit))
include hc hp

theorem execCoatMaxWaitExpiry_over (h : limit ≤ s.aon.fck) : exec .coatMaxWaitExpiry s = .next (abortCoat c 0 s) := by
  rw [show exec .coatMaxWaitExpiry s = execCoatMaxWaitExpiry s from rfl]
  simp only [execCoatMaxWaitExpiry, hc, hp, overWait, Option.any_some, decide_eq_true h, if_true]

theorem execCoatMaxWaitExpiry_within (h : s.aon.fck < limit) : exec .coatMaxWaitExpiry s = .next s := by
  rw [show exec .coatMaxWaitExpiry s = execCoatMaxWaitExpiry s from rfl]
  simp only [execCoatMaxWaitExpiry, hc, hp, overWait, Option.any_some, decide_eq_false (Nat.not_le.mpr h),
    Bool.false_eq_true, if_false]

end

/-- Settles O41: STAGE_COAT turns on its items and on whether a coat is open; COMMIT_COAT discards (kind 4) or notes the commit point
that its kind names, and MAX_WAIT is looked at by its own event. -/
theorem coatsOpenAndEnd : Obligations.CoatsOpenAndEnd := by
  refine ⟨fun d s ht hn hl hu hr => ?stage, fun d c s ht hc ho hn => ?commit, fun d c p limit s hc hb hp => ?wait⟩
  case stage =>
    have read := execStageCoat_read ht hn hl hu hr rfl
    refine ⟨fun hi hc => ?opened, fun hi hc => ?busy, fun ⟨i, hi, hf⟩ => ?bad⟩
    case opened => simp only [read, List.all_eq_true.mpr hi, hc]; rfl
    case busy => simp only [read, List.all_eq_true.mpr hi, hc]; rfl
    case bad =>
      have outside := List.all_eq_false.mpr ⟨i, hi, Bool.eq_false_iff.mp hf⟩
      rw [read, outside]; rfl
  case commit =>
    refine ⟨fun hk hp => ?now, fun hk hh hp => ?fire, fun hk hp hm => ?time, fun hk hb hp => ?discard,
      fun hk hp hh hm => execCommitCoat_busy ht hc ho hn hk hh hm hp⟩
    case now =>
      rw [execCommitCoat_points ht hc ho hn (by omega) (by omega) (by omega) (by omega) hp]
      simp [commitPoint, waitLimit, hk]
    case fire =>
      rw [execCommitCoat_points ht hc ho hn (by omega) (fun _ => hh) (by omega) (by omega) hp]
      simp [commitPoint, waitLimit, hk]
    case time =>
      rw [execCommitCoat_points ht hc ho hn (by omega) (by omega) (fun _ => hm) (by omega) hp]
      simp [commitPoint, waitLimit, hk]
    case discard => rw [execCommitCoat_discards ht hc ho hn hk, abortCoat_of_noPoint hb hp]; rfl
  case wait =>
    refine ⟨fun h => ?_, execCoatMaxWaitExpiry_within hc hp⟩
    rw [execCoatMaxWaitExpiry_over hc hp h, abortCoat_of_point hb hp]

end Sys2Proof.Machine
end
section
/-!
PROOFS. Chains are defined, placed and released (O43, R209 to R223).
-/
namespace Sys2Proof.Machine

open Sys2Proof

/-! ### DEFINE_CHAIN (R209, R210, R213) -/

/-- Every record of a definition passes, by itself and with the others. -/
def chainOk (srecs lrecs : List (List Byte)) : Prop :=
  (∀ r ∈ srecs, stageRecOk (srecs.map stageOf) r = true) ∧ (∀ r ∈ lrecs, linkRecOk (srecs.map stageOf) r = true) ∧
    linksFit (lrecs.map linkOf) = true

theorem chainOk_iff (srecs lrecs : List (List Byte)) :
    (srecs.all (stageRecOk (srecs.map stageOf)) && lrecs.all (linkRecOk (srecs.map stageOf)) &&
      linksFit (lrecs.map linkOf)) = true ↔ chainOk srecs lrecs := by
  simp only [Bool.and_eq_true, List.all_eq_true, and_assoc, chainOk]

section
variable {d : Desc} {s : State} (ht : s.takes 0x20 d (headerFault d 8 .buffer .unbound [(26, 38)])) (h1 : 1 ≤ d.u 24 1)
  (hn : d.u 24 1 ≤ 32) (hm : d.u 25 1 ≤ 64) (hl : d.len = 32 * d.u 24 1 + 8 * d.u 25 1)
include ht h1 hn hm hl

theorem execDefineChain_placed (hp : (s.chains[(Fin.ofNat 256 d.target.toNat : Fin 256)]).placement ≠ none) :
    exec (.defineChain d) s = .next (refuse 0x20 d .state (s.begun 0x20 d)) := by
  have hs : ((s.begun 0x20 d).chains[(Fin.ofNat 256 d.target.toNat : Fin 256)]).placement.isSome = true :=
    Option.isSome_iff_ne_none.mpr hp
  rw [show exec (.defineChain d) s = execDefineChain d s from rfl, execDefineChain, runDesc_takes _ _ _ _ _ ht]
  simp only []
  rw [if_neg (by omega), if_neg (by omega), if_neg (by omega), if_pos hs]

variable (hu : s.linkUp = true) (hr : d.rd = .clean)
  (hp : (s.chains[(Fin.ofNat 256 d.target.toNat : Fin 256)]).placement = none)
  {srecs lrecs : List (List Byte)}
  (hs : chunks 32 (d.u 24 1) (s.hostMem.bytes d.buffer.toNat d.len) = srecs)
  (hk : chunks 8 (d.u 25 1) ((s.hostMem.bytes d.buffer.toNat d.len).drop (32 * d.u 24 1)) = lrecs)
include hu hr hp hs hk

/-- Without a placement the records alone decide. -/
theorem execDefineChain_read :
    exec (.defineChain d) s = .next (
      if srecs.all (stageRecOk (srecs.map stageOf)) && lrecs.all (linkRecOk (srecs.map stageOf)) &&
        linksFit (lrecs.map linkOf) then
        finish 0x20 d .ok 0 0 ((s.begun 0x20 d).modChain (Fin.ofNat 256 d.target.toNat) fun _ =>
          { cdef := some (srecs.map stageOf, lrecs.map linkOf) })
      else badField 0x20 d inBuffer (s.begun 0x20 d)) := by
  have free : ¬ ((s.begun 0x20 d).chains[(Fin.ofNat 256 d.target.toNat : Fin 256)]).placement.isSome = true := by
    rw [show ((s.begun 0x20 d).chains[(Fin.ofNat 256 d.target.toNat : Fin 256)]).placement = none from hp]
    decide
  subst hs hk
  rw [show exec (.defineChain d) s = execDefineChain d s from rfl, execDefineChain, runDesc_takes _ _ _ _ _ ht]
  simp only []
  rw [if_neg (by omega), if_neg (by omega), if_neg (by omega), if_neg free,
    withBuffer_clean _ _ _ (s.begun 0x20 d) hu hr]
  simp only [okayRead, hr]
  rfl

theorem execDefineChain_defines (hg : chainOk srecs lrecs) :
    exec (.defineChain d) s = .next (finish 0x20 d .ok 0 0 ((s.begun 0x20 d).modChain (Fin.ofNat 256 d.target.toNat)
      fun _ => { cdef := some (srecs.map stageOf, lrecs.map linkOf) })) := by
  rw [execDefineChain_read ht h1 hn hm hl hu hr hp hs hk, if_pos ((chainOk_iff ..).mpr hg)]

theorem execDefineChain_bad (hg : ¬ chainOk srecs lrecs) :
    exec (.defineChain d) s = .next (finish 0x20 d .badField 0xFF 0 (s.begun 0x20 d)) := by
  rw [execDefineChain_read ht h1 hn hm hl hu hr hp hs hk, if_neg fun h => hg ((chainOk_iff ..).mp h)]
  rfl

end

/-! ### A coat of the module's own (R217) -/

theorem stageBound_own {d : Desc} (hd : d.bound = false) (op : Byte) (b : Bound) (s : State) :
    stageBound op d b s = markReady { s with
      coatNo := s.coatNo + 1, coat := some ⟨s.coatNo + 1, [], [b], none, true⟩ } := by
  simp [stageBound, hd, addBound, openCoat]

theorem withServices_of_clean {s : State} (h : s.mem.errs = []) (op : Byte) (d : Desc) (k : State → State) :
    withServices op d k s = k s := by
  simp [withServices, wordsBad_of_clean 11 none s h]

/-- A chain without a placement is free while no coat is open. -/
theorem State.chainBusy_of_noCoat {s : State} {c : Fin 256} (hp : (s.chains[c]).placement = none) (hc : s.coat = none) :
    s.chainBusy c = false := by
  simp only [State.chainBusy, hp, hc, Option.isSome_none, Bool.or_self]

/-- A found placement whose record fits in the buffer waits in a coat of the module's own, with the placer's open time. -/
theorem placed_of_found {op : Byte} {d : Desc} {c : Fin 256} {pl : Placement} (hd : d.bound = false)
    (fits : ¬ (op = 0x21 ∧ d.u 24 1 = 1 ∧ d.len < (pl.bytes c).length)) (s : State) :
    placed op d c (.inr pl) s = markReady { s with
      free := s.free + 1, coatNo := s.coatNo + 1
      coat := some ⟨s.coatNo + 1, [], [.place (some (op, d)) c pl (pl.stages.map (·.stage)) (Config.placerTime s.free)],
        none, true⟩ } := by
  simp only [placed, if_neg fits, stageBound_own hd]

/-! ### PLACE_CHAIN (R216, R221) -/

section
variable {d : Desc} {s : State} (ht : s.takes 0x21 d ((headerFault d 8 .buffer .bindable []).or
  ((if 1 < d.u 24 1 then some 24 else none).or (reservedFault d [(25, 39)]))))
include ht

theorem execPlaceChain_undefined (hk : (s.chains[(Fin.ofNat 256 d.target.toNat : Fin 256)]).cdef = none) :
    exec (.placeChain d) s = .next (refuse 0x21 d .state (s.begun 0x21 d)) := by
  have hb : ((s.begun 0x21 d).chains[(Fin.ofNat 256 d.target.toNat : Fin 256)]).cdef = none := hk
  rw [show exec (.placeChain d) s = execPlaceChain d s from rfl, execPlaceChain, runDesc_takes _ _ _ _ _ ht]
  simp only [hb]

/-- For a defined and unplaced chain the placer's answer decides. -/
theorem execPlaceChain_placer {stages : List Stage} {links : List LinkRec}
    (hk : (s.chains[(Fin.ofNat 256 d.target.toNat : Fin 256)]).cdef = some (stages, links))
    (hp : (s.chains[(Fin.ofNat 256 d.target.toNat : Fin 256)]).placement = none) (hc : s.coat = none)
    (hw : s.hwPlaces = true) (he : s.mem.errs = []) :
    exec (.placeChain d) s = .next (placed 0x21 d (Fin.ofNat 256 d.target.toNat)
      ((s.begun 0x21 d).place (Fin.ofNat 256 d.target.toNat) stages links) (s.begun 0x21 d)) := by
  have hb : ((s.begun 0x21 d).chains[(Fin.ofNat 256 d.target.toNat : Fin 256)]).cdef = some (stages, links) := hk
  have free : (s.begun 0x21 d).chainBusy (Fin.ofNat 256 d.target.toNat) = false := State.chainBusy_of_noCoat hp hc
  have places : (s.begun 0x21 d).hwPlaces = true := hw
  have closed : (s.begun 0x21 d).coat = none := hc
  rw [show exec (.placeChain d) s = execPlaceChain d s from rfl, execPlaceChain, runDesc_takes _ _ _ _ _ ht]
  simp only [hb, free, places, closed]
  rw [if_neg (by decide), if_neg (by simp), withServices_of_clean (s := s.begun 0x21 d) he]

end

/-! ### APPLY_PLACEMENT (R222) -/

section
variable {d : Desc} {s : State} {stages : List Stage} {links : List LinkRec}
  (ht : s.takes 0x22 d (headerFault d 8 .buffer .bindable [(24, 40)])) (hc : s.coat = none) (hu : s.linkUp = true)
  (hr : d.rd = .clean) (hk : (s.chains[(Fin.ofNat 256 d.target.toNat : Fin 256)]).cdef = some (stages, links))
  (hp : (s.chains[(Fin.ofNat 256 d.target.toNat : Fin 256)]).placement = none)
include ht hc hu hr hk hp

/-- The record that a defined and unplaced chain is to take is read from the buffer. -/
theorem execApplyPlacement_reads : ∃ k : Option (List StagePlace × List Route) → State,
    exec (.applyPlacement d) s = .next (k (recordOf (Fin.ofNat 256 d.target.toNat)
      (s.hostMem.bytes d.buffer.toNat d.len))) ∧
    k none = badField 0x22 d inBuffer (s.begun 0x22 d) ∧
    ∀ ps rs, k (some (ps, rs)) = withServices 0x22 d (fun u => placed 0x22 d (Fin.ofNat 256 d.target.toNat)
      (u.checkRecord (Fin.ofNat 256 d.target.toNat) stages links ps rs) u) (s.begun 0x22 d) := by
  have hb : ((s.begun 0x22 d).chains[(Fin.ofNat 256 d.target.toNat : Fin 256)]).cdef = some (stages, links) := hk
  have free : (s.begun 0x22 d).chainBusy (Fin.ofNat 256 d.target.toNat) = false := State.chainBusy_of_noCoat hp hc
  have closed : (s.begun 0x22 d).coat = none := hc
  rw [show exec (.applyPlacement d) s = execApplyPlacement d s from rfl, execApplyPlacement, runDesc_takes _ _ _ _ _ ht]
  simp only [hb, free, closed]
  rw [if_neg (by decide), if_neg (by simp), withBuffer_clean _ _ _ (s.begun 0x22 d) hu hr]
  exact ⟨fun r => match r with
    | none => badField 0x22 d inBuffer (s.begun 0x22 d)
    | some (ps, rs) => withServices 0x22 d (fun u => placed 0x22 d (Fin.ofNat 256 d.target.toNat)
        (u.checkRecord (Fin.ofNat 256 d.target.toNat) stages links ps rs) u) (s.begun 0x22 d), rfl, rfl, fun _ _ => rfl⟩

end

/-! ### RELEASE_CHAIN (R223) -/

section
variable {d : Desc} {s : State} (ht : s.takes 0x23 d (headerFault d 8 .none .bindable [(24, 40)])) (hd : d.bound = false)
include ht

theorem execReleaseChain_unplaced (hp : (s.chains[(Fin.ofNat 256 d.target.toNat : Fin 256)]).placement = none) :
    exec (.releaseChain d) s = .next (refuse 0x23 d .state (s.begun 0x23 d)) := by
  have hb : ((s.begun 0x23 d).chains[(Fin.ofNat 256 d.target.toNat : Fin 256)]).placement = none := hp
  rw [show exec (.releaseChain d) s = execReleaseChain d s from rfl, execReleaseChain, runDesc_takes _ _ _ _ _ ht]
  simp only [hb]
  rfl

include hd

/-- The release of a placed chain waits in a coat of the module's own, if no other coat is open. -/
theorem execReleaseChain_placed (hp : (s.chains[(Fin.ofNat 256 d.target.toNat : Fin 256)]).placement ≠ none) :
    exec (.releaseChain d) s = .next (
      if s.coat.isSome then refuse 0x23 d .busy (s.begun 0x23 d)
      else withServices 0x23 d (stageBound 0x23 d (.release d (Fin.ofNat 256 d.target.toNat))) (s.begun 0x23 d)) := by
  have hb : ((s.begun 0x23 d).chains[(Fin.ofNat 256 d.target.toNat : Fin 256)]).placement.isNone = false :=
    Option.isNone_eq_false_iff.mpr (Option.isSome_iff_ne_none.mpr hp)
  rw [show exec (.releaseChain d) s = execReleaseChain d s from rfl, execReleaseChain, runDesc_takes _ _ _ _ _ ht]
  simp only [hb, hd]
  rfl

end

/-- Settles O43: a definition turns on its records; a placement, found by the placer or given by the host, and a release wait in a coat
that the module opens for them. -/
theorem chains : Obligations.Chains := by
  refine ⟨fun d s ht h1 hn hm hl hu hr => ?define, fun d stages links s ht hd hc => ?place,
    fun d stages links s ht hd hc hu hr hk hp => ?apply, fun d s ht hd => ?release⟩
  case define =>
    refine ⟨fun hp hg => execDefineChain_defines ht h1 hn hm hl hu hr hp rfl rfl hg,
      fun hp hg => execDefineChain_bad ht h1 hn hm hl hu hr hp rfl rfl hg,
      fun hp => execDefineChain_placed ht h1 hn hm hl hp⟩
  case place =>
    refine ⟨execPlaceChain_undefined ht, fun hk hp hw he => ?_⟩
    have placer := execPlaceChain_placer ht hk hp hc hw he
    refine ⟨fun pl hpl fits => ?found, fun pl hpl h1 short => ?short, fun f hf => ?failed⟩
    case found => rw [placer, hpl, placed_of_found hd fun h => Nat.not_lt.mpr (fits h.2.1) h.2.2]; rfl
    case short => rw [placer, hpl, placed, if_pos ⟨rfl, h1, short⟩]; rfl
    case failed => rw [placer, hf]; rfl
  case apply =>
    obtain ⟨k, reads, bad, found⟩ := execApplyPlacement_reads ht hc hu hr hk hp
    refine ⟨fun h => ?bad, fun ps rs pl h he hpl => ?found⟩
    case bad => rw [reads, h, bad]; rfl
    case found =>
      rw [reads, h, found, withServices_of_clean (s := s.begun 0x22 d) he, hpl,
        placed_of_found hd fun h => absurd h.1 (by decide)]
      rfl
  case release =>
    refine ⟨execReleaseChain_unplaced ht, fun hp hc he => ?staged, fun hp hc => ?busy⟩
    case staged =>
      rw [execReleaseChain_placed ht hd hp, if_neg (by simp [hc]),
        withServices_of_clean (s := s.begun 0x23 d) he, stageBound_own hd]
      rfl
    case busy => rw [execReleaseChain_placed ht hd hp, if_pos (Option.isSome_iff_ne_none.mpr hc)]; rfl

end Sys2Proof.Machine
end
section
/-!
PROOFS. What a coat has written stays while an event runs through the crossbars: the cascade of a register write touches neither
the open coat nor the T_DAC, T_ADC and coat number of any tile.
-/
namespace Sys2Proof.Machine

open Sys2Proof

/-! ### The side of the module that coats write -/

/-- T_DAC, T_ADC and the coat number of a tile. -/
def Tile.settings (x : Tile) : Word × Word × BitVec 16 := (x.dac, x.adc, x.coat)

/-- The open coat, the last one committed, the read-backs due, and the settings of every tile. -/
def State.coatSide (s : State) : Option Coat × BitVec 16 × List (TileId × Nat) × Vector (Word × Word × BitVec 16) 512 :=
  (s.coat, s.coatLast, s.readback, s.tiles.map Tile.settings)

theorem State.coatSide_modTile (s : State) (t : TileId) (f : Tile → Tile) (h : ∀ x, (f x).settings = x.settings) :
    (s.modTile t f).coatSide = s.coatSide := by
  refine congrArg (fun v : Vector (Word × Word × BitVec 16) 512 => (s.coat, s.coatLast, s.readback, v))
    (Vector.ext fun i hi => ?_)
  simp only [Vector.getElem_map]
  exact s.modTile_read t f Tile.settings h ⟨i, hi⟩

/-- An update of a tile's settings that looks at nothing else does the same to states that agree on this side. -/
theorem State.coatSide_modTile_congr {s u : State} (h : u.coatSide = s.coatSide) (t : TileId) {f : Tile → Tile}
    {g : Word × Word × BitVec 16 → Word × Word × BitVec 16} (hg : ∀ x, (f x).settings = g x.settings) :
    (u.modTile t f).coatSide = (s.modTile t f).coatSide := by
  have sets : ∀ v : State, (v.modTile t f).coatSide =
      (v.coatSide.1, v.coatSide.2.1, v.coatSide.2.2.1, v.coatSide.2.2.2.set t (g v.coatSide.2.2.2[t])) := by
    intro v
    simp only [State.coatSide, State.modTile, Vector.map_set, hg, Fin.getElem_fin, Vector.getElem_map]
  rw [sets, sets, h]

theorem State.coatSide_of_quiet {s t : State} (h : t.quiet = s.quiet) : t.coatSide = s.coatSide := by
  have q := congrArg State.coatSide h; exact q

@[simp] theorem State.coatSide_modCmp (s : State) (t : TileId) (c : Cmp) (f : Comparator → Comparator) :
    (s.modCmp t c f).coatSide = s.coatSide := s.coatSide_modTile t _ fun _ => by cases c <;> rfl

@[simp] theorem State.coatSide_modEng (s : State) (t : TileId) (f : Engine → Engine) :
    (s.modEng t f).coatSide = s.coatSide := s.coatSide_modTile t _ fun _ => rfl

@[simp] theorem State.coatSide_modTrowel (s : State) (t : TileId) (f : Trowel → Trowel) :
    (s.modTrowel t f).coatSide = s.coatSide := s.coatSide_modTile t _ fun _ => rfl

@[simp] theorem State.coatSide_modPanel (s : State) (p : PanelId) (f : Panel → Panel) :
    (s.modPanel p f).coatSide = s.coatSide := rfl

@[simp] theorem State.coatSide_modPin (s : State) (p : PinId) (f : Pin → Pin) : (s.modPin p f).coatSide = s.coatSide := rfl

@[simp] theorem State.coatSide_drawBit (s : State) : s.drawBit.2.coatSide = s.coatSide := rfl

@[simp] theorem raiseMsix_coatSide (v : Fin 64) (s : State) : (raiseMsix v s).coatSide = s.coatSide :=
  State.coatSide_of_quiet (raiseMsix_quiet s v)

@[simp] theorem log_coatSide (cls : LClass) (kind : Byte) (source : BitVec 16) (a0 a1 a2 : Word) (s : State) :
    (log cls kind source a0 a1 a2 s).coatSide = s.coatSide := State.coatSide_of_quiet (log_quiet ..)

/-! ### Pins (R366 to R370) -/

@[simp] theorem wake_coatSide (src : BitVec 4) (s : State) : (wake src s).coatSide = s.coatSide := by
  unfold wake; split <;> rfl

@[simp] theorem noteEdge_coatSide (code : BitVec 16) (lvl : Bool) (time : BitVec 64) (counts : List Word) (s : State) :
    (noteEdge code lvl time counts s).coatSide = s.coatSide := by
  refine foldl_keeps State.coatSide _ (fun u h => ?_) allHeads s
  split
  · split <;> rfl
  · rfl

@[simp] theorem pinEvent_coatSide (p : PinId) (imode : Bool) (s : State) : (pinEvent p imode s).coatSide = s.coatSide := by
  simp only [pinEvent, setIst, apply_ite State.coatSide, raiseMsix_coatSide, State.coatSide_modPin, ite_self]

@[simp] theorem pinTake_coatSide (p : PinId) (lvl : Bool) (s : State) : (pinTake p lvl s).2.coatSide = s.coatSide := by
  simp only [pinTake, apply_ite Prod.snd, apply_ite State.coatSide, noteEdge_coatSide, pinEvent_coatSide,
    State.coatSide_modPin, ite_self]

@[simp] theorem pinAccept_coatSide (p : PinId) (lvl : Bool) (s : State) : (pinAccept p lvl s).2.coatSide = s.coatSide := by
  unfold pinAccept
  simp only []
  generalize hu : s.modPin p _ = u
  have noted : u.coatSide = s.coatSide := hu ▸ rfl
  rw [← noted]
  split
  · split
    · rfl
    · exact pinTake_coatSide ..
  · exact pinTake_coatSide ..

@[simp] theorem pinFilter_coatSide (p : PinId) (s : State) : (pinFilter p s).2.coatSide = s.coatSide := by
  unfold pinFilter
  simp only []
  split
  · split <;> rfl
  · split
    · rfl
    · split
      · split
        · exact pinAccept_coatSide ..
        · rfl
      · split
        · split
          · simp only [wake_coatSide, State.coatSide_modPin]
          · split <;> rfl
        · rfl

@[simp] theorem pinSampled_coatSide (p : PinId) (s : State) : (pinSampled p s).2.coatSide = s.coatSide := by
  unfold pinSampled
  split
  next lvl u hu =>
    have drawn : u.coatSide = s.coatSide := by
      cases hp : s.padLevel p <;> simp only [hp] at hu <;> obtain ⟨-, rfl⟩ := Prod.mk.inj hu <;> rfl
    rw [← drawn]
    split
    · rfl
    · simp only [pinFilter_coatSide, State.coatSide_modPin]

/-! ### Tile event inputs (R170, R191, R196) -/

@[simp] theorem setEvm_coatSide (t : TileId) (bit : Nat) (s : State) : (setEvm t bit s).coatSide = s.coatSide := by
  simp only [setEvm, apply_ite State.coatSide, State.coatSide_modEng, ite_self]

@[simp] theorem capture_coatSide (t : TileId) (src : BitVec 3) (s : State) : (capture t src s).coatSide = s.coatSide :=
  State.coatSide_modEng ..

@[simp] theorem adcTrigger_coatSide (t : TileId) (s : State) : (adcTrigger t s).coatSide = s.coatSide := by
  unfold adcTrigger
  simp only []
  split
  · exact s.coatSide_modTile t _ fun _ => rfl
  · rfl

@[simp] theorem stagePlay_coatSide (t : TileId) (s : State) : (stagePlay t s).coatSide = s.coatSide :=
  State.coatSide_modTrowel ..

@[simp] theorem inhibitCut_coatSide (t : TileId) (s : State) : (inhibitCut t s).coatSide = s.coatSide := by
  simp only [inhibitCut, apply_ite State.coatSide, State.coatSide_modTrowel, ite_self]

@[simp] theorem periodStart_coatSide (t : TileId) (c : Cmp) (s : State) : (periodStart t c s).2.coatSide = s.coatSide :=
  State.coatSide_modCmp ..

@[simp] theorem teiRise_coatSide (t : TileId) (k : Fin 3) (s : State) : (teiRise t k s).2.coatSide = s.coatSide := by
  unfold teiRise
  simp only []
  split
  · rfl
  · simp only [apply_ite Prod.snd, apply_ite State.coatSide, periodStart_coatSide, inhibitCut_coatSide, stagePlay_coatSide,
      adcTrigger_coatSide, capture_coatSide, setEvm_coatSide, ite_self]

/-! ### Crossbars (R168, R169) -/

@[simp] theorem sinkChange_coatSide (p : PanelId) (k : Nat) (lvl : Bool) (s : State) :
    (sinkChange p k lvl s).2.coatSide = s.coatSide := by
  unfold sinkChange
  split
  next h =>
    simp only []
    have tei := s.coatSide_modTile (tileAt p ⟨k / 3, by omega⟩)
      (fun x => { x with tei := x.tei.set (⟨k % 3, by omega⟩ : Fin 3) lvl }) fun _ => rfl
    split
    · exact (teiRise_coatSide ..).trans tei
    · exact tei
  next => split <;> rfl

@[simp] theorem staleGrant_coatSide (l : Launch) (k : Fin 256) (s : State) : (staleGrant l k s).coatSide = s.coatSide := by
  unfold staleGrant
  simp only []
  split
  · simp only [staleSpeaker, apply_ite State.coatSide, log_coatSide, ite_self]
  · rfl

/-- What no update of a work list and state changes, the whole list leaves alone. -/
theorem foldl_work_keeps {α β : Type} (view : State → β) (f : List Work × State → α → List Work × State)
    (h : ∀ r a, view (f r a).2 = view r.2) (l : List α) (r : List Work × State) : view (l.foldl f r).2 = view r.2 := by
  induction l generalizing r with
  | nil => rfl
  | cons a l ih => rw [List.foldl_cons, ih, h]

@[simp] theorem launchSinks_coatSide (l : Launch) (s : State) : (launchSinks l s).2.coatSide = s.coatSide := by
  unfold launchSinks
  split
  · refine foldl_work_keeps State.coatSide _ (fun r k => ?_) _ ([], s)
    simp only [apply_ite Prod.snd, apply_ite State.coatSide, sinkChange_coatSide, State.coatSide_modPanel,
      staleGrant_coatSide, ite_self]
  · rfl

@[simp] theorem launchOne_coatSide (l : Launch) (s : State) : (launchOne l s).2.coatSide = s.coatSide := by
  unfold launchOne
  simp only []
  split
  · exact launchSinks_coatSide l s
  · exact launchSinks_coatSide l s

@[simp] theorem workOne_coatSide (w : Work) (s : State) : (workOne w s).2.coatSide = s.coatSide := by
  cases w with
  | line l => exact launchOne_coatSide l s
  | pin p => exact pinSampled_coatSide p s
  | port p => rfl

theorem works_coatSide (n : Nat) (ws : List Work) (s : State) : (works n ws s).coatSide = s.coatSide := by
  induction n generalizing ws s with
  | zero => rfl
  | succ n ih =>
    cases ws with
    | nil => rfl
    | cons w ws => rw [works, ih, workOne_coatSide]

/-! ### Comparators (R154 to R167) -/

@[simp] theorem cmpRoute_coatSide (t : TileId) (c : Cmp) (was : Bool) (s : State) :
    (cmpRoute t c was s).coatSide = s.coatSide := by
  simp only [cmpRoute, apply_ite State.coatSide, launch, works_coatSide, ite_self]

@[simp] theorem phaseHit_coatSide (t : TileId) (s : State) : (phaseHit t s).coatSide = s.coatSide := by
  refine foldl_keeps State.coatSide _ (fun u h => ?_) allHeads s
  split
  · split
    · split <;> rfl
    · rfl
  · rfl

@[simp] theorem cmpEvent_coatSide (t : TileId) (c : Cmp) (s : State) : (cmpEvent t c s).coatSide = s.coatSide := by
  simp only [cmpEvent, cmpSummary, apply_ite State.coatSide, raiseMsix_coatSide, setEvm_coatSide, capture_coatSide,
    phaseHit_coatSide, State.coatSide_modCmp, ite_self]

@[simp] theorem cmpTake_coatSide (t : TileId) (c : Cmp) (lvl : Bool) (s : State) : (cmpTake t c lvl s).coatSide = s.coatSide := by
  simp only [cmpTake, apply_ite State.coatSide, cmpRoute_coatSide, cmpEvent_coatSide, noteEdge_coatSide,
    State.coatSide_modCmp, ite_self]

@[simp] theorem cmpAccept_coatSide (t : TileId) (c : Cmp) (lvl : Bool) (s : State) :
    (cmpAccept t c lvl s).coatSide = s.coatSide := by
  unfold cmpAccept
  simp only []
  split
  · simp only [apply_ite State.coatSide, cmpTake_coatSide, State.coatSide_modPanel, State.coatSide_modCmp, ite_self]
  · simp only [cmpTake_coatSide, State.coatSide_modCmp]

@[simp] theorem cmpFilter_coatSide (t : TileId) (c : Cmp) (s : State) : (cmpFilter t c s).coatSide = s.coatSide := by
  simp only [cmpFilter, cmpWake, apply_ite State.coatSide, cmpAccept_coatSide, wake_coatSide, State.coatSide_modPanel,
    State.coatSide_modCmp, ite_self]

@[simp] theorem cmpLevel_coatSide (t : TileId) (c : Cmp) (s : State) : (cmpLevel t c s).coatSide = s.coatSide := by
  simp only [cmpLevel, apply_ite State.coatSide, cmpFilter_coatSide, cmpRoute_coatSide, State.coatSide_modCmp, ite_self]

@[simp] theorem cmpLook_coatSide (t : TileId) (c : Cmp) (s : State) : (cmpLook t c s).coatSide = s.coatSide := by
  unfold cmpLook
  simp only []
  split
  · simp only [apply_ite State.coatSide, State.coatSide_modTrowel, State.coatSide_modCmp, ite_self]
  · exact State.coatSide_modCmp ..

@[simp] theorem cmpSilent_coatSide (t : TileId) (c : Cmp) (was : Bool) (s : State) :
    (cmpSilent t c was s).coatSide = s.coatSide := by
  simp only [cmpSilent, apply_ite State.coatSide, cmpRoute_coatSide, State.coatSide_modCmp, ite_self]

theorem cmpLooks_coatSide (t : TileId) (s : State) : (cmpLooks t s).coatSide = s.coatSide := by
  simp only [cmpLooks, cmpLevels, cmpLevel_coatSide, cmpSilent_coatSide, cmpLook_coatSide]

/-! ### The configuration word that a write checks (R308 to R310) -/

@[simp] theorem State.coatSide_dropErr (s : State) (l : Loc) : (s.dropErr l).coatSide = s.coatSide := rfl

@[simp] theorem State.coatSide_putErr (s : State) (e : WordErr) : (s.putErr e).coatSide = s.coatSide :=
  State.coatSide_of_quiet (putErr_quiet s e)

@[simp] theorem correct_coatSide (l : Loc) (f : BitVec 80) (s : State) : (correct l f s).coatSide = s.coatSide := by
  simp only [correct, logMem, apply_ite State.coatSide, log_coatSide, ite_self]
  rfl

@[simp] theorem lasting_coatSide (fatal : Bool) (l : Loc) (f : BitVec 80) (s : State) :
    (lasting fatal l f s).coatSide = s.coatSide := log_coatSide ..

theorem tileTransient_coatSide (t : TileId) (s : State) : (tileTransient t s).coatSide = s.coatSide :=
  s.coatSide_modTile t _ fun _ => rfl

@[simp] theorem transientRead_coatSide (l : Loc) (f : BitVec 80) (s : State) :
    (transientRead l f s).coatSide = s.coatSide := by
  unfold transientRead
  simp only []
  split
  · rw [tileTransient_coatSide, logMem, log_coatSide, State.coatSide_dropErr]
  · rw [logMem, log_coatSide, State.coatSide_dropErr]

@[simp] theorem secondRead_coatSide (fatal : Bool) (e : WordErr) (s : State) :
    (secondRead fatal e s).2.coatSide = s.coatSide := by
  unfold secondRead
  split
  · exact lasting_coatSide ..
  · simp only [apply_ite Prod.snd, apply_ite State.coatSide, transientRead_coatSide, lasting_coatSide,
      State.coatSide_drawBit, ite_self]

theorem checkReadBy_coatSide (fatal : Bool) (l : Loc) (s : State) : (checkReadBy fatal l s).2.2.coatSide = s.coatSide := by
  unfold checkReadBy
  split
  · rfl
  next e _ =>
    simp only []
    split
    · exact secondRead_coatSide ..
    · split
      · rfl
      · exact correct_coatSide ..
      · exact secondRead_coatSide ..
      · rfl
      · split
        · exact secondRead_coatSide fatal { e with loc := l } s.drawBit.2
        · rfl

theorem checkWrite_coatSide (l : Loc) (b n : Nat) (s : State) : (checkWrite l b n s).coatSide = s.coatSide := by
  unfold checkWrite
  rw [State.coatSide_of_quiet (applyFlips_quiet _ l)]
  split
  · rfl
  · simp only [apply_ite State.coatSide, State.coatSide_dropErr, State.coatSide_putErr, checkReadBy_coatSide, ite_self]

/-! ### T_DAC is written (R157, R158) -/

theorem State.settings_of_coatSide {s u : State} (h : u.coatSide = s.coatSide) (t : TileId) :
    (u.tiles[t]).settings = (s.tiles[t]).settings := by
  have same := congrArg (fun v : Option Coat × BitVec 16 × List (TileId × Nat) × Vector (Word × Word × BitVec 16) 512 =>
    v.2.2.2[t]) h
  simpa only [State.coatSide, Fin.getElem_fin, Vector.getElem_map] using same

/-- Of what coats write, a write to T_DAC changes T_DAC of its tile alone. -/
theorem setReg_dac_coatSide (t : TileId) (v m : Word) (s : State) :
    (setReg (.tile t .dac) v m s).coatSide =
      (s.modTile t fun x => { x with dac := Word.merge x.dac v (m &&& TReg.rw t .dac) }).coatSide := by
  simp only [setReg, setTile, cmpLooks_coatSide]
  exact State.coatSide_modTile_congr (checkWrite_coatSide ..) t
    (g := fun y => (Word.merge y.1 v (m &&& TReg.rw t .dac), y.2)) fun _ => rfl

end Sys2Proof.Machine
end
section
/-!
PROOFS. What a coat does at its commit point (O42, R217, R230, R236, R237, R239).
-/
namespace Sys2Proof.Machine

open Sys2Proof

/-! ### READY and completions leave what coats write alone -/

theorem markReady_coatSide (s : State) : (markReady s).coatSide = s.coatSide := by
  refine congrArg (fun v : Vector (Word × Word × BitVec 16) 512 => (s.coat, s.coatLast, s.readback, v))
    (Vector.ext fun i hi => ?_)
  simp only [markReady, Vector.getElem_map, Vector.getElem_mapFinIdx]
  split <;> rfl

theorem finish_coatSide (op : Byte) (d : Desc) (st : Status) (detail result : Nat) (s : State) :
    (finish op d st detail result s).coatSide = s.coatSide := by
  have q := congrArg State.coatSide (finish_calm op d st detail result s); exact q

/-! ### One item of a T_DAC (R236) -/

/-- The coat is over with its number, and its tiles read back within 256 FCK cycles (R237). -/
def coatClosed (c : Coat) (ts : List TileId) (s : State) : State :=
  { s with
    coat := none, coatLast := c.number
    readback := s.readback.filter (fun r => !ts.contains r.1) ++ ts.map fun t => (t, s.aon.fck + 256) }

theorem execCoatCommit_now {d : Desc} {c : Coat} {s : State} (hc : s.coat = some c) (hp : c.point = some (d, .now, none))
    (hf : s.fastOn = true) : exec .coatCommit s = .next (commitCoat c s) := by
  rw [show exec .coatCommit s = execCoatCommit s from rfl]
  simp only [execCoatCommit, hc, hp, overWait, State.pointHere, hf]
  rfl

section
variable {c : Coat} {i : Item} {t : TileId} {s : State} (hi : c.items = [i]) (hb : c.bound = [])
  (hr : regAt i.off = some (.tile t .dac))
include hi hb hr

theorem coatUnits_of_dac : s.coatUnits c = ([t], []) := by
  simp [State.coatUnits, hi, hb, Item.units, hr, List.eraseDups_cons]

/-- The only unit that can be not ready is the item's tile. -/
theorem notReady_of_dac : s.notReady c =
    if (s.tiles[t]).fenced || (s.tiles[t]).inReset || s.pstate (panelOf t) == .off then 1 else 0 := by
  simp only [State.notReady, coatUnits_of_dac hi hb hr, Coat.imageTiles, hb]
  cases h : ((s.tiles[t]).fenced || (s.tiles[t]).inReset || s.pstate (panelOf t) == .off) <;>
    simp [h, -Fin.getElem_fin]

variable {d : Desc} {p : CommitPoint} {limit : Option Nat} (hp : c.point = some (d, p, limit))
include hp

theorem commitCoat_of_fenced (hf : (s.tiles[t]).fenced = true) :
    commitCoat c s = finish 0x25 d .aborted 1 0 (markReady { s with coat := none }) := by
  have bad : s.notReady c = 1 := by rw [notReady_of_dac hi hb hr, hf]; rfl
  simp only [commitCoat, bad]
  exact abortCoat_of_point hb hp 1 s

/-- The masked bits of T_DAC and the coat's number go live together. -/
theorem commitCoat_coatSide (hs : s.pstate (panelOf t) ≠ .off) (hf : (s.tiles[t]).fenced = false)
    (hn : (s.tiles[t]).inReset = false) :
    (commitCoat c s).coatSide = ((coatClosed c [t] s).modTile t fun x =>
      { x with dac := Word.merge x.dac i.value (i.mask &&& 0xFFFFFC00#32), coat := c.number }).coatSide := by
  have good : s.notReady c = 0 := by rw [notReady_of_dac hi hb hr, hf, hn]; simp [hs]
  have written : (applyItem i (coatClosed c [t] s)).coatSide = ((coatClosed c [t] s).modTile t fun x =>
      { x with dac := Word.merge x.dac i.value (i.mask &&& 0xFFFFFC00#32) }).coatSide := by
    have on : ¬ (coatClosed c [t] s).pstate (panelOf t) = .off := hs
    simp only [applyItem, hr, Reg.panelOf, if_neg on, setReg_dac_coatSide, Reg.rw, TReg.rw, BitVec.and_assoc,
      BitVec.and_self]
  simp only [commitCoat, good, coatUnits_of_dac hi hb hr, hi, hb, hp, List.foldl_cons, List.foldl_nil]
  rw [if_neg (not_not_intro rfl), okay, finish_coatSide, markReady_coatSide]
  refine (State.coatSide_modTile_congr written t (g := fun y => (y.1, y.2.1, c.number)) fun _ => rfl).trans ?_
  simp [State.modTile]

end

/-! ### A release without stages (R217, R223) -/

section
variable {ch : Fin 256} {stages : List Stage} {links : List LinkRec} {pl : Placement} (hs : pl.stages = [])
include hs

theorem linkViews_of_noStages : linkViews ch stages links pl = [] := by
  refine List.filterMap_eq_nil_iff.mpr fun x _ => ?_
  simp only [hs, List.find?_nil]
  cases stages[x.2.src]? <;> cases stages[x.2.dst]? <;> rfl

theorem tiles_of_noStages : pl.tiles stages = [] := by
  simp only [Placement.tiles, hs, List.filterMap_nil, List.eraseDups_nil]

variable {s : State} (hd : (s.chains[ch]).cdef = some (stages, links)) (hp : (s.chains[ch]).placement = some pl)
include hd hp

theorem goDown_of_noStages : goDown ch s = s.modChain ch fun x => { x with placement := none, broken := false } := by
  simp only [goDown, hd, hp, dropRoutes, linkViews_of_noStages hs, stageViews, tiles_of_noStages hs, hs,
    List.filterMap_nil, List.foldl_nil]

variable {d : Desc} {c : Coat} (hi : c.items = []) (hb : c.bound = [.release d ch])
include hi hb

theorem coatUnits_of_release (hr : pl.routes = []) : s.coatUnits c = ([], []) := by
  simp only [State.coatUnits, hi, hb, List.map_nil, List.map_cons, List.nil_append, State.boundUnits, State.liveTiles,
    State.livePanels, hd, hp, tiles_of_noStages hs, hr, List.filter_nil, List.flatMap_cons, List.flatMap_nil,
    List.append_nil, List.eraseDups_nil]

theorem notReady_of_release (hr : pl.routes = []) : s.notReady c = 0 := by
  simp only [State.notReady, coatUnits_of_release hs hd hp hi hb hr, List.filter_nil, List.length_nil]

omit hs hd hp hi in
/-- The module's own coat needs no commit point: it goes through as soon as it is ready. -/
theorem execPlacementReadyCommit_release (hc : s.coat = some c) (ho : c.own = true) (hf : s.fastOn = true) :
    exec .placementReadyCommit s = .next (commitCoat c s) := by
  rw [show exec .placementReadyCommit s = execPlacementReadyCommit s from rfl]
  simp [execPlacementReadyCommit, hc, ho, hf, hb, Bound.moves]

theorem commitCoat_release (hr : pl.routes = []) (hn : c.point = none) :
    commitCoat c s = markReady (okay 0x23 d 0 ((coatClosed c [] s).modChain ch fun x =>
      { x with placement := none, broken := false })) := by
  have down : goDown ch (coatClosed c [] s) = _ := goDown_of_noStages hs hd hp
  simp only [commitCoat, notReady_of_release hs hd hp hi hb hr, coatUnits_of_release hs hd hp hi hb hr, hi, hb, hn,
    List.foldl_cons, List.foldl_nil]
  rw [if_neg (not_not_intro rfl), ← down]
  rfl

end

/-! ### Read-back (R237) -/

theorem checkConfig_of_clean (t : TileId) (s : State) (h : s.mem.errs = []) : checkConfig t s = (true, s) := by
  simp only [checkConfig, h, List.filter_nil, List.foldl_nil]

theorem execCoatReadback_clean {t : TileId} {due : Nat} {s : State} (hr : (t, due) ∈ s.readback)
    (hf : (s.tiles[t]).fenced = false) (he : s.mem.errs = []) :
    exec (.coatReadback t .clean) s = .next { s with readback := s.readback.filter (·.1 != t) } := by
  have waits : s.readback.any (·.1 == t) = true := List.any_eq_true.mpr ⟨_, hr, beq_self_eq_true t⟩
  rw [show exec (.coatReadback t .clean) s = execCoatReadback t .clean s from rfl]
  simp only [execCoatReadback, waits, hf, Bool.not_false, Bool.and_true, if_true]
  rw [checkConfig_of_clean t { s with readback := s.readback.filter (·.1 != t) } he]
  rfl

/-! ### The dust sheet (R239) -/

/-- The tile's part of the dust sheet opens now. -/
def sheetOpens (s : State) (t : TileId) : Bool :=
  (s.tiles[t]).sheet && !(s.tiles[t]).inReset && decide ((s.tiles[t]).sheetAt + 2 ≤ s.aon.fck)

/-- A tile behind the sheet stays there in reset, and for two FCK cycles after its release. -/
theorem sheet_opened (x : Tile) (now : Nat) :
    (if (x.sheet && !x.inReset && decide (x.sheetAt + 2 ≤ now)) = true then { x with sheet := false } else x) =
      { x with sheet := x.sheet && (x.inReset || decide (now < x.sheetAt + 2)) } := by
  split
  next opens =>
    simp only [Bool.and_eq_true, Bool.not_eq_true', decide_eq_true_eq] at opens
    obtain ⟨⟨-, free⟩, due⟩ := opens
    refine congrArg (fun b => { x with sheet := b }) ?_
    simp [free, Nat.not_lt.mpr due]
  next shut =>
    refine congrArg (fun b => { x with sheet := b }) ?_
    cases hs : x.sheet with
    | false => rfl
    | true => cases hr : x.inReset <;> simp_all

/-- Updates of the tiles of a list by one function that a second pass does not change. -/
theorem foldl_modTile_tile (f : Tile → Tile) (hf : ∀ x, f (f x) = f x) (k : TileId) (ts : List TileId) (s : State) :
    (ts.foldl (fun s t => s.modTile t f) s).tiles[k] = if k ∈ ts then f s.tiles[k] else s.tiles[k] := by
  induction ts generalizing s with
  | nil => rfl
  | cons t ts ih =>
    rw [List.foldl_cons, ih]
    by_cases hk : k = t
    · subst hk
      have hit : (s.modTile k f).tiles[k] = f s.tiles[k] := State.modTile_hit ..
      simp only [hit, hf, ite_self, List.mem_cons, true_or, if_true]
    · have miss : (s.modTile t f).tiles[k] = s.tiles[k] := State.modTile_miss s t k f fun h => hk h.symm
      simp only [miss, List.mem_cons, hk, false_or]

theorem foldl_modTile_only (f : Tile → Tile) (ts : List TileId) (s : State) :
    ts.foldl (fun s t => s.modTile t f) s = { s with tiles := (ts.foldl (fun s t => s.modTile t f) s).tiles } := by
  induction ts generalizing s with
  | nil => rfl
  | cons t ts ih => exact ih (s.modTile t f)

theorem execDustSheetRelease_unrouted {s : State} (hs : ∀ p : PanelId, ∀ k : Fin 256, (s.panels[p]).sinks[k] = 256) :
    exec .dustSheetRelease s = .next ((allTiles.filter (sheetOpens s)).foldl
      (fun s t => s.modTile t fun x => { x with sheet := false }) s) := by
  rw [show exec .dustSheetRelease s = execDustSheetRelease s from rfl]
  unfold execDustSheetRelease
  simp only []
  rw [List.flatMap_eq_nil_iff.mpr fun p _ => ?uncut]
  case uncut =>
    rw [List.map_eq_nil_iff, List.filter_eq_nil_iff]
    intro k _
    simp only [hs p k, Nat.lt_irrefl, decide_false, Bool.false_and, Bool.false_eq_true, not_false_iff]
  rw [List.foldl_nil]
  rfl

/-! ### A tile with nothing to re-place (R230) -/

theorem chainsOn_of_unplaced {s : State} {t : TileId} (h : s.isPlaced t = false) : s.chainsOn t = [] := by
  simpa [State.isPlaced] using h

section
variable {t : TileId} {s : State} (hc : s.coat = none) (hp : s.isPlaced t = false)
  {by_ : Option (Byte × Desc)} (hm : s.moves.find? (fun m => m.1 == t) = some (t, by_))
include hc hp hm

/-- The coat opened for it is closed again, its number is not used up, and the command that asked for it completes. -/
theorem execTileReplacement_unplaced : exec (.tileReplacement t) s = .next
    (by_.elim { s with moves := s.moves.filter fun m => m.1 != t } fun x =>
      finish x.1 x.2 .ok 0 0 { s with moves := s.moves.filter fun m => m.1 != t }) := by
  have stages : (openCoat true { s with moves := s.moves.filter fun m => m.1 != t }).chainsOn t = [] :=
    chainsOn_of_unplaced hp
  have closed : ({ s with moves := s.moves.filter fun m => m.1 != t, coat := none } : State) =
      { s with moves := s.moves.filter fun m => m.1 != t } := by rw [hc]
  rw [show exec (.tileReplacement t) s = execTileReplacement t s from rfl]
  unfold execTileReplacement
  rw [hm]
  simp only []
  rw [if_neg (by simp [hc]), stages, ← closed]
  cases by_ <;> rfl

end

/-- Settles O42: of what the coats write, a T_DAC item changes T_DAC of its tile, with the coat's number; a fenced tile aborts the coat
before anything is written; the other clauses follow from what the module's own coat, the read-back, the dust sheet and a re-placement
do where they meet nothing in their way. -/
theorem coatsCommit : Obligations.CoatsCommit := by
  refine ⟨fun d c i t s hc hi hb hp hf hr => ?item, fun d ch c stages links pl s hc ho hi hb hn hf hd hpl hs hr => ?release,
    fun t due s hr hf he => execCoatReadback_clean hr hf he, fun s hs => ?sheet, fun t s hc hp => ?move⟩
  case item =>
    rw [execCoatCommit_now hc hp hf]
    refine ⟨fun hs hf hn => ⟨_, rfl, ?_⟩, fun hf => by rw [commitCoat_of_fenced hi hb hr hp hf]⟩
    have side := commitCoat_coatSide hi hb hr hp hs hf hn
    have tile := State.settings_of_coatSide side t
    rw [Fin.getElem_fin, Fin.getElem_fin, State.modTile_hit] at tile
    obtain ⟨dac, rest⟩ := Prod.mk.inj tile
    obtain ⟨adc, number⟩ := Prod.mk.inj rest
    obtain ⟨closed, rest⟩ := Prod.mk.inj side
    obtain ⟨last, rest⟩ := Prod.mk.inj rest
    obtain ⟨readback, -⟩ := Prod.mk.inj rest
    refine ⟨closed, last, number, dac, adc, ?_⟩
    rw [readback]
    simp [coatClosed]
  case release =>
    rw [execPlacementReadyCommit_release hb hc ho hf]
    refine ⟨_, rfl, ?_⟩
    rw [commitCoat_release hs hd hpl hi hb hr hn]
    have side := (markReady_coatSide _).trans (finish_coatSide 0x23 d .ok 0 0 ((coatClosed c [] s).modChain ch fun x =>
      { x with placement := none, broken := false }))
    have chains := State.calm_chains (finish_calm 0x23 d .ok 0 0 ((coatClosed c [] s).modChain ch fun x =>
      { x with placement := none, broken := false }))
    obtain ⟨closed, rest⟩ := Prod.mk.inj side
    obtain ⟨last, -⟩ := Prod.mk.inj rest
    have chain : (((coatClosed c [] s).modChain ch fun x => { x with placement := none, broken := false }).chains[ch]) =
        { s.chains[ch] with placement := none, broken := false } := State.modChain_hit ..
    rw [← chains] at chain
    exact ⟨congrArg Chain.placement chain, congrArg Chain.broken chain, (congrArg Chain.cdef chain).trans hd, closed, last⟩
  case sheet =>
    refine ⟨_, execDustSheetRelease_unrouted hs, foldl_modTile_only .., fun t => ?_⟩
    have opens : t ∈ allTiles.filter (sheetOpens s) ↔ sheetOpens s t = true := by
      simp only [allTiles, List.mem_filter, List.mem_finRange, true_and]
    rw [foldl_modTile_tile (fun x => { x with sheet := false }) fun _ => rfl]
    simp only [opens]
    exact sheet_opened s.tiles[t] s.aon.fck
  case move =>
    exact ⟨fun d op hm => execTileReplacement_unplaced hc hp hm, execTileReplacement_unplaced hc hp⟩

end Sys2Proof.Machine
end
section
/-!
PROOFS. The fence of a tile that no sink takes a source of, and its way back into service (R242, R245).
-/
namespace Sys2Proof.Machine

open Sys2Proof

/-! ### What a fence finds nothing to do with -/

theorem State.modTile_modTile (s : State) (t : TileId) (f g : Tile → Tile) :
    (s.modTile t f).modTile t g = s.modTile t fun x => g (f x) := by
  simp [State.modTile]

theorem State.modTile_tile (s : State) (t : TileId) (f : Tile → Tile) : (s.modTile t f).tiles[t] = f s.tiles[t] :=
  State.modTile_hit ..

theorem recClose_of_none {t : TileId} {s : State} (h : (s.tiles[t]).openRec = none) : recClose t s = s := by
  simp only [recClose, h]

/-- No source of a tile has the number that a sink without a source shows (R168). -/
theorem dropSources_of_untaken {t : TileId} {s : State} (h : ∀ k : Fin 256, (s.panels[panelOf t]).sinks[k] = 256) :
    dropSources t s = s := by
  have foreign : ([2 * localOf t, 2 * localOf t + 1, 128 + localOf t] : List Nat).contains 256 = false := by
    have small : localOf t < 64 := Nat.mod_lt _ (by decide)
    simp only [List.contains_eq_mem, List.mem_cons, List.not_mem_nil, or_false, decide_eq_false_iff_not]
    omega
  unfold dropSources
  refine foldl_of_fixed (fun k => ?_) _
  simp only [h k, foreign, Bool.false_eq_true, if_false]

theorem dropHostMsgs_of_none {t : TileId} {s : State} (h : (s.tiles[t]).eng.hostMsgs = []) :
    dropHostMsgs t s = s.modEng t fun e => { e with hostMsgs := [] } := by
  simp only [dropHostMsgs, h, List.foldl_nil]

theorem breakChains_of_unplaced {t : TileId} {s : State} (h : s.isPlaced t = false) :
    breakChains t s = refreshPlaced t s := by
  simp only [breakChains, chainsOn_of_unplaced h, List.foldl_nil]

/-! ### The fenced tile (R203, R242) -/

/-- The engine that a fence holds. -/
def Engine.heldNow (e : Engine) : Engine :=
  { e with
    st := .held, cause := 0, stall := none, arm := none, adcFifo := [], capFifo := [], inbox := [], outbox := [], hostMsgs := [] }

/-- The trowel that a fence stops. -/
def Trowel.halted (w : Trowel) : Trowel :=
  { w with play := .idle, current := none, listen := none, phase := .none, chopOn := false, cut := false }

/-- The tile that a fence cuts off, with its trowel. -/
def Tile.cutOff (x : Tile) (w : Trowel) : Tile :=
  { x with
    fenced := true, epoch := x.epoch + 1, retired := x.retired || x.epoch == 255, bistPass := false, ready := false
    eng := x.eng.heldNow, trowel := w }

section
variable {t : TileId} {s : State} (hr : (s.tiles[t]).openRec = none) (hm : (s.tiles[t]).eng.hostMsgs = [])
  (hs : ∀ k : Fin 256, (s.panels[panelOf t]).sinks[k] = 256)
include hr hm hs

theorem fenceEdge_of_untaken :
    fenceEdge t s = soloPartner t (s.modTile t fun x => x.cutOff x.trowel.halted) := by
  unfold fenceEdge
  simp only [dropSources_of_untaken hs]
  generalize hu : s.modTile t _ = u
  have tile : u.tiles[t] = { s.tiles[t] with
      fenced := true, epoch := (s.tiles[t]).epoch + 1, retired := (s.tiles[t]).retired || (s.tiles[t]).epoch == 255
      bistPass := false, ready := false } := by rw [← hu]; exact State.modTile_hit ..
  have closed : (u.tiles[t]).openRec = none := by rw [tile]; exact hr
  rw [recClose_of_none closed, holdEngine, dropHostMsgs_of_none, haltTrowel, ← hu]
  · simp only [State.modTrowel, State.modEng, State.modTile_modTile]
    rfl
  · rw [State.modEng_tile, tile]; exact hm

end

/-- Chains, re-placements asked for and FN_MODE: what decides on the stages of a tile. -/
def State.placing (s : State) : Vector Chain 256 × List (TileId × Option (Byte × Desc)) × BitVec 16 :=
  (s.chains, s.moves, s.fnMode)

theorem State.placing_of_quiet {s u : State} (h : u.quiet = s.quiet) : u.placing = s.placing := by
  have q := congrArg State.placing h; exact q

theorem State.isPlaced_of_placing {s u : State} (h : u.placing = s.placing) (t : TileId) : u.isPlaced t = s.isPlaced t := by
  have chains : u.chains = s.chains := congrArg Prod.fst h
  simp only [State.isPlaced, State.chainsOn, chains]

theorem State.hwPlaces_of_placing {s u : State} (h : u.placing = s.placing) : u.hwPlaces = s.hwPlaces := by
  have mode : u.fnMode = s.fnMode := congrArg (fun v => v.2.2) h
  simp only [State.hwPlaces, mode]

theorem soloPartner_placing (t : TileId) (s : State) : (soloPartner t s).placing = s.placing := by
  unfold soloPartner; simp only []; split <;> rfl

theorem soloPartner_tiles (t : TileId) {k : TileId} (hk : k ≠ partner t) (s : State) :
    (soloPartner t s).tiles[k] = s.tiles[k] := by
  unfold soloPartner; simp only []
  split
  · exact State.modTile_miss _ _ _ _ hk.symm
  · rfl

theorem askBuddy_placing (t : TileId) (s : State) : (askBuddy t s).placing = s.placing := by
  unfold askBuddy
  split
  · rfl
  · split
    · exact State.placing_of_quiet (logBuddy_quiet ..)
    · rfl

/-- What a fence leads to: the tile is cut off, its partner's SAR may go on alone, and nothing is re-placed yet. -/
structure State.Fenced (t : TileId) (s u : State) : Prop where
  tile : ∃ w : Trowel, u.tiles[t] = (s.tiles[t]).cutOff w
  others : ∀ k, k ≠ t → k ≠ partner t → u.tiles[k] = s.tiles[k]
  placing : u.placing = s.placing

section
variable {t : TileId} {s : State} (hf : (s.tiles[t]).fenced = false) (hr : (s.tiles[t]).openRec = none)
  (hm : (s.tiles[t]).eng.hostMsgs = []) (hs : ∀ k : Fin 256, (s.panels[panelOf t]).sinks[k] = 256)
include hf hr hm hs

theorem fence_of_untaken (cls : LClass) (cause : Byte) : State.Fenced t s (fence cls cause t s) := by
  unfold fence
  rw [hf, if_neg Bool.false_ne_true, fenceEdge_of_untaken hr hm hs]
  simp only []
  generalize hu : soloPartner t _ = u
  generalize hv : log cls 0x2C _ _ _ _ u = v
  have logged : v.quiet = u.quiet := by rw [← hv]; exact log_quiet ..
  have cut : u.tiles[t] = (s.tiles[t]).cutOff (s.tiles[t]).trowel.halted := by
    rw [← hu, soloPartner_tiles t (partner_ne t).symm]; exact State.modTile_hit ..
  obtain ⟨o, asked⟩ := askBuddy_beside t v
  refine ⟨⟨{ (s.tiles[t]).trowel.halted with takeover := o }, ?tile⟩, fun k hk hp => ?others, ?placing⟩
  case tile => rw [asked.tiles, State.modTrowel_tile, State.quiet_tiles logged, cut]; rfl
  case others =>
    rw [asked.tiles, State.modTrowel_miss _ _ hk, State.quiet_tiles logged, ← hu, soloPartner_tiles t hp]
    exact State.modTile_miss _ _ _ _ hk.symm
  case placing => rw [askBuddy_placing, State.placing_of_quiet logged, ← hu, soloPartner_placing]; rfl

/-- A fault's fence asks for a new place for the tile's stages (R230). -/
theorem faultFence_of_untaken (hp : s.isPlaced t = true) (hw : s.hwPlaces = true) (cause : Byte) :
    (∃ w, (faultFence cause t s).tiles[t] = (s.tiles[t]).cutOff w) ∧ (faultFence cause t s).moves = s.moves ++ [(t, none)] := by
  have fenced := fence_of_untaken hf hr hm hs .lasting cause
  have moves : (fence .lasting cause t s).moves = s.moves := congrArg (fun v => v.2.1) fenced.placing
  simp only [faultFence, askMove, (State.isPlaced_of_placing fenced.placing t).trans hp,
    (State.hwPlaces_of_placing fenced.placing).trans hw, moves, Bool.not_true, Bool.false_eq_true, if_false, if_true]
  exact ⟨fenced.tile, trivial⟩

end

/-! ### Readmission (R245) -/

theorem endBuddy_modTrowel (t : TileId) (s : State) : ∃ f : Trowel → Trowel, endBuddy t s = s.modTrowel t f := by
  unfold endBuddy
  simp only []
  split <;> exact ⟨_, rfl⟩

/-- A tile without stages is back in service with its present epoch and its engine STOPPED. -/
theorem readmit_of_unplaced {t : TileId} {s : State} (h : s.isPlaced t = false) : ∃ w : Trowel,
    (readmit t s).tiles = (s.modTile t fun x => { x with
      fenced := false, placed := false, ownEpoch := x.epoch, eng := { x.eng with st := .stopped }, trowel := w }).tiles := by
  have free : ({ s with moves := s.moves.filter fun m => m.1 != t } : State).isPlaced t = false := h
  unfold readmit
  simp only [breakChains_of_unplaced free, refreshPlaced, free]
  obtain ⟨f, ended⟩ := endBuddy_modTrowel t (((({ s with moves := s.moves.filter fun m => m.1 != t } : State).modTile t fun x =>
    { x with placed := false }).modTile t fun x => { x with fenced := false, ownEpoch := x.epoch }).modEng t fun e =>
      { e with st := .stopped })
  refine ⟨f (s.tiles[t]).trowel, ?_⟩
  rw [ended]
  simp only [State.modTrowel, State.modEng, State.modTile_modTile]
  rfl

end Sys2Proof.Machine
end
section
/-!
PROOFS. Fences, readmission, spares and heartbeats (O40, R229, R242 to R245).
-/
namespace Sys2Proof.Machine

open Sys2Proof

/-! ### FENCE_TILE (R244) -/

section
variable {d : Desc} {s : State} (ht : s.takes 0x26 d (headerFault d 9 .none .unbound [(25, 39)])) (h1 : d.u 24 1 ≤ 1)
include ht h1

theorem execFenceTile_fenced (hf : (s.tiles[(Fin.ofNat 512 d.target.toNat : TileId)]).fenced = true) :
    exec (.fenceTile d) s = .next (refuse 0x26 d .state (s.begun 0x26 d)) := by
  have hb : ((s.begun 0x26 d).tiles[(Fin.ofNat 512 d.target.toNat : TileId)]).fenced = true := hf
  rw [show exec (.fenceTile d) s = execFenceTile d s from rfl, execFenceTile, runDesc_takes _ _ _ _ _ ht]
  simp only []
  rw [if_neg (by omega), if_pos hb]

theorem execFenceTile_fences {t : TileId} (hk : Fin.ofNat 512 d.target.toNat = t) (hf : (s.tiles[t]).fenced = false) :
    exec (.fenceTile d) s = .next (okay 0x26 d 0 (
      if d.u 24 1 = 0 then askMove t none (fence .info 0 t (s.begun 0x26 d))
      else breakChains t (fence .info 0 t (s.begun 0x26 d)))) := by
  have hb : ¬ ((s.begun 0x26 d).tiles[t]).fenced = true := Bool.eq_false_iff.mp hf
  rw [show exec (.fenceTile d) s = execFenceTile d s from rfl, execFenceTile, runDesc_takes _ _ _ _ _ ht]
  simp only [hk]
  rw [if_neg (by omega), if_neg hb]

end

/-- Neither way to deal with a tile's stages finds one: at most PLACED is refreshed. -/
theorem stagesGone_of_unplaced {t : TileId} {s : State} (h : s.isPlaced t = false) (n : Nat) : ∃ b : Bool,
    (if n = 0 then askMove t none s else breakChains t s).tiles = (s.modTile t fun x => { x with placed := b }).tiles := by
  by_cases hn : n = 0
  · refine ⟨(s.tiles[t]).placed, ?_⟩
    rw [if_pos hn, State.modTile_of_fixed s t _ rfl]
    simp only [askMove, h, Bool.not_false, if_true]
  · refine ⟨s.isPlaced t, ?_⟩
    rw [if_neg hn, breakChains_of_unplaced h]
    rfl

/-! ### READMIT_TILE (R245) -/

section
variable {d : Desc} {s : State} {t : TileId} (ht : s.takes 0x27 d (headerFault d 9 .none .unbound [(25, 39)]))
  (hk : Fin.ofNat 512 d.target.toNat = t) (hf : (s.tiles[t]).fenced = true) (hn : (s.tiles[t]).retired = false)
  (hb : ∀ r ∈ s.bist, r.tile ≠ t)
include ht hk hf hn hb

/-- A recorded pass is all that readmission without a BIST looks at. -/
theorem execReadmitTile_recorded (h0 : d.u 24 1 = 0) :
    exec (.readmitTile d) s = .next (
      if (s.tiles[t]).bistPass then okay 0x27 d 0 (readmit t (s.begun 0x27 d))
      else refuse 0x27 d .state (s.begun 0x27 d)) := by
  have fenced : ((s.begun 0x27 d).tiles[t]).fenced = true := hf
  have kept : ((s.begun 0x27 d).tiles[t]).retired = false := hn
  have idle : (s.begun 0x27 d).bist.any (fun r => r.tile == t) = false :=
    List.any_eq_false.mpr fun r hr => by simpa using hb r hr
  rw [show exec (.readmitTile d) s = execReadmitTile d s from rfl, execReadmitTile, runDesc_takes _ _ _ _ _ ht]
  simp only [hk, fenced, kept, idle, h0]
  rfl

theorem execReadmitTile_tests (h1 : d.u 24 1 = 1) :
    exec (.readmitTile d) s = .next { s.begun 0x27 d with
      bist := s.bist ++ [{ desc := some d, tile := t, mode := 0, slices := 48, readmit := true }] } := by
  have fenced : ((s.begun 0x27 d).tiles[t]).fenced = true := hf
  have kept : ((s.begun 0x27 d).tiles[t]).retired = false := hn
  have idle : (s.begun 0x27 d).bist.any (fun r => r.tile == t) = false :=
    List.any_eq_false.mpr fun r hr => by simpa using hb r hr
  rw [show exec (.readmitTile d) s = execReadmitTile d s from rfl, execReadmitTile, runDesc_takes _ _ _ _ _ ht]
  simp only [hk, fenced, kept, idle, h1]
  rfl

end

/-! ### RESERVE_SPARES (R229) -/

theorem execReserveSpares_map {d : Desc} {s : State} (ht : s.takes 0x28 d (headerFault d 0 .buffer .unbound [(32, 32)]))
    (hl : d.len = 64) (hu : s.linkUp = true) (hr : d.rd = .clean) {ts : List TileId}
    (hm : mapTiles (s.hostMem.bytes d.buffer.toNat 64) = ts) :
    exec (.reserveSpares d) s = .next (
      if ts.all s.sparable then finish 0x28 d .ok 0 0 (setSpares ts (s.begun 0x28 d))
      else refuse 0x28 d .noResource (s.begun 0x28 d)) := by
  have read : mapTiles ((s.begun 0x28 d).hostMem.bytes d.buffer.toNat d.len) = ts := by rw [hl]; exact hm
  rw [show exec (.reserveSpares d) s = execReserveSpares d s from rfl, execReserveSpares, runDesc_takes _ _ _ _ _ ht,
    if_neg (by omega), if_neg (by omega), withBuffer_clean _ _ _ (s.begun 0x28 d) hu hr]
  simp only [read, okayRead, hr]
  rfl

/-! ### The heartbeat (R243) -/

section
variable {t : TileId} {s : State} (hp : s.probed t = true)
include hp

theorem execHeartbeatProbe_early (h : s.aon.ticks < (s.tiles[t]).probedAt + 32) : exec (.heartbeatProbe t) s = .next s := by
  rw [show exec (.heartbeatProbe t) s = execHeartbeatProbe t s from rfl, execHeartbeatProbe, State.probeDue, hp,
    decide_eq_false (Nat.not_le.mpr h)]
  rfl

theorem execHeartbeatProbe_due (h : (s.tiles[t]).probedAt + 32 ≤ s.aon.ticks) :
    exec (.heartbeatProbe t) s = .next { (answered t s).modTile t fun x => { x with probedAt := s.aon.ticks } with
      probes := (t, false, (answered t s).aon.run) :: (answered t s).probes } := by
  rw [show exec (.heartbeatProbe t) s = execHeartbeatProbe t s from rfl, execHeartbeatProbe, State.probeDue, hp,
    decide_eq_true h]
  rfl

theorem execHeartbeatTimeout_probed {p : TileId × Bool × Nat} (hq : s.probes.find? (fun p => p.1 == t) = some p) :
    exec (.heartbeatTimeout t) s = .next (
      if p.2.1 then
        faultFence 0x2A t (logHeartbeat .lasting t { s with probes := s.probes.filter fun p => p.1 != t })
      else { s with probes := (t, true, s.aon.run) :: s.probes.filter fun p => p.1 != t }) := by
  rw [show exec (.heartbeatTimeout t) s = execHeartbeatTimeout t s from rfl]
  simp only [execHeartbeatTimeout, hp, hq, if_true]

end

theorem answered_first {t : TileId} {s : State} (h : s.probes.any (fun p => p.1 == t && p.2.1) = false) :
    answered t s = { s with probes := s.probes.filter fun p => p.1 != t } := by
  simp only [answered, h, Bool.false_eq_true, if_false]

theorem answered_second {t : TileId} {s : State} (h : s.probes.any (fun p => p.1 == t && p.2.1) = true) :
    answered t s = tileTransient t (logHeartbeat .transient t { s with probes := s.probes.filter fun p => p.1 != t }) := by
  simp only [answered, h, if_true]

theorem logHeartbeat_quiet (cls : LClass) (t : TileId) (s : State) : (logHeartbeat cls t s).quiet = s.quiet := log_quiet ..

/-- A tile that is probed holds stages and is in service. -/
theorem State.serves_of_probed {t : TileId} {s : State} (h : s.probed t = true) :
    s.isPlaced t = true ∧ (s.tiles[t]).fenced = false := by
  simp only [State.probed, Bool.and_eq_true, Bool.not_eq_true'] at h
  exact ⟨h.1.1.2, h.1.2⟩

/-- Settles O40: a fence cuts off its tile and no other, a readmission writes its tile alone; RESERVE_SPARES turns on its map, and the
heartbeat on the probe in hand. -/
theorem fencesAndHeartbeats : Obligations.FencesAndHeartbeats := by
  refine ⟨fun d s ht h1 => ⟨execFenceTile_fenced ht h1, fun hf hp hr hm hs => ?fence⟩, fun d s ht hf hn hb => ?readmit,
    fun d s ht hl hu hr => ?spares, fun t s hp => ⟨execHeartbeatProbe_early hp, fun due => ?probe⟩,
    fun t since s hp => ?miss⟩
  case fence =>
    have fenced := fence_of_untaken (s := s.begun 0x26 d) hf hr hm hs .info 0
    obtain ⟨w, cut⟩ := fenced.tile
    obtain ⟨b, gone⟩ := stagesGone_of_unplaced ((State.isPlaced_of_placing fenced.placing _).trans hp) (d.u 24 1)
    refine ⟨_, execFenceTile_fences ht h1 rfl hf, ?_⟩
    rw [okay, State.calm_tiles (finish_calm ..), gone]
    rw [State.modTile_tile, cut]
    exact ⟨rfl, rfl, rfl, rfl, rfl, rfl, rfl, rfl, rfl, rfl, fun k hk hp =>
      (State.modTile_miss _ _ _ _ hk.symm).trans (fenced.others k hk hp)⟩
  case readmit =>
    refine ⟨fun h0 hpass hp => ?passed, fun h0 hpass => ?failed, execReadmitTile_tests ht rfl hf hn hb⟩
    case passed =>
      have back := execReadmitTile_recorded ht rfl hf hn hb h0
      rw [if_pos hpass] at back
      obtain ⟨w, tiles⟩ := readmit_of_unplaced (s := s.begun 0x27 d) hp
      refine ⟨_, back, ?_⟩
      rw [okay, State.calm_tiles (finish_calm ..), tiles, State.modTile_tile]
      exact ⟨rfl, rfl, rfl, rfl, rfl, fun k hk => State.modTile_miss _ _ _ _ hk.symm⟩
    case failed =>
      rw [execReadmitTile_recorded ht rfl hf hn hb h0, hpass]
      rfl
  case spares =>
    refine ⟨fun hall => ?all, fun ⟨t, ht', hbad⟩ => ?some⟩
    case all => rw [execReserveSpares_map ht hl hu hr rfl, if_pos (List.all_eq_true.mpr hall)]; rfl
    case some =>
      have barred := List.all_eq_false.mpr ⟨t, ht', Bool.eq_false_iff.mp hbad⟩
      rw [execReserveSpares_map ht hl hu hr rfl, barred]
      rfl
  case probe =>
    rw [execHeartbeatProbe_due hp due]
    refine ⟨fun first => ?first, fun second => ?second⟩
    case first => rw [answered_first first]; rfl
    case second =>
      have serving := State.serves_of_probed hp
      rw [answered_second second]
      generalize hu : logHeartbeat _ _ _ = u
      have logged : u.quiet = ({ s with probes := s.probes.filter fun p => p.1 != t } : State).quiet := by
        rw [← hu]; exact logHeartbeat_quiet ..
      have aon : u.aon = s.aon := (State.quiet_aon logged).trans rfl
      have tiles : u.tiles = s.tiles := (State.quiet_tiles logged).trans rfl
      have probes : u.probes = s.probes.filter fun p => p.1 != t := State.calm_probes (State.calm_of_quiet logged)
      refine ⟨_, rfl, ?_⟩
      simp only [tileTransient, State.modTile_modTile, State.modTile_tile, State.modTile_aon, State.modTile_probes, aon, probes,
        tiles]
      exact ⟨serving.2, trivial, trivial⟩
  case miss =>
    refine ⟨fun first => by rw [execHeartbeatTimeout_probed hp first]; rfl, fun second hw hr hm hs => ?_⟩
    have serving := State.serves_of_probed hp
    rw [execHeartbeatTimeout_probed hp second, if_pos rfl]
    generalize hu : logHeartbeat _ _ _ = u
    have logged : u.quiet = ({ s with probes := s.probes.filter fun p => p.1 != t } : State).quiet := by
      rw [← hu]; exact logHeartbeat_quiet ..
    have tiles : u.tiles = s.tiles := (State.quiet_tiles logged).trans rfl
    have panels : u.panels = s.panels := (State.quiet_panels logged).trans rfl
    have placing : u.placing = s.placing := (State.placing_of_quiet logged).trans rfl
    have moves : u.moves = s.moves := congrArg (fun v => v.2.1) placing
    rw [← tiles] at hr hm
    rw [← panels] at hs
    obtain ⟨⟨w, cut⟩, asked⟩ := faultFence_of_untaken (tiles ▸ serving.2) hr hm hs
      ((State.isPlaced_of_placing placing t).trans serving.1) ((State.hwPlaces_of_placing placing).trans hw) 0x2A
    refine ⟨_, rfl, ?_⟩
    rw [cut, asked, tiles, moves]
    exact ⟨rfl, rfl, rfl, rfl⟩

end Sys2Proof.Machine
end
section
/-!
PROOFS. Updates of one queue, stream ring or vector, and what a doorbell's wake leaves alone: facts about the model that the claims on
rings (O4 to O9, O11) rest on.
-/
namespace Sys2Proof.Machine

open Sys2Proof

/-! ### One entry of a table -/

theorem State.modCq_cq (s : State) (n : Fin 16) (f : Cq → Cq) : (s.modCq n f).cqs[n] = f s.cqs[n] := State.modCq_hit ..
theorem State.modCq_other (s : State) {n k : Fin 16} (f : Cq → Cq) (h : k ≠ n) : (s.modCq n f).cqs[k] = s.cqs[k] :=
  State.modCq_miss _ _ _ _ h.symm
theorem State.modCq_modCq (s : State) (n : Fin 16) (f g : Cq → Cq) :
    (s.modCq n f).modCq n g = s.modCq n fun q => g (f q) := by
  simp [State.modCq]

theorem State.modCq_congr {s : State} {n : Fin 16} {f g : Cq → Cq} (h : f s.cqs[n] = g s.cqs[n]) :
    s.modCq n f = s.modCq n g := by
  rw [State.modCq, h]; rfl
theorem State.modCq_of_fixed {s : State} {n : Fin 16} {f : Cq → Cq} (h : f s.cqs[n] = s.cqs[n]) : s.modCq n f = s := by
  rw [State.modCq, h]; simp

theorem State.modPq_pq (s : State) (n : Fin 8) (f : Pq → Pq) : (s.modPq n f).pqs[n] = f s.pqs[n] := State.modPq_hit ..
theorem State.modPq_other (s : State) {n k : Fin 8} (f : Pq → Pq) (h : k ≠ n) : (s.modPq n f).pqs[k] = s.pqs[k] :=
  State.modPq_miss _ _ _ _ h.symm

theorem State.modSt_ring (s : State) (n : Fin 32) (f : Stream → Stream) : (s.modSt n f).sts[n] = f s.sts[n] :=
  State.modSt_hit ..
theorem State.modSt_modSt (s : State) (n : Fin 32) (f g : Stream → Stream) :
    (s.modSt n f).modSt n g = s.modSt n fun r => g (f r) := by
  simp [State.modSt]

theorem State.modMsix_vec (s : State) (v : Fin 64) (f : Msix → Msix) : (s.modMsix v f).msix[v] = f s.msix[v] :=
  State.modMsix_hit ..
theorem State.modMsix_modMsix (s : State) (v : Fin 64) (f g : Msix → Msix) :
    (s.modMsix v f).modMsix v g = s.modMsix v fun m => g (f m) := by
  simp [State.modMsix]

/-! ### A doorbell's wake (R277) -/

/-- Waking touches the clocks and the AON domain only. -/
theorem doorbellWake_only (s : State) :
    doorbellWake s = { s with clk := (doorbellWake s).clk, aon := (doorbellWake s).aon } := by
  unfold doorbellWake wake
  split
  · split <;> rfl
  · rfl

@[simp] theorem doorbellWake_cqs (s : State) : (doorbellWake s).cqs = s.cqs := by rw [doorbellWake_only]
@[simp] theorem doorbellWake_pqs (s : State) : (doorbellWake s).pqs = s.pqs := by rw [doorbellWake_only]
@[simp] theorem doorbellWake_sts (s : State) : (doorbellWake s).sts = s.sts := by rw [doorbellWake_only]
@[simp] theorem doorbellWake_msix (s : State) : (doorbellWake s).msix = s.msix := by rw [doorbellWake_only]
@[simp] theorem doorbellWake_link (s : State) : (doorbellWake s).link = s.link := by rw [doorbellWake_only]

/-- Decoding and out of DORMANT, the endpoint takes the host's writes (R256, R271). -/
theorem State.takesWrites {s : State} (hd : s.decodes = true) (hm : s.pwr.mode ≠ .dormant) :
    (s.decodes && s.pwr.mode != .dormant) = true := by
  rw [hd, Bool.true_and]
  exact bne_iff_ne.mpr hm

end Sys2Proof.Machine
end
section
/-!
PROOFS. Descriptors: the header check, NOP, QUERY_STATUS, unknown opcodes and the fetch (O4, O5, O6, R283, R286, R304).
-/
namespace Sys2Proof.Machine

open Sys2Proof

/-- Settles O4: the fault that the header shows is the command's completion. -/
theorem headerChecked : Obligations.HeaderChecked := by
  refine fun d off s hr => ⟨fun hf => ?nop, fun hf => ?query, fun hf => ?close⟩
  case nop =>
    rw [show exec (.nop d) s = execNop d s from rfl, execNop, hf]
    exact runDesc_fault _ _ _ _ _ _ hr
  case query =>
    rw [show exec (.queryStatus d) s = execQueryStatus d s from rfl, execQueryStatus, hf]
    exact runDesc_fault _ _ _ _ _ _ hr
  case close =>
    rw [show exec (.closeStream d) s = execCloseStream d s from rfl, execCloseStream, hf]
    exact runDesc_fault _ _ _ _ _ _ hr

/-! ### NOP, QUERY_STATUS and unknown opcodes (R304, R283) -/

theorem execNop_takes {d : Desc} {s : State} (ht : s.takes 0x01 d (headerFault d 32 .none .unbound [(24, 40)])) :
    exec (.nop d) s = .next (okay 0x01 d 0 (s.begun 0x01 d)) := by
  rw [show exec (.nop d) s = execNop d s from rfl, execNop, runDesc_takes _ _ _ _ _ ht]

section
variable {d : Desc} {s : State} (ht : s.takes 0x04 d (headerFault d 0 .buffer .unbound [(24, 40)]))
include ht

theorem execQueryStatus_bare (hl : d.len = 0) :
    exec (.queryStatus d) s = .next (okay 0x04 d s.aon.sysNow.toNat (s.begun 0x04 d)) := by
  rw [show exec (.queryStatus d) s = execQueryStatus d s from rfl, execQueryStatus, runDesc_takes _ _ _ _ _ ht, if_pos hl]
  rfl

theorem execQueryStatus_block (hl : d.len = 64) (hu : s.linkUp = true) (hw : d.wr = .clean) :
    exec (.queryStatus d) s = .next (okay 0x04 d s.aon.sysNow.toNat
      ((s.begun 0x04 d).hostWrite d.buffer.toNat (statusBlock (s.begun 0x04 d)))) := by
  rw [show exec (.queryStatus d) s = execQueryStatus d s from rfl, execQueryStatus, runDesc_takes _ _ _ _ _ ht,
    if_neg (by omega), if_neg (not_not_intro hl), writeOut_clean _ _ _ _ _ (s.begun 0x04 d) hu hw]
  rfl

end

theorem execBadOpcodeDescriptor_runs {op : Byte} {d : Desc} {s : State} (hr : s.runs d = true)
    (ho : opcodes.contains op = false) :
    exec (.badOpcodeDescriptor op d) s = .next (refuse op d .badOpcode (s.begun op d)) := by
  rw [show exec (.badOpcodeDescriptor op d) s = execBadOpcodeDescriptor op d s from rfl, execBadOpcodeDescriptor,
    if_pos (by rw [hr, ho]; rfl)]
  rfl

/-- Settles O5: past the shared checks NOP and QUERY_STATUS complete OK, and an opcode outside the index with BAD_OPCODE. -/
theorem nopQueryBadOpcode : Obligations.NopQueryBadOpcode :=
  ⟨fun _ _ ht => execNop_takes ht, fun _ _ ht hl => execQueryStatus_bare ht hl,
    fun _ _ ht hl hu hw => execQueryStatus_block ht hl hu hw, fun _ _ _ hr ho => execBadOpcodeDescriptor_runs hr ho⟩

/-! ### The fetch (R286) -/

theorem State.transfer_of_linkUp {s : State} (h : s.linkUp = true) (a : Attempt) : s.transfer a = a := by
  rw [State.transfer, if_pos h]

theorem inStaging_of_clean (f : Fetched) {s : State} (h : s.mem.errs = []) : inStaging f s = s := by
  simp [inStaging, wordsBad_of_clean 9 none s h]

/-- Settles O6: the fetch succeeds, and nothing of it fails in ring staging. -/
theorem descriptorFetched : Obligations.DescriptorFetched := by
  intro n s hv ht hu hm
  rw [show exec (.descriptorFetch n .clean) s = execDescriptorFetch n .clean s from rfl, execDescriptorFetch,
    if_pos (by rw [hv, ht]; rfl)]
  simp only [State.transfer_of_linkUp hu]
  rw [inStaging_of_clean]
  · rfl
  · exact hm

end Sys2Proof.Machine
end
section
/-!
PROOFS. Doorbells (O7, R285).
-/
namespace Sys2Proof.Machine

open Sys2Proof

section
variable {s : State} (hd : s.decodes = true) (hm : s.pwr.mode ≠ .dormant)
include hd hm

theorem doorbell_rings (f : State → State) : doorbell 4 f s = f (doorbellWake s) := by
  simp only [doorbell, State.takesWrites hd hm, if_true]

/-- A write of another size is a wake source and nothing more. -/
theorem doorbell_wakes {size : Nat} (hs : size ≠ 4) (f : State → State) : doorbell size f s = doorbellWake s := by
  simp only [doorbell, State.takesWrites hd hm, if_true, if_neg hs]

section
variable {n : Fin 16} {v : Word} (he : (s.cqs[n]).en = true)
include he

theorem execCqTailDoorbell_index (hv : v.toNat < (s.cqs[n]).slots) :
    exec (.cqTailDoorbell n v 4) s = .next ((doorbellWake s).modCq n fun q => { q with tail := v.setWidth 16 }) := by
  rw [show exec (.cqTailDoorbell n v 4) s = execCqTailDoorbell n v 4 s from rfl, execCqTailDoorbell, doorbell_rings hd hm]
  simp only [doorbellWake_cqs, he, Nat.not_le.mpr hv, Bool.not_true, Bool.false_eq_true, if_false]

theorem execCpHeadDoorbell_index (hv : v.toNat < (s.cqs[n]).slots) :
    exec (.cpHeadDoorbell n v 4) s = .next ((doorbellWake s).modCq n fun q => { q with cpHead := v.setWidth 16 }) := by
  rw [show exec (.cpHeadDoorbell n v 4) s = execCpHeadDoorbell n v 4 s from rfl, execCpHeadDoorbell, doorbell_rings hd hm]
  simp only [doorbellWake_cqs, he, Nat.not_le.mpr hv, Bool.not_true, Bool.false_eq_true, if_false]

theorem execCqTailDoorbell_bad (hv : (s.cqs[n]).slots ≤ v.toNat) :
    exec (.cqTailDoorbell n v 4) s = .next (cqBad n (doorbellWake s)) := by
  rw [show exec (.cqTailDoorbell n v 4) s = execCqTailDoorbell n v 4 s from rfl, execCqTailDoorbell, doorbell_rings hd hm]
  simp only [doorbellWake_cqs, he, hv, Bool.not_true, Bool.false_eq_true, if_false, if_true]

end

theorem execPqTailDoorbell_index {n : Fin 8} {v : Word} (he : (s.pqs[n]).en = true) (hv : v.toNat < (s.pqs[n]).slots) :
    exec (.pqTailDoorbell n v 4) s = .next ((doorbellWake s).modPq n fun q => { q with tail := v.setWidth 16 }) := by
  rw [show exec (.pqTailDoorbell n v 4) s = execPqTailDoorbell n v 4 s from rfl, execPqTailDoorbell, doorbell_rings hd hm]
  simp only [doorbellWake_pqs, he, Nat.not_le.mpr hv, Bool.not_true, Bool.false_eq_true, if_false]

theorem execStConsumedDoorbell_consumes {n : Fin 32} {v : Word} (ho : (s.sts[n]).isOpen = true)
    (hv : (s.sts[n]).consumes v.toNat = true) :
    exec (.stConsumedDoorbell n v 4) s =
      .next (rearmRing n ((doorbellWake s).modSt n fun r => { r with consumed := v.setWidth 26 })) := by
  rw [show exec (.stConsumedDoorbell n v 4) s = execStConsumedDoorbell n v 4 s from rfl, execStConsumedDoorbell,
    doorbell_rings hd hm]
  simp only [doorbellWake_sts, ho, hv, Bool.not_true, Bool.false_eq_true, if_false, if_true]

end

/-- Settles O7: a 4-byte doorbell sets its index or reports it, and every doorbell is a wake source. -/
theorem doorbells : Obligations.Doorbells := by
  refine fun v s hd hm => ⟨fun n he hv => ⟨?tail, ?head⟩, fun n he hv => ?bad, fun n he hv => ?print, fun n ho hv => ?ring,
    fun n size hs => ?other⟩
  case tail => exact execCqTailDoorbell_index hd hm he hv
  case head => exact execCpHeadDoorbell_index hd hm he hv
  case bad => exact execCqTailDoorbell_bad hd hm he hv
  case print => exact execPqTailDoorbell_index hd hm he hv
  case ring => exact execStConsumedDoorbell_consumes hd hm ho hv
  case other => exact congrArg Host.Outcome.next (doorbell_wakes hd hm hs _)

end Sys2Proof.Machine
end
section
/-!
PROOFS. Streams are opened, closed and mirrored, and time out (O8, R290, R291, R294, R296).
-/
namespace Sys2Proof.Machine

open Sys2Proof

/-! ### OPEN_STREAM (R290) -/

/-- The ring that OPEN_STREAM with MODE 0 opens. -/
def openedRing (d : Desc) : Stream :=
  { base := d.buffer, mirror := BitVec.ofNat 64 (d.u 40 8), isOpen := true, size := (ringSize d.len).getD 0,
    vector := Fin.ofNat 64 (d.u 30 1), timeout := BitVec.ofNat 8 (d.u 31 1), thresh := BitVec.ofNat 12 (d.u 32 2),
    sources := streamSources (d.u 24 1) (d.u 26 2) (d.u 28 2) }

theorem execOpenStream_opens {d : Desc} {s : State} (ht : s.takes 0x70 d (openHeader d)) (hf : openFault d = none)
    (h0 : d.u 25 1 = 0) (hc : (s.sts[(Fin.ofNat 32 d.target.toNat)]).isOpen = false)
    (hb : ((streamSources (d.u 24 1) (d.u 26 2) (d.u 28 2)).any fun x => (s.ringOf x).isSome) = false) :
    exec (.openStream d) s =
      .next (okay 0x70 d 0 ((s.begun 0x70 d).modSt (Fin.ofNat 32 d.target.toNat) fun _ => openedRing d)) := by
  have unbound : (streamSources (d.u 24 1) (d.u 26 2) (d.u 28 2)).any
      (fun x => ((s.begun 0x70 d).ringOf x).isSome) = false := hb
  have closed : ((s.begun 0x70 d).sts[(Fin.ofNat 32 d.target.toNat)]).isOpen = false := hc
  rw [show exec (.openStream d) s = execOpenStream d s from rfl, execOpenStream, runDesc_takes _ _ _ _ _ ht]
  simp only [hf, unbound, closed, h0, BEq.rfl, beq_true, Bool.or_self, Bool.false_eq_true, if_false, if_true,
    State.modSt_modSt, List.nil_append]
  rfl

/-! ### The mirror (R294) -/

/-- The 8 bytes of the mirror: WRITE and the RSEQ of the next record. -/
theorem u32_write_append_rseq (r : Stream) :
    u32 (r.write.setWidth 32) ++ u32 r.rseq = natLe 4 r.write.toNat ++ natLe 4 r.rseq.toNat := by
  rw [u32, u32, BitVec.toNat_setWidth_of_le (by decide)]

theorem writeMirror_ring (n : Fin 32) (s : State) :
    (writeMirror n s).sts[n] = { s.sts[n] with mirrorDue := false, mirrorAt := some s.aon.fck } := by
  unfold writeMirror
  cases h : s.linkUp
  · exact State.modSt_ring ..
  · exact State.modSt_ring ..

theorem writeMirror_of_linkUp (n : Fin 32) {s : State} (h : s.linkUp = true) :
    writeMirror n s = (s.hostWrite (s.sts[n]).mirror.toNat
      (natLe 4 (s.sts[n]).write.toNat ++ natLe 4 (s.sts[n]).rseq.toNat)).modSt n fun r =>
        { r with mirrorDue := false, mirrorAt := some s.aon.fck } := by
  simp only [writeMirror, h, if_true, u32_write_append_rseq]
  rfl

/-- A mirror that is due, over a link that is up, is ready 1 us after it was last written. -/
theorem State.mirrorReady_of_due {n : Fin 32} {s : State} (ho : (s.sts[n]).isOpen = true)
    (hd : (s.sts[n]).mirrorDue = true) (hu : s.linkUp = true)
    (ha : ∀ k, (s.sts[n]).mirrorAt = some k → k + 1200 ≤ s.aon.fck) : s.mirrorReady n = true := by
  have rested : (s.sts[n]).mirrorAt.all (fun k => decide (k + usFck 1 ≤ s.aon.fck)) = true := by
    rw [Option.all_eq_true]
    exact fun k hk => decide_eq_true (ha k hk)
  simp only [State.mirrorReady, ho, hd, hu, rested, Bool.and_self]

/-! ### CLOSE_STREAM (R291) -/

theorem flushGap_of_none {n : Fin 32} {s : State} (h : (s.sts[n]).gap = none) : flushGap n s = s := by
  simp only [flushGap, h]

theorem execCloseStream_closes {d : Desc} {s : State} {n : Fin 32}
    (ht : s.takes 0x71 d (headerFault d 5 .none .unbound [(24, 40)])) (hn : Fin.ofNat 32 d.target.toNat = n)
    (ho : (s.sts[n]).isOpen = true) (hg : (s.sts[n]).gap = none) :
    exec (.closeStream d) s = .next (okay 0x71 d ((s.sts[n]).write.toNat + (s.sts[n]).lost.toNat * 2 ^ 32)
      ((writeMirror n (s.begun 0x71 d)).modSt n fun r =>
        { r with isOpen := false, sources := [], signalled := false, firstAt := none })) := by
  have opened : ((s.begun 0x71 d).sts[n]).isOpen = true := ho
  rw [show exec (.closeStream d) s = execCloseStream d s from rfl, execCloseStream, runDesc_takes _ _ _ _ _ ht]
  simp only [hn, opened, Bool.not_true, Bool.false_eq_true, if_false, flushGap_of_none (s := s.begun 0x71 d) hg,
    writeMirror_ring]
  rfl

/-! ### STREAM_INTERRUPT_TIMEOUT (R296) -/

theorem execStreamInterruptTimeout_due {n : Fin 32} {f : Nat} {s : State} (hf : (s.sts[n]).firstAt = some f)
    (ho : (s.sts[n]).isOpen = true) (hs : (s.sts[n]).signalled = false) (ht : (s.sts[n]).timeout ≠ 0)
    (hd : f + 9600 * (s.sts[n]).timeout.toNat ≤ s.aon.fck) :
    exec (.streamInterruptTimeout n) s = .next (fireRing n s) := by
  have due : f + usFck (8 * (s.sts[n]).timeout.toNat) ≤ s.aon.fck := by unfold usFck; omega
  rw [show exec (.streamInterruptTimeout n) s = execStreamInterruptTimeout n s from rfl, execStreamInterruptTimeout]
  simp only [hf, ho, hs, bne_iff_ne.mpr ht, decide_eq_true due, Bool.not_false, Bool.and_self, if_true]

/-- Settles O8: opening fills the ring, closing empties it after its mirror, and a mirror or a message that is due follows. -/
theorem streamsOpenAndClose : Obligations.StreamsOpenAndClose := by
  refine ⟨fun d s ht hf h0 hc hb => ?opens, fun d s ht => ?closes, fun n s ho hd hu ha => ?mirror,
    fun n f s hf ho hs ht hd => ?timeout⟩
  case opens => exact execOpenStream_opens ht hf h0 hc hb
  case closes => exact fun ho hg => execCloseStream_closes ht rfl ho hg
  case mirror =>
    rw [show exec (.mirrorWrite n) s = execMirrorWrite n s from rfl, execMirrorWrite,
      if_pos (State.mirrorReady_of_due ho hd hu ha), writeMirror_of_linkUp n hu]
  case timeout => exact execStreamInterruptTimeout_due hf ho hs ht hd

end Sys2Proof.Machine
end
section
/-!
PROOFS. MSI-X messages (O9, R301).
-/
namespace Sys2Proof.Machine

open Sys2Proof

theorem raiseMsix_of_masked {v : Fin 64} {s : State} (h : (s.msix[v]).masked = true) :
    raiseMsix v s = s.modMsix v fun m => { m with pba := true } := by
  simp only [raiseMsix, h, Bool.true_or, if_true]

theorem raiseMsix_out {v : Fin 64} {s : State} (h : (s.msix[v]).masked = false) (hf : s.link.fnMask = false)
    (hg : (s.msix[v]).gapUntil ≤ s.aon.fck) : (raiseMsix v s).out = .message v :: s.out := by
  simp only [raiseMsix, h, hf, Bool.or_self, Bool.false_eq_true, if_false, Nat.not_lt.mpr hg]
  rfl

theorem msixRelease_of_masked {v : Fin 64} {s : State} (h : (s.msix[v]).masked = true) : msixRelease v s = s := by
  simp only [msixRelease, h, Bool.not_true, Bool.and_false, Bool.false_and, Bool.false_eq_true, if_false]

theorem msixRelease_of_pending {v : Fin 64} {s : State} (hp : (s.msix[v]).pba = true) (h : (s.msix[v]).masked = false)
    (hf : s.link.fnMask = false) : msixRelease v s = raiseMsix v (s.modMsix v fun m => { m with pba := false }) := by
  simp only [msixRelease, hp, h, hf, Bool.not_false, Bool.and_self, if_true]

theorem execMsixUnmask_writes {v : Fin 64} {w : Word} {s : State} (hd : s.decodes = true) (hm : s.pwr.mode ≠ .dormant) :
    exec (.msixUnmask v w) s =
      .next (msixRelease v ((doorbellWake s).modMsix v fun m => { m with masked := w.getLsbD 0 })) := by
  rw [show exec (.msixUnmask v w) s = execMsixUnmask v w s from rfl, execMsixUnmask, if_pos (State.takesWrites hd hm)]

theorem execMsixGapEnd_due {v : Fin 64} {s : State} (hh : (s.msix[v]).held = true)
    (hg : (s.msix[v]).gapUntil ≤ s.aon.fck) :
    exec (.msixGapEnd v) s = .next (raiseMsix v (s.modMsix v fun m => { m with held := false })) := by
  rw [show exec (.msixGapEnd v) s = execMsixGapEnd v s from rfl, execMsixGapEnd,
    if_pos (by rw [hh, decide_eq_true hg]; rfl)]

/-- Settles O9: what pends or is held leaves as one message when its vector opens, and a masked vector's cause pends. -/
theorem msixMessages : Obligations.MsixMessages := by
  refine ⟨fun v w s hd hm hw hp hf => ?unmask, fun v w s hd hm hw => ?mask, fun v s hh hg => execMsixGapEnd_due hh hg,
    fun v s h => raiseMsix_of_masked h, fun v s h hf hg => raiseMsix_out h hf hg⟩
  case unmask =>
    rw [execMsixUnmask_writes hd hm, hw, msixRelease_of_pending, State.modMsix_modMsix]
    · rw [State.modMsix_vec, doorbellWake_msix]; exact hp
    · rw [State.modMsix_vec]
    · rw [State.modMsix_link, doorbellWake_link]; exact hf
  case mask =>
    rw [execMsixUnmask_writes hd hm, hw, msixRelease_of_masked]
    rw [State.modMsix_vec]

end Sys2Proof.Machine
end
section
/-!
PROOFS. Command and print queues are enabled and stopped (O11, R284, R289, R297).
-/
namespace Sys2Proof.Machine

open Sys2Proof

/-- A decoding module out of DORMANT takes a write to a register that belongs to no panel (R271, R395). -/
theorem hostReg_global {r : Reg} {s : State} (hd : s.decodes = true) (hm : s.pwr.mode ≠ .dormant) (hr : r.panelOf = none)
    (v : Word) (f : State → State) : hostReg r v f s = f s := by
  simp only [hostReg, hd, hm, hr, Bool.not_true, Bool.false_eq_true, if_false]

/-- The entry that an ignored write may make touches nothing but reports. -/
theorem logIgnored_quiet (b : Bool) (off : Nat) (v : Word) (s : State) :
    (if b then logIgnored off v s else s).quiet = s.quiet := by
  cases b
  · rfl
  · exact log_quiet ..

/-! ### CQn_CFG (R284, R289) -/

/-- PRIO, VECTOR and SIZE of the queue take a write of `v` under `m`. -/
def Cq.configured (q : Cq) (v m : Word) : Cq :=
  { q with prio := (Word.merge q.cfg v m).getLsbD 30, vector := vecOf (Word.merge q.cfg v m) 24,
           size := (Word.merge q.cfg v m).extractLsb' 20 4 }

/-- What a write of `v` to CQn_CFG, accepted under `m`, makes of its queue. -/
def Cq.cfgWritten (q : Cq) (v m : Word) : Cq :=
  let c := if q.en then q else q.configured v m
  if v.getLsbD 31 then
    if q.en || q.inProgress != 0 then c
    else if q.base.toNat % 64 ≠ 0 ∨ q.cpBase.toNat % 16 ≠ 0 then { c with err := 3 }
    else { c with en := true, head := 0, cpw := 0, tail := 0, cpHead := 0, phase := true, err := 0 }
  else { c with en := false }

theorem setReg_cqCfg (n : Fin 16) (v m : Word) (s : State) :
    setReg (.cqCfg n) v m s = s.modCq n fun q => q.configured v m := rfl

/-- What the write leaves in the tables of queues: its own queue written, every other as it was. -/
theorem cqCfgWrite_cqs (n : Fin 16) (v : Word) (s : State) :
    (cqCfgWrite n v s).cqs = (s.modCq n fun q => q.cfgWritten v (accept s (.cqCfg n) v).1).cqs := by
  unfold cqCfgWrite
  rw [State.quiet_cqs (logIgnored_quiet ..), setReg_cqCfg]
  generalize (accept s (.cqCfg n) v).1 = m
  have conf : (if (s.cqs[n]).en then s else s.modCq n fun q => q.configured v m) =
      s.modCq n fun q => if q.en then q else q.configured v m := by
    split
    next he => exact (State.modCq_of_fixed (f := fun q => if q.en then q else q.configured v m) (if_pos he)).symm
    next he => exact State.modCq_congr (if_neg he).symm
  rw [conf]
  split
  next hv =>
    split
    next busy => exact congrArg _ (State.modCq_congr (by simp only [Cq.cfgWritten, hv, busy, if_true]))
    next idle =>
      rw [Bool.not_eq_true] at idle
      split
      next bad =>
        rw [State.modCq_modCq]
        exact congrArg _ (State.modCq_congr (by simp only [Cq.cfgWritten, hv, idle, bad, if_true]; rfl))
      next good =>
        rw [State.modCq_modCq]
        exact congrArg _ (State.modCq_congr (by simp only [Cq.cfgWritten, hv, idle, good, if_true, if_false]; rfl))
  next hv =>
    rw [State.modCq_modCq]
    exact congrArg _ (State.modCq_congr (by simp only [Cq.cfgWritten, hv]; rfl))

theorem cqCfgWrite_cq (n : Fin 16) (v : Word) (s : State) :
    (cqCfgWrite n v s).cqs[n] = (s.cqs[n]).cfgWritten v (accept s (.cqCfg n) v).1 := by
  rw [cqCfgWrite_cqs, State.modCq_cq]
theorem cqCfgWrite_other {n k : Fin 16} (v : Word) (s : State) (h : k ≠ n) :
    (cqCfgWrite n v s).cqs[k] = s.cqs[k] := by
  rw [cqCfgWrite_cqs, State.modCq_other _ _ h]

theorem execCqEnable_accepted {n : Fin 16} {v : Word} {s : State} (hd : s.decodes = true) (hm : s.pwr.mode ≠ .dormant) :
    exec (.cqEnable n v) s = .next (cqCfgWrite n v s) :=
  congrArg Host.Outcome.next (hostReg_global hd hm rfl _ _)
theorem execCqStop_accepted {n : Fin 16} {v : Word} {s : State} (hd : s.decodes = true) (hm : s.pwr.mode ≠ .dormant) :
    exec (.cqStop n v) s = .next (cqCfgWrite n v s) :=
  congrArg Host.Outcome.next (hostReg_global hd hm rfl _ _)

section
variable {q : Cq} {v : Word} (m : Word)

/-- The queue that an enable starts (R284). -/
theorem Cq.cfgWritten_starts (hv : v.getLsbD 31 = true) (he : q.en = false) (hp : q.inProgress = 0)
    (hb : q.base.toNat % 64 = 0) (hc : q.cpBase.toNat % 16 = 0) :
    q.cfgWritten v m = { q.configured v m with
      en := true, head := 0, cpw := 0, tail := 0, cpHead := 0, phase := true, err := 0 } := by
  simp [Cq.cfgWritten, hv, he, hp, hb, hc]

theorem Cq.cfgWritten_misaligned (hv : v.getLsbD 31 = true) (he : q.en = false) (hp : q.inProgress = 0)
    (hb : q.base.toNat % 64 ≠ 0) : q.cfgWritten v m = { q.configured v m with err := 3 } := by
  simp [Cq.cfgWritten, hv, he, hp, hb]

/-- A queue that is stopped keeps what is in progress (R284). -/
theorem Cq.cfgWritten_stops (hv : v.getLsbD 31 = false) :
    q.cfgWritten v m = { q with
      en := false, prio := (q.cfgWritten v m).prio, vector := (q.cfgWritten v m).vector,
      size := (q.cfgWritten v m).size } := by
  simp only [Cq.cfgWritten, hv, Bool.false_eq_true, if_false]
  split <;> rfl

end

/-! ### PQn_CFG (R297) -/

/-- HEAD and SIZE of the print queue take a write of `v` under `m`. -/
def Pq.configured (q : Pq) (v m : Word) : Pq :=
  let w := Word.merge (Word.put q.headId.val 24 ||| Word.put q.size.toNat 20) v m
  { q with headId := Fin.ofNat 8 (Word.field w 26 24), size := w.extractLsb' 20 4 }

theorem setReg_pqCfg (n : Fin 8) (v m : Word) (s : State) :
    setReg (.pqCfg n) v m s = s.modPq n fun q => q.configured v m := rfl

/-- Every bit of PQn_CFG but those of a queue that is on is accepted. -/
theorem accept_pqCfg {n : Fin 8} {s : State} (he : (s.pqs[n]).en = false) (v : Word) :
    (accept s (.pqCfg n) v).1 = (Reg.pqCfg n).rw := by
  simp only [accept, locked, he, Reg.rw, Bool.false_eq_true, if_false]
  decide

/-- A field whose every bit a mask names is the value's. -/
theorem Word.field_merge {hi lo : Nat} {m : Word} (h : m.extractLsb hi lo = BitVec.allOnes _) (old v : Word) :
    Word.field (Word.merge old v m) hi lo = Word.field v hi lo := by
  have bits : (Word.merge old v m).extractLsb hi lo = v.extractLsb hi lo := by
    ext i hi
    have named := congrArg (·[i]) h
    simp only [BitVec.getElem_extract, BitVec.getElem_allOnes] at named
    simp [Word.merge, named]
  rw [Word.field, bits, Word.field]

/-- HEAD is the field of the value written. -/
theorem Pq.configured_headId (q : Pq) (v : Word) (n : Fin 8) :
    (q.configured v (Reg.pqCfg n).rw).headId = Fin.ofNat 8 (Word.field v 26 24) :=
  congrArg (Fin.ofNat 8) (Word.field_merge (m := 0x87F00000#32) (by decide) _ _)

/-- While every other print queue is off, none of them carries a head. -/
theorem State.notCarried_of_off {n : Fin 8} {s : State} (ho : ∀ k : Fin 8, k ≠ n → (s.pqs[k]).en = false) (h : HeadId) :
    (List.finRange 8).any (fun k => k != n && (s.pqs[k]).en && (s.pqs[k]).headId == h) = false := by
  refine List.any_eq_false.mpr fun k _ => ?_
  by_cases hk : k = n
  · simp [hk]
  · rw [ho k hk]
    simp

theorem pqCfgWrite_starts {n : Fin 8} {v : Word} {s : State} (hv : v.getLsbD 31 = true) (he : (s.pqs[n]).en = false)
    (hb : (s.pqs[n]).base.toNat % 32 = 0) (ho : ∀ k : Fin 8, k ≠ n → (s.pqs[k]).en = false) :
    (pqCfgWrite n v s).pqs[n] = { (s.pqs[n]).configured v (Reg.pqCfg n).rw with
      en := true, rdidx := 0, tail := 0, err := 0 } := by
  unfold pqCfgWrite
  rw [State.quiet_pqs (logIgnored_quiet ..), if_pos hv, if_neg (Bool.eq_false_iff.mp he), setReg_pqCfg, accept_pqCfg he,
    State.notCarried_of_off fun k hk => (State.modPq_other s _ hk).symm ▸ ho k hk,
    if_neg (not_or.mpr ⟨not_not_intro hb, Bool.false_ne_true⟩), State.modPq_pq, State.modPq_pq]

theorem pqCfgWrite_stops {n : Fin 8} {v : Word} {s : State} (hv : v.getLsbD 31 = false) :
    ((pqCfgWrite n v s).pqs[n]).en = false := by
  unfold pqCfgWrite
  rw [State.quiet_pqs (logIgnored_quiet ..), if_neg (Bool.eq_false_iff.mp hv), State.modPq_pq]

theorem execPqEnable_accepted {n : Fin 8} {v : Word} {s : State} (hd : s.decodes = true) (hm : s.pwr.mode ≠ .dormant) :
    exec (.pqEnable n v) s = .next (pqCfgWrite n v s) :=
  congrArg Host.Outcome.next (hostReg_global hd hm rfl _ _)
theorem execPqStop_accepted {n : Fin 8} {v : Word} {s : State} (hd : s.decodes = true) (hm : s.pwr.mode ≠ .dormant) :
    exec (.pqStop n v) s = .next (pqCfgWrite n v s) :=
  congrArg Host.Outcome.next (hostReg_global hd hm rfl _ _)

/-- Settles O11: a write of CQn_CFG or PQn_CFG makes of its queue what the configured queue says, and of no other queue pair. -/
theorem queuesEnableAndStop : Obligations.QueuesEnableAndStop := by
  refine ⟨fun n v s hd hm => ⟨fun hv he hp hb hc => ?start, fun hv he hp hb => ?misaligned, fun hv => ?stop⟩,
    fun n v s hd hm => ⟨fun hv he hb ho => ?printStart, fun hv => ?printStop⟩⟩
  case start =>
    have queue := (cqCfgWrite_cq n v s).trans (Cq.cfgWritten_starts _ hv he hp hb hc)
    refine ⟨_, execCqEnable_accepted hd hm, ?_⟩
    rw [queue]
    exact ⟨rfl, rfl, rfl, rfl, rfl, rfl, rfl, rfl, rfl, fun k hk => cqCfgWrite_other v s hk⟩
  case misaligned =>
    have queue := (cqCfgWrite_cq n v s).trans (Cq.cfgWritten_misaligned _ hv he hp hb)
    refine ⟨_, execCqEnable_accepted hd hm, ?_⟩
    rw [queue]
    exact ⟨he, rfl⟩
  case stop =>
    have queue := (cqCfgWrite_cq n v s).trans (Cq.cfgWritten_stops _ hv)
    refine ⟨_, execCqStop_accepted hd hm, ?_⟩
    rw [queue]
    exact ⟨rfl, rfl, rfl⟩
  case printStart =>
    refine ⟨_, execPqEnable_accepted hd hm, ?_⟩
    rw [pqCfgWrite_starts hv he hb ho]
    exact ⟨rfl, rfl, rfl, rfl, Pq.configured_headId _ v n⟩
  case printStop => exact ⟨_, execPqStop_accepted hd hm, pqCfgWrite_stops hv⟩

end Sys2Proof.Machine
end
section
/-!
PROOFS. Writes of MEM_CODE, SCRUB_CTRL and MEM_FLIP_SEL (O13, R311, R314, R316).
-/
namespace Sys2Proof.Machine

open Sys2Proof

/-! ### A range that the primer clears (R312) -/

theorem Memory.get_clear (m : Memory) (a n k : Nat) :
    (m.clear a n).get k = if k < a ∨ a + n ≤ k then m.get k else 0 := by
  induction m with
  | nil => simp [Memory.clear]
  | cons c m ih =>
    obtain ⟨b, x⟩ := c
    rw [Memory.clear] at ih
    by_cases hb : b < a ∨ a + n ≤ b
    · rw [Memory.clear, List.filter_cons_of_pos (by simpa using hb)]
      by_cases hk : b = k
      · subst hk
        simp [Memory.get, hb]
      · simpa [Memory.get, hk] using ih
    · rw [Memory.clear, List.filter_cons_of_neg (by simpa using hb), ih]
      by_cases hk : b = k
      · subst hk
        simp [hb]
      · simp [Memory.get, hk]

theorem primeBuffers_tile (s : State) (k : TileId) :
    (primeBuffers s).tiles[k] = { s.tiles[k] with buffer := (s.tiles[k]).buffer.clear 0x4000 0xC000 } :=
  Vector.getElem_map ..

/-! ### The three registers -/

/-- Nothing placed and nothing armed: the module takes the whole field, and ignores nothing. -/
theorem accept_memCode {s : State} (hp : s.anyPlaced = false) (ha : s.anyArmed = false) (v : Word) :
    accept s .memCode v = (0x3F#32, false) := by
  simp [accept, locked, hp, ha, Reg.rw]

theorem memCodeWrite_primes {v : Word} {s : State} (hp : s.anyPlaced = false) (ha : s.anyArmed = false)
    (hv : Word.merge s.mem.memCode v 0x3F#32 ≠ s.mem.memCode) :
    memCodeWrite v s = primeBuffers { s with mem := { s.mem with memCode := Word.merge s.mem.memCode v 0x3F#32 } } := by
  simp only [memCodeWrite, accept_memCode hp ha, if_neg hv, Bool.false_eq_true, if_false]

section
variable {v : Word} {s : State} (hd : s.decodes = true) (hm : s.pwr.mode ≠ .dormant)
include hd hm

theorem execMemCodeWrite_accepted : exec (.memCodeWrite v) s = .next (memCodeWrite v s) :=
  congrArg Host.Outcome.next (hostReg_global hd hm rfl _ _)
theorem execScrubCtrlWrite_accepted : exec (.scrubCtrlWrite v) s = .next (scrubCtrlWrite v s) :=
  congrArg Host.Outcome.next (hostReg_global hd hm rfl _ _)
theorem execMemFlipArm_accepted : exec (.memFlipArm v) s = .next (flipSelWrite v s) :=
  congrArg Host.Outcome.next (hostReg_global hd hm rfl _ _)

end

/-- The write clears VOTE_ERR where it asks for it, and sets the rate of all three copies; the counts of the scrubber stay. -/
theorem scrubCtrlWrite_scrub (v : Word) (s : State) :
    (scrubCtrlWrite v s).scrub = { s.scrub with
      voteErr := s.scrub.voteErr && !v.getLsbD 31
      copies := s.scrub.copies.map fun c => { c with rate := v.setWidth 13 } } := by
  rw [scrubCtrlWrite, clearReg]
  cases v.getLsbD 31
  · simp [State.setScrub]
  · simp [State.setScrub]

theorem flipSelWrite_arms {v : Word} (hv : v.getLsbD 31 = true) (hr : Word.field v 15 12 ≤ 12) (s : State) :
    flipSelWrite v s = { s with mem := { s.mem with flipSel := v &&& 0x0001F1FF#32, flipArm := true } } := by
  simp [flipSelWrite, hv, hr]

/-- Settles O13: an accepted MEM_CODE primes the buffers of every tile, SCRUB_CTRL goes to the three copies, and ARM is set. -/
theorem memoryControlWrites : Obligations.MemoryControlWrites := by
  refine ⟨fun v s hd hm hp ha hv => ?code, fun s => rfl, fun v s hd hm => ?scrub, fun v s hd hm ha hr => ?flip⟩
  case code =>
    refine ⟨_, execMemCodeWrite_accepted hd hm, ?_⟩
    rw [memCodeWrite_primes hp ha hv]
    refine ⟨rfl, rfl, fun k a lo hi => ?primed, fun k a keep => ?kept, fun k => ?engine⟩ <;> rw [primeBuffers_tile]
    case primed => exact (Memory.get_clear ..).trans (if_neg (by omega))
    case kept => exact (Memory.get_clear ..).trans (if_pos (.inl keep))
  case scrub =>
    refine ⟨_, execScrubCtrlWrite_accepted hd hm, ?_⟩
    rw [scrubCtrlWrite_scrub]
    exact ⟨fun k => congrArg ScrubCopy.rate (Vector.getElem_map ..), fun hv => by simp [hv], rfl⟩
  case flip =>
    refine ⟨_, execMemFlipArm_accepted hd hm, ?_⟩
    rw [flipSelWrite_arms ha hr]
    exact ⟨rfl, rfl, rfl, rfl⟩

end Sys2Proof.Machine
end
section
/-!
PROOFS. READ_LEDGER (O38, R281, R283, R325).
-/
namespace Sys2Proof.Machine

open Sys2Proof

/-! ### Entries as they are delivered -/

theorem checkRead_of_clean (l : Loc) {s : State} (h : s.mem.errs = []) : checkRead l s = (true, 0, s) := by
  simp [checkRead, checkReadBy, State.errOf, h]

theorem xorMask_zero (b : Nat) (bs : List Byte) : xorMask 0#64 b bs = bs := by
  induction bs generalizing b with
  | nil => rfl
  | cons x bs ih => simp [xorMask, ih]

theorem natLe_length (n v : Nat) : (natLe n v).length = n := by
  induction n generalizing v with
  | zero => rfl
  | succ n ih => rw [natLe, List.length_cons, ih]

theorem Entry.bytes_length (e : Entry) : e.bytes.length = 32 := by
  simp [Entry.bytes, u32, natLe_length]

/-- The words of a string of 32 bytes, one after the other, are the string. -/
theorem flatMap_words {bs : List Byte} (h : bs.length = 32) :
    ((List.range 4).flatMap fun k => (bs.drop (8 * k)).take 8) = bs := by
  have cut : ∀ n, (bs.drop n).take 8 ++ bs.drop (n + 8) = bs.drop n := fun n => by
    rw [← List.drop_drop, List.take_append_drop]
  have rest : bs.drop 32 = [] := List.drop_eq_nil_of_le (Nat.le_of_eq h)
  calc ((List.range 4).flatMap fun k => (bs.drop (8 * k)).take 8)
      = (bs.drop 0).take 8 ++ ((bs.drop 8).take 8 ++ ((bs.drop 16).take 8 ++ ((bs.drop 24).take 8 ++ bs.drop 32))) := by
        rw [rest]; rfl
    _ = bs := by rw [cut 24, cut 16, cut 8, cut 0, List.drop_zero]

/-- Four words that read clean deliver the entry as it was written. -/
theorem ledgerOut_of_clean (e : Entry) {s : State} (h : s.mem.errs = []) : ledgerOut e s = (e.bytes, s) := by
  have words := flatMap_words e.bytes_length
  simpa [ledgerOut, checkRead_of_clean _ h, xorMask_zero, List.range_succ] using words

theorem ledgerOut_foldl_of_clean (es : List Entry) {s : State} (h : s.mem.errs = []) (bs : List Byte) :
    es.foldl (fun (a : List Byte × State) e => (a.1 ++ (ledgerOut e a.2).1, (ledgerOut e a.2).2)) (bs, s) =
      (bs ++ es.flatMap Entry.bytes, s) := by
  induction es generalizing bs with
  | nil => simp
  | cons e es ih =>
    rw [List.foldl_cons, ledgerOut_of_clean e h, ih, List.flatMap_cons, List.append_assoc]

/-- SEQ lies at or after FROM: the difference modulo 2^32 is below 2^31 (R325). -/
theorem not_msb_eq (w : Word) : (!w.msb) = decide (w.toNat < 2 ^ 31) := by
  rw [BitVec.msb_eq_decide, ← decide_not]
  exact decide_eq_decide.mpr Nat.not_le

/-! ### READ_LEDGER (R325) -/

/-- The entries that READ_LEDGER asks for: oldest first, from FROM on, of the least class asked for, at most COUNT (R325). -/
def State.ledgerAsked (s : State) (d : Desc) : List Entry :=
  (s.ledger.entries.reverse.filter fun e =>
    decide ((e.seq - BitVec.ofNat 32 (d.u 24 4)).toNat < 2 ^ 31) && decide (d.u 30 1 ≤ e.cls.code)).take (d.u 28 2)

section
variable {d : Desc} {s : State} (ht : s.takes 0x82 d (headerFault d 0 .buffer .unbound [(31, 33)]))
include ht

theorem execReadLedger_badCount (hn : d.u 28 2 = 0 ∨ 4096 < d.u 28 2) :
    exec (.readLedger d) s = .next (badField 0x82 d 28 (s.begun 0x82 d)) := by
  rw [show exec (.readLedger d) s = execReadLedger d s from rfl, execReadLedger, runDesc_takes _ _ _ _ _ ht, if_pos hn]

theorem execReadLedger_short (hx : d.u 28 2 ≤ 4096) (hl : d.len < 32 * d.u 28 2) :
    exec (.readLedger d) s = .next (badField 0x82 d 16 (s.begun 0x82 d)) := by
  rw [show exec (.readLedger d) s = execReadLedger d s from rfl, execReadLedger, runDesc_takes _ _ _ _ _ ht,
    if_neg (by omega), if_pos hl]

theorem execReadLedger_copies (hn : d.u 28 2 ≠ 0) (hx : d.u 28 2 ≤ 4096) (hl : 32 * d.u 28 2 ≤ d.len)
    (he : s.mem.errs = []) (hu : s.linkUp = true) (hw : d.wr = .clean) :
    exec (.readLedger d) s = .next (finish 0x82 d .ok 0
      ((s.ledgerAsked d).length + s.ledgerOldest.toNat * 2 ^ 32)
      ((s.begun 0x82 d).hostWrite d.buffer.toNat ((s.ledgerAsked d).flatMap Entry.bytes))) := by
  have clean : (s.begun 0x82 d).mem.errs = [] := he
  rw [show exec (.readLedger d) s = execReadLedger d s from rfl, execReadLedger, runDesc_takes _ _ _ _ _ ht,
    if_neg (by omega), if_neg (by omega)]
  simp only [not_msb_eq, ledgerOut_foldl_of_clean _ clean]
  rw [writeOut_clean _ _ _ _ _ (s.begun 0x82 d) hu hw]
  rfl

end

theorem execReadLedger_headerFault {d : Desc} {off : Nat} {s : State} (hr : s.runs d = true)
    (hf : headerFault d 0 .buffer .unbound [(31, 33)] = some off) :
    exec (.readLedger d) s = .next (badField 0x82 d off (s.begun 0x82 d)) := by
  rw [show exec (.readLedger d) s = execReadLedger d s from rfl, execReadLedger, hf]
  exact runDesc_fault _ _ _ _ _ _ hr

/-! ### The oldest number held -/

theorem State.ledgerOldest_empty {s : State} (h : s.ledger.entries = []) : s.ledgerOldest = nextSeq s.ledger.seq := by
  rw [State.ledgerOldest, h]; rfl

theorem State.ledgerOldest_last {s : State} {e : Entry} {es : List Entry} (h : s.ledger.entries = es ++ [e]) :
    s.ledgerOldest = e.seq := by
  rw [State.ledgerOldest, h, List.getLast?_concat]; rfl

/-! ### Header words that must be 0 (R278, R283) -/

/-- All four bytes of a word are 0 only where the word is. -/
theorem firstNonzero_natLe_four {off : Nat} {w : Word} (h : firstNonzero off (natLe 4 w.toNat) = none) : w = 0 := by
  have zero : ∀ (n off v : Nat), v < 256 ^ n → firstNonzero off (natLe n v) = none → v = 0 := by
    intro n
    induction n with
    | zero => intro off v hv _; simpa using hv
    | succ n ih =>
      intro off v hv h
      rw [natLe, firstNonzero] at h
      split at h
      next low =>
        have low : v % 256 = 0 := by
          have := congrArg BitVec.toNat low
          simpa using this
        have high := ih (off + 1) (v / 256) (by rw [Nat.pow_succ] at hv; omega) h
        omega
      next => exact absurd h (by simp)
  exact BitVec.eq_of_toNat_eq (zero 4 off w.toNat w.isLt h)

theorem headerFault_target {d : Desc} {b : BufUse} {c : CoatUse} {rs : List (Nat × Nat)} (h : d.target ≠ 0) :
    headerFault d 0 b c rs ≠ none := by
  intro hf
  simp only [headerFault, Option.or_eq_none_iff, targetRest, Nat.pow_zero, Nat.div_one, Nat.mul_one] at hf
  obtain ⟨-, target, -⟩ := hf
  exact h (firstNonzero_natLe_four target)

theorem headerFault_coat {d : Desc} {w : Nat} {b : BufUse} {rs : List (Nat × Nat)} (h : d.coat ≠ 0) :
    headerFault d w b .unbound rs ≠ none := by
  intro hf
  simp only [headerFault, Option.or_eq_none_iff] at hf
  obtain ⟨-, -, -, coat, -⟩ := hf
  exact h (firstNonzero_natLe_four (off := 20) (by simpa [coatFault] using coat))

/-- Settles O38: past the shared checks COUNT and LENGTH are looked at in this order, and the entries asked for are delivered as they
were written. -/
theorem ledgerRead : Obligations.LedgerRead := by
  refine ⟨fun d s ht => ⟨fun hn => ?count, fun _ hx hl => ?length, fun hn hx hl he hu hw => ?copied⟩,
    fun s => ⟨State.ledgerOldest_empty, fun e es h => State.ledgerOldest_last h⟩, rfl, fun d off s hr hf => ?header,
    fun d => ⟨headerFault_target, headerFault_coat⟩⟩
  case count => exact execReadLedger_badCount ht hn
  case length => exact execReadLedger_short ht hx hl
  case copied => exact execReadLedger_copies ht hn hx hl he hu hw
  case header => exact execReadLedger_headerFault hr hf

end Sys2Proof.Machine
end
section
/-!
PROOFS. SCRUB_RANGE, RETIRE_PAGE, FIELD_REPAIR and the replay of a panel link (O39, R315, R317 to R319).
-/
namespace Sys2Proof.Machine

open Sys2Proof

/-! ### SCRUB_RANGE (R315) -/

theorem ite_some_eq_none {α : Type} {p : Prop} [Decidable p] {a : α} {o : Option α} :
    (if p then some a else o) = none ↔ ¬p ∧ o = none := by
  split
  next hp => simp [hp]
  next hp => simp [hp]

/-- Past the faults of SCRUB_RANGE: the region is one of 0 to 11, the units are some of it, and the bytes name a range
of its words. -/
theorem scrubFault_none {d : Desc} (h : scrubFault d = none) :
    d.u 24 1 ≤ 11 ∧ d.u 28 2 ≠ 0 ∧ d.u 26 2 + d.u 28 2 ≤ regionUnits (d.u 24 1) ∧
      scrubSpan (d.u 24 1) (d.u 32 4) (d.u 36 4) ≠ none := by
  simp only [scrubFault, ite_some_eq_none] at h
  obtain ⟨region, -, count, -, span, -⟩ := h
  obtain ⟨nonempty, fits⟩ := not_or.mp count
  exact ⟨Nat.le_of_not_lt region, nonempty, Nat.le_of_not_lt fits, span⟩

theorem scrubSpan_some {r off size : Nat} (h : scrubSpan r off size ≠ none) :
    scrubSpan r off size = some (off / 8, if size = 0 then regionWords r - off / 8 else size / 8) := by
  rw [scrubSpan] at h ⊢
  split at h
  next hs => exact if_pos hs
  next => exact absurd rfl h

/-- Bits that lie within bits that are 0 are 0. -/
theorem extractLsb'_eq_zero_of_within {n w k m a : Nat} {x : BitVec n} (hw : k + m ≤ w) (h : x.extractLsb' a w = 0#w) :
    x.extractLsb' (a + k) m = 0#m := by
  ext i hi
  have bit : (x.extractLsb' a w).getLsbD (k + i) = false := by rw [h, BitVec.getLsbD_zero]
  simpa [show k + i < w by omega, Nat.add_assoc] using bit

/-- A field of two bytes that is 0 offends as no reserved byte. -/
theorem reservedFault_first {d : Desc} (h : d.u 26 2 = 0) (rs : List (Nat × Nat)) :
    reservedFault d ((26, 2) :: rs) = reservedFault d rs := by
  have field : d.body.extractLsb' 16 16 = 0#16 := BitVec.eq_of_toNat_eq h
  have low : d.body.extractLsb' 16 8 = 0#8 := extractLsb'_eq_zero_of_within (k := 0) (by decide) field
  have high : d.body.extractLsb' 24 8 = 0#8 := extractLsb'_eq_zero_of_within (k := 8) (by decide) field
  have clear : firstNonzero 26 (d.bytes 26 2) = none := by
    simp [Desc.bytes, List.range_succ, firstNonzero, low, high]
  rw [reservedFault, List.findSome?_cons, clear]
  rfl

section
variable {d : Desc} {s : State} (ht : s.takes 0x81 d (headerFault d 0 .none .unbound [(30, 2), (40, 24)]))
  (hc : d.u 25 1 ≤ 1) (hf : scrubFault d = none)
include ht hc hf

/-- In a region of one unit FIRST is 0 once the range is right, so that it offends in no region (R6, R315). -/
theorem scrubRange_takes : s.takes 0x81 d ((headerFault d 0 .none .unbound []).or (if d.u 25 1 / 2 ≠ 0 then some 25
    else reservedFault d (if 8 ≤ d.u 24 1 ∧ d.u 24 1 ≤ 11 then [(26, 2), (30, 2), (40, 24)] else [(30, 2), (40, 24)]))) := by
  obtain ⟨runs, fault, standby⟩ := ht
  obtain ⟨header, reserved⟩ := (headerFault_none d 0 .none .unbound [(30, 2), (40, 24)]).mp fault
  refine ⟨runs, ?_, standby⟩
  rw [header, Option.none_or, if_neg (by omega)]
  split
  next shared =>
    obtain ⟨-, nonempty, fits, -⟩ := scrubFault_none hf
    rw [regionUnits, if_neg (by omega), if_neg (by omega)] at fits
    rw [reservedFault_first (by omega), reserved]
  next => exact reserved

theorem execScrubRange_of_clean (he : s.mem.errs = []) :
    exec (.scrubRange d) s = .next (okay 0x81 d
      ((((List.range (d.u 28 2)).map (d.u 26 2 + ·)).filter fun u =>
          s.locLive ⟨Fin.ofNat 16 (d.u 24 1), u, 0⟩).length *
        (if d.u 36 4 = 0 then regionWords (d.u 24 1) - d.u 32 4 / 8 else d.u 36 4 / 8)) (s.begun 0x81 d)) := by
  have clean : (s.begun 0x81 d).mem.errs = [] := he
  obtain ⟨-, -, -, span⟩ := scrubFault_none hf
  rw [show exec (.scrubRange d) s = execScrubRange d s from rfl, execScrubRange,
    runDesc_takes _ _ _ _ _ (scrubRange_takes ht hc hf)]
  simp only [hf, clean, scrubSpan_some span, List.map_nil, List.filter_nil, List.foldl_nil, Option.getD_some, Nat.min_zero,
    Nat.zero_mul, Nat.add_zero]
  rfl

end

/-! ### RETIRE_PAGE (R317) -/

theorem regions_of_pageOk {r page : Nat} (h : pageOk r page = true) : ([0, 2, 3, 4, 5] : List Nat).contains r = true := by
  unfold pageOk at h
  split at h
  · rfl
  · rfl
  · rfl
  · rfl
  · rfl
  · cases h

section
variable {d : Desc} {s : State} (ht : s.takes 0x83 d (headerFault d 9 .none .unbound [(25, 1), (28, 36)]))
  (hp : pageOk (d.u 24 1) (d.u 26 2) = true)
include ht hp

theorem execRetirePage_again (hr : s.pageRetired (Fin.ofNat 16 (d.u 24 1)) (Fin.ofNat 512 d.target.toNat) (d.u 26 2) = true) :
    exec (.retirePage d) s = .next (okay 0x83 d 0 (s.begun 0x83 d)) := by
  have retired : (s.begun 0x83 d).pageRetired (Fin.ofNat 16 (d.u 24 1)) (Fin.ofNat 512 d.target.toNat) (d.u 26 2) = true := hr
  rw [show exec (.retirePage d) s = execRetirePage d s from rfl, execRetirePage, runDesc_takes _ _ _ _ _ ht,
    if_neg (not_not_intro (regions_of_pageOk hp)), if_neg (by simp [hp]), if_pos retired]

theorem execRetirePage_unused (hr : s.pageRetired (Fin.ofNat 16 (d.u 24 1)) (Fin.ofNat 512 d.target.toNat) (d.u 26 2) = false)
    (hu : s.pageUsed (Fin.ofNat 512 d.target.toNat) (d.u 24 1) = false) :
    exec (.retirePage d) s = .next (okay 0x83 d 0 (({ s.begun 0x83 d with
      mem := { s.mem with retired :=
        (Fin.ofNat 16 (d.u 24 1), Fin.ofNat 512 d.target.toNat, d.u 26 2) :: s.mem.retired } }).modTile
          (Fin.ofNat 512 d.target.toNat) fun x => { x with degraded := true })) := by
  have fresh : (s.begun 0x83 d).pageRetired (Fin.ofNat 16 (d.u 24 1)) (Fin.ofNat 512 d.target.toNat) (d.u 26 2) = false := hr
  rw [show exec (.retirePage d) s = execRetirePage d s from rfl, execRetirePage, runDesc_takes _ _ _ _ _ ht,
    if_neg (not_not_intro (regions_of_pageOk hp)), if_neg (by simp [hp]), if_neg (Bool.eq_false_iff.mp fresh)]
  exact congrArg Host.Outcome.next (if_neg (Bool.eq_false_iff.mp hu))

end

/-! ### FIELD_REPAIR (R318) -/

section
variable {d : Desc} {s : State} (ht : s.takes 0x84 d (headerFault d 6 .none .unbound [(25, 1), (28, 36)]))
  (hb : d.target.toNat ≤ 47) (hk : d.u 24 1 ≤ 1)
include ht hb hk

/-- The 16 entries are used up, or the bank has no spare of the kind left. -/
theorem execFieldRepair_noResource
    (h : 16 ≤ s.sec.repairs.length ∨ s.sparesLeft d.target.toNat (d.u 24 1 == 1) = 0) :
    exec (.fieldRepair d .clean) s = .next (refuse 0x84 d .noResource (s.begun 0x84 d)) := by
  have spent : 16 ≤ (s.begun 0x84 d).sec.repairs.length ∨
      (s.begun 0x84 d).sparesLeft d.target.toNat (d.u 24 1 == 1) = 0 := h
  rw [show exec (.fieldRepair d .clean) s = execFieldRepair d .clean s from rfl, execFieldRepair,
    runDesc_takes _ _ _ _ _ ht, if_neg (by omega), if_neg (by omega), if_pos (by simpa using spent)]

theorem execFieldRepair_repairs (hl : s.sec.repairs.length < 16)
    (hs : s.sparesLeft d.target.toNat (d.u 24 1 == 1) ≠ 0) {sec : Sec}
    (he : sec = { s.sec with
      repairs := ⟨d.target.toNat, d.u 24 1 == 1, BitVec.ofNat 16 (d.u 26 2), true⟩ :: s.sec.repairs }) :
    exec (.fieldRepair d .clean) s = .next (okay 0x84 d
      (15 - s.sec.repairs.length + ({ s with sec } : State).sparesLeft d.target.toNat false * 2 ^ 8 +
        ({ s with sec } : State).sparesLeft d.target.toNat true * 2 ^ 16) { s.begun 0x84 d with sec }) := by
  have left : ¬ (16 ≤ (s.begun 0x84 d).sec.repairs.length ∨
      (s.begun 0x84 d).sparesLeft d.target.toNat (d.u 24 1 == 1) = 0) := not_or.mpr ⟨Nat.not_le.mpr hl, hs⟩
  have count : 16 - (s.sec.repairs.length + 1) = 15 - s.sec.repairs.length := by omega
  rw [show exec (.fieldRepair d .clean) s = execFieldRepair d .clean s from rfl, execFieldRepair,
    runDesc_takes _ _ _ _ _ ht, if_neg (by omega), if_neg (by omega), if_neg (by simpa using left), ← count, he]
  rfl

end

/-! ### Panel links (R319) -/

section
variable {p : PanelId} {lane : Fin 16} {s : State} (hp : s.pstate p ≠ .off) (hl : (s.panels[p]).lanes.getLsbD lane.val = true)
include hp hl

theorem panelLink_inService : ¬ ((decide (s.pstate p = .off) || !(s.panels[p]).lanes.getLsbD lane.val) = true) := by
  rw [decide_eq_false hp, hl]
  decide

theorem execPanelLinkReplay_clean : exec (.panelLinkReplay p lane .clean) s = .next s := by
  rw [show exec (.panelLinkReplay p lane .clean) s = execPanelLinkReplay p lane .clean s from rfl, execPanelLinkReplay]
  simp only [hp, hl]
  rfl

/-- A replay that succeeds counts; the rest is its entry. -/
theorem execPanelLinkReplay_second : ∃ t, exec (.panelLinkReplay p lane .second) s = .next t ∧
    t.quiet = (s.modPanel p fun x => { x with replayed := x.replayed + 1 }).quiet := by
  rw [show exec (.panelLinkReplay p lane .second) s = execPanelLinkReplay p lane .second s from rfl, execPanelLinkReplay]
  simp only [if_neg (panelLink_inService hp hl)]
  exact ⟨_, rfl, log_quiet ..⟩

/-- A replay that fails takes the lane out of service; the rest is its entries. -/
theorem execPanelLinkReplay_failed : ∃ t, exec (.panelLinkReplay p lane .failed) s = .next t ∧
    t.quiet = (s.modPanel p fun x => { x with
      replayed := x.replayed + 1, failed := x.failed + 1
      lanes := x.lanes &&& ~~~(1#16 <<< lane.val) }).quiet := by
  rw [show exec (.panelLinkReplay p lane .failed) s = execPanelLinkReplay p lane .failed s from rfl, execPanelLinkReplay]
  simp only [if_neg (panelLink_inService hp hl)]
  refine ⟨_, rfl, ?_⟩
  split
  · exact (log_quiet ..).trans (log_quiet ..)
  · exact log_quiet ..

end

/-- Settles O39: a pass over clean words counts the words of its live units; a page and a repair are refused or noted; the flits of a
panel link are counted. -/
theorem integrityCommands : Obligations.IntegrityCommands := by
  refine ⟨fun d s ht hc hf he => execScrubRange_of_clean ht hc hf he,
    fun d s ht hp => ⟨execRetirePage_again ht hp, execRetirePage_unused ht hp⟩,
    fun d s ht hb hk => ⟨fun hl => ?repair, fun hl => execFieldRepair_noResource ht hb hk (.inl hl)⟩,
    fun p lane s hp hl => ⟨execPanelLinkReplay_clean hp hl, execPanelLinkReplay_second hp hl,
      execPanelLinkReplay_failed hp hl⟩⟩
  case repair =>
    split
    next spent => exact execFieldRepair_noResource ht hb hk (.inr spent)
    next spare => exact execFieldRepair_repairs ht hb hk hl spare rfl

end Sys2Proof.Machine
end

section
/-!
PROOFS. A step takes the front of the queue (O1).
-/
namespace Sys2Proof.Machine

open Sys2Proof

/-- Settles O1: a queue that is not empty gives up its front command, which runs on the state with the queue's rest. -/
theorem stepTakesFront : Obligations.StepTakesFront := by
  intro c rest s h
  rw [step, h]

end Sys2Proof.Machine
end

section
/-!
PROOFS. The register map: every register is found at its offset and at no other (O14, R394, R397, R402, R405).
-/
namespace Sys2Proof.Machine

open Sys2Proof

/-! ### Rows of registers -/

theorem indexed_eq_some {n base o : Nat} {k : Fin n} : indexed n base o = some k ↔ o = base + 4 * k.val := by
  unfold indexed
  split
  next inside =>
    rw [Option.some_inj, Fin.ext_iff]
    dsimp only
    omega
  next outside =>
    have := k.isLt
    simp only [reduceCtorEq, false_iff]
    omega

/-! ### Panel and tile blocks -/

theorem PReg.off_lt (r : PReg) : r.off < 0x100 := by
  cases r <;> simp only [PReg.off] <;> omega
theorem TReg.off_lt (r : TReg) : r.off < 0x40 := by
  cases r with
  | cmp c => cases c <;> decide
  | _ => decide

theorem pregAt_off (r : PReg) : pregAt r.off = some r := by
  cases r
  case trip k | cmpFilt k | cmpSum k | fence k | spare k => decide +revert
  all_goals rfl
theorem tregAt_off (r : TReg) : tregAt r.off = some r := by
  cases r with
  | cmp c => cases c <;> rfl
  | _ => rfl

theorem off_of_pregAt {o : Nat} {r : PReg} (h : pregAt o = some r) : r.off = o := by
  unfold pregAt at h
  split at h <;> cases h <;> rfl
theorem off_of_tregAt {o : Nat} {r : TReg} (h : tregAt o = some r) : r.off = o := by
  unfold tregAt at h
  split at h <;> cases h <;> rfl

theorem regAt_panel (p : PanelId) (r : PReg) : regAt (Reg.panel p r).off = some (.panel p r) := by
  have := r.off_lt
  have block : (0x4000 + 0x100 * p.val + r.off - 0x4000) % 0x100 = r.off := by omega
  have panel : (0x4000 + 0x100 * p.val + r.off - 0x4000) / 0x100 = p.val := by omega
  rw [Reg.off, regAt, dif_neg (by omega), dif_pos (by omega)]
  simp only [block, panel, pregAt_off, Option.map_some]
theorem regAt_tile (t : TileId) (r : TReg) : regAt (Reg.tile t r).off = some (.tile t r) := by
  have := r.off_lt
  have block : (0x8000 + 0x40 * t.val + r.off - 0x8000) % 0x40 = r.off := by omega
  have tile : (0x8000 + 0x40 * t.val + r.off - 0x8000) / 0x40 = t.val := by omega
  rw [Reg.off, regAt, dif_pos (by omega)]
  simp only [block, tile, tregAt_off, Option.map_some]

/-! ### The whole map -/

/-- Every register is found at its offset. -/
theorem regAt_off (r : Reg) : regAt r.off = some r := by
  cases r
  case panel p q => exact regAt_panel p q
  case tile t q => exact regAt_tile t q
  case scratch k | railMeas k | cqBaseLo k | cqBaseHi k | cpBaseLo k | cpBaseHi k | cqCfg k | cqStat k | stBaseLo k
    | stBaseHi k | stMirLo k | stMirHi k | stCfg k | stWrite k | stLost k | pqBaseLo k | pqBaseHi k | pqCfg k | pqStat k
    | pqLate k | pqBad k | irqVec k | irqGap k | secKeyData k | encCfg k | encScale k | encCount k | gpioOut k | gpioIn k
    | pinFilt k | pincfg k | pinIst k | pinIen k | pinStuck k | pinWake k => decide +kernel +revert
  all_goals rfl

theorem off_of_globalAt {o : Nat} {r : Reg} (h : globalAt o = some r) : r.off = o := by
  unfold globalAt at h
  split at h <;> cases h <;> rfl

theorem off_of_rowAt {o : Nat} {r : Reg} (h : rowAt o = some r) : r.off = o := by
  obtain ⟨f, hf, found⟩ := List.exists_of_findSome?_eq_some h
  simp only [rowTable, List.mem_cons, List.not_mem_nil, or_false] at hf
  rcases hf with rfl | rfl | rfl | rfl | rfl | rfl | rfl | rfl | rfl | rfl | rfl | rfl | rfl | rfl | rfl | rfl <;>
  · obtain ⟨k, at_, rfl⟩ := Option.map_eq_some_iff.mp found
    exact (indexed_eq_some.mp at_).symm

/-- A register is found at no offset but its own. -/
theorem off_of_regAt {o : Nat} {r : Reg} (h : regAt o = some r) : r.off = o := by
  unfold regAt at h
  split at h
  next tiles =>
    obtain ⟨q, found, rfl⟩ := Option.map_eq_some_iff.mp h
    have := off_of_tregAt found
    simp only [Reg.off]
    omega
  split at h
  next panels =>
    obtain ⟨q, found, rfl⟩ := Option.map_eq_some_iff.mp h
    have := off_of_pregAt found
    simp only [Reg.off]
    omega
  split at h
  next queues => 
    unfold cqRegAt at h
    split at h <;> cases h <;> simp only [Reg.off] <;> omega
  split at h
  next rings => 
    unfold stRegAt at h
    split at h <;> cases h <;> simp only [Reg.off] <;> omega
  split at h
  next prints => 
    unfold pqRegAt at h
    split at h <;> cases h <;> simp only [Reg.off] <;> omega
  next =>
    rcases Option.or_eq_some_iff.mp h with single | ⟨-, row⟩
    · exact off_of_globalAt single
    · exact off_of_rowAt row

theorem PReg.off_aligned (r : PReg) : r.off % 4 = 0 := by
  cases r <;> simp only [PReg.off] <;> omega
theorem TReg.off_aligned (r : TReg) : r.off % 4 = 0 := by
  cases r with
  | cmp c => cases c <;> rfl
  | _ => rfl

theorem Reg.off_aligned (r : Reg) : r.off % 4 = 0 ∧ r.off < 0x10000 := by
  cases r
  case panel p q =>
    have := q.off_aligned
    have := q.off_lt
    simp only [Reg.off]
    omega
  case tile t q =>
    have := q.off_aligned
    have := q.off_lt
    simp only [Reg.off]
    omega
  all_goals refine ⟨?_, ?_⟩ <;> simp only [Reg.off] <;> omega

/-! ### Rows of the opcode table that write one register -/

/-- REGISTER_WRITE of 4 bytes at a register's offset is the host's write to it (R392). -/
theorem execRegisterWrite_off (r : Reg) (v : Word) (s : State) :
    exec (.registerWrite (BitVec.ofNat 16 r.off) v 4) s = .next (hostReg r v (regWrite r v) s) := by
  obtain ⟨-, inside⟩ := r.off_aligned
  have at_ : (BitVec.ofNat 16 r.off).toNat = r.off := Nat.mod_eq_of_lt inside
  show execRegisterWrite (BitVec.ofNat 16 r.off) v 4 s = _
  simp only [execRegisterWrite, at_, regAt_off, if_true]
  rfl

/-- Settles O14: the map and the offsets are inverse to each other, and the row of a register does what the host's write to it
does. -/
theorem registerMap : Obligations.RegisterMap := by
  refine ⟨regAt_off, fun o r _ h => off_of_regAt h, Reg.off_aligned, fun v s => ?_⟩
  simp only [execRegisterWrite_off]
  exact ⟨fun _ => ⟨rfl, rfl⟩, fun _ => ⟨rfl, rfl⟩, fun _ => ⟨rfl, rfl, rfl, rfl⟩, fun _ _ => ⟨rfl, rfl⟩, fun _ => ⟨rfl, rfl⟩,
    fun _ => rfl, fun _ => rfl, fun _ => rfl, rfl, rfl, rfl, rfl, rfl, rfl, rfl, rfl, rfl, rfl⟩

end Sys2Proof.Machine
end

section
/-!
PROOFS. Register writes that are ignored, and the scratch registers (O15, R392, R393).
-/
namespace Sys2Proof.Machine

open Sys2Proof

/-- A scratch register is under no state rule: the write stores it whole. -/
theorem regWrite_scratch (k : Fin 8) (v : Word) (s : State) :
    regWrite (.scratch k) v s = { s with scratch := s.scratch.set k v } := by
  simp [regWrite, plainWrite, accept, locked, clearReg, setReg]

/-- Settles O15: REGISTER_WRITE asks for 4 bytes and for a register, the register for a module that decodes. -/
theorem registerWrites : Obligations.RegisterWrites := by
  refine ⟨fun off v n s size => ?_, fun off v n s reserved => ?_, fun k v s decodes awake => ?_, fun off v n s deaf => ?_⟩
  · exact congrArg Host.Outcome.next (if_neg size)
  · show execRegisterWrite off v n s = _
    simp only [execRegisterWrite, reserved, ite_self]
  · rw [show 0x0020 + 4 * k.val = (Reg.scratch k).off from rfl, execRegisterWrite_off, hostReg_global decodes awake rfl,
      regWrite_scratch]
  · have ignored : ∀ r : Reg, hostWriteReg r v s = s := fun r => by simp [hostWriteReg, hostReg, deaf]
    show execRegisterWrite off v n s = _
    simp only [execRegisterWrite, ignored]
    split
    · split <;> rfl
    · rfl

end Sys2Proof.Machine
end

section
/-!
PROOFS. Registers and the state beside them at the end of module reset (O31, R396 to R406).
-/
namespace Sys2Proof.Machine

open Sys2Proof

theorem State.reset_tile (t : TileId) : State.reset.tiles[t] = {} := Vector.getElem_replicate ..
theorem State.reset_panel (p : PanelId) : State.reset.panels[p] = {} := Vector.getElem_replicate ..

theorem State.reset_memOk : State.reset.memOk = true := by
  have tiles : State.reset.tiles.toList.all Tile.memOk = true := by
    rw [show State.reset.tiles = Vector.replicate 512 {} from rfl, Vector.toList_replicate, List.all_replicate]
    rfl
  rw [State.memOk, tiles]
  rfl

theorem State.reset_readTile (t : TileId) :
    readTile State.reset t .pga = 0x0F0F0000#32 ∧ readTile State.reset t .adc = 0xFC000D00#32 ∧
    readTile State.reset t .flt = 0xB0400000#32 ∧ readTile State.reset t .eng = 0x01FF0000#32 := by
  have blank := State.reset_tile t
  refine ⟨congrArg Tile.pga blank, congrArg Tile.adc blank, congrArg Tile.flt blank, ?_⟩
  simp only [readTile, blank]
  rfl

theorem State.reset_readPanel (p : PanelId) :
    readPanel State.reset p .listen = 0x4020F403#32 ∧ readPanel State.reset p .cls0 = 0x1F1FB31A#32 ∧
    readPanel State.reset p .cls1 = 0x60801405#32 ∧ readPanel State.reset p .gmon = 0x40400508#32 := by
  have blank := State.reset_panel p
  exact ⟨congrArg Panel.listen blank, congrArg Panel.cls0 blank, congrArg Panel.cls1 blank, congrArg Panel.gmon blank⟩

/-- Settles O31: the global registers are words of the one state after reset; every tile and every panel is as a blank one. -/
theorem resetValues : Obligations.ResetValues := by
  refine ⟨by decide +kernel, fun t => ?_, fun p => ⟨Vector.getElem_replicate .., State.reset_readPanel p⟩, rfl, rfl, rfl, rfl, rfl,
    State.reset_memOk⟩
  obtain ⟨pga, adc, flt, eng⟩ := State.reset_readTile t
  exact ⟨pga, adc, flt, eng, congrArg Tile.engMem (State.reset_tile t), congrArg Tile.fenced (State.reset_tile t)⟩

end Sys2Proof.Machine
end

section
/-!
PROOFS. Guarded registers: lifecycle, keys, the pin lock, and leaving DORMANT (O12, R271, R340, R341, R372).
-/
namespace Sys2Proof.Machine

open Sys2Proof

/-- The second write of a lifecycle advance: its target is pending, and the lifecycle itself waits for a module reset (R340). -/
theorem lcAdvWrite_second {v : Word} {s : State} (key : Word.field v 15 8 = 0xA7)
    (target : Word.field v 1 0 = s.sec.lifecycle.code + 1)
    (first : s.sec.lcFirst = some (BitVec.ofNat 2 (Word.field v 1 0)))
    (keyed : s.sec.lifecycle = .opened → s.sec.keyBits ≠ 0) :
    lcAdvWrite v .clean s = { s with sec := { s.sec with
      lcFirst := none, fuseFail := false, pendingLc := lcOf (s.sec.lifecycle.code + 1) } } := by
  have keyless : ¬ (s.sec.lifecycle = .opened ∧ s.sec.keyBits = 0) := fun ⟨opened, bits⟩ => keyed opened bits
  rw [target] at first
  simp only [lcAdvWrite, target, key, first, beq_self_eq_true, Bool.not_true, Bool.false_eq_true, and_self, if_true, if_false,
    Nat.reduceEqDiff]
  exact if_neg keyless

/-- The key of an empty slot is programmed from the data registers, which are cleared (R341). -/
theorem keyCmdWrite_programs {v : Word} {s : State} (key : Word.field v 15 8 = 0x3C) (opened : s.sec.lifecycle = .opened)
    (slot : v.getLsbD 0 = false) (empty : s.sec.keys[(0 : Fin 2)] = none) :
    keyCmdWrite v .clean s = { s with sec := { s.sec with
      keyData := Vector.replicate 8 0, fuseFail := false, keys := s.sec.keys.set 0 (some s.sec.keyValue) } } := by
  simp only [keyCmdWrite, slot, key, opened, empty, blowFuses, Bool.false_eq_true, if_false, and_self, if_true]
  rfl

/-- The second write of a pair locks the pin (R372). -/
theorem pinLockWrite_second {v : Word} {s : State} (key : Word.field v 15 8 = 0x93)
    (first : s.gpio.lockFirst = some (Fin.ofNat 128 (Word.field v 6 0))) :
    pinLockWrite v s = ({ s with gpio := { s.gpio with lockFirst := none } } : State).modPin
      (Fin.ofNat 128 (Word.field v 6 0)) fun x => { x with locked := true } := by
  simp only [pinLockWrite, key, first, and_self, if_true]

/-- In DORMANT a PWR_CTRL write that asks for it makes a module reset due (R271). -/
theorem execLeaveDormant_asked {v : Word} {s : State} (hd : s.decodes = true) (hm : s.pwr.mode = .dormant)
    (hv : v.getLsbD 31 = true) : exec (.leaveDormant v) s = .next { s with aon := { s.aon with
      pwrCtrl := Word.merge s.aon.pwrCtrl v (Reg.pwrCtrl).rw, leave := true, resetDue := some 2 } } := by
  show execLeaveDormant v s = _
  simp only [execLeaveDormant, hostReg, hd, hm, pwrCtrlWrite, setReg, hv, leaveDormant, Bool.not_true, Bool.false_eq_true,
    BEq.rfl, Bool.and_self, if_true, if_false]

/-- Settles O12: each second write finds its key, its target and the first write kept; DORMANT is left by a reset. -/
theorem twoWriteSequences : Obligations.TwoWriteSequences := by
  refine ⟨fun v s hd hm key target first keyed => ?lifecycle, fun v s hd hm key opened slot empty => ?key,
    fun v s hd hm key first => ?pin, fun v s hd hm hv => ⟨_, execLeaveDormant_asked hd hm hv, rfl, rfl⟩⟩
  case lifecycle =>
    refine ⟨_, congrArg Host.Outcome.next (hostReg_global hd hm rfl v _), ?_⟩
    rw [lcAdvWrite_second key target first keyed]
    exact ⟨rfl, rfl, rfl, rfl, rfl⟩
  case key =>
    refine ⟨_, congrArg Host.Outcome.next (hostReg_global hd hm rfl v _), ?_⟩
    rw [keyCmdWrite_programs key opened slot empty]
    exact ⟨Vector.getElem_set_self .., rfl, opened⟩
  case pin =>
    refine ⟨_, congrArg Host.Outcome.next (hostReg_global hd hm rfl v _), ?_⟩
    rw [pinLockWrite_second key first]
    exact ⟨congrArg Pin.locked (State.modPin_hit ..), rfl⟩

end Sys2Proof.Machine
end

section
/-!
PROOFS. O54 fails: CALIBRATE of a tile quantity refuses a REPS that is not 0, and none of the premises looks at REPS.
-/
namespace Sys2Proof.Machine

open Sys2Proof

/-- A module in ACTIVE with every panel live, a full grant and no CALIBRATE running. -/
def readyToCalibrate : State :=
  { aon := { sysNow := 1000000, sysBase := 1000000, fck := 5000000, ticks := 100000, limit := 1250 }
    clk := { fast := .fck, pll := .locked }
    pwr := { mode := .active, panels := Vector.replicate 8 .active, hrstHold := false, grant := 12500 }
    link := { speed := 4, width := 4 } }

/-- CALIBRATE of quantity 1 on tiles 5 to 7 (SCOPE 0) with REPS 1, where R351 asks for 0. -/
def calibrateWithReps : Desc :=
  { tag := 7, body := BitVec.ofNat 320 (1 + 5 * 2 ^ (8 * 2) + 3 * 2 ^ (8 * 4) + 1 * 2 ^ (8 * 7)) }

/-- Whether a CALIBRATE runs after an instruction. -/
def calibratesAfter : Result → Option Bool
  | .next u => some u.cal.run.isSome
  | _ => none

theorem calibrateWithReps_taken : readyToCalibrate.takes 0x60 calibrateWithReps
    ((headerFault calibrateWithReps (if calibrateWithReps.u 25 1 == 1 then 3 else 0) .buffer .unbound []).or
      ((if 1 < calibrateWithReps.u 32 1 then some 32 else none).or (reservedFault calibrateWithReps [(33, 31)]))) := by
  unfold State.takes
  decide +kernel

theorem calibrateWithReps_units :
    ((calUnits (readyToCalibrate.heads[(Fin.ofNat 8 calibrateWithReps.target.toNat : HeadId)]).hdef calibrateWithReps).filter
      fun u => !readyToCalibrate.calSkips (Fin.ofNat 8 calibrateWithReps.target.toNat) (calibrateWithReps.u 32 1 == 1) u) ≠ [] := by
  decide +kernel

/-- The model refuses the command at byte 31: no CALIBRATE runs (R351). -/
theorem calibrateWithReps_refused : calibratesAfter (exec (.calibrate calibrateWithReps) readyToCalibrate) = some false := by
  decide +kernel

/-- Refutes O54: its clause for a CALIBRATE that takes its units has no premise on REPS, but with a tile quantity a REPS other than 0
completes with BAD_FIELD, and no run begins. -/
theorem not_calibrationAndBist : ¬ Obligations.CalibrationAndBist := by
  intro h
  obtain ⟨calibrate, -⟩ := h
  obtain ⟨-, begins, -⟩ := calibrate calibrateWithReps readyToCalibrate calibrateWithReps_taken (by decide +kernel)
    (by decide +kernel) (by decide +kernel) (by decide +kernel) (by decide +kernel) (by decide +kernel)
  have refused := calibrateWithReps_refused
  rw [begins rfl calibrateWithReps_units] at refused
  exact absurd refused (by decide)

end Sys2Proof.Machine
end

section
/-!
PROOFS. The serial store and images (O44, R327, R328, R334, R336, R338).
-/
namespace Sys2Proof.Machine

open Sys2Proof

/-! ### What running a descriptor asks of the lifecycle (R283) -/

/-- A descriptor that passes the shared checks under a lifecycle that permits it has the command's own effect. -/
theorem runDesc_permitted {op : Byte} {d : Desc} {f : Option Nat} {p : Bool} (body : State → State) {s : State} (hp : p = true)
    (h : s.takes op d f) : runDesc op d f p body s = .next (body (s.begun op d)) := hp ▸ runDesc_takes op d f body s h

/-- A command that the lifecycle does not permit is refused. -/
theorem runDesc_forbidden {op : Byte} {d : Desc} {f : Option Nat} {p : Bool} (body : State → State) {s : State} (hp : p = false)
    (h : s.takes op d f) : runDesc op d f p body s = .next (finish op d .lifecycle 0 0 (s.begun op d)) := by
  obtain ⟨runs, sound, -⟩ := h
  simp only [runDesc, runs, sound, hp, Bool.not_false, if_true]
  rfl

/-! ### The store (R327, R328) -/

section
variable {d : Desc} {s : State} (ht : s.takes 0x12 d (headerFault d 0 .buffer .unbound [(28, 36)])) (hf : storeFault d = none)
include ht hf

theorem execStoreWrite_user (ha : storeArea (d.u 24 4) = 5) (hl : s.linkUp = true) (hr : d.rd = .clean) :
    exec (.storeWrite d) s = .next (finish 0x12 d .ok 0 0 { s.begun 0x12 d with sec := { s.sec with
      store := s.sec.store.putBytes (d.u 24 4) (s.hostMem.bytes d.buffer.toNat d.len) } }) := by
  rw [show exec (.storeWrite d) s = execStoreWrite d s from rfl, execStoreWrite, runDesc_takes _ _ _ _ _ ht]
  simp only [hf, ha, ne_eq, not_true_eq_false, if_false]
  rw [withBuffer_clean _ _ _ (s.begun 0x12 d) hl hr, okayRead, hr]
  rfl

/-- Only the user area is written by the host. -/
theorem execStoreWrite_other (ha : storeArea (d.u 24 4) ≠ 5) :
    exec (.storeWrite d) s = .next (finish 0x12 d .state 0 0 (s.begun 0x12 d)) := by
  rw [show exec (.storeWrite d) s = execStoreWrite d s from rfl, execStoreWrite, runDesc_takes _ _ _ _ _ ht]
  simp only [hf, if_pos ha]
  rfl

end

section
variable {d : Desc} {s : State} (ht : s.takes 0x13 d (headerFault d 0 .buffer .unbound [(28, 36)]))
include ht

theorem execStoreRead_copies (hf : storeFault d = none) (hc : s.sec.lifecycle ≠ .closed) (ha : storeArea (d.u 24 4) ≤ 5)
    (hl : s.linkUp = true) (hw : d.wr = .clean) : exec (.storeRead d .clean) s = .next (finish 0x13 d .ok 0 0
      ((s.begun 0x13 d).hostWrite d.buffer.toNat (s.sec.store.bytes (d.u 24 4) d.len))) := by
  have permitted : (s.sec.lifecycle != .closed || decide (5 ≤ storeArea (d.u 24 4))) = true := by simp [hc]
  rw [show exec (.storeRead d .clean) s = execStoreRead d .clean s from rfl, execStoreRead, runDesc_permitted _ permitted ht]
  simp only [hf]
  rw [if_neg (by omega), writeOut_clean _ _ _ _ _ (s.begun 0x13 d) hl hw]
  rfl

theorem execStoreRead_closed (hc : s.sec.lifecycle = .closed) (ha : storeArea (d.u 24 4) ≤ 4) :
    exec (.storeRead d .clean) s = .next (finish 0x13 d .lifecycle 0 0 (s.begun 0x13 d)) := by
  have forbidden : (s.sec.lifecycle != .closed || decide (5 ≤ storeArea (d.u 24 4))) = false := by
    rw [hc, decide_eq_false (by omega)]
    rfl
  rw [show exec (.storeRead d .clean) s = execStoreRead d .clean s from rfl, execStoreRead]
  exact runDesc_forbidden _ forbidden ht

end

/-! ### A slot (R334, R336) -/

/-- The slot as an image that passes leaves it. -/
def State.slotFilled (s : State) (k : Fin 4) (img : List Byte) : State :=
  { s with sec := { s.sec with
      store := (s.sec.store.clear (0xE00000 * k.val) 0xE00000).putBytes (0xE00000 * k.val) img
      slots := s.sec.slots.set k { valid := true, len := img.length, imageId := BitVec.ofNat 32 (le img 32 4) } } }

theorem slotLoad_passes {img : List Byte} {s : State} (hr : (s.readImage false img).fail = none) (op : Byte) (d : Desc)
    (l : List Attempt) (k : Fin 4) : slotLoad op d l k img .clean s = finish op d (okOf l) 0
      ((s.readImage false img).frames.length + (s.readImage false img).crc.toNat * 2 ^ 32) (s.slotFilled k img) := by
  simp only [slotLoad, hr, imgDone, State.slotFilled, Vector.set_set]
  rfl

/-- What a load that fails keeps: the cause is noted, the rest is its report and its completion (R334). -/
theorem imgRefuse_calm (op : Byte) (d : Desc) (kind src c off : Nat) (s : State) :
    (imgRefuse op d kind c (imageFailed src c off s)).calm =
      ({ s with sec := { s.sec with imgCause := BitVec.ofNat 4 c } } : State).calm :=
  (finish_calm ..).trans (State.calm_of_quiet (log_quiet ..))

theorem slotLoad_fails {img : List Byte} {s : State} {c off : Nat} (hr : (s.readImage false img).fail = some (c, off)) (op : Byte)
    (d : Desc) (l : List Attempt) (k : Fin 4) : slotLoad op d l k img .clean s =
      imgRefuse op d (s.readImage false img).kind c (imageFailed 0xFF c off s) := by
  simp only [slotLoad, hr]

theorem execLoadImage_slot {d : Desc} {s : State} (ht : s.takes 0x10 d (headerFault d 0 .buffer .unbound [(26, 38)]))
    (h1 : d.u 24 1 = 1) (hk : d.u 25 1 ≤ 3) (hl : s.linkUp = true) (hr : d.rd = .clean) :
    exec (.loadImage d .clean) s = .next (slotLoad 0x10 d [.clean] (Fin.ofNat 4 (d.u 25 1))
      (s.hostMem.bytes d.buffer.toNat d.len) .clean (s.begun 0x10 d)) := by
  have header : loadImageHeader d = headerFault d 0 .buffer .unbound [(26, 38)] := by rw [loadImageHeader, if_pos h1]
  rw [show exec (.loadImage d .clean) s = execLoadImage d .clean s from rfl, execLoadImage, header, runDesc_takes _ _ _ _ _ ht,
    if_neg (by omega), if_neg (by omega), withBuffer_clean _ _ _ (s.begun 0x10 d) hl hr, if_pos h1, hr]
  rfl

/-! ### From a slot into the device (R336, R338) -/

section
variable {d : Desc} {s : State} (ht : s.takes 0x11 d (headerFault d 0 .none .unbound [(25, 39)])) (hk : d.u 24 1 ≤ 3)
include ht hk

theorem execLoadImageFromStore_empty (hv : (s.sec.slots[(Fin.ofNat 4 (d.u 24 1) : Fin 4)]).valid = false) :
    exec (.loadImageFromStore d .clean .clean) s =
      .next (imgRefuse 0x11 d 3 12 (imageFailed (Fin.ofNat 4 (d.u 24 1) : Fin 4).val 12 0 (s.begun 0x11 d))) := by
  have invalid : ((s.begun 0x11 d).sec.slots[(Fin.ofNat 4 (d.u 24 1) : Fin 4)]).valid = false := hv
  rw [show exec (.loadImageFromStore d .clean .clean) s = execLoadImageFromStore d .clean .clean s from rfl,
    execLoadImageFromStore, runDesc_takes _ _ _ _ _ ht, if_neg (by omega)]
  simp only [invalid, Bool.not_false, if_true]

theorem execLoadImageFromStore_loads (hv : (s.sec.slots[(Fin.ofNat 4 (d.u 24 1) : Fin 4)]).valid = true) :
    exec (.loadImageFromStore d .clean .clean) s = .next (deviceLoad 0x11 d [] (Fin.ofNat 4 (d.u 24 1) : Fin 4).val
      (s.slotImage (Fin.ofNat 4 (d.u 24 1))) .clean (s.begun 0x11 d)) := by
  have valid : ((s.begun 0x11 d).sec.slots[(Fin.ofNat 4 (d.u 24 1) : Fin 4)]).valid = true := hv
  rw [show exec (.loadImageFromStore d .clean .clean) s = execLoadImageFromStore d .clean .clean s from rfl,
    execLoadImageFromStore, runDesc_takes _ _ _ _ _ ht, if_neg (by omega)]
  simp only [valid, Bool.not_true, Bool.false_eq_true, if_false]
  rfl

end

/-- A netlist image of one frame whose netlist no placed stage holds (R338). -/
theorem deviceLoad_netlist {op : Byte} {d : Desc} {img : List Byte} {f : ImgFrame} {s : State}
    (hr : (s.readImage d.bound img).fail = none) (hk : (s.readImage d.bound img).kind = 2)
    (hfs : (s.readImage d.bound img).frames = [f]) (hs : f.space = 4) (hm : s.pwr.mode.up = true)
    (hn : s.netlistUsed f.unit = false) (src : Nat) : deviceLoad op d [] src img .clean s =
      finish op d .ok 0 (1 + (s.readImage d.bound img).crc.toNat * 2 ^ 32) { s with
        netlists := s.netlists.set (Fin.ofNat 64 f.unit) (putFrame f.idx f.data s.netlists[(Fin.ofNat 64 f.unit : Fin 64)]) } := by
  simp only [deviceLoad, deviceNetlist, hr, hk, hfs, hm, hn, Bool.not_true, List.any_cons, List.any_nil, Bool.or_self, reduceCtorEq,
    Bool.false_eq_true, if_false, imgDone, List.foldl_cons, List.foldl_nil, List.length_singleton, writeFrame, hs]
  rfl

/-- Settles O44: the store by its areas; an image into a slot or from one by what its checks say. -/
theorem imagesAndStore : Obligations.ImagesAndStore := by
  refine ⟨fun d s ht hf => ⟨execStoreWrite_user ht hf, execStoreWrite_other ht hf⟩,
    fun d s ht hf hl hw => ⟨fun hc ha => execStoreRead_copies ht hf hc ha hl hw, execStoreRead_closed ht⟩,
    fun d s ht h1 hk hl hr => ⟨fun passes => ?passes, fun c off fails => ?fails⟩,
    fun d f s ht hk => ⟨fun hv hm hr h2 hfs hs hn => ?netlist, fun hv => ?empty⟩⟩
  case passes =>
    rw [execLoadImage_slot ht h1 hk hl hr, slotLoad_passes (s := s.begun 0x10 d) passes]
    rfl
  case fails =>
    rw [execLoadImage_slot ht h1 hk hl hr, slotLoad_fails (s := s.begun 0x10 d) fails]
    have calm := imgRefuse_calm 0x10 d ((s.begun 0x10 d).readImage false (s.hostMem.bytes d.buffer.toNat d.len)).kind 0xFF c off
      (s.begun 0x10 d)
    refine ⟨_, rfl, ?_⟩
    rw [State.calm_sec calm, State.calm_tiles calm]
    exact ⟨rfl, rfl, rfl, rfl⟩
  case netlist =>
    rw [execLoadImageFromStore_loads ht hk hv, deviceLoad_netlist (s := s.begun 0x11 d) hr h2 hfs hs hm hn]
    rfl
  case empty =>
    rw [execLoadImageFromStore_empty ht hk hv]
    have calm := imgRefuse_calm 0x11 d 3 (Fin.ofNat 4 (d.u 24 1) : Fin 4).val 12 0 (s.begun 0x11 d)
    refine ⟨_, rfl, ?_⟩
    rw [State.calm_sec calm, State.calm_netlists calm, State.calm_tiles calm, State.calm_panels calm]
    exact ⟨rfl, rfl, rfl, rfl⟩

end Sys2Proof.Machine
end

section
/-!
PROOFS. What the tally bus operations do: the frame that contends, the queue of frames, good frames received, and the completion of
a TALLY_SEND (R377 to R389). O59 and O60 use these facts.
-/
namespace Sys2Proof.Machine

open Sys2Proof

/-! ### The queue of a descriptor -/

/-- A completion takes the descriptor out of its queue's list of descriptors in progress (R287). -/
theorem finish_waiting (op : Byte) (d : Desc) (st : Status) (detail result : Nat) (s : State) :
    ((finish op d st detail result s).cqs[d.queue]).waiting = (s.cqs[d.queue]).waiting.erase d := by
  have done : ((s.modCq d.queue fun q => q.done d).cqs[d.queue]).waiting = (s.cqs[d.queue]).waiting.erase d := by
    rw [State.modCq_cq]
    rfl
  have kept : ∀ (u : State) (f : Cq → Cq), (∀ q, (f q).waiting = q.waiting) →
      (u.cqs[d.queue]).waiting = (s.cqs[d.queue]).waiting.erase d →
      (((u.modCq d.queue f).cqs[d.queue]).waiting = (s.cqs[d.queue]).waiting.erase d) := fun u f hf hu => by
    rw [State.modCq_cq, hf, hu]
  have taken := kept _ Cq.takeSlot (fun _ => rfl) done
  have irq : ∀ u : State, (u.cqs[d.queue]).waiting = (s.cqs[d.queue]).waiting.erase d →
      ((if d.ci then raiseMsix (s.cqs[d.queue]).vector u else u).cqs[d.queue]).waiting =
        (s.cqs[d.queue]).waiting.erase d := fun u hu => by
    split
    · simp only [State.quiet_cqs (raiseMsix_quiet u _), hu]
    · exact hu
  change (State.cqs (finish op d st detail result s) |>.get d.queue).waiting = _
  unfold finish
  simp only []
  split
  · exact done
  · generalize (s.modCq d.queue fun q => q.done d).transfer d.cw = attempt
    cases attempt with
    | clean => exact irq _ taken
    | second =>
      refine irq _ ?_
      simp only [hostDmaWrite, State.quiet_cqs (log_quiet ..)]
      exact taken
    | failed =>
      rw [State.quiet_cqs (raiseEvent_quiet ..)]
      refine kept _ _ (fun _ => rfl) ?_
      simp only [hostDmaWrite, State.quiet_cqs (log_quiet ..)]
      exact taken

/-! ### Frames of the station (R380) -/

/-- The frame of the station that contends for an idle bus. -/
def State.contends (s : State) : List Sent :=
  match s.tally.tx with
  | [] => []
  | x :: _ => [.tally x.frame (x.frame.bits s.tally.station)]

theorem tallyDrive_eq (s : State) : tallyDrive s = { s with out := s.contends ++ s.out } := by
  unfold tallyDrive State.contends
  cases s.tally.tx <;> rfl

/-- A frame joins the queue, and contends at once where it is the first. -/
theorem tallyQueue_eq (f : TFrame) (d : Option Desc) (s : State) : tallyQueue f d s = { s with
    out := if s.tally.tx = [] then .tally f (f.bits s.tally.station) :: s.out else s.out
    tally := { s.tally with tx := s.tally.tx ++ [{ frame := f, desc := d }] } } := by
  cases h : s.tally.tx with
  | nil => simp only [tallyQueue, h, List.isEmpty_nil, if_true, tallyDrive, State.modTally, List.nil_append]; rfl
  | cons x xs => simp only [tallyQueue, h, List.isEmpty_cons, Bool.false_eq_true, if_false, reduceCtorEq, State.modTally]

/-- With its frame done with, the station's next frame contends; nothing else changes. -/
theorem tallyNext_eq (s : State) : ∃ l, tallyNext s = { s with
    out := l, tally := { s.tally with tx := s.tally.tx.tail } } := by
  rw [tallyNext, tallyDrive_eq]
  exact ⟨_, rfl⟩

/-! ### Received frames (R378, R387) -/

/-- A good frame has been acknowledged, and the station's own first frame contends again. -/
def State.acked (s : State) : State := { s with out := s.contends ++ .tallyAck :: s.out }

theorem tallyGood_acks {s : State} (hw : s.aon.wakeCtrl.getLsbD 29 = false) (hs : s.tally.silent = false) :
    tallyGood s = s.acked := by
  simp only [tallyGood, hw, hs, Bool.false_eq_true, if_false, tallyDrive_eq]
  rfl

theorem tallyGood_silent {s : State} (hw : s.aon.wakeCtrl.getLsbD 29 = false) (hs : s.tally.silent = true) :
    tallyGood s = s := by
  simp only [tallyGood, hw, hs, Bool.false_eq_true, if_false, if_true]

/-- A source that no pin takes (R363). -/
theorem pinsOfSource_of_unused {code : Nat} {s : State}
    (h : ∀ p : PinId, (s.gpio.pins[p]).oselA ≠ code ∧ (s.gpio.pins[p]).oselB ≠ code) : pinsOfSource code s = s :=
  foldl_of_fixed (fun p => by
    obtain ⟨a, b⟩ := h p
    simp only [beq_eq_false_iff_ne.mpr a, beq_eq_false_iff_ne.mpr b, Bool.or_self, Bool.false_eq_true, if_false]) _

theorem tallyHold_unshown {s : State} (h : ∀ p : PinId, (s.gpio.pins[p]).oselA ≠ 2 ∧ (s.gpio.pins[p]).oselB ≠ 2) (reason : Byte)
    (concerned : BitVec 16) : tallyHold reason concerned s = { s with
      tally := { s.tally with hold := true, reason := reason.setWidth 2, holdFrom := concerned.setWidth 9 } } :=
  pinsOfSource_of_unused h

/-! ### Stations declared absent (R383, R386) -/

theorem logTally_quiet (cls : LClass) (kind : Byte) (station : Nat) (roll : BitVec 16) (s : State) :
    (logTally cls kind station roll s).quiet = s.quiet := log_quiet ..

theorem takeFrom_of_noRange {st : BitVec 9} {s : State} (h : s.tally.facing st = none) : takeFrom st s = s := by
  rw [takeFrom, h]

/-- A station with no frame waiting is silent with its ranges released, and nothing completes. -/
theorem goSilent_unsent {s : State} (hx : s.tally.tx = []) : goSilent s = s.modTally fun t => { t with
    ranges := t.ranges.map fun r => r.map fun x => if x.owned then s.owns x false else x
    silent := true, tx := [] } := by
  simp only [goSilent, hx, List.foldl_nil]
  rfl

/-- An entry that names the station itself makes it SILENT; with no frame of its own waiting no TALLY_SEND completes. -/
theorem absentEntry_own {e : BitVec 16} {s : State} (he : e.getLsbD 15 = false) (hs : e.setWidth 9 = s.tally.station)
    (hx : s.tally.tx = []) : (absentEntry e s).tally.silent = true ∧ (absentEntry e s).tiles = s.tiles := by
  have logged := logTally_quiet .info 0x45 (e.setWidth 9 : BitVec 9).toNat s.tally.rollNo s
  unfold absentEntry
  simp only [he, Bool.false_eq_true, if_false]
  generalize logTally .info 0x45 (e.setWidth 9 : BitVec 9).toNat s.tally.rollNo s = u at logged ⊢
  simp only [State.modTally_tally, State.quiet_tally logged, if_pos hs]
  rw [goSilent_unsent (by rw [State.modTally_tally]; exact (congrArg Tally.tx (State.quiet_tally logged)).trans hx)]
  have kept : u.tiles = s.tiles := State.quiet_tiles logged
  exact ⟨rfl, kept⟩

/-- An entry that names another station, which no range faces. -/
theorem absentEntry_other {e : BitVec 16} {s : State} (he : e.getLsbD 15 = false) (hs : e.setWidth 9 ≠ s.tally.station)
    (hf : s.tally.facing (e.setWidth 9) = none) : (absentEntry e s).tally = { s.tally with
      absent := s.tally.absent.filter (· != (e.setWidth 9 : BitVec 9).toNat) ++ [(e.setWidth 9 : BitVec 9).toNat] } := by
  have logged := logTally_quiet .info 0x45 (e.setWidth 9 : BitVec 9).toNat s.tally.rollNo s
  unfold absentEntry
  simp only [he, Bool.false_eq_true, if_false, State.modTally_tally, State.quiet_tally logged, if_neg hs]
  rw [takeFrom_of_noRange (by rw [State.modTally_tally, State.quiet_tally logged]; exact hf), State.modTally_tally,
    State.quiet_tally logged]

end Sys2Proof.Machine
end

section
/-!
PROOFS. TALLY_CONFIG and TALLY_SEND (O60, R385, R388, R389).
-/
namespace Sys2Proof.Machine

open Sys2Proof

section
variable {d : Desc} {s : State} (ht : s.takes 0x90 d (tallyHeader d))
include ht

theorem execTallyConfig_badField {off : Nat} (hf : tallyFault d = some off) :
    exec (.tallyConfig d) s = .next (finish 0x90 d .badField off 0 (s.begun 0x90 d)) := by
  rw [show exec (.tallyConfig d) s = execTallyConfig d s from rfl, execTallyConfig, runDesc_takes _ _ _ _ _ ht]
  simp only [hf]
  rfl

theorem execTallyConfig_state (hf : tallyFault d = none) (ha : d.u 24 1 < 4) (hs : s.tallyState d = true) :
    exec (.tallyConfig d) s = .next (finish 0x90 d .state 0 0 (s.begun 0x90 d)) := by
  have query : (d.u 24 1 == 4) = false := beq_eq_false_iff_ne.mpr (by omega)
  have refused : (s.begun 0x90 d).tallyState d = true := hs
  rw [show exec (.tallyConfig d) s = execTallyConfig d s from rfl, execTallyConfig, runDesc_takes _ _ _ _ _ ht]
  simp only [hf, query, refused, Bool.false_and, Bool.false_eq_true, if_false, if_true]
  rfl

section
variable (hf : tallyFault d = none) (hs : s.tallyState d = false) (hr : s.rangeFault d = none)
include hf hs hr

/-- What each action does in a state that admits it. -/
theorem execTallyConfig_acts (hq : d.u 24 1 = 4 → d.len = 128) : exec (.tallyConfig d) s = .next (match d.u 24 1 with
    | 0 => okay 0x90 d 0 (setStation d (s.begun 0x90 d))
    | 1 => okay 0x90 d 0 (setMaster d (s.begun 0x90 d))
    | 2 => okay 0x90 d 0 (setRange d (s.begun 0x90 d))
    | 3 => okay 0x90 d 0 (readmitStation d (s.begun 0x90 d))
    | _ => writeOut 0x90 d [] (stationMap s.tally.absent ++ stationMap s.tally.answered)
        (s.tally.station.toNat + (Word.flag s.tally.en 3 ||| Word.flag s.tally.master 2 ||| Word.flag s.tally.rate500 1 |||
          Word.flag s.tally.silent 0).toNat * 2 ^ 16) (s.begun 0x90 d)) := by
  have length : (d.u 24 1 == 4 && d.len != 128) = false := by
    by_cases query : d.u 24 1 = 4
    · rw [hq query]
      exact Bool.and_false _
    · rw [beq_eq_false_iff_ne.mpr query, Bool.false_and]
  have admits : (s.begun 0x90 d).tallyState d = false := hs
  have inHead : (s.begun 0x90 d).rangeFault d = none := hr
  rw [show exec (.tallyConfig d) s = execTallyConfig d s from rfl, execTallyConfig, runDesc_takes _ _ _ _ _ ht]
  simp only [hf, length, admits, inHead, Bool.false_eq_true, if_false]
  rfl

end
end

/-- The four bits of the report as a number (R388). -/
theorem tallyReportBits : ∀ a b c e : Bool, (Word.flag a 3 ||| Word.flag b 2 ||| Word.flag c 1 ||| Word.flag e 0).toNat =
    (if a then 8 else 0) + (if b then 4 else 0) + (if c then 2 else 0) + (if e then 1 else 0) := by decide

/-- A station that is master sends the READMIT frame, and its own list loses the station (R384). -/
theorem readmitStation_tally {d : Desc} {s : State} (ha : s.tallyActive = true) : (readmitStation d s).tally = { s.tally with
    absent := s.tally.absent.filter (· != d.u 26 2)
    tx := s.tally.tx ++ [{ frame := .absent [BitVec.ofNat 16 (0x8000 + d.u 26 2)] }] } := by
  have logged := logTally_quiet .info 0x45 (d.u 26 2) s.tally.rollNo
    (s.modTally fun t => { t with absent := t.absent.filter (· != d.u 26 2) })
  have active : (logTally .info 0x45 (d.u 26 2) s.tally.rollNo
      (s.modTally fun t => { t with absent := t.absent.filter (· != d.u 26 2) })).tallyActive = true := by
    simp only [State.tallyActive, State.tallyListens, State.quiet_tally logged, State.quiet_pwr logged]
    exact ha
  unfold readmitStation
  simp only [State.modTally_tally, active, if_true, tallyQueue_eq, State.quiet_tally logged]

section
variable {d : Desc} {s : State} (ht : s.takes 0x91 d (headerFault d 0 .none .unbound [(25, 3), (32, 32)]))
include ht

theorem execTallySend_inactive (hy : d.u 24 1 = 1 ∨ d.u 24 1 = 3) (ha : s.tallyActive = false) :
    exec (.tallySend d) s = .next (finish 0x91 d .state 0 0 (s.begun 0x91 d)) := by
  have inactive : (s.begun 0x91 d).tallyActive = false := ha
  rw [show exec (.tallySend d) s = execTallySend d s from rfl, execTallySend, runDesc_takes _ _ _ _ _ ht, if_neg (by omega)]
  simp only [inactive, Bool.not_false, if_true]
  rfl

theorem execTallySend_hold (hy : d.u 24 1 = 1) (ha : s.tallyActive = true) :
    exec (.tallySend d) s = .next (tallyQueue (.hold (BitVec.ofNat 8 (d.u 28 1)) (BitVec.ofNat 8 (d.u 29 1))
      (BitVec.ofNat 16 (d.u 30 2))) (some d) (s.begun 0x91 d)) := by
  have active : (s.begun 0x91 d).tallyActive = true := ha
  rw [show exec (.tallySend d) s = execTallySend d s from rfl, execTallySend, runDesc_takes _ _ _ _ _ ht, if_neg (by omega)]
  simp only [active, hy, Bool.not_true, Bool.false_eq_true, if_false, if_true]

theorem execTallySend_stitch (hy : d.u 24 1 = 3) (ha : s.tallyActive = true) {x : Stitch}
    (hx : s.tally.facing ((BitVec.ofNat 16 (d.u 28 2)).setWidth 9) = some x) :
    exec (.tallySend d) s = .next (tallyQueue (.stitch (BitVec.ofNat 16 (d.u 28 2)) (BitVec.ofNat 8 (d.u 30 1))
      (BitVec.ofNat 8 x.head.val)) (some d) (s.begun 0x91 d)) := by
  have active : (s.begun 0x91 d).tallyActive = true := ha
  have faces : stitchHead ((BitVec.ofNat 16 (d.u 28 2)).setWidth 9) (s.begun 0x91 d) =
      (BitVec.ofNat 8 x.head.val, s.begun 0x91 d) := by
    rw [stitchHead, show (s.begun 0x91 d).tally = s.tally from rfl, hx]
  rw [show exec (.tallySend d) s = execTallySend d s from rfl, execTallySend, runDesc_takes _ _ _ _ _ ht, if_neg (by omega)]
  simp only [active, hy, faces, Bool.not_true, Bool.false_eq_true, if_false, Nat.reduceEqDiff]

end

/-- Settles O60, action by action of TALLY_CONFIG, then TALLY_SEND by the type of its frame. -/
theorem tallyCommands : Obligations.TallyCommands := by
  refine ⟨fun d s ht hf hs hr => ?config,
    fun d s ht => ⟨fun off hf => execTallyConfig_badField ht hf, fun hf ha hs => execTallyConfig_state ht hf ha hs⟩,
    fun d s ht => ⟨fun hy ha => ?hold, fun hy ha x hx => ?stitch, fun hy ha => execTallySend_inactive ht hy ha⟩⟩
  case config =>
    have acts := execTallyConfig_acts ht hf hs hr
    refine ⟨fun h0 => ?station, fun h1 on => ?master, fun h1 off => ?slave, fun h2 => ?range, fun h3 ha => ?readmit,
      fun h4 hn hl hw => ?report⟩
    case station =>
      rw [acts (by omega), h0]
      rfl
    case master =>
      have set : setMaster d (s.begun 0x90 d) = _ := if_pos on
      have ran : exec (.tallyConfig d) s = .next (okay 0x90 d 0 (setMaster d (s.begun 0x90 d))) := by
        rw [acts (by omega), h1]
        rfl
      refine ⟨_, ran, ?_⟩
      have calm := finish_calm 0x90 d .ok 0 0 (setMaster d (s.begun 0x90 d))
      rw [okay, State.calm_tally calm, State.calm_tiles calm, set]
      exact ⟨rfl, rfl, rfl, rfl, rfl, rfl⟩
    case slave =>
      have set : setMaster d (s.begun 0x90 d) = _ := if_neg (by omega)
      rw [acts (by omega), h1, set]
      rfl
    case range =>
      rw [acts (by omega), h2]
      rfl
    case readmit =>
      have ran : exec (.tallyConfig d) s = .next (okay 0x90 d 0 (readmitStation d (s.begun 0x90 d))) := by
        rw [acts (by omega), h3]
        rfl
      refine ⟨_, ran, ?_⟩
      rw [okay, State.calm_tally (finish_calm ..), readmitStation_tally (s := s.begun 0x90 d) ha]
      exact ⟨rfl, rfl⟩
    case report =>
      rw [acts fun _ => hn, h4, tallyReportBits, writeOut_clean _ _ _ _ _ (s.begun 0x90 d) hl hw]
      rfl
  case hold =>
    rw [execTallySend_hold ht hy ha, tallyQueue_eq]
    rfl
  case stitch =>
    rw [execTallySend_stitch ht hy ha hx, tallyQueue_eq]
    rfl

end Sys2Proof.Machine
end

section
/-!
PROOFS. Tally bus frames, roll call and silence (O59, R380 to R384, R386, R387).
-/
namespace Sys2Proof.Machine

open Sys2Proof

/-- An entry of class LASTING merges with none, stale references apart (R323). -/
theorem Entry.merges_lasting (e : Entry) {kind : Byte} (hk : kind ≠ kStale) (source : BitVec 16) (tick : Nat) :
    e.merges .lasting kind source tick = false := by
  simp [Entry.merges, hk]

/-- The range that faces a station changes hands at once where its head is not armed (R386). -/
theorem stitchTurn_unarmed {st : BitVec 9} {s : State} {x : Stitch} (hx : s.tally.facing st = some x)
    (hh : (s.heads[x.head]).armed = none) (own : Bool) : stitchTurn st own s = s.modTally fun t => { t with
      ranges := t.ranges.map fun r => if r = some x then some { x with owned := own, change := none } else r } := by
  have turned : s.owns x own = { x with owned := own, change := none } := by
    rw [State.owns, hh]
    rfl
  simp only [stitchTurn, hx, turned]

/-! ### Frames of other stations -/

section
variable {st : BitVec 9} {s : State} (hl : s.tallyListens = true) (hst : st ≠ s.tally.station)
include hl hst

/-- Such a frame is heard. -/
theorem frameHeard : (!s.tallyListens || st == s.tally.station) = false := by
  rw [hl, beq_eq_false_iff_ne.mpr hst]
  rfl

variable (hw : s.aon.wakeCtrl.getLsbD 29 = false)
include hw

/-- A SILENT station takes note of a HOLD and drives nothing (R383, R387). -/
theorem execHold_silent (hs : s.tally.silent = true)
    (hp : ∀ p : PinId, (s.gpio.pins[p]).oselA ≠ 2 ∧ (s.gpio.pins[p]).oselB ≠ 2) (reason head : Byte) (concerned : BitVec 16) :
    exec (.hold st reason head concerned) s = .next { s with
      tally := { s.tally with hold := true, reason := reason.setWidth 2, holdFrom := concerned.setWidth 9 } } := by
  show execHold st reason head concerned s = _
  simp only [execHold, frameHeard hl hst, Bool.false_eq_true, if_false, tallyGood_silent hw hs, tallyHold_unshown hp]

variable (hs : s.tally.silent = false)
include hs

theorem execHold_acks (hp : ∀ p : PinId, (s.gpio.pins[p]).oselA ≠ 2 ∧ (s.gpio.pins[p]).oselB ≠ 2) (reason head : Byte)
    (concerned : BitVec 16) : exec (.hold st reason head concerned) s = .next { s.acked with
      tally := { s.tally with hold := true, reason := reason.setWidth 2, holdFrom := concerned.setWidth 9 } } := by
  show execHold st reason head concerned s = _
  simp only [execHold, frameHeard hl hst, Bool.false_eq_true, if_false, tallyGood_acks hw hs]
  rw [tallyHold_unshown (s := s.acked) hp]
  rfl

/-- A ROLL is answered in the station's slot, and is a conflict where the station is master (R382). -/
theorem execRoll_answers (no period : BitVec 16) (answers : List Nat) :
    exec (.roll st no period answers) s = .next (rollAnswer (s.acked.modTally fun t => { t with
      nomaster := false, rollNo := no, lastPeriod := period, rollAt := s.aon.fck, masterNo := some st
      answered := s.tally.station.toNat :: (answers.filter (· < 512)).filter (· != s.tally.station.toNat)
      conflict := t.conflict || t.master, master := t.master && decide (s.tally.station.toNat < st.toNat) })) := by
  have drives : s.acked.tally.silent = false := hs
  show execRoll st no period answers s = _
  simp only [execRoll, frameHeard hl hst, Bool.false_eq_true, if_false, tallyGood_acks hw hs, State.modTally, drives]
  rfl

/-- A SYNC frame is late, or finds four syncs pending, or is scheduled (R148, R151, R381). -/
theorem execSync_acks (at48 : BitVec 48) (groups : BitVec 16) : exec (.sync st at48 groups) s = .next (
    if (nearest48 s.aonTime at48 - s.aonTime).msb then
      log .lasting 0x22 srcModule (groups.setWidth 32) ((nearest48 s.aonTime at48).setWidth 32)
        ((nearest48 s.aonTime at48 >>> 32).setWidth 32) s.acked
    else if 4 ≤ s.syncsAhead then s.acked
    else { s.acked with syncs := s.syncs ++ [{ desc := none, groups, time := nearest48 s.aonTime at48 }] }) := by
  show execSync st at48 groups s = _
  simp only [execSync, frameHeard hl hst, Bool.false_eq_true, if_false, tallyGood_acks hw hs]
  rfl

/-- A late SYNC frame makes an entry and schedules nothing. -/
theorem execSync_late {at48 : BitVec 48} (groups : BitVec 16) (he : (nearest48 s.aonTime at48 - s.aonTime).msb = true) :
    ∃ t, exec (.sync st at48 groups) s = .next t ∧ t.syncs = s.syncs ∧ t.ledger.seq = nextSeq s.ledger.seq ∧
      t.tally = s.tally := by
  have quiet := log_quiet s.acked .lasting 0x22 srcModule (groups.setWidth 32) ((nearest48 s.aonTime at48).setWidth 32)
    ((nearest48 s.aonTime at48 >>> 32).setWidth 32)
  refine ⟨_, (execSync_acks hl hst hw hs at48 groups).trans (by rw [if_pos he]), State.calm_syncs (State.calm_of_quiet quiet), ?_,
    State.quiet_tally quiet⟩
  exact log_seq_of_unmerged _ _ _ _ _ _ _ (List.any_eq_false.mpr fun e _ => by rw [Entry.merges_lasting e (by decide)]; decide)

/-- An ABSENT frame of the current master names one station (R383). -/
theorem execAbsent_fromMaster (e : BitVec 16) (hm : s.tally.masterNo = some st) (hn : s.tally.master = false) :
    exec (.absent st [e]) s = .next (absentEntry e s.acked) := by
  have named : (decide (s.acked.tally.masterNo = some st) && !s.acked.tally.master) = true := by
    rw [decide_eq_true (show s.acked.tally.masterNo = some st from hm), show s.acked.tally.master = false from hn]
    rfl
  show execAbsent st [e] s = _
  simp only [execAbsent, frameHeard hl hst, List.isEmpty_cons, List.length_singleton, Nat.reduceLT, decide_false, Bool.or_false,
    Bool.false_eq_true, if_false, tallyGood_acks hw hs]
  rw [if_pos named]
  rfl

omit hl hst in
/-- An ABSENT frame of any other station names none. -/
theorem execAbsent_fromOther (es : List (BitVec 16)) (hm : s.tally.masterNo ≠ some st) :
    ∃ t, exec (.absent st es) s = .next t ∧ t.tally = s.tally := by
  have unnamed : (decide (s.acked.tally.masterNo = some st) && !s.acked.tally.master) = false := by
    rw [decide_eq_false (show s.acked.tally.masterNo ≠ some st from hm)]
    rfl
  refine ⟨_, show execAbsent st es s = .next _ from rfl, ?_⟩
  split
  · rfl
  · rw [tallyGood_acks hw hs]
    simp only [unnamed]
    rfl

section
variable (dest : BitVec 16) (action head : Byte)

/-- A STITCH frame of a station in the absent set is ignored and counted (R386). -/
theorem execStitch_ofAbsent (ha : st.toNat ∈ s.tally.absent) : exec (.stitch st dest action head) s =
    .next (s.acked.modTally fun t => { t with ignored := satInc t.ignored }) := by
  have absent : s.acked.tally.absent.contains st.toNat = true := List.contains_iff_mem.mpr ha
  show execStitch st dest action head s = _
  simp only [execStitch, frameHeard hl hst, Bool.false_eq_true, if_false, tallyGood_acks hw hs, absent, if_true]

variable (ha : st.toNat ∉ s.tally.absent)
include ha

/-- A STITCH frame to the station answers, and the range that faces its sender changes hands (R386). -/
theorem execStitch_toSelf (hd : dest.setWidth 9 = s.tally.station) {x : Stitch} (hx : s.tally.facing st = some x)
    (hh : (s.heads[x.head]).armed = none) : exec (.stitch st dest action head) s =
      .next ((s.acked.send (.tallyAnswer 0 0)).modTally fun t => { t with
        ranges := t.ranges.map fun r => if r = some x then some { x with owned := action == 0, change := none } else r }) := by
  have present : s.acked.tally.absent.contains st.toNat = false := by
    rw [← Bool.not_eq_true, List.contains_iff_mem]
    exact ha
  have drives : s.acked.tally.silent = false := hs
  have faces : s.acked.tally.facing st = some x := hx
  have turn := stitchTurn_unarmed (s := s.acked.send (.tallyAnswer 0 0)) hx hh (action == 0)
  show execStitch st dest action head s = _
  simp only [execStitch, frameHeard hl hst, Bool.false_eq_true, if_false, tallyGood_acks hw hs, present, drives]
  rw [if_pos (show dest.setWidth 9 = s.acked.tally.station from hd)]
  simp only [faces, turn]

/-- A STITCH frame to another station leaves one that is not master alone. -/
theorem execStitch_toOther (hd : dest.setWidth 9 ≠ s.tally.station) (hm : s.tally.master = false) :
    exec (.stitch st dest action head) s = .next s.acked := by
  have present : s.acked.tally.absent.contains st.toNat = false := by
    rw [← Bool.not_eq_true, List.contains_iff_mem]
    exact ha
  have drives : s.acked.tally.silent = false := hs
  have slave : s.acked.tally.master = false := hm
  show execStitch st dest action head s = _
  simp only [execStitch, frameHeard hl hst, Bool.false_eq_true, if_false, tallyGood_acks hw hs, present, drives, slave,
    Bool.false_and]
  rw [if_neg (show dest.setWidth 9 ≠ s.acked.tally.station from hd)]

end
end

/-! ### Frames of the station -/

section
variable {s : State} (hl : s.tallyListens = true) (hs : s.tally.silent = false)
include hl hs

/-- The station drives. -/
theorem tallyActive_of_listens : s.tallyActive = true := by
  rw [State.tallyActive, hl, hs]
  rfl

theorem execTallyFrameError_flags : exec .tallyFrameError s =
    .next ((s.modTally fun t => { t with crcErr := satInc t.crcErr }).send .tallyFlag) := by
  have drives : (s.modTally fun t => { t with crcErr := satInc t.crcErr }).tally.silent = false := hs
  show execTallyFrameError s = _
  simp only [execTallyFrameError, hl, if_true, drives, Bool.false_eq_true, if_false]

/-- A frame that fails for the first time is sent once more (R380). -/
theorem execTallyFrameRetry_first {x : TxFrame} {rest : List TxFrame} (hx : s.tally.tx = x :: rest) (hf : x.failed = false) :
    exec .tallyFrameRetry s = .next { s with
      out := .tally x.frame (x.frame.bits s.tally.station) :: s.out
      tally := { s.tally with tx := { x with failed := true } :: rest } } := by
  show execTallyFrameRetry s = _
  simp only [execTallyFrameRetry, hx, tallyActive_of_listens hl hs, hf, Bool.not_true, Bool.not_false, Bool.false_eq_true, if_false,
    if_true]
  rfl

/-- A frame that fails again is dropped, and its TALLY_SEND completes (R380, R389). -/
theorem execTallyFrameRetry_second {x : TxFrame} {rest : List TxFrame} {d : Desc} (hx : s.tally.tx = x :: rest)
    (hf : x.failed = true) (hd : x.desc = some d) (hn : ∀ dst ac hd, x.frame ≠ .stitch dst ac hd) :
    exec .tallyFrameRetry s =
      .next (tallyNext (refuse 0x91 d .lasting (s.modTally fun t => { t with dropped := satInc t.dropped }))) := by
  show execTallyFrameRetry s = _
  simp only [execTallyFrameRetry, hx, tallyActive_of_listens hl hs, hf, Bool.not_true, Bool.false_eq_true, if_false, tallyReport, hd]

/-- A SYNC frame that no command waits for has gone well. -/
theorem execTallyFrameAck_sync {x : TxFrame} {rest : List TxFrame} {at48 : BitVec 48} {groups : BitVec 16}
    (hx : s.tally.tx = x :: rest) (hd : x.desc = none) (he : x.frame = .sync at48 groups) : exec .tallyFrameAck s =
      .next (tallyNext (if x.failed then s.modTally fun t => { t with retry := satInc t.retry } else s)) := by
  show execTallyFrameAck s = _
  simp only [execTallyFrameAck, hx, tallyActive_of_listens hl hs, Bool.not_true, Bool.false_eq_true, if_false, tallyReport, hd,
    tallySent, he]

end

/-- FCK runs at 1.2 GHz. -/
theorem msFck_eq (n : Nat) : msFck n = 1200000 * n := by
  rw [msFck, usFck, ← Nat.mul_assoc]

/-- Silence of three of the last periods is noted (R382). -/
theorem execTallyNomasterTimeout_notes {s : State} (hl : s.tallyListens = true) (hm : s.tally.master = false)
    (hp : s.tally.lastPeriod ≠ 0) (hd : s.tally.rollAt + 3600000 * s.tally.lastPeriod.toNat ≤ s.aon.fck) :
    exec .tallyNomasterTimeout s = .next { s with tally := { s.tally with nomaster := true } } := by
  have late : s.tally.rollAt + msFck (3 * s.tally.lastPeriod.toNat) ≤ s.aon.fck := by
    rw [msFck_eq]
    omega
  have noted : (s.tallyListens && !s.tally.master && s.tally.lastPeriod != 0 &&
      decide (s.tally.rollAt + msFck (3 * s.tally.lastPeriod.toNat) ≤ s.aon.fck)) = true := by
    rw [hl, hm, bne_iff_ne.mpr hp, decide_eq_true late]
    rfl
  exact congrArg Host.Outcome.next (if_pos noted)

/-! ### The roll call of the master (R382) -/

theorem execTallyRollCall_slave {s : State} (hm : s.tally.master = false) (answers : List Nat) (sent : Attempt) :
    exec (.tallyRollCall answers sent) s = .next s := by
  show execTallyRollCall answers sent s = _
  simp only [execTallyRollCall, hm, Bool.not_false, Bool.true_or, if_true]

theorem execTallyRollCall_early {s : State} (hd : s.aon.fck < s.tally.rollDue) (answers : List Nat) (sent : Attempt) :
    exec (.tallyRollCall answers sent) s = .next s := by
  show execTallyRollCall answers sent s = _
  simp only [execTallyRollCall, hd, decide_true, Bool.or_true, if_true]

/-- The ROLL goes out, its number and the next roll call move on. -/
def State.rolled (s : State) : State :=
  (tallyOut (.roll s.tally.nextRoll s.tally.period) s).modTally fun t => { t with
    nextRoll := s.tally.nextRoll + 1, rollDue := s.aon.fck + msFck s.tally.period.toNat }

/-- The ROLL that has gone well is answered: what the master hears it expects, where it expected no station before. -/
def State.rollHeard (s : State) (answers : List Nat) : State :=
  let heard := s.tally.station.toNat :: answers.filter fun a => a < 512 && a != s.tally.station.toNat
  (rollAnswer s).modTally fun t => { t with answered := heard, masterNo := some t.station, expected := heard }

/-- Every station heard is expected where none was expected or absent before. -/
theorem filter_always (l : List Nat) : (l.filter fun _ => true) = l :=
  List.filter_eq_self.mpr fun _ _ => rfl

/-- No station is named again where none was absent. -/
theorem filter_contains_nil (l : List Nat) : l.filter ([] : List Nat).contains = [] :=
  List.filter_eq_nil_iff.mpr fun _ _ => Bool.false_ne_true

section
variable {s : State} (hl : s.tallyListens = true) (hs : s.tally.silent = false) (hm : s.tally.master = true)
  (hd : s.tally.rollDue ≤ s.aon.fck)
include hl hs hm hd

/-- The roll call is due. -/
theorem rollCall_due : (!s.tally.master || !s.tallyActive || decide (s.aon.fck < s.tally.rollDue)) = false := by
  rw [hm, tallyActive_of_listens hl hs, decide_eq_false (Nat.not_lt.mpr hd)]
  rfl

/-- A ROLL that fails twice is dropped. -/
theorem execTallyRollCall_failed (answers : List Nat) : exec (.tallyRollCall answers .failed) s =
    .next ((tallyOut (.roll s.tally.nextRoll s.tally.period) s.rolled).modTally fun t => { t with dropped := satInc t.dropped }) := by
  show execTallyRollCall answers .failed s = _
  simp only [execTallyRollCall, rollCall_due hl hs hm hd, Bool.false_eq_true, if_false, if_true, reduceCtorEq]
  rfl

variable (hx : s.tally.expected = []) (ha : s.tally.absent = []) (answers : List Nat)
include hx ha

theorem execTallyRollCall_clean : exec (.tallyRollCall answers .clean) s = .next (s.rolled.rollHeard answers) := by
  show execTallyRollCall answers .clean s = _
  simp only [execTallyRollCall, rollCall_due hl hs hm hd, Bool.false_eq_true, if_false, if_true, reduceCtorEq, State.rolled,
    State.rollHeard, tallyOut, rollAnswer, State.send, State.modTally, hx, ha, List.foldl_nil, List.contains_nil, Bool.not_false,
    Bool.and_self, filter_always, List.nil_append, filter_contains_nil]

theorem execTallyRollCall_second : exec (.tallyRollCall answers .second) s =
    .next (((tallyOut (.roll s.tally.nextRoll s.tally.period) s.rolled).modTally fun t => { t with
      retry := satInc t.retry }).rollHeard answers) := by
  show execTallyRollCall answers .second s = _
  simp only [execTallyRollCall, rollCall_due hl hs hm hd, Bool.false_eq_true, if_false, if_true, reduceCtorEq, State.rolled,
    State.rollHeard, tallyOut, rollAnswer, State.send, State.modTally, hx, ha, List.foldl_nil, List.contains_nil, Bool.not_false,
    Bool.and_self, filter_always, List.nil_append, filter_contains_nil]

end

/-! ### Stations that do not answer -/

section
variable {roll : BitVec 16} {heard : List Nat} {st : Nat} {s : State} (hh : st ∉ heard)
include hh

/-- A station that first fails to answer has missed one attempt. -/
theorem judgeStation_misses (hm : st ∉ s.tally.missed) :
    judgeStation roll heard st s = { s with tally := { s.tally with missed := s.tally.missed ++ [st] } } := by
  simp only [judgeStation, List.contains_eq_mem, hh, hm, decide_false, Bool.false_eq_true, if_false]
  rfl

theorem judgeStation_declares (hm : st ∈ s.tally.missed) : judgeStation roll heard st s = declareAbsent roll st s := by
  simp only [judgeStation, List.contains_eq_mem, hh, hm, decide_false, decide_true, Bool.false_eq_true, if_false, if_true]

end

/-- A station declared absent joins the set, and its ABSENT and HOLD frames are queued; no range faces it (R382, R383, R387). -/
theorem declareAbsent_tally {roll : BitVec 16} {st : Nat} {s : State} (hf : s.tally.facing (BitVec.ofNat 9 st) = none) :
    (declareAbsent roll st s).tally = { s.tally with
      absent := s.tally.absent.filter (· != st) ++ [st]
      expected := s.tally.expected.filter (· != st), missed := s.tally.missed.filter (· != st)
      tx := s.tally.tx ++ [{ frame := .absent [BitVec.ofNat 16 st] }, { frame := .hold 2 0xFF (BitVec.ofNat 16 st) }] } := by
  have missed := logTally_quiet .lasting 0x44 st roll s
  unfold declareAbsent
  simp only []
  generalize logTally .lasting 0x44 st roll s = u at missed ⊢
  have named := logTally_quiet .info 0x45 st roll (u.modTally fun t => { t with
    absent := t.absent.filter (· != st) ++ [st], expected := t.expected.filter (· != st), missed := t.missed.filter (· != st) })
  generalize logTally .info 0x45 st roll (u.modTally fun t => { t with
    absent := t.absent.filter (· != st) ++ [st], expected := t.expected.filter (· != st), missed := t.missed.filter (· != st) }) = v
    at named ⊢
  have tally : v.tally = { s.tally with
      absent := s.tally.absent.filter (· != st) ++ [st]
      expected := s.tally.expected.filter (· != st), missed := s.tally.missed.filter (· != st) } := by
    rw [State.quiet_tally named, State.modTally_tally, State.quiet_tally missed]
  have faces : ((tallyQueue (.hold 2 0xFF (BitVec.ofNat 16 st)) none
      (tallyQueue (.absent [BitVec.ofNat 16 st]) none v)).tally.facing (BitVec.ofNat 9 st)) = none := by
    simp only [tallyQueue_eq, tally]
    exact hf
  rw [takeFrom_of_noRange faces]
  simp only [tallyQueue_eq, tally, List.append_assoc, List.singleton_append]

/-- Settles O59: the frames of other stations, a SILENT station's HOLD, the frames of the station's own with the roll call and the
silence of the master, and the judgement of a station that does not answer. -/
theorem tallyBus : Obligations.TallyBus := by
  refine ⟨fun st s hl hst hw hs => ?received,
    fun st reason head concerned s hl hs hst hw hp => execHold_silent hl hst hw hs hp reason head concerned,
    fun s hl hs => ⟨⟨_, execTallyFrameError_flags hl hs, rfl, rfl⟩, fun x rest hx => ?own, fun answers hm he ha hd => ?rollCall,
      fun answers sent hd => execTallyRollCall_early hd answers sent,
      fun answers sent hm => execTallyRollCall_slave hm answers sent,
      fun hm hp hd => execTallyNomasterTimeout_notes hl hm hp hd⟩,
    fun roll heard st s hh => ⟨fun hm => judgeStation_misses hh hm, fun hm hf => ?declares⟩⟩
  case received =>
    refine ⟨fun no period answers => ?roll, fun at48 groups => ⟨fun he h4 => ?scheduled, fun he h4 => ?full,
        fun he => execSync_late hl hst hw hs groups he⟩,
      fun reason head concerned hp => execHold_acks hl hst hw hs hp reason head concerned,
      fun e hm hn => ⟨fun h15 ho hx => ?ownAbsence, fun h15 ho hf => ?otherAbsence⟩,
      fun es hm => execAbsent_fromOther hw hs es hm,
      fun dest action head => ⟨fun ha => ⟨_, execStitch_ofAbsent hl hst hw hs dest action head ha, rfl, rfl⟩,
        fun ha ho x hx hh => execStitch_toSelf hl hst hw hs dest action head ha ho hx hh,
        fun ha ho hm => execStitch_toOther hl hst hw hs dest action head ha ho hm⟩⟩
    case roll => exact ⟨_, execRoll_answers hl hst hw hs no period answers, rfl, rfl, rfl, rfl, rfl, rfl, rfl, rfl⟩
    case scheduled =>
      rw [execSync_acks hl hst hw hs, if_neg (by rw [he]; decide), if_neg (by omega)]
      rfl
    case full =>
      rw [execSync_acks hl hst hw hs, if_neg (by rw [he]; decide), if_pos h4]
      rfl
    case ownAbsence =>
      exact ⟨_, execAbsent_fromMaster hl hst hw hs e hm hn, absentEntry_own (s := s.acked) h15 ho hx⟩
    case otherAbsence =>
      refine ⟨_, execAbsent_fromMaster hl hst hw hs e hm hn, ?_⟩
      rw [absentEntry_other (s := s.acked) h15 ho hf]
      exact ⟨List.mem_append_right _ (List.mem_singleton_self _), hs, rfl⟩
  case own =>
    refine ⟨fun hf => execTallyFrameRetry_first hl hs hx hf, fun d hf hd hn => ?dropped, fun hd at48 groups he => ?acked⟩
    case dropped =>
      refine ⟨_, execTallyFrameRetry_second hl hs hx hf hd hn, ?_⟩
      have calm := finish_calm 0x91 d .lasting 0 0 (s.modTally fun t => { t with dropped := satInc t.dropped })
      have waiting := finish_waiting 0x91 d .lasting 0 0 (s.modTally fun t => { t with dropped := satInc t.dropped })
      have tiles := State.calm_tiles calm
      obtain ⟨out, next⟩ := tallyNext_eq (refuse 0x91 d .lasting (s.modTally fun t => { t with dropped := satInc t.dropped }))
      rw [next, refuse]
      refine ⟨?_, tiles, waiting⟩
      simp only [State.calm_tally calm, State.modTally_tally, hx, List.tail_cons]
    case acked =>
      refine ⟨_, execTallyFrameAck_sync hl hs hx hd he, ?_⟩
      obtain ⟨out, next⟩ := tallyNext_eq (if x.failed then s.modTally fun t => { t with retry := satInc t.retry } else s)
      rw [next]
      cases x.failed <;> simp [hx]
  case rollCall =>
    intro f sent answer
    exact ⟨⟨_, execTallyRollCall_clean hl hs hm hd he ha answers, rfl, congrArg (s.aon.fck + ·) (msFck_eq _), rfl, rfl, rfl, rfl⟩,
      ⟨_, execTallyRollCall_second hl hs hm hd he ha answers, rfl, rfl, rfl⟩,
      ⟨_, execTallyRollCall_failed hl hs hm hd answers, rfl, rfl, he, rfl⟩⟩
  case declares =>
    rw [judgeStation_declares hh hm, declareAbsent_tally hf]
    exact ⟨List.mem_append_right _ (List.mem_singleton_self _), rfl⟩

end Sys2Proof.Machine
end

section
/-!
PROOFS. Pin filters, events, STUCK and timers (O57, R361 to R370).
-/
namespace Sys2Proof.Machine

open Sys2Proof

/-! ### The pins and timers of the state -/

theorem State.modPin_pin (s : State) (p : PinId) (f : Pin → Pin) : (s.modPin p f).gpio.pins[p] = f s.gpio.pins[p] :=
  State.modPin_hit ..

theorem State.modPin_other (s : State) {p k : PinId} (f : Pin → Pin) (h : k ≠ p) :
    (s.modPin p f).gpio.pins[k] = s.gpio.pins[k] := by
  have ne : p.val ≠ k.val := fun e => h (Fin.ext e.symm)
  simp [State.modPin, Vector.getElem_set_ne _ _ ne]

theorem State.modPin_modPin (s : State) (p : PinId) (f g : Pin → Pin) :
    (s.modPin p f).modPin p g = s.modPin p fun x => g (f x) := by
  simp [State.modPin]

theorem State.modPin_congr (s : State) (p : PinId) {f g : Pin → Pin} (h : f s.gpio.pins[p] = g s.gpio.pins[p]) :
    s.modPin p f = s.modPin p g := by
  rw [State.modPin, State.modPin, h]

theorem State.modTimer_congr (s : State) (k : Fin 16) {f g : Timer → Timer}
    (h : f s.gpio.timers[k] = g s.gpio.timers[k]) : s.modTimer k f = s.modTimer k g := by
  rw [State.modTimer, State.modTimer, h]

/-! ### Sources that nothing takes -/

/-- A source that no event line takes launches nothing (R366). -/
theorem lineLaunches_of_unfed {s : State} {code : Nat} (h : ∀ (q : PanelId) (k : Fin 32), (s.panels[q]).pinLine[k] ≠ code)
    (lvl : Bool) : lineLaunches s code lvl = [] := by
  refine List.flatMap_eq_nil_iff.mpr fun q _ => ?_
  rw [List.filter_eq_nil_iff.mpr fun k _ => by rw [beq_iff_eq]; exact h q k, List.map_nil]

theorem pinTriggers_of_noneArmed {s : State} (h : s.anyArmed = false) (p : PinId) (lvl : Bool) : s.pinTriggers p lvl = false :=
  List.any_eq_false.mpr fun hd _ => by
    rw [jobOf_of_noneArmed s h hd]
    exact Bool.false_ne_true

/-! ### The pad (R361) -/

/-- What the module drives depends on the pin's configuration, output, reject pulse and hold alone. -/
theorem pinDrive_modPin {s : State} {p : PinId} {f : Pin → Pin} (cfg : (f s.gpio.pins[p]).cfg = (s.gpio.pins[p]).cfg)
    (out : (f s.gpio.pins[p]).out = (s.gpio.pins[p]).out) (reject : (f s.gpio.pins[p]).reject = (s.gpio.pins[p]).reject)
    (hold : (f s.gpio.pins[p]).hold = (s.gpio.pins[p]).hold) : (s.modPin p f).pinDrive p = s.pinDrive p := by
  have source : ∀ code : Nat, (s.modPin p f).pinSource p code = s.pinSource p code := fun code => by
    simp only [State.pinSource, State.modPin_pin, Pin.oe, cfg, out]
    rfl
  have combined : (s.modPin p f).pinOut p = s.pinOut p := by
    simp only [State.pinOut, source, State.modPin_pin, Pin.oselA, Pin.oselB, cfg, reject]
    rfl
  simp only [State.pinDrive, combined, State.modPin_pin, Pin.idle, Pin.od, cfg, hold]
  rfl

/-- A pad at the sampled level is kept there. -/
theorem pinSample_settled {s : State} {p : PinId} (h : s.padLevel p = some (s.gpio.pins[p]).sync) :
    pinSample p s = s.modPin p fun x => { x with kept := (s.gpio.pins[p]).sync } := by
  simp only [pinSample, works, workOne, pinSampled, h, if_true, List.map_nil, List.append_nil]

/-- A pad at the other level waits for MINW to pass (R367). -/
theorem pinSample_edge {s : State} {p : PinId} {b : Bool} (h : s.padLevel p = some b) (hs : (s.gpio.pins[p]).sync ≠ b)
    (hf : (s.gpio.pins[p]).filt ≠ b) (hc : (s.gpio.pins[p]).cand = none) (on : s.fastOn = true)
    (hm : s.minwFck (s.pinProfile p) ≠ 0) : pinSample p s = s.modPin p fun x => { x with
      sync := b, kept := b, latch := some (s.aonTime, s.counts)
      cand := some (b, s.aon.fck + s.minwFck (s.pinProfile p)) } := by
  have profile : (s.modPin p fun x => { x with sync := b, kept := b, latch := some (s.aonTime, s.counts) }).pinProfile p =
      s.pinProfile p := by
    simp only [State.pinProfile, State.modPin_pin, Pin.prof]
    rfl
  have filters : pinFilter p (s.modPin p fun x => { x with sync := b, kept := b, latch := some (s.aonTime, s.counts) }) =
      ([], s.modPin p fun x => { x with
        sync := b, kept := b, latch := some (s.aonTime, s.counts)
        cand := some (b, s.aon.fck + s.minwFck (s.pinProfile p)) }) := by
    have differs : (b == (s.gpio.pins[p]).filt) = false := beq_eq_false_iff_ne.mpr (Ne.symm hf)
    have running : (s.modPin p fun x => { x with
      sync := b, kept := b, latch := some (s.aonTime, s.counts) }).fastOn = true := on
    have width : (s.modPin p fun x => { x with sync := b, kept := b, latch := some (s.aonTime, s.counts) }).minwFck
      (s.pinProfile p) = s.minwFck (s.pinProfile p) := rfl
    simp only [pinFilter, State.modPin_pin, profile, hc, Option.isSome_none, Bool.false_and, differs, Bool.false_eq_true, if_false,
      running, if_true, width, hm, State.modPin_modPin, State.modPin_aon]
  simp only [pinSample, works, workOne, pinSampled, h, hs, if_false, filters, List.map_nil, List.append_nil]

/-! ### Changes accepted (R367, R368, R370) -/

/-- The interrupt status takes an event where it is enabled; beside it only a message is raised. -/
theorem setIst_quiet (p : PinId) (s : State) :
    (setIst p s).quiet = (s.modPin p fun x => { x with ist := x.ist || x.ien }).quiet := by
  unfold setIst
  simp only []
  split
  next h =>
    obtain ⟨ien, -⟩ := Bool.and_eq_true_iff.mp h
    rw [raiseMsix_quiet, State.modPin_congr s p (g := fun x => { x with ist := x.ist || x.ien })]
    simp only [ien, Bool.or_true]
  next h =>
    have kept : ((s.gpio.pins[p]).ist || (s.gpio.pins[p]).ien) = (s.gpio.pins[p]).ist := by
      revert h
      cases (s.gpio.pins[p]).ist <;> cases (s.gpio.pins[p]).ien <;> decide
    rw [State.modPin_of_fixed]
    exact congrArg (fun b => { s.gpio.pins[p] with ist := b }) kept

theorem anyArmed_of_quiet {s u : State} (h : u.quiet = s.quiet) : u.anyArmed = s.anyArmed :=
  congrArg (fun v : Vector Head 8 => allHeads.any fun hd => (v[hd]).armed.isSome) (State.quiet_heads h)

/-- An event under IMODE starts the gap and reaches the interrupt status. -/
theorem pinEvent_quiet (p : PinId) (s : State) : ∃ gap, (pinEvent p true s).quiet = (s.modPin p fun x => { x with
    gapUntil := gap, ist := x.ist || x.ien }).quiet := by
  refine ⟨if profGap (s.pinProfile p) = 0 then none else some (s.aon.fck + 64 * profGap (s.pinProfile p)), ?_⟩
  simp only [pinEvent, if_true, setIst_quiet, State.modPin_modPin]

section
variable {s : State} {p : PinId} {lvl : Bool} (armed : s.anyArmed = false)
  (unfed : ∀ (q : PanelId) (k : Fin 32), (s.panels[q]).pinLine[k] ≠ p.val)
include armed unfed

/-- With no line fed and no job armed a state that differs by reports and pins alone notes no edge and launches nothing. -/
theorem noteEdge_unfed {u : State} {f : Pin → Pin} (h : u.quiet = (s.modPin p f).quiet) (time : BitVec 64) (counts : List Word) :
    (lineLaunches (noteEdge (BitVec.ofNat 16 p.val) lvl time counts u) p.val lvl,
      noteEdge (BitVec.ofNat 16 p.val) lvl time counts u) = ([], u) := by
  have panels : u.panels = (s.modPin p f).panels := State.quiet_panels h
  rw [noteEdge_of_noneArmed _ _ _ _ _ ((anyArmed_of_quiet h).trans armed),
    lineLaunches_of_unfed fun q k => by
    rw [panels]
    exact unfed q k]

/-- A change of the held level is an event where IMODE takes it, and launches nothing. -/
theorem pinTake_quiet (held : (s.gpio.pins[p]).held ≠ lvl) (free : (s.gpio.pins[p]).stuck = false) :
    ∃ gap u, pinTake p lvl s = ([], u) ∧ u.quiet = (s.modPin p fun x => { x with
      held := lvl, gapUntil := gap, ist := x.ist || (x.ien && (s.gpio.pins[p]).hits lvl) }).quiet := by
  obtain ⟨time, counts, takes⟩ : ∃ time counts, ∀ u, u = (if (s.gpio.pins[p]).hits lvl
      then pinEvent p true (s.modPin p fun x => { x with held := lvl }) else s.modPin p fun x => { x with held := lvl }) →
      pinTake p lvl s = (lineLaunches (noteEdge (BitVec.ofNat 16 p.val) lvl time counts u) p.val lvl,
        noteEdge (BitVec.ofNat 16 p.val) lvl time counts u) := by
    refine ⟨((s.gpio.pins[p]).latch.getD (s.aonTime, s.counts)).1, ((s.gpio.pins[p]).latch.getD (s.aonTime, s.counts)).2,
      fun u hu => ?_⟩
    unfold pinTake
    simp only [held, free, pinTriggers_of_noneArmed armed, Bool.or_false, Bool.false_eq_true, if_false, hu]
    cases (s.gpio.pins[p]).hits lvl <;> rfl
  cases hits : (s.gpio.pins[p]).hits lvl with
  | true =>
    obtain ⟨gap, quiet⟩ := pinEvent_quiet p (s.modPin p fun x => { x with held := lvl })
    rw [State.modPin_modPin] at quiet
    refine ⟨gap, _, (takes _ (if_pos hits).symm).trans (noteEdge_unfed armed unfed quiet time counts), quiet.trans ?_⟩
    simp only [Bool.and_true]
  | false =>
    refine ⟨(s.gpio.pins[p]).gapUntil, _, (takes _ (if_neg (by rw [hits]; decide)).symm).trans
      (noteEdge_unfed (f := fun x => { x with held := lvl }) armed unfed rfl time counts), ?_⟩
    rw [State.modPin_congr s p]
    simp only [Bool.and_false, Bool.or_false]

end

/-- The pin's level has passed MINW, and the pin was not STUCK. -/
def State.accepted (s : State) (p : PinId) (lvl : Bool) : State :=
  s.modPin p fun x => { x with
    filt := lvl, cand := none, woke := false
    activeSince := if s.pinActive p lvl then some s.aon.ticks else none }

theorem State.accepted_pin (s : State) (p : PinId) (lvl : Bool) : (s.accepted p lvl).gpio.pins[p] = { s.gpio.pins[p] with
    filt := lvl, cand := none, woke := false
    activeSince := if s.pinActive p lvl then some s.aon.ticks else none } :=
  State.modPin_pin ..

section
variable {s : State} {p : PinId} {lvl : Bool} (clear : (s.gpio.pins[p]).stuckPhase = .none)
include clear

/-- A change accepted while MIN_GAP runs counts as an overrun (R368). -/
theorem pinAccept_inGap {g : Nat} (hg : (s.gpio.pins[p]).gapUntil = some g) (early : s.aon.fck < g) :
    pinAccept p lvl s = ([], { s.accepted p lvl with
      gpio := { (s.accepted p lvl).gpio with overrun := s.gpio.overrun + 1 } }) := by
  have phase : (StuckPhase.none == StuckPhase.first) = false := rfl
  simp only [pinAccept, clear, phase, hg, Bool.and_false, Bool.false_eq_true, if_false, State.modPin_aon, early, if_true]
  rfl

theorem pinAccept_open (hg : (s.gpio.pins[p]).gapUntil = none) : pinAccept p lvl s = pinTake p lvl (s.accepted p lvl) := by
  have phase : (StuckPhase.none == StuckPhase.first) = false := rfl
  simp only [pinAccept, clear, phase, hg, Bool.and_false, Bool.false_eq_true, if_false]
  rfl

end

/-! ### The pin rows -/

section
variable {s : State} {p : PinId}

/-- PIN_EDGE of a pad that the module does not drive (R361, R367). -/
theorem execPinEdge_waits {b : Bool} (up : s.aon.up = true) (undriven : s.pinDrive p = none) (hs : (s.gpio.pins[p]).sync ≠ b)
    (hf : (s.gpio.pins[p]).filt ≠ b) (hc : (s.gpio.pins[p]).cand = none) (on : s.fastOn = true)
    (hm : s.minwFck (s.pinProfile p) ≠ 0) : exec (.pinEdge p (some b)) s = .next (s.modPin p fun x => { x with
      pad := some b, sync := b, kept := b, latch := some (s.aonTime, s.counts)
      cand := some (b, s.aon.fck + s.minwFck (s.pinProfile p)) }) := by
  have level : (s.modPin p fun x => { x with pad := some b }).padLevel p = some b := by
    rw [State.padLevel, pinDrive_modPin rfl rfl rfl rfl, undriven]
    simp only [State.modPin_pin]
  have profile : (s.modPin p fun x => { x with pad := some b }).pinProfile p = s.pinProfile p := by
    simp only [State.pinProfile, State.modPin_pin, Pin.prof]
    rfl
  have sampled := pinSample_edge level (by rw [State.modPin_pin]; exact hs) (by rw [State.modPin_pin]; exact hf)
    (by rw [State.modPin_pin]; exact hc) on (by rw [profile]; exact hm)
  rw [profile, State.modPin_modPin] at sampled
  show execPinEdge p (some b) s = _
  simp only [execPinEdge, State.modPin_aon, up, if_true, sampled]
  rfl

/-- A change that has held for MINW is accepted; here it launches nothing. -/
theorem execPinMinwAccept_due {lvl : Bool} {due : Nat} {u : State} (hc : (s.gpio.pins[p]).cand = some (lvl, due))
    (on : s.fastOn = true) (hd : due ≤ s.aon.fck) (accepts : pinAccept p lvl s = ([], u)) :
    exec (.pinMinwAccept p) s = .next u := by
  show execPinMinwAccept p s = _
  simp only [execPinMinwAccept, hc, on, hd, decide_true, Bool.and_self, if_true, accepts]
  rfl

theorem execPinMinGapEnd_same {g : Nat} (hg : (s.gpio.pins[p]).gapUntil = some g) (hd : g ≤ s.aon.fck)
    (runs : s.filterRuns p = true) (same : (s.gpio.pins[p]).held = (s.gpio.pins[p]).filt) :
    exec (.pinMinGapEnd p) s = .next (s.modPin p fun x => { x with gapUntil := none }) := by
  show execPinMinGapEnd p s = _
  simp only [execPinMinGapEnd, hg, hd, runs, same, decide_true, Bool.and_self, if_true]

/-- A pin active for longer than MAXACT becomes STUCK, for the first time with no entry (R369). -/
theorem execPinMaxactExpiry_first {a : Nat} (hm : profMax (s.pinProfile p) ≠ 0) (free : (s.gpio.pins[p]).stuck = false)
    (ha : (s.gpio.pins[p]).activeSince = some a) (runs : s.filterRuns p = true)
    (late : a + 16 * profMax (s.pinProfile p) < s.aon.ticks) (clear : (s.gpio.pins[p]).stuckPhase = .none)
    (unfed : ∀ (q : PanelId) (k : Fin 32), (s.panels[q]).pinLine[k] ≠ p.val) :
    exec (.pinMaxactExpiry p) s = .next (s.modPin p fun x => { x with
      stuck := true, stuckPhase := .first, wake := x.wake && x.locked }) := by
  have quiet : lineLaunches (s.modPin p fun x => { x with
      stuck := true, stuckPhase := .first, wake := x.wake && x.locked }) p.val false = [] :=
    lineLaunches_of_unfed unfed false
  show execPinMaxactExpiry p s = _
  simp only [execPinMaxactExpiry, ha, hm, free, runs, late, clear, ne_eq, not_false_eq_true, decide_true, Bool.not_false,
    Bool.and_self, if_true, Bool.false_eq_true, if_false, quiet]
  rfl

/-- The watch of a pin that has not become STUCK again ends with an entry (R369). -/
theorem execStuckResumeWindowEnd_pin {since : Nat} (hp : (s.gpio.pins[p]).stuckPhase = .watched since)
    (hd : since + 1024 ≤ s.aon.ticks) : ∃ t, exec (.stuckResumeWindowEnd (.pin p)) s = .next t ∧
      (t.gpio.pins[p]).stuckPhase = .none ∧ t.ledger.seq = nextSeq s.ledger.seq ∧ t.tiles = s.tiles := by
  have ends : exec (.stuckResumeWindowEnd (.pin p)) s =
      .next (logStuckPin .transient p (s.modPin p fun x => { x with stuckPhase := .none })) := by
    show execStuckResumeWindowEnd (.pin p) s = _
    simp only [execStuckResumeWindowEnd, hp, hd, if_true]
  have quiet := log_quiet (s.modPin p fun x => { x with stuckPhase := .none }) .transient 0x23 (unitSrc 7 p.val) (arg p.val) 2 0
  have tiles := State.quiet_tiles quiet
  refine ⟨_, ends, ?_, ?_, tiles⟩
  · rw [logStuckPin, State.quiet_gpio quiet, State.modPin_pin]
  · exact log_seq_of_unmerged _ _ _ _ _ _ _ (List.any_eq_false.mpr fun e _ => by rw [Entry.merges_transient]; decide)

theorem execPinFunctionHoldEnd_early (h : s.holdOver p = false) : exec (.pinFunctionHoldEnd p) s = .next s := by
  show execPinFunctionHoldEnd p s = _
  simp only [execPinFunctionHoldEnd, h, Bool.false_eq_true, if_false]

/-- A new function takes over on a pad that shows the sampled level (R364). -/
theorem execPinFunctionHoldEnd_settled (h : s.holdOver p = true)
    (hl : (s.modPin p fun x => { x with hold := false }).padLevel p = some (s.gpio.pins[p]).sync) :
    exec (.pinFunctionHoldEnd p) s =
      .next ((s.modPin p fun x => { x with hold := false }).modPin p fun y => { y with kept := (s.gpio.pins[p]).sync }) := by
  have sync : ((s.modPin p fun x => { x with hold := false }).gpio.pins[p]).sync = (s.gpio.pins[p]).sync := by
    rw [State.modPin_pin]
  show execPinFunctionHoldEnd p s = _
  simp only [execPinFunctionHoldEnd, h, if_true]
  rw [pinSample_settled (hl.trans (congrArg some sync.symm)), sync]

end

/-! ### Timers (R366) -/

section
variable {s : State} {k : Fin 16} (on : s.fastOn = true) (placed : (s.gpio.timers[k]).placed = true)
  (left : (s.gpio.timers[k]).left = 0) (unfed : ∀ (q : PanelId) (i : Fin 32), (s.panels[q]).pinLine[i] ≠ 129 + k.val)
  (unshown : ∀ p : PinId, (s.gpio.pins[p]).oselA ≠ 0x10 + k.val ∧ (s.gpio.pins[p]).oselB ≠ 0x10 + k.val)
include on placed left unfed unshown

/-- A timer that no pin and no line takes turns to the next level of its period. -/
theorem execTimerChannelExpiry_turns {f : Timer → Timer}
    (turned : (s.gpio.timers[k]).turned (!(s.gpio.timers[k]).output) = f s.gpio.timers[k]) :
    exec (.timerChannelExpiry k) s = .next (s.modTimer k f) := by
  have silent : ∀ lvl, lineLaunches (s.modTimer k fun x => x.turned (!x.output)) (129 + k.val) lvl = [] :=
    lineLaunches_of_unfed unfed
  show execTimerChannelExpiry k s = _
  simp only [execTimerChannelExpiry, on, placed, left, beq_self_eq_true, Bool.and_self, if_true, timerShows, silent]
  rw [State.modTimer_congr s k turned]
  exact congrArg Host.Outcome.next (pinsOfSource_of_unused unshown)

end

theorem execTimerChannelExpiry_waits {s : State} {k : Fin 16} (h : s.fastOn = false ∨ (s.gpio.timers[k]).left ≠ 0) :
    exec (.timerChannelExpiry k) s = .next s := by
  have waits : (s.fastOn && (s.gpio.timers[k]).placed && (s.gpio.timers[k]).left == 0) = false := by
    obtain off | left := h
    · rw [off, Bool.false_and, Bool.false_and]
    · rw [beq_eq_false_iff_ne.mpr left, Bool.and_false]
  show execTimerChannelExpiry k s = _
  simp only [execTimerChannelExpiry, waits, Bool.false_eq_true, if_false]

/-! ### The levels of a period: one that lasts no cycle is passed over (log 53) -/

section
variable {x : Timer}

theorem Timer.turned_high (h : x.high ≠ 0) : x.turned true = { x with output := true, left := x.high.toNat } := by
  have lasts : x.high.toNat ≠ 0 := fun e => h (BitVec.eq_of_toNat_eq e)
  simp only [Timer.turned, Timer.span, h, if_true, if_false, lasts]

theorem Timer.turned_high_skipped (h : x.high = 0) : x.turned true = { x with output := false, left := x.period.toNat } := by
  simp only [Timer.turned, Timer.span, h, if_true, Bool.not_true, Bool.false_eq_true, if_false]
  rfl

theorem Timer.turned_low (h : x.high.toNat < x.period.toNat) :
    x.turned false = { x with output := false, left := x.period.toNat - x.high.toNat } := by
  have lasts : x.period.toNat - x.high.toNat ≠ 0 := by omega
  simp only [Timer.turned, Timer.span, Bool.false_eq_true, if_false, lasts]

theorem Timer.turned_low_skipped (h : x.period.toNat ≤ x.high.toNat) (hh : x.high ≠ 0) :
    x.turned false = { x with output := true, left := x.high.toNat } := by
  have passes : x.period.toNat - x.high.toNat = 0 := by omega
  simp only [Timer.turned, Timer.span, Bool.false_eq_true, if_false, passes, if_true, Bool.not_false, hh]

end

/-- Settles O57, row by row: PIN_EDGE, PIN_MINW_ACCEPT in and out of the gap, PIN_MIN_GAP_END, PIN_MAXACT_EXPIRY, the end of the
watch, the end of a function switch, and the level that a timer turns to. -/
theorem pinsAndTimers : Obligations.PinsAndTimers := by
  refine ⟨fun p s => ⟨fun b up hp hs hf hc on hm => execPinEdge_waits up hp hs hf hc on hm, fun l down => ?unpowered,
      fun lvl due hc on hd free clear armed => ⟨fun g hg early => ?inGap, fun hg held unfed => ?accepted⟩,
      fun g hg hd runs same => execPinMinGapEnd_same hg hd runs same,
      fun a hm free ha runs late clear unfed => execPinMaxactExpiry_first hm free ha runs late clear unfed,
      fun since hp hd => execStuckResumeWindowEnd_pin hp hd, execPinFunctionHoldEnd_early,
      fun h hl => execPinFunctionHoldEnd_settled h hl⟩,
    fun k s => ⟨fun on placed left unfed unshown => ?timer, execTimerChannelExpiry_waits⟩⟩
  case unpowered => exact congrArg Host.Outcome.next (if_neg (by rw [State.modPin_aon, down]; decide))
  case inGap =>
    have pin := State.accepted_pin s p lvl
    have filt := congrArg Pin.filt pin
    have held := congrArg Pin.held pin
    exact ⟨_, execPinMinwAccept_due hc on hd (pinAccept_inGap clear hg early), rfl, filt, held, rfl⟩
  case accepted =>
    have taken := pinTake_quiet (s := s.accepted p lvl) (p := p) (lvl := lvl) armed unfed
      (by rw [State.accepted_pin]; exact held) (by rw [State.accepted_pin]; exact free)
    obtain ⟨gap, u, take, quiet⟩ := taken
    have gpio := State.quiet_gpio quiet
    have tiles := State.quiet_tiles quiet
    have panels := State.quiet_panels quiet
    refine ⟨u, execPinMinwAccept_due hc on hd ((pinAccept_open clear hg).trans take), ?_⟩
    rw [gpio, tiles, panels]
    simp only [State.accepted, State.modPin_pin, State.modPin_modPin]
    exact ⟨trivial, trivial, trivial, rfl, fun j hj => State.modPin_other _ _ hj, rfl, rfl⟩
  case timer =>
    have turns := @execTimerChannelExpiry_turns s k on placed left unfed unshown
    exact ⟨fun ho hp hh => turns (by rw [ho]; exact Timer.turned_low_skipped hp hh),
      fun ho hp => turns (by rw [ho]; exact Timer.turned_low hp), fun ho hh => turns (by rw [ho]; exact Timer.turned_high hh),
      fun ho hh => turns (by rw [ho]; exact Timer.turned_high_skipped hh)⟩

end Sys2Proof.Machine
end

section
/-!
PROOFS. The words of the tile engine: what the encoder writes the decoder reads, and the reverse (O53, R182, R184, R185).
-/
namespace Sys2Proof

/-! ### The fields of an encoded word (R182) -/

section
variable (op : Nat) (d a b : Reg4) (sub : Nat) (imm : Imm18) (off : Off22)

/-- A field above the last part of a word lies in the part before it. -/
theorem field_above {v w start len : Nat} {hi : BitVec v} {lo : BitVec w} (h : w ≤ start) :
    (hi ++ lo).extractLsb' start len = hi.extractLsb' (start - w) len := BitVec.extractLsb'_append_eq_of_le h

@[simp] theorem engD_encRI : engD (encRI op d a imm) = d :=
  (field_above (by decide)).trans ((field_above (by decide)).trans BitVec.extractLsb'_append_eq_right)
@[simp] theorem engA_encRI : engA (encRI op d a imm) = a :=
  (field_above (by decide)).trans BitVec.extractLsb'_append_eq_right
@[simp] theorem engImm_encRI : engImm (encRI op d a imm) = imm := BitVec.extractLsb'_append_eq_right
@[simp] theorem engOp_encRI : engOp (encRI op d a imm) = op % 64 := by
  have code : (encRI op d a imm).extractLsb' 26 6 = BitVec.ofNat 6 op :=
    (field_above (show 18 ≤ 26 by decide)).trans ((field_above (show 4 ≤ 8 by decide)).trans BitVec.extractLsb'_append_eq_left)
  exact (congrArg BitVec.toNat code).trans (BitVec.toNat_ofNat ..)

@[simp] theorem engD_encRR : engD (encRR op d a b sub) = d :=
  (field_above (by decide)).trans ((field_above (by decide)).trans ((field_above (by decide)).trans
    BitVec.extractLsb'_append_eq_right))
@[simp] theorem engA_encRR : engA (encRR op d a b sub) = a :=
  (field_above (by decide)).trans ((field_above (by decide)).trans BitVec.extractLsb'_append_eq_right)
@[simp] theorem engB_encRR : engB (encRR op d a b sub) = b :=
  (field_above (by decide)).trans BitVec.extractLsb'_append_eq_right
@[simp] theorem engOp_encRR : engOp (encRR op d a b sub) = op % 64 := by
  have code : (encRR op d a b sub).extractLsb' 26 6 = BitVec.ofNat 6 op :=
    (field_above (show 14 ≤ 26 by decide)).trans ((field_above (show 4 ≤ 12 by decide)).trans
      ((field_above (show 4 ≤ 8 by decide)).trans BitVec.extractLsb'_append_eq_left))
  exact (congrArg BitVec.toNat code).trans (BitVec.toNat_ofNat ..)
@[simp] theorem engSub_encRR : engSub (encRR op d a b sub) = sub % 2 ^ 14 :=
  (congrArg BitVec.toNat BitVec.extractLsb'_append_eq_right).trans (BitVec.toNat_ofNat ..)

@[simp] theorem engD_encBR : engD (encBR op d off) = d :=
  (field_above (by decide)).trans BitVec.extractLsb'_append_eq_right
@[simp] theorem engOff_encBR : engOff (encBR op d off) = off := BitVec.extractLsb'_append_eq_right
@[simp] theorem engOp_encBR : engOp (encBR op d off) = op % 64 :=
  (congrArg BitVec.toNat ((field_above (by decide)).trans BitVec.extractLsb'_append_eq_left)).trans (BitVec.toNat_ofNat ..)

/-- The sub-function's own bits, of a word of the multiplier (R185). -/
theorem field_encRR {hi lo : Nat} (h : lo + (hi - lo + 1) ≤ 14) :
    Word.field (encRR op d a b sub) hi lo = sub % 2 ^ 14 / 2 ^ lo % 2 ^ (hi - lo + 1) :=
  (congrArg BitVec.toNat (BitVec.extractLsb'_append_eq_of_add_le h)).trans (by
    rw [BitVec.extractLsb'_toNat, BitVec.toNat_ofNat, Nat.shiftRight_eq_div_pow])
theorem selector_encRR (f : Nat) (h : BitVec 2) (small : f < 256) :
    (encRR op d a b (f + 256 * h.toNat)).extractLsb' 8 2 = h :=
  BitVec.eq_of_toNat_eq ((field_encRR op d a b _ (hi := 9) (lo := 8) (by decide)).trans (by have := h.isLt; omega))

end

/-! ### Words as their fields (R182) -/

/-- Neighbouring fields of a word are one field. -/
theorem fields_join (w : Word) {start len len' : Nat} :
    w.extractLsb' (start + len) len' ++ w.extractLsb' start len = w.extractLsb' start (len' + len) :=
  BitVec.extractLsb'_append_extractLsb'_eq_extractLsb' rfl

theorem engOp_field (w : Word) : BitVec.ofNat 6 (engOp w) = w.extractLsb' 26 6 :=
  (BitVec.ofNat_toNat ..).trans (BitVec.setWidth_eq _)
theorem engSub_field (w : Word) : BitVec.ofNat 14 (engSub w) = w.extractLsb' 0 14 :=
  (BitVec.ofNat_toNat ..).trans (BitVec.setWidth_eq _)

theorem encRI_fields (w : Word) : encRI (engOp w) (engD w) (engA w) (engImm w) = w := by
  have hD : w.extractLsb' 26 6 ++ engD w = w.extractLsb' 22 10 := fields_join w
  have hA : w.extractLsb' 22 10 ++ engA w = w.extractLsb' 18 14 := fields_join w
  have hImm : w.extractLsb' 18 14 ++ engImm w = w.extractLsb' 0 32 := fields_join w
  rw [encRI, engOp_field, hD, hA, hImm]
  exact BitVec.extractLsb'_eq_self
theorem encRR_fields (w : Word) : encRR (engOp w) (engD w) (engA w) (engB w) (engSub w) = w := by
  have hD : w.extractLsb' 26 6 ++ engD w = w.extractLsb' 22 10 := fields_join w
  have hA : w.extractLsb' 22 10 ++ engA w = w.extractLsb' 18 14 := fields_join w
  have hB : w.extractLsb' 18 14 ++ engB w = w.extractLsb' 14 18 := fields_join w
  have hSub : w.extractLsb' 14 18 ++ w.extractLsb' 0 14 = w.extractLsb' 0 32 := fields_join w
  rw [encRR, engOp_field, engSub_field, hD, hA, hB, hSub]
  exact BitVec.extractLsb'_eq_self
theorem encBR_fields (w : Word) : encBR (engOp w) (engD w) (engOff w) = w := by
  have hD : w.extractLsb' 26 6 ++ engD w = w.extractLsb' 22 10 := fields_join w
  have hOff : w.extractLsb' 22 10 ++ engOff w = w.extractLsb' 0 32 := fields_join w
  rw [encBR, engOp_field, hD, hOff]
  exact BitVec.extractLsb'_eq_self

/-- The sub-function of a multiplier word: its low byte, the selectors, and four bits that must be 0 (R185). -/
theorem engSub_mul {w : Word} (zero : Word.field w 13 10 = 0) :
    engSub w = Word.field w 7 0 + 256 * (w.extractLsb' 8 2).toNat := by
  simp only [engSub, Word.field, BitVec.extractLsb_toNat, BitVec.extractLsb'_toNat, Nat.shiftRight_eq_div_pow] at zero ⊢
  omega

/-! ### Reading what was written -/

/-- The fields of a multiplier word with sub-function `f` and selectors `h`. -/
theorem fields_mul (d a b : Reg4) (h : BitVec 2) {f : Nat} (small : f < 256) :
    let w := encRR 0x10 d a b (f + 256 * h.toNat)
    Word.field w 13 10 = 0 ∧ Word.field w 7 0 = f ∧ w.extractLsb' 8 2 = h := by
  have bound := h.isLt
  refine ⟨?_, ?_, selector_encRR _ _ _ _ _ _ small⟩
  · rw [field_encRR _ _ _ _ _ (by decide)]; omega
  · rw [field_encRR _ _ _ _ _ (by decide)]; omega

theorem decode_encode {i : Instr} {t : TileId} {w : Word} (h : encodeEngine i = some (t, w)) : decodeEngine t w = some i := by
  cases i <;> simp only [encodeEngine, Option.some.injEq, Prod.mk.injEq, reduceCtorEq] at h <;> obtain ⟨rfl, rfl⟩ := h
  case mul d a b => obtain ⟨zero, byte, sel⟩ := fields_mul d a b 0 (f := 0) (by decide); simp_all [decodeEngine, decodeMul]
  case mulh d a b => obtain ⟨zero, byte, sel⟩ := fields_mul d a b 0 (f := 1) (by decide); simp_all [decodeEngine, decodeMul]
  case mac h d a b => obtain ⟨zero, byte, sel⟩ := fields_mul d a b h (f := 2) (by decide); simp_all [decodeEngine, decodeMul]
  case msu h d a b => obtain ⟨zero, byte, sel⟩ := fields_mul d a b h (f := 3) (by decide); simp_all [decodeEngine, decodeMul]
  case wracc d a b => obtain ⟨zero, byte, sel⟩ := fields_mul d a b 0 (f := 4) (by decide); simp_all [decodeEngine, decodeMul]
  all_goals simp [decodeEngine, decodeAlu, decodeEvent, decodeConv, decodeMsg, decodeCtl]

/-! ### Writing what was read -/

section
variable {t : TileId} {w : Word} {i : Instr}

theorem encoded_rr {op sub : Nat} (o : engOp w = op) (f : engSub w = sub) :
    some (t, encRR op (engD w) (engA w) (engB w) sub) = some (t, w) := by rw [← o, ← f, encRR_fields]
theorem encoded_ri {op : Nat} (o : engOp w = op) : some (t, encRI op (engD w) (engA w) (engImm w)) = some (t, w) := by
  rw [← o, encRI_fields]
theorem encoded_br {op : Nat} (o : engOp w = op) : some (t, encBR op (engD w) (engOff w)) = some (t, w) := by
  rw [← o, encBR_fields]

theorem encode_decodeAlu (o : engOp w = 0x00) (h : decodeAlu t w = some i) : encodeEngine i = some (t, w) := by
  unfold decodeAlu at h
  split at h <;> cases h <;> exact encoded_rr o ‹_›
theorem encode_decodeEvent (o : engOp w = 0x28) (h : decodeEvent t w = some i) : encodeEngine i = some (t, w) := by
  unfold decodeEvent at h
  split at h <;> cases h <;> exact encoded_rr o ‹_›
theorem encode_decodeConv (o : engOp w = 0x2C) (h : decodeConv t w = some i) : encodeEngine i = some (t, w) := by
  unfold decodeConv at h
  split at h <;> cases h <;> exact encoded_rr o ‹_›
theorem encode_decodeMsg (o : engOp w = 0x30) (h : decodeMsg t w = some i) : encodeEngine i = some (t, w) := by
  unfold decodeMsg at h
  split at h <;> cases h <;> exact encoded_rr o ‹_›
theorem encode_decodeCtl (o : engOp w = 0x38) (h : decodeCtl t w = some i) : encodeEngine i = some (t, w) := by
  unfold decodeCtl at h
  split at h <;> cases h <;> exact encoded_rr o ‹_›

theorem encode_decodeMul (o : engOp w = 0x10) (h : decodeMul t w = some i) : encodeEngine i = some (t, w) := by
  unfold decodeMul at h
  split at h
  · cases h
  next bits =>
    have sub := engSub_mul (not_not.mp bits)
    have unselected : ∀ x : BitVec 2, x = 0 → x.toNat = 0 := fun x e => e ▸ rfl
    dsimp only at h
    split at h
    next f => split at h <;> cases h; next z => exact encoded_rr o (by rw [sub, f, unselected _ z])
    next f => split at h <;> cases h; next z => exact encoded_rr o (by rw [sub, f, unselected _ z])
    next f => cases h; exact encoded_rr o (by rw [sub, f])
    next f => cases h; exact encoded_rr o (by rw [sub, f])
    next f => split at h <;> cases h; next z => exact encoded_rr o (by rw [sub, f, unselected _ z])
    next => cases h

theorem encode_decode (h : decodeEngine t w = some i) : encodeEngine i = some (t, w) := by
  unfold decodeEngine at h
  split at h
  case h_1 o => exact encode_decodeAlu o h
  case h_10 o => exact encode_decodeMul o h
  case h_23 o => exact encode_decodeEvent o h
  case h_24 o => exact encode_decodeConv o h
  case h_25 o => exact encode_decodeMsg o h
  case h_26 o => exact encode_decodeCtl o h
  case h_18 o => cases h; exact encoded_br o
  case h_19 o => cases h; exact encoded_br o
  all_goals cases h <;> exact encoded_ri ‹_›

end

/-- Settles O53: the decoder inverts the encoder on every instruction, and the encoder the decoder on every word. -/
theorem engineWordsRoundTrip : Obligations.EngineWordsRoundTrip :=
  ⟨fun _ _ _ h => decode_encode h, fun _ _ _ h => encode_decode h⟩

end Sys2Proof
end

section
/-!
PROOFS. The engine's arithmetic: instructions that go through an ALU with its flags, and the accumulator (O19 to O21, R184, R185).
-/
namespace Sys2Proof.Machine

open Sys2Proof

/-! ### One ALU result into a register (R184) -/

theorem Engine.put_regs (e : Engine) (d : Reg4) (r : Word × Flags) : (e.put d r).regs = (e.wr d r.1).regs := by
  unfold Engine.put Engine.wr; split <;> rfl
theorem Engine.put_flags (e : Engine) (d : Reg4) (r : Word × Flags) : (e.put d r).flags = r.2 := by
  unfold Engine.put Engine.wr; split <;> rfl
theorem Engine.put_only (e : Engine) (d : Reg4) (r : Word × Flags) :
    e.put d r = { e with regs := (e.put d r).regs, z := r.2.z, n := r.2.n, c := r.2.c, v := r.2.v } := by
  unfold Engine.put Engine.wr; split <;> rfl

theorem Engine.shows_of_flags {e : Engine} {r : Word} {c v : Bool} (h : e.flags = flagsOf r c v) : e.shows r c v := by
  obtain ⟨hz, hn, hc, hv⟩ := (Flags.mk.injEq ..).mp h
  exact ⟨hz.trans (beq_eq_decide r 0), hn, hc, hv⟩

section
variable {s : State} {t : TileId} {i : Instr} (runs : s.engineRuns t = true)
include runs

/-- An instruction that puts an ALU result into a register. -/
theorem ran_put {d : Reg4} {g : Engine → Word × Flags} {r : Word} {c v : Bool}
    (op : exec i s = engineAlu t false (fun e => e.put d (g e)) s)
    (result : g (s.tiles[t]).eng = (r, flagsOf r c v)) :
    ∃ s', s.ran i t s' ∧ (s.tiles[t]).eng.onlyAlu (s'.tiles[t]).eng ∧
      (s.tiles[t]).eng.wrote (s'.tiles[t]).eng d r ∧ (s'.tiles[t]).eng.shows r c v := by
  refine ⟨_, s.ran_modEng t i _ (op.trans (engineAlu_runs t _ s runs)) ?_ ?_, ?_⟩
  · rw [Engine.put_only]
  · rw [Engine.put_only]
  · rw [State.modEng_tile]
    rw [result]
    refine ⟨?_, Engine.wrote_regs ((s.tiles[t]).eng.wrote_wr d _) rfl (Engine.put_regs ..),
      Engine.shows_of_flags (Engine.put_flags ..)⟩
    unfold Engine.onlyAlu
    dsimp only
    rw [Engine.seq_only, Engine.put_only]

/-- An instruction that shows the flags of an ALU result and keeps every register. -/
theorem ran_setFlags {r : Word} {g : Engine → Flags} {c v : Bool}
    (op : exec i s = engineAlu t false (fun e => e.setFlags (g e)) s)
    (flags : g (s.tiles[t]).eng = flagsOf r c v) :
    ∃ s', s.ran i t s' ∧ (s.tiles[t]).eng.onlyAlu (s'.tiles[t]).eng ∧
      (s.tiles[t]).eng.wrote (s'.tiles[t]).eng 0 r ∧ (s'.tiles[t]).eng.shows r c v := by
  refine ⟨_, s.ran_modEng t i _ (op.trans (engineAlu_runs t _ s runs)) rfl rfl, ?_⟩
  rw [State.modEng_tile]
  exact ⟨rfl, Engine.wrote_e0 r rfl, Engine.shows_of_flags flags⟩

end

/-! ### Signed overflow (R184) -/

theorem aluAdd_overflow (x y : Word) :
    (x.msb == y.msb && (x + y).msb != x.msb) = decide ((x + y).toInt ≠ x.toInt + y.toInt) := by
  have hx := x.isLt
  have hy := y.isLt
  simp only [BitVec.msb_eq_decide, BitVec.toInt_eq_toNat_cond, BitVec.toNat_add]
  rw [Bool.eq_iff_iff]
  simp
  omega

theorem aluSub_overflow (x y : Word) :
    (x.msb != y.msb && (x - y).msb != x.msb) = decide ((x - y).toInt ≠ x.toInt - y.toInt) := by
  have hx := x.isLt
  have hy := y.isLt
  simp only [BitVec.msb_eq_decide, BitVec.toInt_eq_toNat_cond, BitVec.toNat_sub]
  rw [Bool.eq_iff_iff]
  simp
  omega

theorem aluAdd_eq (x y : Word) : aluAdd x y = (x + y,
    flagsOf (x + y) (decide (2 ^ 32 ≤ x.toNat + y.toNat)) (decide ((x + y).toInt ≠ x.toInt + y.toInt))) := by
  rw [← aluAdd_overflow]; rfl
theorem aluSub_eq (x y : Word) : aluSub x y = (x - y,
    flagsOf (x - y) (decide (y.toNat ≤ x.toNat)) (decide ((x - y).toInt ≠ x.toInt - y.toInt))) := by
  rw [← aluSub_overflow]; rfl

/-- Settles O19: the five instructions put, or only show, the result of the same two ALU operations. -/
theorem engineAddSubtract : Obligations.EngineAddSubtract := by
  intro t d a b imm s runs
  have shown := fun x y : Word => congrArg Prod.snd (aluSub_eq x y)
  exact ⟨ran_put runs rfl (aluAdd_eq ..), ran_put runs rfl (aluAdd_eq ..), ran_put runs rfl (aluSub_eq ..),
    ran_setFlags runs rfl (shown ..), ran_setFlags runs rfl (shown ..)⟩

/-! ### Shifts (R184) -/

theorem bne_zero_eq_decide_pos (n : Nat) : (n != 0) = decide (0 < n) := by
  cases n <;> simp

/-- Settles O20: logic and shifts put the ALU's result; LUI writes its register alone. -/
theorem engineLogicShifts : Obligations.EngineLogicShifts := by
  intro t d a b imm s runs
  refine ⟨ran_put runs rfl rfl, ran_put runs rfl rfl, ran_put runs rfl rfl, ran_put runs rfl rfl, ran_put runs rfl rfl,
    ⟨?register, fun small => ?immediate⟩, ?lui⟩
  case register =>
    refine ⟨ran_put runs rfl ?_, ran_put runs rfl ?_, ran_put runs rfl ?_⟩ <;>
      simp only [aluShl, aluShr, aluSar, bne_zero_eq_decide_pos]
  case immediate =>
    have amount : imm.toNat % 32 = imm.toNat := Nat.mod_eq_of_lt small
    have legal : shiftBad imm = false := decide_eq_false (by omega)
    rw [← amount]
    refine ⟨ran_put runs (by rw [← legal]; rfl) ?_, ran_put runs (by rw [← legal]; rfl) ?_, ran_put runs (by rw [← legal]; rfl) ?_⟩ <;>
      simp only [aluShl, aluShr, aluSar, bne_zero_eq_decide_pos]
  case lui =>
    refine ⟨_, s.ran_modEng t _ _ (engineAlu_runs t (fun e => e.wr d (imm.setWidth 32 <<< 14)) s runs) ?_ ?_, ?_⟩
    · simp
    · simp
    · rw [State.modEng_tile]
      have value : (imm.setWidth 32 <<< 14 : Word) = BitVec.ofNat 32 (imm.toNat * 2 ^ 14) := by
        apply BitVec.eq_of_toNat_eq
        have := imm.isLt
        simp [Nat.shiftLeft_eq]
      refine ⟨value ▸ Engine.wrote_regs ((s.tiles[t]).eng.wrote_wr d _) rfl rfl, ?_⟩
      simp [Engine.flags]

end Sys2Proof.Machine
end

section
/-!
PROOFS. The engine's multiplier and accumulator (O21, R184, R185).
-/
namespace Sys2Proof.Machine

open Sys2Proof

/-! ### Results that keep C and V -/

theorem Engine.putZn_regs (e : Engine) (d : Reg4) (r : Word) : (e.putZn d r).regs = (e.wr d r).regs := by
  unfold Engine.putZn Engine.wr; split <;> rfl

section
variable {s : State} {t : TileId} {i : Instr} (runs : s.engineRuns t = true)
include runs

/-- An instruction that puts a result and shows it in Z and N only. -/
theorem ran_putZn {d : Reg4} {g : Engine → Word} {r : Word}
    (op : exec i s = engineAlu t false (fun e => e.putZn d (g e)) s) (result : g (s.tiles[t]).eng = r) :
    ∃ s', s.ran i t s' ∧ (s.tiles[t]).eng.wrote (s'.tiles[t]).eng d r ∧
      (s'.tiles[t]).eng.shows r (s.tiles[t]).eng.c (s.tiles[t]).eng.v := by
  subst result
  refine ⟨_, s.ran_modEng t i _ (op.trans (engineAlu_runs t _ s runs)) ?_ ?_, ?_⟩
  · simp only [Engine.putZn, Engine.wr_pc]
  · simp only [Engine.putZn, Engine.wr_loops]
  · rw [State.modEng_tile]
    refine ⟨Engine.wrote_regs ((s.tiles[t]).eng.wrote_wr d _) rfl (Engine.putZn_regs ..), ?_⟩
    simp only [Engine.shows, Engine.putZn, Engine.seq_z, Engine.seq_n, Engine.seq_c, Engine.seq_v, Engine.wr_z, Engine.wr_n,
      Engine.wr_c, Engine.wr_v, beq_eq_decide, and_self]

end

/-! ### The product's high half (R184) -/

theorem extractLsb'_high_mul (x y : Word) :
    (x.signExtend 64 * y.signExtend 64).extractLsb' 32 32 = BitVec.ofInt 32 (x.toInt * y.toInt / 2 ^ 32) := by
  have product : x.signExtend 64 * y.signExtend 64 = BitVec.ofInt 64 (x.toInt * y.toInt) := by
    rw [BitVec.ofInt_mul, ← BitVec.toInt_signExtend_of_le (show 32 ≤ 64 by decide),
      ← BitVec.toInt_signExtend_of_le (show 32 ≤ 64 by decide), BitVec.ofInt_toInt, BitVec.ofInt_toInt]
  rw [product]
  apply BitVec.eq_of_toNat_eq
  simp only [BitVec.extractLsb'_toNat, BitVec.toNat_ofInt, Nat.shiftRight_eq_div_pow]
  omega

/-! ### Clamps (R184, R185) -/

theorem clampInt_fst (w : Nat) (x : Int) : (clampInt w x).1 = max (-(2 ^ (w - 1))) (min (2 ^ (w - 1) - 1) x) := by
  have pos : (0 : Int) < 2 ^ (w - 1) := by positivity
  unfold clampInt
  split
  · omega
  · split <;> omega
theorem clampInt_snd (w : Nat) (x : Int) : (clampInt w x).2 = decide (x < -(2 ^ (w - 1)) ∨ 2 ^ (w - 1) - 1 < x) := by
  unfold clampInt
  split
  · next low => simp [low]
  · next low => split <;> next high => simp [low, high]

/-- A clamped accumulator value is the one that the 40 bits hold. -/
theorem toInt_clampInt (x : Int) : (BitVec.ofInt 40 (clampInt 40 x).1).toInt = max (-(2 ^ 39)) (min (2 ^ 39 - 1) x) := by
  rw [clampInt_fst, BitVec.toInt_ofInt_eq_self (by decide)] <;> omega

section
variable {s : State} {t : TileId} {i : Instr} (runs : s.engineRuns t = true)
include runs

/-- MAC and MSU accumulate with saturation and touch neither registers nor flags (R185). -/
theorem ran_macc {sgn : Int} {h : BitVec 2} {a b : Reg4} {v : Int}
    (op : exec i s = engineAlu t false (fun e => e.macc sgn h a b) s)
    (value : (s.tiles[t]).eng.acc.toInt + sgn * (macHalf (h.getLsbD 0) ((s.tiles[t]).eng.rd a) *
      macHalf (h.getLsbD 1) ((s.tiles[t]).eng.rd b)) = v) :
    ∃ s', s.ran i t s' ∧ (s'.tiles[t]).eng.acc.toInt = max (-(2 ^ 39)) (min (2 ^ 39 - 1) v) ∧
      (s'.tiles[t]).eng.av = ((s.tiles[t]).eng.av || decide (v < -(2 ^ 39) ∨ 2 ^ 39 - 1 < v)) ∧
      (s'.tiles[t]).eng.regs = (s.tiles[t]).eng.regs ∧ (s'.tiles[t]).eng.flags = (s.tiles[t]).eng.flags := by
  refine ⟨_, s.ran_modEng t i _ (op.trans (engineAlu_runs t _ s runs)) rfl rfl, ?_⟩
  rw [State.modEng_tile]
  refine ⟨?_, ?_, rfl, rfl⟩
  · exact (toInt_clampInt _).trans (by rw [value])
  · rw [← value]; exact congrArg ((s.tiles[t]).eng.av || ·) (clampInt_snd 40 _)

end

/-- The shifted accumulator that RDACC clamps: the shift floors (R184). -/
theorem toInt_accShift (acc : BitVec 40) (n : Nat) : (acc.sshiftRight n).toInt = acc.toInt / 2 ^ n := by
  rw [BitVec.toInt_sshiftRight, Int.shiftRight_eq_div_pow]
  norm_cast

/-- The engine after RDACC with a clamped value `x`. -/
def Engine.accRead (e : Engine) (d : Reg4) (x : Int × Bool) : Engine :=
  { e with z := BitVec.ofInt 32 x.1 == 0, n := (BitVec.ofInt 32 x.1).msb, v := x.2 }.wr d (BitVec.ofInt 32 x.1)

theorem Engine.accRead_regs (e : Engine) (d : Reg4) (x : Int × Bool) :
    (e.accRead d x).regs = (e.wr d (BitVec.ofInt 32 x.1)).regs := by
  unfold Engine.accRead Engine.wr; split <;> rfl
theorem Engine.accRead_shows (e : Engine) (d : Reg4) (x : Int × Bool) :
    (e.accRead d x).seq.shows (BitVec.ofInt 32 x.1) e.c x.2 := by
  simp only [Engine.shows, Engine.accRead, Engine.seq_z, Engine.seq_n, Engine.seq_c, Engine.seq_v, Engine.wr_z, Engine.wr_n,
    Engine.wr_c, Engine.wr_v, beq_eq_decide, and_self]

theorem execRdacc_reads {s : State} {t : TileId} {d : Reg4} {imm : Imm18} (runs : s.engineRuns t = true)
    (inRange : imm.toNat ≤ 39) : exec (.rdacc t d 0 imm) s = .next (s.modEng t fun e =>
      (e.accRead d (clampInt 32 (e.acc.toInt / 2 ^ imm.toNat))).seq) := by
  have legal : ((0 : Reg4) != 0 || decide (39 < imm.toNat)) = false := by simp; omega
  have op : exec (.rdacc t d 0 imm) s = engineAlu t ((0 : Reg4) != 0 || decide (39 < imm.toNat))
      (fun e => e.accRead d (clampInt 32 (e.acc.sshiftRight imm.toNat).toInt)) s := rfl
  rw [op, legal, engineAlu_runs t _ s runs]
  simp only [toInt_accShift]

/-- Settles O21: MUL and MULH put a half of the product, MAC and MSU saturate, WRACC and RDACC move the accumulator. -/
theorem engineMultiply : Obligations.EngineMultiply := by
  intro t d a b h imm s runs
  refine ⟨ran_putZn runs rfl rfl, ran_putZn runs rfl (extractLsb'_high_mul ..), ran_macc runs rfl ?_, ran_macc runs rfl ?_,
    ?wracc, fun inRange => ?rdacc⟩
  · rw [one_mul]; rfl
  · rw [neg_one_mul, ← sub_eq_add_neg]; rfl
  case wracc =>
    refine ⟨_, s.ran_modEng t _ _ (engineAlu_runs t (fun e => { e with acc := (e.rd a).signExtend 40 }) s runs) rfl rfl, ?_⟩
    rw [State.modEng_tile]
    exact ⟨BitVec.toInt_signExtend_of_le (by decide), rfl⟩
  case rdacc =>
    have clamped := clampInt_fst 32 ((s.tiles[t]).eng.acc.toInt / 2 ^ imm.toNat)
    have clamps := clampInt_snd 32 ((s.tiles[t]).eng.acc.toInt / 2 ^ imm.toNat)
    refine ⟨_, s.ran_modEng t _ _ (execRdacc_reads runs inRange) ?_ ?_, ?_⟩
    · rw [Engine.accRead, Engine.wr_pc]
    · rw [Engine.accRead, Engine.wr_loops]
    · rw [State.modEng_tile]
      refine ⟨?_, ?_, by simp only [Engine.accRead]; exact Engine.wr_acc ..⟩
      · exact Engine.wrote_regs (clamped ▸ (s.tiles[t]).eng.wrote_wr d _) rfl (Engine.accRead_regs ..)
      · have shown := (s.tiles[t]).eng.accRead_shows d (clampInt 32 ((s.tiles[t]).eng.acc.toInt / 2 ^ imm.toNat))
        rw [clamped, clamps] at shown
        exact shown

end Sys2Proof.Machine
end

section
/-!
PROOFS. Engine instructions that stop their engine (O22, R183, R203).
-/
namespace Sys2Proof.Machine

open Sys2Proof

/-- What a fault leaves of the engine and of the module (R203). -/
theorem engFault_stops (t : TileId) (c : EngFault) (s : State) : let s' := engFault t c s
    (s'.tiles[t]).eng.st = .fault ∧ (s'.tiles[t]).eng.cause = c.code ∧ (s'.tiles[t]).eng.pc = (s.tiles[t]).eng.pc ∧
      (s'.tiles[t]).eng.arm = none ∧ (s'.tiles[t]).eng.regs = (s.tiles[t]).eng.regs ∧
      (s'.tiles[t]).eng.outbox = (s.tiles[t]).eng.outbox ∧ (s'.tiles[t]).engMem = (s.tiles[t]).engMem ∧
      (∀ k, k ≠ t → s'.tiles[k] = s.tiles[k]) := by
  dsimp only
  rw [engFault_tile]
  exact ⟨rfl, rfl, rfl, rfl, rfl, rfl, rfl, fun k h => engFault_other t k c s h⟩

section
variable {s : State} {t : TileId} {i : Instr} (runs : s.engineRuns t = true)
include runs

/-- An instruction with an unused bit that is not 0 stops the engine. -/
theorem execIllegal_stops {bad : Bool} {u : State}
    (op : exec i s = .next (if s.engineRuns t then (if bad then engFault t .illegal s else u) else s)) (illegal : bad = true) :
    ∃ s', exec i s = .next s' ∧ (s'.tiles[t]).eng.st = .fault ∧ (s'.tiles[t]).eng.cause = 1 ∧
      (s'.tiles[t]).eng.pc = (s.tiles[t]).eng.pc ∧ (s'.tiles[t]).eng.arm = none ∧
      (s'.tiles[t]).eng.regs = (s.tiles[t]).eng.regs ∧ (s'.tiles[t]).eng.outbox = (s.tiles[t]).eng.outbox ∧
      (s'.tiles[t]).engMem = (s.tiles[t]).engMem ∧ (∀ k, k ≠ t → s'.tiles[k] = s.tiles[k]) :=
  ⟨_, by rw [op, if_pos runs, if_pos illegal], engFault_stops t .illegal s⟩

/-- So does one whose operand has such a bit. -/
theorem execIllegalOperand_stops {p : Prop} [Decidable p] {u v : State}
    (op : exec i s = .next (if s.engineRuns t then (if false then v else if p then engFault t .illegal s else u) else s))
    (illegal : p) :
    ∃ s', exec i s = .next s' ∧ (s'.tiles[t]).eng.st = .fault ∧ (s'.tiles[t]).eng.cause = 1 ∧
      (s'.tiles[t]).eng.pc = (s.tiles[t]).eng.pc ∧ (s'.tiles[t]).eng.arm = none ∧
      (s'.tiles[t]).eng.regs = (s.tiles[t]).eng.regs ∧ (s'.tiles[t]).eng.outbox = (s.tiles[t]).eng.outbox ∧
      (s'.tiles[t]).engMem = (s.tiles[t]).engMem ∧ (∀ k, k ≠ t → s'.tiles[k] = s.tiles[k]) :=
  ⟨_, by rw [op, if_pos runs, if_neg Bool.false_ne_true, if_pos illegal], engFault_stops t .illegal s⟩

end

/-- No special register has a number above 0x11 (R190). -/
theorem readSpecial_unlisted (s : State) (t : TileId) {n : Nat} (h : 0x12 ≤ n) : readSpecial s t n = none := by
  unfold readSpecial
  split <;> first | rfl | omega

/-- Settles O22: each unused field is a flag of its instruction's engineOp, each operand bit a branch of its effect. -/
theorem engineIllegal : Obligations.EngineIllegal := by
  intro t d a b off imm s runs
  have unused : ∀ {x : Reg4}, x ≠ 0 → (x != 0) = true := fun h => bne_iff_ne.mpr h
  refine ⟨fun hd => ?_, fun ha => ?_, fun hb => ?_, fun big => ?_, fun far => ?_,
    fun unlisted => ?_, ?_, ?_,
    fun noMask => ?_, fun acts => ?_, fun sel => ?_, fun bits => ?_⟩
  · have bad := unused hd
    refine ⟨?_, ?_, ?_, ?_, ?_, ?_, ?_, ?_⟩
    all_goals refine execIllegal_stops runs rfl ?_; simp only [bad, Bool.true_or]
  · have bad := unused ha
    refine ⟨?_, ?_, ?_, ?_⟩
    all_goals refine execIllegal_stops runs rfl ?_; simp only [bad, Bool.true_or, Bool.or_true]
  · have bad := unused hb
    refine ⟨?_, ?_, ?_⟩
    all_goals refine execIllegal_stops runs rfl ?_; simp only [bad, Bool.or_true]
  · refine ⟨?_, ?_, ?_⟩
    all_goals refine execIllegal_stops runs rfl ?_; exact decide_eq_true big
  · refine execIllegal_stops runs rfl ?_
    simp only [far, decide_true, Bool.or_true]
  · refine execIllegal_stops runs rfl ?_
    simp only [readSpecial_unlisted s t unlisted, Option.isNone_none, Bool.or_true]
  · exact execIllegal_stops runs rfl rfl
  · exact execIllegal_stops runs rfl rfl
  · have zero : ((s.tiles[t]).eng.rd a).setWidth 16 = 0#16 := by
      have low := congrArg (BitVec.setWidth 16) noMask
      rwa [BitVec.setWidth_and, show (0xFFFF#32).setWidth 16 = BitVec.allOnes 16 from rfl, BitVec.and_allOnes] at low
    refine execIllegalOperand_stops runs rfl ?_
    exact ⟨zero, rfl⟩
  · refine execIllegalOperand_stops runs rfl ?_
    exact acts
  · refine execIllegalOperand_stops runs rfl ?_
    exact sel
  · have bad : sendBad ((s.tiles[t]).eng.rd a) = true := bne_iff_ne.mpr bits
    refine execIllegalOperand_stops runs rfl ?_
    exact bad

end Sys2Proof.Machine
end

section
/-!
PROOFS. The engine's loads and stores (O23, R179, R180).
-/
namespace Sys2Proof.Machine

open Sys2Proof

/-! ### Where an address lies (R179) -/

theorem placeOf_engMem {a : Nat} (h : a < 0x8000) : placeOf a = some (.eng a) := if_pos h
theorem placeOf_keep {a : Nat} (lo : 0x10000 ≤ a) (hi : a < 0x14000) : placeOf a = some (.keep (a - 0x10000)) := by
  rw [placeOf, if_neg (by omega), if_pos ⟨lo, hi⟩]
theorem placeOf_outside {a : Nat} (h : 0x20800 ≤ a ∨ (0x8000 ≤ a ∧ a < 0x10000)) : placeOf a = none := by
  rw [placeOf, if_neg (by omega), if_neg (by omega), if_neg (by omega), if_neg (by omega)]

/-! ### Accesses of clean engine memory in use -/

theorem checkWrite_of_clean {s : State} (l : Loc) (b n : Nat) (clean : s.mem.errs = []) (unarmed : s.mem.flipArm = false) :
    checkWrite l b n s = s := by
  simp [checkWrite, State.errOf, clean, applyFlips, State.flipHits, unarmed]

section
variable {s : State} {t : TileId} {a : Nat}

theorem engLoad_engMem {n : Nat} (inside : a < 0x8000) (aligned : a % n = 0) (clean : s.mem.errs = [])
    (inUse : s.pageRetired 0 t (a / 1024) = false) : engLoad t a n s = .bytes ((s.tiles[t]).engMem.bytes a n) s := by
  have open_ : s.placeBlocked t (.eng a) = false := inUse
  simp [engLoad, aligned, placeOf_engMem inside, open_, State.placeStalls, checkRead_of_clean _ clean, xorMask_zero, Tile.stored]

/-- The state after a store of bytes into engine memory. -/
def State.stored (s : State) (t : TileId) (a : Nat) (bs : List Byte) : State :=
  (s.modTile t fun x => { x with eng := keepStale x.eng x.engMem a bs.length }).modTile t fun x => x.write (.eng a) bs

theorem State.stored_tile (s : State) (t : TileId) (a : Nat) (bs : List Byte) : (s.stored t a bs).tiles[t] =
    { s.tiles[t] with
      eng := keepStale (s.tiles[t]).eng (s.tiles[t]).engMem a bs.length, engMem := (s.tiles[t]).engMem.putBytes a bs } := by
  rw [State.stored, State.modTile_tile, State.modTile_tile]; rfl
theorem State.stored_other (s : State) {t k : TileId} {a : Nat} {bs : List Byte} (h : k ≠ t) :
    (s.stored t a bs).tiles[k] = s.tiles[k] :=
  (State.modTile_miss _ _ _ _ h.symm).trans (State.modTile_miss _ _ _ _ h.symm)

theorem engStore_engMem {bs : List Byte} (inside : a < 0x8000) (aligned : a % bs.length = 0) (clean : s.mem.errs = [])
    (unarmed : s.mem.flipArm = false) (inUse : s.pageRetired 0 t (a / 1024) = false) :
    engStore t a bs s = .bytes [] (s.stored t a bs) := by
  have open_ : s.placeBlocked t (.eng a) = false := inUse
  simp [engStore, aligned, placeOf_engMem inside, open_, State.placeStalls, checkWrite_of_clean _ _ _ clean unarmed, State.stored]

theorem engLoad_misaligned {n : Nat} (h : a % n ≠ 0) : engLoad t a n s = .fails .align s := if_pos h
theorem engStore_misaligned {n v : Nat} (h : a % n ≠ 0) : engStore t a (natLe n v) s = .fails .align s :=
  if_pos (by rwa [natLe_length])
theorem engLoad_outside (h : placeOf a = none) : engLoad t a 1 s = .fails .address s := by
  simp [engLoad, h, Nat.mod_one]
theorem engStore_outside {v : Nat} (h : placeOf a = none) : engStore t a (natLe 1 v) s = .fails .address s := by
  simp [engStore, h, natLe_length, Nat.mod_one]
theorem engStore_keep {v off : Nat} (h : placeOf a = some (.keep off)) : engStore t a (natLe 1 v) s = .fails .address s := by
  simp [engStore, h, natLe_length, Nat.mod_one]

end

/-! ### The instructions -/

section
variable {s : State} {t : TileId} {i : Instr} {d a : Reg4} {imm : Imm18} {n : Nat} (runs : s.engineRuns t = true)
include runs

/-- A load that gives bytes of an untouched memory writes its register, and nothing else but the next instruction. -/
theorem engineLoad_ran {f : List Byte → Word} {bs : List Byte} {r : Word} (op : exec i s = engineLoad t d a imm n f s)
    (load : engLoad t ((s.tiles[t]).eng.ea a imm) n s = .bytes bs s) (value : f bs = r) :
    ∃ s', s.ran i t s' ∧ (s.tiles[t]).eng.wrote (s'.tiles[t]).eng d r ∧ (s'.tiles[t]).eng.flags = (s.tiles[t]).eng.flags := by
  subst value
  have effect : exec i s = .next (s.modEng t fun e => (e.wr d (f bs)).seq) := by
    rw [op, engineLoad, engineOp_runs t _ s runs, load]
  refine ⟨_, s.ran_modEng t i _ effect (Engine.wr_pc ..) (Engine.wr_loops ..), ?_⟩
  rw [State.modEng_tile]
  refine ⟨Engine.wrote_regs ((s.tiles[t]).eng.wrote_wr d _) rfl rfl, ?_⟩
  simp only [Engine.flags, Engine.seq_z, Engine.seq_n, Engine.seq_c, Engine.seq_v, Engine.wr_z, Engine.wr_n, Engine.wr_c, Engine.wr_v]

theorem engineLoad_faults {f : List Byte → Word} {c : EngFault} (op : exec i s = engineLoad t d a imm n f s)
    (load : engLoad t ((s.tiles[t]).eng.ea a imm) n s = .fails c s) : exec i s = .next (engFault t c s) := by
  rw [op, engineLoad, engineOp_runs t _ s runs, load]

theorem engineStore_faults {c : EngFault} (op : exec i s = engineStore t d a imm n s)
    (store : engStore t ((s.tiles[t]).eng.ea a imm) (natLe n ((s.tiles[t]).eng.rd d).toNat) s = .fails c s) :
    exec i s = .next (engFault t c s) := by
  rw [op, engineStore, engineOp_runs t _ s runs]
  dsimp only
  rw [store]

theorem engineStore_effect (op : exec i s = engineStore t d a imm n s) {bs : List Byte} {u : State}
    (store : engStore t ((s.tiles[t]).eng.ea a imm) (natLe n ((s.tiles[t]).eng.rd d).toNat) s = .bytes bs u) :
    exec i s = .next (u.modEng t Engine.seq) := by
  rw [op, engineStore, engineOp_runs t _ s runs]
  dsimp only
  rw [store]

/-- A store into clean engine memory in use changes the bytes named and no other. -/
theorem engineStore_stores (op : exec i s = engineStore t d a imm n s) (inside : (s.tiles[t]).eng.ea a imm < 0x8000)
    (aligned : (s.tiles[t]).eng.ea a imm % n = 0) (clean : s.mem.errs = []) (unarmed : s.mem.flipArm = false)
    (inUse : s.pageRetired 0 t ((s.tiles[t]).eng.ea a imm / 1024) = false) (wf : (s.tiles[t]).engMem.wf = true) :
    let bs := natLe n ((s.tiles[t]).eng.rd d).toNat
    let at_ := (s.tiles[t]).eng.ea a imm
    ∃ s', exec i s = .next s' ∧ (s'.tiles[t]).engMem.bytes at_ bs.length = bs ∧
      (∀ k, k < at_ ∨ at_ + bs.length ≤ k → (s'.tiles[t]).engMem.get k = (s.tiles[t]).engMem.get k) ∧
      (s'.tiles[t]).buffer = (s.tiles[t]).buffer ∧ (s'.tiles[t]).lutRam = (s.tiles[t]).lutRam ∧
      (s'.tiles[t]).eng.regs = (s.tiles[t]).eng.regs ∧ (s'.tiles[t]).eng.flags = (s.tiles[t]).eng.flags ∧
      (∀ k, k ≠ t → s'.tiles[k] = s.tiles[k]) ∧ s'.hostMem = s.hostMem := by
  intro bs at_
  have store := engStore_engMem (bs := bs) inside (by rwa [natLe_length]) clean unarmed inUse
  have tile := s.stored_tile t at_ bs
  refine ⟨_, engineStore_effect runs op store, ?_⟩
  rw [State.modEng_tile, tile]
  refine ⟨Memory.bytes_putBytes bs _ _ wf, fun k out => Memory.get_putBytes_out bs _ _ _ out, rfl, rfl, rfl, rfl, fun k other => ?_, rfl⟩
  rw [State.modEng_miss _ _ _ _ other, State.stored_other s other]

end

/-- The bytes of one address. -/
theorem word32_one (m : Memory) (a : Nat) : word32 (m.bytes a 1) = (m.get a).setWidth 32 := by
  have := (m.get a).isLt
  apply BitVec.eq_of_toNat_eq
  simp [word32, Memory.bytes, leNat]

/-- A fault, by what stays of the engine and its memory. -/
theorem exec_faults {i : Instr} {t : TileId} {c : EngFault} {s : State} (h : exec i s = .next (engFault t c s)) :
    ∃ s', exec i s = .next s' ∧ (s'.tiles[t]).eng.st = .fault ∧ (s'.tiles[t]).eng.cause = c.code ∧
      (s'.tiles[t]).engMem = (s.tiles[t]).engMem ∧ (s'.tiles[t]).eng.regs = (s.tiles[t]).eng.regs := by
  obtain ⟨st, cause, -, -, regs, -, mem, -⟩ := engFault_stops t c s
  exact ⟨_, h, st, cause, mem, regs⟩

/-- Settles O23, by where the address lies and whether it is aligned. -/
theorem engineMemory : Obligations.EngineMemory := by
  intro t d a imm s runs
  refine ⟨fun inside clean unarmed inUse wf => ⟨fun aligned => ⟨?_, ?_⟩, fun aligned => ⟨?_, ?_⟩, ?_, ?_⟩,
    fun odd => ⟨?_, ?_⟩, fun odd => ⟨?_, ?_⟩, fun outside => ⟨?_, ?_⟩, fun lo hi => ?_⟩
  · exact engineLoad_ran runs rfl (engLoad_engMem inside aligned clean inUse) rfl
  · exact engineStore_stores runs rfl inside aligned clean unarmed inUse wf
  · exact engineLoad_ran runs rfl (engLoad_engMem inside aligned clean inUse) rfl
  · exact engineStore_stores runs rfl inside aligned clean unarmed inUse wf
  · exact engineLoad_ran runs rfl (engLoad_engMem inside (Nat.mod_one _) clean inUse) (word32_one ..)
  · exact engineStore_stores runs rfl inside (Nat.mod_one _) clean unarmed inUse wf
  · exact exec_faults (engineLoad_faults runs rfl (engLoad_misaligned odd))
  · exact exec_faults (engineStore_faults runs rfl (engStore_misaligned odd))
  · exact exec_faults (engineLoad_faults runs rfl (engLoad_misaligned odd))
  · exact exec_faults (engineStore_faults runs rfl (engStore_misaligned odd))
  · exact exec_faults (engineLoad_faults runs rfl (engLoad_outside (placeOf_outside outside)))
  · exact exec_faults (engineStore_faults runs rfl (engStore_outside (placeOf_outside outside)))
  · exact exec_faults (engineStore_faults runs rfl (engStore_keep (placeOf_keep lo hi)))

end Sys2Proof.Machine
end

section
/-!
PROOFS. The engine's control flow: condition codes, branches, jumps and loops (O24, R184, R186, R189).
-/
namespace Sys2Proof.Machine

open Sys2Proof

/-! ### Where a branch goes (R184) -/

theorem branchTarget_eq (pc : Word) (off : Off22) : branchTarget pc off = pc + BitVec.ofInt 32 (4 * off.toInt) := by
  have wide : BitVec.ofInt 32 (4 * off.toInt) = off.signExtend 32 <<< 2 := by
    rw [BitVec.ofInt_mul, ← BitVec.toInt_signExtend_of_le (show 22 ≤ 32 by decide), BitVec.ofInt_toInt]
    apply BitVec.eq_of_toNat_eq
    simp only [BitVec.toNat_mul, BitVec.toNat_shiftLeft, Nat.shiftLeft_eq]
    rw [Nat.mul_comm]
    rfl
  rw [branchTarget, wide]

/-- The condition codes in the order of their table (R186). -/
theorem condHolds_table (e : Engine) : (List.range 15).map (fun k => condHolds e (BitVec.ofNat 4 k)) =
    [true, e.z, !e.z, e.n != e.v, e.n == e.v, !e.z && e.n == e.v, e.z || e.n != e.v, !e.c, e.c, e.c && !e.z, !e.c || e.z,
      e.n, !e.n, e.v, !e.v] := rfl

/-! ### Effects on the engine alone -/

section
variable {s : State} {t : TileId} {i : Instr}

/-- An instruction outside every loop that sets the program counter and links. -/
theorem exec_goes {f : Engine → Engine} {pc : Word} {link : Reg4} {v : Word} (effect : exec i s = .next (s.modEng t f))
    (next : f (s.tiles[t]).eng = { (s.tiles[t]).eng.wr link v with pc }) (outside : (s.tiles[t]).eng.loops = []) :
    ∃ s', exec i s = .next s' ∧ s.onlyEngine s' t ∧ (s'.tiles[t]).eng.pc = pc ∧
      (s.tiles[t]).eng.wrote (s'.tiles[t]).eng link v ∧ (s'.tiles[t]).eng.flags = (s.tiles[t]).eng.flags ∧
      (s'.tiles[t]).eng.loops = [] := by
  refine ⟨_, effect, s.onlyEngine_modEng t f, ?_⟩
  rw [State.modEng_tile]
  dsimp only
  rw [next]
  refine ⟨rfl, Engine.wrote_regs ((s.tiles[t]).eng.wrote_wr link v) rfl rfl, ?_, (Engine.wr_loops ..).trans outside⟩
  simp only [Engine.flags, Engine.wr_z, Engine.wr_n, Engine.wr_c, Engine.wr_v]

variable (runs : s.engineRuns t = true)
include runs

theorem execB_runs {cond : Reg4} {off : Off22} (legal : cond ≠ 15) : exec (.b t cond off) s = .next (s.modEng t fun e =>
    if condHolds e cond then e.jump true (branchTarget e.pc off) else e.seq) := by
  change execB t cond off s = _
  rw [execB, beq_false_of_ne legal, engineOp_runs t _ s runs]
theorem execBl_runs {cond : Reg4} {off : Off22} (legal : cond ≠ 15) : exec (.bl t cond off) s = .next (s.modEng t fun e =>
    if condHolds e cond then (e.wr 15 (e.pc + 4)).jump false (branchTarget e.pc off) else e.seq) := by
  change execBl t cond off s = _
  rw [execBl, beq_false_of_ne legal, engineOp_runs t _ s runs]

theorem execJalr_runs {d a : Reg4} {imm : Imm18} (aligned : ((s.tiles[t]).eng.rd a + imm.signExtend 32).toNat % 4 = 0) :
    exec (.jalr t d a imm) s =
      .next (s.modEng t fun e => (e.wr d (e.pc + 4)).jump (d == 0) ((s.tiles[t]).eng.rd a + imm.signExtend 32)) := by
  change execJalr t d a imm s = _
  rw [execJalr, engineOp_runs t _ s runs]
  dsimp only
  rw [if_neg (not_not.mpr aligned)]
theorem execJalr_misaligned {d a : Reg4} {imm : Imm18} (odd : ((s.tiles[t]).eng.rd a + imm.signExtend 32).toNat % 4 ≠ 0) :
    exec (.jalr t d a imm) s = .next (engFault t .align s) := by
  change execJalr t d a imm s = _
  rw [execJalr, engineOp_runs t _ s runs]
  dsimp only
  rw [if_pos odd]

theorem execLoop_runs {a : Reg4} {imm : Imm18} (small : imm.toNat < 256) :
    exec (.loop t 0 a imm) s = .next (openLoop t ((s.tiles[t]).eng.rd a).toNat imm.toNat s) := by
  have op : exec (.loop t 0 a imm) s = engineOp t (decide (256 ≤ imm.toNat)) _ s := rfl
  rw [op, decide_eq_false (by omega), engineOp_runs t _ s runs]
theorem execLoopi_runs {imm : Imm18} :
    exec (.loopi t 0 0 imm) s = .next (openLoop t (imm.toNat / 256) (imm.toNat % 256) s) := engineOp_runs t _ s runs

end

/-! ### Opening a loop (R189) -/

section
variable {s : State} {t : TileId} {i : Instr} {n len : Nat} (body : 0 < len)
include body

theorem openLoop_opens (count : 0 < n) (outside : (s.tiles[t]).eng.loops = []) : openLoop t n len s = s.modEng t fun e =>
    { e with pc := e.pc + 4
             loops := ⟨e.pc + 4, (s.tiles[t]).eng.pc + BitVec.ofNat 32 (4 * len), n⟩ :: e.loops } := by
  simp only [openLoop, outside, if_neg body.ne', if_neg count.ne', List.length_nil, List.any_nil, Bool.false_eq_true, if_false,
    show ¬ (2 ≤ 0) by decide]
theorem openLoop_skips : openLoop t 0 len s =
    s.modEng t fun e => e.goto ((s.tiles[t]).eng.pc + BitVec.ofNat 32 (4 * len) + 4) := by
  simp only [openLoop, if_neg body.ne', if_true]
theorem openLoop_full (count : 0 < n) (two : 2 ≤ (s.tiles[t]).eng.loops.length) : openLoop t n len s = engFault t .loop s := by
  simp only [openLoop, if_neg body.ne', if_neg count.ne', if_pos two]

/-- A LOOP opens a level, skips its body, or stops the engine. -/
theorem exec_opens (op : exec i s = .next (openLoop t n len s)) :
    (0 < n → (s.tiles[t]).eng.loops = [] → ∃ s', exec i s = .next s' ∧ s.onlyEngine s' t ∧
      (s'.tiles[t]).eng.pc = (s.tiles[t]).eng.pc + 4 ∧ (s'.tiles[t]).eng.loops =
        [⟨(s.tiles[t]).eng.pc + 4, (s.tiles[t]).eng.pc + BitVec.ofNat 32 (4 * len), n⟩] ∧
      (s'.tiles[t]).eng.regs = (s.tiles[t]).eng.regs) ∧
    (n = 0 → (s.tiles[t]).eng.loops = [] → ∃ s', exec i s = .next s' ∧ s.onlyEngine s' t ∧
      (s'.tiles[t]).eng.pc = (s.tiles[t]).eng.pc + BitVec.ofNat 32 (4 * len) + 4 ∧ (s'.tiles[t]).eng.loops = []) ∧
    (2 ≤ (s.tiles[t]).eng.loops.length → 0 < n → ∃ s', exec i s = .next s' ∧ (s'.tiles[t]).eng.st = .fault ∧
      (s'.tiles[t]).eng.cause = 5) := by
  refine ⟨fun count outside => ?opened, fun none_ outside => ?skipped, fun two count => ?full⟩
  case opened =>
    refine ⟨_, op.trans (congrArg _ (openLoop_opens body count outside)), s.onlyEngine_modEng t _, ?_⟩
    rw [State.modEng_tile]
    exact ⟨rfl, by dsimp only; rw [outside], rfl⟩
  case skipped =>
    subst none_
    refine ⟨_, op.trans (congrArg _ (openLoop_skips body)), s.onlyEngine_modEng t _, ?_⟩
    rw [State.modEng_tile]
    dsimp only
    rw [Engine.goto_nil _ _ outside]
    exact ⟨rfl, rfl⟩
  case full =>
    obtain ⟨st, cause, -⟩ := engFault_stops t .loop s
    exact ⟨_, op.trans (congrArg _ (openLoop_full body count two)), st, cause⟩

end

/-- Settles O24: the branches by their condition, JALR by its target, LOOP and LOOPI by the count. -/
theorem engineControlFlow : Obligations.EngineControlFlow := by
  intro t cond d a off imm s runs
  refine ⟨condHolds_table _, fun reserved i hi => ?reserved, fun outside legal holds => ⟨?_, ?_⟩, fun outside legal fails => ⟨?_, ?_⟩,
    fun outside aligned => ?jalr, fun odd => ?misaligned, fun pos small => exec_opens pos (execLoop_runs runs small),
    fun pos => exec_opens pos (execLoopi_runs runs)⟩
  case reserved =>
    subst reserved
    rcases List.mem_pair.mp hi with rfl | rfl
    · obtain ⟨s', ran, st, cause, -, -, regs, -⟩ := execIllegal_stops (i := .b t 15 off) runs rfl rfl
      exact ⟨s', ran, st, cause, regs⟩
    · obtain ⟨s', ran, st, cause, -, -, regs, -⟩ := execIllegal_stops (i := .bl t 15 off) runs rfl rfl
      exact ⟨s', ran, st, cause, regs⟩
  · refine exec_goes (execB_runs runs legal) ?_ outside (v := (s.tiles[t]).eng.pc + 4)
    rw [if_pos holds, Engine.jump_nil _ _ _ outside, branchTarget_eq]; rfl
  · refine exec_goes (execBl_runs runs legal) ?_ outside
    rw [if_pos holds, Engine.jump_nil _ _ _ ((Engine.wr_loops ..).trans outside), branchTarget_eq]
  · refine exec_goes (execB_runs runs legal) ?_ outside
    rw [fails, if_neg Bool.false_ne_true, Engine.seq, Engine.goto_nil _ _ outside, ← outside]; rfl
  · refine exec_goes (execBl_runs runs legal) ?_ outside
    rw [fails, if_neg Bool.false_ne_true, Engine.seq, Engine.goto_nil _ _ outside, ← outside]; rfl
  case jalr =>
    refine exec_goes (execJalr_runs runs aligned) ?_ outside
    rw [Engine.jump_nil _ _ _ ((Engine.wr_loops ..).trans outside)]
  case misaligned =>
    obtain ⟨st, cause, -⟩ := engFault_stops t .align s
    exact ⟨_, execJalr_misaligned runs odd, st, cause⟩

end Sys2Proof.Machine
end

section
/-!
PROOFS. The frame of a cascade: whatever a launch causes in crossbars and pins, it leaves alone every field but those that tile
event inputs, select ports and pins write.
-/
namespace Sys2Proof.Machine

open Sys2Proof

/-! ### What a cascade leaves alone -/

/-- A comparator without its latch and ramp start. -/
def Comparator.outsideCascade (x : Comparator) : Comparator := { x with lat := false, rampAt := none }
/-- An engine without its events, captures and status. -/
def Engine.outsideCascade (e : Engine) : Engine := { e with evm := 0, capFifo := [], status := 0 }
/-- A trowel without its next play and the cut of the present one. -/
def Trowel.outsideCascade (w : Trowel) : Trowel := { w with due := none, current := none, cut := false, chopOn := false }
/-- A SAR without its next start and the mark of a dropped one. -/
def Sar.outsideCascade (x : Sar) : Sar := { x with missed := false, nextAt := none }
/-- A tile without what its event inputs write (R170). -/
def Tile.outsideCascade (x : Tile) : Tile :=
  { x with
    cmpA := x.cmpA.outsideCascade, cmpB := x.cmpB.outsideCascade, eng := x.eng.outsideCascade
    trowel := x.trowel.outsideCascade, sar := x.sar.outsideCascade
    tei := Vector.replicate 3 false, pulses := 0 }
/-- A panel without the levels of its sinks and the frame words of its port. -/
def Panel.outsideCascade (x : Panel) : Panel := { x with sinkLvl := Vector.replicate 256 false, portWords := [] }
/-- A head without its waiting trigger edges, which only an armed job collects (R45). -/
def Head.outsideCascade (x : Head) : Head := { x with edges := if x.armed.isSome then [] else x.edges }

/-- The state without reports, pins, wakes, free values, and what a cascade writes into tiles, panels and heads. -/
def State.outsideCascade (s : State) : State :=
  { s.quiet with
    aon := { s.aon with wakeLast := 0 }, clk := {}, lineSyncs := [], free := 0, gpio := {}
    heads := s.heads.map Head.outsideCascade, panels := s.panels.map Panel.outsideCascade
    tiles := s.tiles.map Tile.outsideCascade }

theorem State.outsideCascade_modTile (s : State) (t : TileId) {f : Tile → Tile}
    (h : ∀ x, (f x).outsideCascade = x.outsideCascade) : (s.modTile t f).outsideCascade = s.outsideCascade := by
  have tiles : (s.modTile t f).tiles.map Tile.outsideCascade = s.tiles.map Tile.outsideCascade :=
    Vector.ext fun i hi => by
      simp only [Vector.getElem_map]
      exact s.modTile_read t f Tile.outsideCascade h ⟨i, hi⟩
  exact congrArg (fun v : Vector Tile 512 => { s.outsideCascade with tiles := v }) tiles

theorem State.outsideCascade_modPanel (s : State) (p : PanelId) {f : Panel → Panel}
    (h : ∀ x, (f x).outsideCascade = x.outsideCascade) : (s.modPanel p f).outsideCascade = s.outsideCascade := by
  have panels : (s.modPanel p f).panels.map Panel.outsideCascade = s.panels.map Panel.outsideCascade := by
    refine Vector.ext fun i hi => ?_
    simp only [State.modPanel, Vector.getElem_map, Vector.getElem_set]
    split
    next same => subst same; exact h _
    next => rfl
  exact congrArg (fun v : Vector Panel 8 => { s.outsideCascade with panels := v }) panels

theorem State.outsideCascade_modHead (s : State) (p : HeadId) {f : Head → Head}
    (h : (f s.heads[p]).outsideCascade = (s.heads[p]).outsideCascade) : (s.modHead p f).outsideCascade = s.outsideCascade := by
  have heads : (s.modHead p f).heads.map Head.outsideCascade = s.heads.map Head.outsideCascade := by
    refine Vector.ext fun i hi => ?_
    simp only [State.modHead, Vector.getElem_map, Vector.getElem_set]
    split
    next same => subst same; exact h
    next => rfl
  exact congrArg (fun v : Vector Head 8 => { s.outsideCascade with heads := v }) heads

theorem State.outsideCascade_modPin (s : State) (p : PinId) (f : Pin → Pin) :
    (s.modPin p f).outsideCascade = s.outsideCascade := rfl
theorem State.outsideCascade_of_quiet {s t : State} (h : t.quiet = s.quiet) : t.outsideCascade = s.outsideCascade := by
  have q := congrArg State.outsideCascade h
  exact q

theorem State.armed_of_jobOf {s : State} {h : HeadId} {j : JobDef} (job : s.jobOf h = some j) : (s.heads[h]).armed.isSome = true := by
  unfold State.jobOf at job
  cases armed : (s.heads[h]).armed with
  | none => rw [armed] at job; exact absurd job (by simp)
  | some k => rfl

/-! ### Pins (R366 to R370) -/

section
variable (s : State)

theorem wake_outsideCascade (src : BitVec 4) : (wake src s).outsideCascade = s.outsideCascade := by
  unfold wake; split <;> rfl

theorem noteEdge_outsideCascade (code : BitVec 16) (lvl : Bool) (time : BitVec 64) (counts : List Word) :
    (noteEdge code lvl time counts s).outsideCascade = s.outsideCascade := by
  refine foldl_keeps State.outsideCascade _ (fun u h => ?_) allHeads s
  split
  next j job =>
    split
    · refine u.outsideCascade_modHead h ?_
      have armed := State.armed_of_jobOf job
      simp only [Head.outsideCascade, armed, if_true]
    · rfl
  next => rfl

theorem setIst_outsideCascade (p : PinId) : (setIst p s).outsideCascade = s.outsideCascade := by
  simp only [setIst]
  split
  · exact (State.outsideCascade_of_quiet (raiseMsix_quiet ..)).trans (State.outsideCascade_modPin ..)
  · rfl

theorem pinEvent_outsideCascade (p : PinId) (imode : Bool) : (pinEvent p imode s).outsideCascade = s.outsideCascade := by
  simp only [pinEvent]
  split
  · exact setIst_outsideCascade ..
  · rfl

theorem pinTake_outsideCascade (p : PinId) (lvl : Bool) : (pinTake p lvl s).2.outsideCascade = s.outsideCascade := by
  simp only [pinTake]
  split
  · rfl
  · split
    · rfl
    · rw [noteEdge_outsideCascade]
      split
      · exact pinEvent_outsideCascade ..
      · rfl

theorem pinAccept_outsideCascade (p : PinId) (lvl : Bool) : (pinAccept p lvl s).2.outsideCascade = s.outsideCascade := by
  unfold pinAccept
  simp only []
  generalize hu : s.modPin p _ = u
  have noted : u.outsideCascade = s.outsideCascade := hu ▸ rfl
  rw [← noted]
  split
  · split
    · rfl
    · exact pinTake_outsideCascade ..
  · exact pinTake_outsideCascade ..

theorem pinFilter_outsideCascade (p : PinId) : (pinFilter p s).2.outsideCascade = s.outsideCascade := by
  simp only [pinFilter]
  split
  · split <;> rfl
  · split
    · rfl
    · split
      · split
        · exact pinAccept_outsideCascade ..
        · rfl
      · split
        · split
          · exact wake_outsideCascade ..
          · split <;> rfl
        · rfl

theorem pinSampled_outsideCascade (p : PinId) : (pinSampled p s).2.outsideCascade = s.outsideCascade := by
  unfold pinSampled
  split
  next lvl u hu =>
    have drawn : u.outsideCascade = s.outsideCascade := by
      cases hp : s.padLevel p <;> simp only [hp] at hu <;> obtain ⟨-, rfl⟩ := Prod.mk.inj hu <;> rfl
    rw [← drawn]
    split
    · rfl
    · exact pinFilter_outsideCascade ..

/-! ### Tile event inputs (R170, R191, R196) -/

theorem setEvm_outsideCascade (t : TileId) (bit : Nat) : (setEvm t bit s).outsideCascade = s.outsideCascade := by
  unfold setEvm
  split
  · rfl
  · exact s.outsideCascade_modTile t fun _ => rfl

theorem capture_outsideCascade (t : TileId) (src : BitVec 3) : (capture t src s).outsideCascade = s.outsideCascade :=
  s.outsideCascade_modTile t fun x => by dsimp only; split <;> rfl

theorem Sar.outsideCascade_trigger (b : Bool) (n : Option Nat) (x : Sar) :
    (if b then { x with missed := true } else { x with nextAt := n } : Sar).outsideCascade = x.outsideCascade := by
  split <;> rfl
theorem adcTrigger_outsideCascade (t : TileId) : (adcTrigger t s).outsideCascade = s.outsideCascade := by
  simp only [adcTrigger]
  split
  · exact s.outsideCascade_modTile t fun x =>
      congrArg (fun y : Sar => { x.outsideCascade with sar := y }) (Sar.outsideCascade_trigger ..)
  · rfl

theorem stagePlay_outsideCascade (t : TileId) : (stagePlay t s).outsideCascade = s.outsideCascade :=
  s.outsideCascade_modTile t fun _ => rfl

theorem inhibitCut_outsideCascade (t : TileId) : (inhibitCut t s).outsideCascade = s.outsideCascade := by
  unfold inhibitCut
  split
  · exact s.outsideCascade_modTile t fun _ => rfl
  · rfl

theorem Comparator.outsideCascade_unlatch (now : Nat) (x : Comparator) : (x.unlatch now).outsideCascade = x.outsideCascade := by
  unfold Comparator.unlatch; split <;> rfl

theorem periodStart_outsideCascade (t : TileId) (c : Cmp) : (periodStart t c s).2.outsideCascade = s.outsideCascade := by
  have started : ∀ x : Comparator, (if x.latch = 2 then ({ x with rampAt := some s.aon.run } : Comparator).unlatch s.aon.fck
      else { x with rampAt := some s.aon.run }).outsideCascade = x.outsideCascade := fun x => by
    split
    · exact Comparator.outsideCascade_unlatch ..
    · rfl
  refine s.outsideCascade_modTile t fun x => ?_
  cases c
  · exact congrArg (fun y : Comparator => { x.outsideCascade with cmpA := y }) (started x.cmpA)
  · exact congrArg (fun y : Comparator => { x.outsideCascade with cmpB := y }) (started x.cmpB)

theorem teiRise_outsideCascade (t : TileId) (k : Fin 3) : (teiRise t k s).2.outsideCascade = s.outsideCascade := by
  unfold teiRise
  simp only []
  split
  · rfl
  · simp only [apply_ite Prod.snd, apply_ite State.outsideCascade, periodStart_outsideCascade, inhibitCut_outsideCascade,
      stagePlay_outsideCascade, adcTrigger_outsideCascade, capture_outsideCascade, setEvm_outsideCascade, ite_self]

/-! ### Crossbars (R168, R169) -/

theorem sinkChange_outsideCascade (p : PanelId) (k : Nat) (lvl : Bool) :
    (sinkChange p k lvl s).2.outsideCascade = s.outsideCascade := by
  unfold sinkChange
  split
  next h =>
    simp only []
    have tei := s.outsideCascade_modTile (tileAt p ⟨k / 3, by omega⟩)
      (f := fun x => { x with tei := x.tei.set (⟨k % 3, by omega⟩ : Fin 3) lvl }) fun _ => rfl
    split
    · exact (teiRise_outsideCascade ..).trans tei
    · exact tei
  next => split <;> rfl

theorem staleGrant_outsideCascade (l : Launch) (k : Fin 256) : (staleGrant l k s).outsideCascade = s.outsideCascade := by
  simp only [staleGrant]
  split
  · split
    · exact State.outsideCascade_of_quiet (log_quiet ..)
    · rfl
  · rfl

theorem launchSinks_outsideCascade (l : Launch) : (launchSinks l s).2.outsideCascade = s.outsideCascade := by
  unfold launchSinks
  split
  · refine foldl_work_keeps State.outsideCascade _ (fun r k => ?_) _ ([], s)
    have level := fun lvl => r.2.outsideCascade_modPanel l.panel (f := fun x => { x with sinkLvl := x.sinkLvl.set k lvl })
      fun _ => rfl
    simp only [apply_ite Prod.snd, apply_ite State.outsideCascade, sinkChange_outsideCascade, level,
      staleGrant_outsideCascade, ite_self]
  · rfl

theorem launchOne_outsideCascade (l : Launch) : (launchOne l s).2.outsideCascade = s.outsideCascade := by
  simp only [launchOne]
  split
  · exact launchSinks_outsideCascade s l
  · exact launchSinks_outsideCascade s l

theorem workOne_outsideCascade (w : Work) : (workOne w s).2.outsideCascade = s.outsideCascade := by
  cases w with
  | line l => exact launchOne_outsideCascade s l
  | pin p => exact pinSampled_outsideCascade s p
  | port p => exact s.outsideCascade_modPanel p (f := fun x => { x with portWords := [] }) fun _ => rfl

theorem works_outsideCascade (n : Nat) (ws : List Work) : (works n ws s).outsideCascade = s.outsideCascade := by
  induction n generalizing ws s with
  | zero => rfl
  | succ n ih =>
    cases ws with
    | nil => rfl
    | cons w ws => rw [works, ih, workOne_outsideCascade]

theorem launch_outsideCascade (l : Launch) : (launch l s).outsideCascade = s.outsideCascade := works_outsideCascade ..
theorem launches_outsideCascade (ls : List Launch) : (launches ls s).outsideCascade = s.outsideCascade :=
  works_outsideCascade ..
theorem pinSample_outsideCascade (p : PinId) : (pinSample p s).outsideCascade = s.outsideCascade := works_outsideCascade ..

theorem trigPulse_outsideCascade (t : TileId) : (trigPulse t s).outsideCascade = s.outsideCascade := by
  have pulse := (s.send (.trig t)).outsideCascade_modTile t (f := fun x => { x with pulses := x.pulses ||| 4#4 }) fun _ => rfl
  simp only [trigPulse]
  split
  · rw [launch_outsideCascade, launch_outsideCascade]; exact pulse
  · exact pulse

end

/-! ### What that leaves alone -/

section
variable {s t : State} (h : t.outsideCascade = s.outsideCascade)
include h

theorem State.outsideCascade_tile (k : TileId) : (t.tiles[k]).outsideCascade = (s.tiles[k]).outsideCascade := by
  have q := congrArg (fun x : State => x.tiles[k]) h
  simpa only [State.outsideCascade, Fin.getElem_fin, Vector.getElem_map] using q
theorem State.outsideCascade_eng (k : TileId) : (t.tiles[k]).eng.outsideCascade = (s.tiles[k]).eng.outsideCascade :=
  congrArg Tile.eng (State.outsideCascade_tile h k)
theorem State.outsideCascade_regs (k : TileId) : (t.tiles[k]).eng.regs = (s.tiles[k]).eng.regs := by
  have q := congrArg Engine.regs (State.outsideCascade_eng h k); exact q
theorem State.outsideCascade_pc (k : TileId) : (t.tiles[k]).eng.pc = (s.tiles[k]).eng.pc := by
  have q := congrArg Engine.pc (State.outsideCascade_eng h k); exact q

end

end Sys2Proof.Machine
end

section
/-!
PROOFS. The engine's event instructions (O25, R192 to R196).
-/
namespace Sys2Proof.Machine

open Sys2Proof

/-! ### WAIT (R192) -/

@[simp] theorem Engine.takeEvents_evm (e : Engine) (m : BitVec 16) (d : Reg4) :
    (e.takeEvents m d).evm = e.evm &&& ~~~(e.evmNow &&& m) := Engine.wr_evm ..
@[simp] theorem Engine.takeEvents_pc (e : Engine) (m : BitVec 16) (d : Reg4) : (e.takeEvents m d).pc = e.pc := Engine.wr_pc ..
@[simp] theorem Engine.takeEvents_loops (e : Engine) (m : BitVec 16) (d : Reg4) : (e.takeEvents m d).loops = e.loops :=
  Engine.wr_loops ..
theorem Engine.takeEvents_wrote (e : Engine) (m : BitVec 16) (d : Reg4) :
    e.wrote (e.takeEvents m d) d ((e.evmNow &&& m).setWidth 32) :=
  Engine.wrote_regs (({ e with evm := e.evm &&& ~~~(e.evmNow &&& m) } : Engine).wrote_wr d _) rfl rfl

section
variable {s : State} {t : TileId} {d a b : Reg4} (runs : s.engineRuns t = true)
include runs

theorem execWait_takes (event : (s.tiles[t]).eng.evmNow &&& ((s.tiles[t]).eng.rd a).setWidth 16 ≠ 0) :
    exec (.wait t d a b) s = .next (s.modEng t fun e => (e.takeEvents (((s.tiles[t]).eng.rd a).setWidth 16) d).seq) := by
  have masked : ¬ (((s.tiles[t]).eng.rd a).setWidth 16 = 0 ∧ b = 0) := fun h => event (by rw [h.1]; exact BitVec.and_zero)
  change execWait t d a b s = _
  rw [execWait, engineOp_runs t _ s runs]
  dsimp only
  rw [if_neg masked, if_pos event]

theorem execWait_sleeps (none_ : (s.tiles[t]).eng.evmNow &&& ((s.tiles[t]).eng.rd a).setWidth 16 = 0)
    (mask : ((s.tiles[t]).eng.rd a).setWidth 16 ≠ 0) (forever : (s.tiles[t]).eng.rd b = 0) :
    exec (.wait t d a b) s = .next (s.modEng t fun e =>
      { e with st := .sleeping, stall := some (.waitEv (((s.tiles[t]).eng.rd a).setWidth 16) d none) }) := by
  change execWait t d a b s = _
  rw [execWait, engineOp_runs t _ s runs]
  dsimp only
  rw [if_neg (fun h => mask h.1), if_neg (fun h => h none_), if_pos forever]

/-! ### ARM (R195) -/

/-- The engine after ARM with a time, its actions, and whether the time has passed. -/
def Engine.armed (e : Engine) (time acts : Word) (late : Bool) : Engine :=
  { e with
    arm := if acts = 0 then none else some (time, acts)
    status := if late then e.status ||| 4#5 else e.status }

theorem execArm_schedules (acts : ((s.tiles[t]).eng.rd b).toNat < 256) : exec (.arm t 0 a b) s = .next (s.modEng t fun e =>
    (e.armed ((s.tiles[t]).eng.rd a) ((s.tiles[t]).eng.rd b) ((s.tiles[t]).eng.rd b != 0 &&
      reached (s.aon.sysNow.setWidth 32) ((s.tiles[t]).eng.rd a) && s.aon.sysNow.setWidth 32 != (s.tiles[t]).eng.rd a)).seq) := by
  change execArm t 0 a b s = _
  have legal : ((0 : Reg4) != 0) = false := rfl
  rw [execArm, legal, engineOp_runs t _ s runs]
  dsimp only
  rw [if_neg (by omega)]
  rfl

end

/-- SYSTIME has reached a time by less than half its range (R195). -/
theorem reached_eq (now a : Word) : reached now a = decide ((now - a).toNat < 2 ^ 31) := by
  rw [reached, BitVec.msb_eq_decide]
  simp only [← decide_not, Nat.not_le]

/-! ### CAPT (R196) -/

/-- The engine with its oldest capture taken off, and what CAPX shows of it. -/
def Engine.popCapture (e : Engine) (x : Capture) (xs : List Capture) : Engine :=
  { e with
    capFifo := xs, z := false
    capx := Word.flag x.prelock 31 ||| Word.put x.src.toNat 16 ||| Word.put (x.time.toNat / 2 ^ 32) 0 }

/-- The engine after CAPT. -/
def Engine.captured (e : Engine) (d : Reg4) : Engine :=
  match e.capFifo with
  | [] => { e with z := true }.wr d 0
  | x :: xs => (e.popCapture x xs).wr d (x.time.setWidth 32)

theorem Engine.captured_empty {e : Engine} (d : Reg4) (h : e.capFifo = []) : e.captured d = { e with z := true }.wr d 0 := by
  simp only [Engine.captured, h]
theorem Engine.captured_oldest {e : Engine} {x : Capture} {xs : List Capture} (d : Reg4) (h : e.capFifo = x :: xs) :
    e.captured d = (e.popCapture x xs).wr d (x.time.setWidth 32) := by
  simp only [Engine.captured, h]
theorem Engine.captured_pc (e : Engine) (d : Reg4) : (e.captured d).pc = e.pc := by
  unfold Engine.captured; split <;> exact Engine.wr_pc ..
theorem Engine.captured_loops (e : Engine) (d : Reg4) : (e.captured d).loops = e.loops := by
  unfold Engine.captured; split <;> exact Engine.wr_loops ..

theorem execCapt_ran {s : State} {t : TileId} {d : Reg4} (runs : s.engineRuns t = true) :
    s.ran (.capt t d 0 0) t (s.modEng t fun e => (e.captured d).seq) :=
  s.ran_modEng t _ _ (engineAlu_runs t _ s runs) (Engine.captured_pc ..) (Engine.captured_loops ..)

/-- The upper half of a capture's time lies in the low bits of CAPX (R196). -/
theorem capx_time (x : Capture) : (Word.flag x.prelock 31 ||| Word.put x.src.toNat 16 |||
    Word.put (x.time.toNat / 2 ^ 32) 0).toNat % 2 ^ 16 = x.time.toNat / 2 ^ 32 := by
  have bound := x.time.isLt
  have src := x.src.isLt
  have high : ∀ n k : Nat, (Word.put n (16 + k)).toNat % 2 ^ 16 = 0 := fun n k => by
    rw [Word.put, BitVec.toNat_ofNat, Nat.mod_mod_of_dvd _ (by decide), Nat.shiftLeft_eq, Nat.pow_add, ← Nat.mul_assoc,
      Nat.mul_right_comm, Nat.mul_mod_left]
  rw [BitVec.toNat_or, BitVec.toNat_or, Nat.or_mod_two_pow, Nat.or_mod_two_pow, Word.flag, high _ 15, high _ 0, Nat.zero_or,
    Nat.zero_or, Word.put, BitVec.toNat_ofNat, Nat.shiftLeft_zero]
  omega

/-! ### TRIG (R194) -/

theorem execTrig_pulses {s : State} {t : TileId} (runs : s.engineRuns t = true) :
    exec (.trig t 0 0 0) s = .next (trigPulse t (s.modEng t Engine.seq)) := by
  change execTrig t 0 0 0 s = _
  have legal : ((0 : Reg4) != 0 || (0 : Reg4) != 0 || (0 : Reg4) != 0) = false := rfl
  rw [execTrig, legal, engineOp_runs t _ s runs]

/-- A TEO that does not take TRIG: the pulse reaches the slice and the trace alone. -/
theorem trigPulse_silent {s : State} {t : TileId} (h : (s.tiles[t]).teoSrc ≠ 1) :
    trigPulse t s = (s.send (.trig t)).modTile t fun x => { x with pulses := x.pulses ||| 4#4 } := by
  unfold trigPulse
  rw [if_neg]
  rw [State.modTile_tile]
  exact h

/-- Settles O25, instruction by instruction. -/
theorem engineEventInstructions : Obligations.EngineEventInstructions := by
  intro t d a b s runs
  refine ⟨fun event => ?takes, fun none_ mask forever => ?sleeps, ?trig, fun acts => ?arm, fun empty => ?none,
    fun x xs oldest => ?oldest⟩
  case takes =>
    refine ⟨_, s.ran_modEng t _ _ (execWait_takes runs event) (Engine.takeEvents_pc ..) (Engine.takeEvents_loops ..), ?_⟩
    rw [State.modEng_tile]
    exact ⟨Engine.wrote_regs ((s.tiles[t]).eng.takeEvents_wrote _ d) rfl rfl, Engine.takeEvents_evm ..⟩
  case sleeps =>
    refine ⟨_, execWait_sleeps runs none_ mask forever, s.onlyEngine_modEng t _, ?_⟩
    rw [State.modEng_tile]
    exact ⟨rfl, rfl, rfl, rfl⟩
  case trig =>
    have cascade := trigPulse_outsideCascade (s.modEng t Engine.seq) t
    have tile := s.modEng_tile t Engine.seq
    refine ⟨_, execTrig_pulses runs, ?_, fun outside => ?_, fun silent => ?_⟩
    · rw [State.outsideCascade_regs cascade, tile]; rfl
    · rw [State.outsideCascade_pc cascade, tile]
      exact ((s.tiles[t]).eng.seq_nil outside).1
    · have other : ((s.modEng t Engine.seq).tiles[t]).teoSrc ≠ 1 := by rw [tile]; exact silent
      rw [trigPulse_silent other]
      refine ⟨rfl, ?_⟩
      rw [State.modTile_tile]
      change ((s.modEng t Engine.seq).tiles[t]).pulses ||| 4#4 = _
      rw [tile]
  case arm =>
    refine ⟨_, s.ran_modEng t _ _ (execArm_schedules runs acts) rfl rfl, ?_⟩
    rw [State.modEng_tile]
    refine ⟨rfl, rfl, fun act passed recent => if_pos ?_, fun notLate => if_neg ?_⟩
    · simp only [reached_eq, recent, decide_true, Bool.and_true, Bool.and_eq_true, bne_iff_ne, ne_eq]
      exact ⟨act, passed⟩
    · simp only [reached_eq, Bool.and_eq_true, bne_iff_ne, ne_eq, decide_eq_true_eq]
      rintro ⟨⟨act, recent⟩, passed⟩
      rcases notLate with none_ | now | far
      · exact act none_
      · exact passed now
      · omega
  case none =>
    refine ⟨_, execCapt_ran runs, ?_⟩
    rw [State.modEng_tile]
    dsimp only
    rw [Engine.captured_empty d empty]
    exact ⟨Engine.wrote_regs (({ (s.tiles[t]).eng with z := true } : Engine).wrote_wr d _) rfl rfl, Engine.wr_z ..⟩
  case oldest =>
    refine ⟨_, execCapt_ran runs, ?_⟩
    rw [State.modEng_tile]
    dsimp only
    rw [Engine.captured_oldest d oldest]
    refine ⟨Engine.wrote_regs (((s.tiles[t]).eng.popCapture x xs).wrote_wr d _) rfl rfl, Engine.wr_z .., Engine.wr_capFifo .., ?_⟩
    rw [Engine.seq_only]
    rw [Engine.wr_only]
    exact capx_time x

end Sys2Proof.Machine
end

section
/-!
PROOFS. The engine's FIFO, message, DACS and comparator instructions (O26, R197 to R201).
-/
namespace Sys2Proof.Machine

open Sys2Proof

theorem State.modEng_congr (s : State) (t : TileId) {f g : Engine → Engine} (h : f (s.tiles[t]).eng = g (s.tiles[t]).eng) :
    s.modEng t f = s.modEng t g := by
  simp only [State.modEng, State.modTile]
  rw [h]

theorem Engine.wrote_seq {e e' : Engine} {d : Reg4} {v : Word} (h : e.wrote e' d v) : e.wrote e'.seq d v :=
  Engine.wrote_regs h rfl rfl

/-- The payload of a message leaves a register alone that none of its words goes to. -/
theorem Engine.wrPayload_only (e : Engine) (r : Nat) (ws : List Word) :
    e.wrPayload r ws = { e with regs := (e.wrPayload r ws).regs } := by
  induction ws generalizing e r with
  | nil => rfl
  | cons w ws ih =>
    rw [Engine.wrPayload, ih (e.wr (BitVec.ofNat 4 r) w), e.wr_only]

theorem Engine.receive_only (e : Engine) (d a : Reg4) (m : Msg) (ms : List Msg) :
    e.receive d a m ms = { e with inbox := ms, regs := (e.receive d a m ms).regs } := by
  unfold Engine.receive
  dsimp only
  split
  · exact Engine.wr_only ..
  · rw [Engine.wrPayload_only, Engine.wr_only]

theorem Engine.receive_wrote (e : Engine) (d : Reg4) (m : Msg) (ms : List Msg) : e.wrote (e.receive d 0 m ms) d m.header := by
  simp only [Engine.receive, if_true]
  exact Engine.wrote_regs (({ e with inbox := ms } : Engine).wrote_wr d m.header) rfl rfl

theorem admitHost_of_none {s : State} {t : TileId} (h : (s.tiles[t]).eng.hostMsgs = []) : admitHost t s = s := by
  unfold admitHost
  rw [h]

/-- What a blocking FIFO instruction does to its engine when the FIFO is empty. -/
def Engine.sleepsOn (e : Engine) (w : Stall) : Engine := { e with st := .sleeping, stall := some w }

/-- The fire that DACS with the operand `v` makes due. -/
def dacsFire (v : Word) : DueFire :=
  { head := 0, seq := 0, col := 0, by_ := .dacs, nFired := 0, latched := false, listen := none
    wave := some (Fin.ofNat 16 (v.toNat % 16)) }

section
variable {s : State} {t : TileId} {d a b : Reg4} (runs : s.engineRuns t = true)
include runs

/-! ### ADC words (R197) -/

theorem execAdcp_word {w : Word} {ws : List Word} (h : (s.tiles[t]).eng.adcFifo = w :: ws) :
    exec (.adcp t d 0 0) s = .next (s.modEng t fun e => ({ e with adcFifo := ws }.wr d w).seq) := by
  change execAdcp t d 0 0 s = _
  have legal : ((0 : Reg4) != 0 || (0 : Reg4) != 0) = false := rfl
  rw [execAdcp, legal, engineOp_runs t _ s runs]
  refine congrArg Host.Outcome.next (s.modEng_congr t ?_)
  rw [h]

theorem execAdcp_empty (h : (s.tiles[t]).eng.adcFifo = []) :
    exec (.adcp t d 0 0) s = .next (s.modEng t fun e => e.sleepsOn (.adcp d)) := by
  change execAdcp t d 0 0 s = _
  have legal : ((0 : Reg4) != 0 || (0 : Reg4) != 0) = false := rfl
  rw [execAdcp, legal, engineOp_runs t _ s runs]
  refine congrArg Host.Outcome.next (s.modEng_congr t ?_)
  unfold Engine.sleepsOn
  rw [h]

theorem execAdcpn_word {w : Word} {ws : List Word} (h : (s.tiles[t]).eng.adcFifo = w :: ws) :
    exec (.adcpn t d 0 0) s = .next (s.modEng t fun e => ({ e with adcFifo := ws, z := false }.wr d w).seq) := by
  refine (engineAlu_runs t _ s runs).trans (congrArg Host.Outcome.next (s.modEng_congr t ?_))
  rw [h]

theorem execAdcpn_empty (h : (s.tiles[t]).eng.adcFifo = []) :
    exec (.adcpn t d 0 0) s = .next (s.modEng t fun e => ({ e with z := true }.wr d 0).seq) := by
  refine (engineAlu_runs t _ s runs).trans (congrArg Host.Outcome.next (s.modEng_congr t ?_))
  rw [h]

/-! ### Messages (R200, R201) -/

section
variable (quiet : (s.tiles[t]).eng.hostMsgs = [])
include quiet

omit runs in
/-- No host message waits at the inbox that the instruction leaves. -/
theorem admitHost_modEng {f : Engine → Engine} (h : ∀ e, (f e).hostMsgs = e.hostMsgs) :
    admitHost t (s.modEng t f) = s.modEng t f := by
  refine admitHost_of_none ?_
  rw [State.modEng_tile]
  exact (h _).trans quiet

theorem execRecv_message {m : Msg} {ms : List Msg} (h : (s.tiles[t]).eng.inbox = m :: ms) :
    exec (.recv t d 0 0) s = .next (s.modEng t fun e => (e.receive d 0 m ms).seq) := by
  change execRecv t d 0 0 s = _
  have legal : ((0 : Reg4) != 0) = false := rfl
  rw [execRecv, legal, engineOp_runs t _ s runs, if_neg (by decide)]
  refine congrArg Host.Outcome.next ((congrArg (admitHost t) (s.modEng_congr t ?_)).trans
    (admitHost_modEng quiet fun e => ?_))
  · rw [h]
  · rw [Engine.receive_only]; rfl

theorem execRecvn_message {m : Msg} {ms : List Msg} (h : (s.tiles[t]).eng.inbox = m :: ms) :
    exec (.recvn t d 0 0) s = .next (s.modEng t fun e => (({ e with z := false } : Engine).receive d 0 m ms).seq) := by
  change execRecvn t d 0 0 s = _
  have legal : ((0 : Reg4) != 0) = false := rfl
  rw [execRecvn, legal, engineOp_runs t _ s runs, if_neg (by decide)]
  refine congrArg Host.Outcome.next ((congrArg (admitHost t) (s.modEng_congr t ?_)).trans
    (admitHost_modEng quiet fun e => ?_))
  · rw [h]
  · rw [Engine.receive_only]; rfl

theorem execRecv_empty (h : (s.tiles[t]).eng.inbox = []) (range : a.toNat ≤ 12) :
    exec (.recv t d a 0) s = .next (s.modEng t fun e => e.sleepsOn (.recv d a)) := by
  change execRecv t d a 0 s = _
  have legal : ((0 : Reg4) != 0) = false := rfl
  rw [execRecv, legal, engineOp_runs t _ s runs, if_neg (Nat.not_lt.mpr range)]
  refine congrArg Host.Outcome.next ((congrArg (admitHost t) (s.modEng_congr t ?_)).trans
    (admitHost_modEng quiet fun e => rfl))
  unfold Engine.sleepsOn
  rw [h]

theorem execRecvn_empty (h : (s.tiles[t]).eng.inbox = []) (range : a.toNat ≤ 12) :
    exec (.recvn t d a 0) s = .next (s.modEng t fun e => ({ e with z := true }.wr d 0).seq) := by
  change execRecvn t d a 0 s = _
  have legal : ((0 : Reg4) != 0) = false := rfl
  rw [execRecvn, legal, engineOp_runs t _ s runs, if_neg (Nat.not_lt.mpr range)]
  refine congrArg Host.Outcome.next ((congrArg (admitHost t) (s.modEng_congr t ?_)).trans
    (admitHost_modEng quiet fun e => Engine.wr_hostMsgs ..))
  rw [h]

end

theorem execSend_posts (legalA : Word.field ((s.tiles[t]).eng.rd a) 23 12 = 0)
    (range : b.toNat + Word.field ((s.tiles[t]).eng.rd a) 11 10 + 1 ≤ 16) (room : (s.tiles[t]).eng.outbox.length < 4) :
    exec (.send t 0 a b) s = .next (s.modEng t fun e => (e.posts s.aon.run (sendMsg s t a b)).seq) := by
  change execSend t 0 a b s = _
  have legal : ((0 : Reg4) != 0) = false := rfl
  have good : sendBad ((s.tiles[t]).eng.rd a) = false := by rw [sendBad, legalA]; rfl
  rw [execSend, legal, engineOp_runs t _ s runs]
  dsimp only
  rw [good, if_neg Bool.false_ne_true, if_neg (by unfold sendLen; omega), if_neg (by omega)]

/-! ### DACS (R198) -/

theorem execDacs_refused (refused : s.dacsRefused t (Fin.ofNat 16 (((s.tiles[t]).eng.rd a).toNat % 16)) = true) :
    exec (.dacs t 0 a 0) s = .next (s.modEng t fun e => ({ e with status := e.status ||| 8#5 } : Engine).seq) := by
  change execDacs t 0 a 0 s = _
  have legal : ((0 : Reg4) != 0 || (0 : Reg4) != 0) = false := rfl
  rw [execDacs, legal, engineOp_runs t _ s runs, dacsPlay]
  rw [refused, Bool.true_or, if_pos rfl]
  exact congrArg Host.Outcome.next (State.modTile_modTile s t _ _)

theorem execDacs_played (played : s.dacsRefused t (Fin.ofNat 16 (((s.tiles[t]).eng.rd a).toNat % 16)) = false)
    (due : (s.tiles[t]).trowel.due = none) :
    exec (.dacs t 0 a 0) s = .next ((s.modTrowel t fun w =>
      { w with due := some (dacsFire ((s.tiles[t]).eng.rd a)) }).modEng t Engine.seq) := by
  change execDacs t 0 a 0 s = _
  have legal : ((0 : Reg4) != 0 || (0 : Reg4) != 0) = false := rfl
  rw [execDacs, legal, engineOp_runs t _ s runs, dacsPlay]
  rw [played, due, if_neg (by decide)]
  rfl

end

/-! ### Comparators (R199) -/

section
variable {s : State} {t : TileId}

/-- A comparator that was unresolved before and is now stays so. -/
theorem cmpSilent_of_same (c : Cmp) : cmpSilent t c ((s.tiles[t]).cmpRaw c).2 s = s := by
  simp [cmpSilent]

theorem State.cmpsOff_iff : s.cmpsOff t = true ↔
    ∀ c, ((s.tiles[t]).cmp c).powered = false ∧ ((s.tiles[t]).cmp c).lvl = false ∧ ((s.tiles[t]).cmp c).unres = false := by
  simp only [State.cmpsOff, List.all_cons, List.all_nil, Bool.and_true, Bool.and_eq_true, Bool.not_eq_true']
  constructor
  · rintro ⟨⟨⟨pa, la⟩, ua⟩, ⟨pb, lb⟩, ub⟩ c
    cases c
    · exact ⟨pa, la, ua⟩
    · exact ⟨pb, lb, ub⟩
  · intro h
    exact ⟨and_assoc.mpr (h .a), and_assoc.mpr (h .b)⟩

variable (off : s.cmpsOff t = true)
include off

theorem cmpLook_of_off (c : Cmp) : cmpLook t c s = s := by
  obtain ⟨power, level, resolved⟩ := State.cmpsOff_iff.mp off c
  unfold cmpLook
  simp only []
  split
  · rw [power]; rfl
  · refine s.modCmp_of_fixed t c _ ?_
    simp only [Comparator.input, resolved, Bool.false_and]
    rw [← resolved]

theorem cmpLevel_of_off (c : Cmp) : cmpLevel t c s = s := by
  obtain ⟨power, level, -⟩ := State.cmpsOff_iff.mp off c
  simp only [cmpLevel, State.cmpLvl, power, Bool.false_and, level, if_true]

/-- Comparators that are off see nothing. -/
theorem cmpLooks_of_off : cmpLooks t s = s := by
  simp only [cmpLooks, cmpLevels, cmpLook_of_off off, cmpSilent_of_same, cmpLevel_of_off off]

end

section
variable {s : State} {t : TileId} {a b : Reg4} (runs : s.engineRuns t = true)
include runs

/-- CMPA with a threshold written now. -/
def State.cmpThr (s : State) (t : TileId) (v : Word) : State :=
  s.modCmp t .a fun c =>
    { c with cfg := Word.merge c.cfg (Word.put (v.toNat % 1024) 18) 0x0FFC0000#32, setAt := some s.aon.fck }

omit runs in
theorem State.cmpThr_off (off : s.cmpsOff t = true) (v : Word) : (s.cmpThr t v).cmpsOff t = true := by
  rw [State.cmpsOff_iff] at off ⊢
  intro c
  cases c
  · rw [State.cmpThr, State.modCmp_cmp]
    exact off .a
  · have other : ((s.cmpThr t v).tiles[t]).cmpB = (s.tiles[t]).cmpB := by
      rw [State.cmpThr, State.modCmp, State.modTile_tile]
    simpa only [Tile.cmp, other] using off .b

theorem execCmpset_beside_off (first : (s.tiles[t]).eng.rd b = 0) (off : s.cmpsOff t = true) :
    exec (.cmpset t 0 a b) s = .next ((s.cmpThr t ((s.tiles[t]).eng.rd a)).modEng t Engine.seq) := by
  change execCmpset t 0 a b s = _
  have legal : ((0 : Reg4) != 0) = false := rfl
  rw [execCmpset, legal, engineOp_runs t _ s runs]
  dsimp only
  rw [first, if_neg (by decide), if_pos rfl]
  exact congrArg (fun u : State => Host.Outcome.next (u.modEng t Engine.seq))
    (cmpLooks_of_off (State.cmpThr_off off ((s.tiles[t]).eng.rd a)))

omit runs in
theorem Word.field_thr (n : Nat) : Word.field (Word.put (n % 1024) 18) 27 18 = n % 1024 := by
  simp only [Word.field, Word.put, BitVec.extractLsb_toNat, BitVec.toNat_ofNat, Nat.shiftLeft_eq, Nat.shiftRight_eq_div_pow]
  omega

omit runs in
theorem clearLat_of_unrouted {u : State} (free : u.unrouted t .a = true) :
    clearLat t .a u = u.modCmp t .a fun x => x.unlatch u.aon.fck := by
  simp only [clearLat]
  split
  · exact launch_of_unrouted t .a _ _ ((State.unrouted_congr rfl rfl t .a).trans free)
  · rfl

theorem execCmpclr_first (mask : ((s.tiles[t]).eng.rd a).toNat % 4 = 1) (free : s.unrouted t .a = true) :
    exec (.cmpclr t 0 a 0) s = .next ((s.modEng t Engine.seq).modCmp t .a fun x => x.unlatch s.aon.fck) := by
  change execCmpclr t 0 a 0 s = _
  have legal : ((0 : Reg4) != 0 || (0 : Reg4) != 0) = false := rfl
  have first : ((s.tiles[t]).eng.rd a).getLsbD 0 = true := by
    rw [BitVec.getLsbD, Nat.testBit_zero, decide_eq_true_eq]; omega
  have second : ((s.tiles[t]).eng.rd a).getLsbD 1 = false := by
    rw [BitVec.getLsbD, Nat.testBit_eq_decide_div_mod_eq, decide_eq_false_iff_not]; omega
  rw [execCmpclr, legal, engineOp_runs t _ s runs]
  dsimp only
  rw [first, second, if_pos rfl, if_neg Bool.false_ne_true,
    clearLat_of_unrouted ((State.unrouted_congr (u := s.modEng t Engine.seq) rfl rfl t .a).trans free)]
  rfl

end

/-- Settles O26, instruction by instruction. -/
theorem engineFifosAndUnits : Obligations.EngineFifosAndUnits := by
  intro t d a b s runs
  have sleeps : ∀ {i : Instr} {w : Stall}, exec i s = .next (s.modEng t fun e => e.sleepsOn w) → ∃ s', exec i s = .next s' ∧
      s.onlyEngine s' t ∧ (s'.tiles[t]).eng.st = .sleeping ∧ (s'.tiles[t]).eng.stall = some w ∧
      (s'.tiles[t]).eng.pc = (s.tiles[t]).eng.pc ∧ (s'.tiles[t]).eng.regs = (s.tiles[t]).eng.regs := fun h =>
    ⟨_, h, s.onlyEngine_modEng t _, by rw [State.modEng_tile]; exact ⟨rfl, rfl, rfl, rfl⟩⟩
  refine ⟨fun w ws word => ⟨?adcp, ?adcpn⟩, fun empty => ⟨sleeps (execAdcp_empty runs empty), ?adcpnEmpty⟩,
    fun quiet m ms message => ⟨?recv, ?recvn⟩,
    fun quiet empty range => ⟨sleeps (execRecv_empty runs quiet empty range), ?recvnEmpty⟩,
    fun legal range room => ?send, fun refused => ?refused, fun played due => ?played, fun first off => ?cmpset,
    fun mask free apart => ?cmpclr⟩
  case adcp =>
    refine ⟨_, s.ran_modEng t _ _ (execAdcp_word runs word) (Engine.wr_pc ..) (Engine.wr_loops ..), ?_⟩
    rw [State.modEng_tile]
    exact ⟨Engine.wrote_regs (({ (s.tiles[t]).eng with adcFifo := ws } : Engine).wrote_wr d w) rfl rfl,
      Engine.wr_adcFifo .., Engine.wr_z ..⟩
  case adcpn =>
    refine ⟨_, s.ran_modEng t _ _ (execAdcpn_word runs word) (Engine.wr_pc ..) (Engine.wr_loops ..), ?_⟩
    rw [State.modEng_tile]
    exact ⟨Engine.wrote_regs (({ (s.tiles[t]).eng with adcFifo := ws, z := false } : Engine).wrote_wr d w) rfl rfl,
      Engine.wr_adcFifo .., Engine.wr_z ..⟩
  case adcpnEmpty =>
    refine ⟨_, s.ran_modEng t _ _ (execAdcpn_empty runs empty) (Engine.wr_pc ..) (Engine.wr_loops ..), ?_⟩
    rw [State.modEng_tile]
    exact ⟨Engine.wrote_regs (({ (s.tiles[t]).eng with z := true } : Engine).wrote_wr d 0) rfl rfl, Engine.wr_z ..⟩
  case recv =>
    refine ⟨_, s.ran_modEng t _ _ (execRecv_message runs quiet message) (by rw [Engine.receive_only]) (by
      rw [Engine.receive_only]), ?_⟩
    rw [State.modEng_tile]
    exact ⟨by rw [Engine.receive_only]; rfl, Engine.wrote_seq (Engine.receive_wrote ..)⟩
  case recvn =>
    refine ⟨_, s.ran_modEng t _ _ (execRecvn_message runs quiet message) (by rw [Engine.receive_only]) (by
      rw [Engine.receive_only]), ?_⟩
    rw [State.modEng_tile]
    dsimp only
    rw [Engine.receive_only]
    exact ⟨rfl, rfl⟩
  case recvnEmpty =>
    refine ⟨_, s.ran_modEng t _ _ (execRecvn_empty runs quiet empty range) (Engine.wr_pc ..) (Engine.wr_loops ..), ?_⟩
    rw [State.modEng_tile]
    exact ⟨Engine.wrote_regs (({ (s.tiles[t]).eng with z := true } : Engine).wrote_wr d 0) rfl rfl, Engine.wr_z ..⟩
  case send =>
    refine ⟨_, s.ran_modEng t _ _ (execSend_posts runs legal range room) rfl rfl, ?_⟩
    rw [State.modEng_tile]
    refine ⟨rfl, sendMsg s t a b, rfl, ?_, ?_, rfl, ?_, rfl⟩
    · simp only [sendMsg, BitVec.toNat_ofNat]; omega
    · simp only [sendMsg, BitVec.toNat_setWidth]
    · have bound := ((s.tiles[t]).eng.rd a).isLt
      simp only [sendMsg, BitVec.extractLsb'_toNat, Nat.shiftRight_eq_div_pow]
      omega
  case refused =>
    refine ⟨_, s.ran_modEng t _ _ (execDacs_refused runs refused) rfl rfl, ?_⟩
    rw [State.modEng_tile]
    exact ⟨rfl, rfl⟩
  case played =>
    refine ⟨_, execDacs_played runs played due, ?_⟩
    rw [State.modEng_tile, State.modTrowel_tile]
    exact ⟨congrArg some (Nat.mod_mod ..), rfl⟩
  case cmpset =>
    refine ⟨_, execCmpset_beside_off runs first off, ?_⟩
    rw [State.modEng_tile, State.cmpThr, State.modCmp, State.modTile_tile]
    exact ⟨(Word.field_merge (by decide) _ _).trans (Word.field_thr _), rfl⟩
  case cmpclr =>
    refine ⟨_, execCmpclr_first runs mask free, ?_⟩
    rw [State.modCmp, State.modTile_tile, State.modEng_tile]
    exact ⟨by rw [Comparator.unlatch, if_neg apart], rfl⟩

end Sys2Proof.Machine
end

section
/-!
PROOFS. The engine's system instructions (O27, R184, R188, R190, R193).
-/
namespace Sys2Proof.Machine

open Sys2Proof

theorem State.engineRuns_running {s : State} {t : TileId} (runs : s.engineRuns t = true) : (s.tiles[t]).eng.st = .running := by
  simp only [State.engineRuns, Bool.and_eq_true, beq_iff_eq] at runs
  tauto

theorem none_legal : ((0 : Reg4) != 0 || (0 : Reg4) != 0 || (0 : Reg4) != 0) = false := rfl

/-! ### What each does to the engine, up to the next instruction -/

def Engine.sleep (e : Engine) : Engine := { e with st := .sleeping, stall := some .sleep }
def Engine.halts (e : Engine) : Engine := { e with st := .halted, stall := none }
def Engine.drains (e : Engine) : Engine := { e with stall := some (.drain false) }
def Engine.returns (e : Engine) : Engine := { e.goto e.epc with ien := e.ien ||| 0x80000000#32 }
/-- The engine after MFS, up to the next instruction: reading SYSL latches SYSH. -/
def Engine.reads (e : Engine) (latch : Option Word) (d : Reg4) (v : Word) : Engine :=
  ({ e with sysh := latch.getD e.sysh } : Engine).wr d v

theorem Engine.wrote_reads (e : Engine) (latch : Option Word) (d : Reg4) (v : Word) : e.wrote (e.reads latch d v) d v :=
  Engine.wrote_regs (({ e with sysh := latch.getD e.sysh } : Engine).wrote_wr d v) rfl rfl
theorem engineStopEvent_of_silent {s : State} {t : TileId} (h : (s.tiles[t]).eng.hostEv = false) : engineStopEvent t s = s :=
  if_neg (by rw [h]; exact Bool.false_ne_true)

section
variable {s : State} {t : TileId} {d a : Reg4} {imm : Imm18} (runs : s.engineRuns t = true)
include runs

theorem execSleep_eq : exec (.sleep t 0 0 0) s = .next (s.modEng t fun e => e.sleep.seq) := by
  change execSleep t 0 0 0 s = _
  rw [execSleep, none_legal, engineOp_runs t _ s runs]
  rfl

theorem execHalt_eq (drained : (s.tiles[t]).eng.outbox = []) (silent : (s.tiles[t]).eng.hostEv = false) :
    exec (.halt t 0 0 0) s = .next (s.modEng t fun e => e.halts.seq) := by
  change execHalt t 0 0 0 s = _
  have still : ((s.modEng t fun e => e.halts.seq).tiles[t]).eng.hostEv = false := by rw [State.modEng_tile]; exact silent
  have stop : engineHalt t s = s.modEng t fun e => e.halts.seq := engineStopEvent_of_silent still
  rw [execHalt, none_legal, engineOp_runs t _ s runs, drained, stop]
  rfl

theorem execFence_drained (drained : (s.tiles[t]).eng.outbox = []) :
    exec (.fence t 0 0 0) s = .next (s.modEng t fun e => e.fenced.seq) := by
  change execFence t 0 0 0 s = _
  rw [execFence, none_legal, engineOp_runs t _ s runs]
  exact congrArg Host.Outcome.next (s.modEng_congr t (if_pos (by rw [drained]; rfl)))

theorem execFence_waits (full : (s.tiles[t]).eng.outbox ≠ []) :
    exec (.fence t 0 0 0) s = .next (s.modEng t Engine.drains) := by
  change execFence t 0 0 0 s = _
  rw [execFence, none_legal, engineOp_runs t _ s runs]
  exact congrArg Host.Outcome.next (s.modEng_congr t (if_neg (by rwa [List.isEmpty_iff])))

theorem execReti_eq : exec (.reti t 0 0 0) s = .next (s.modEng t Engine.returns) := by
  change execReti t 0 0 0 s = _
  rw [execReti, none_legal, engineOp_runs t _ s runs]
  rfl

theorem execMfs_reads {v : Word} (listed : readSpecial s t imm.toNat = some v) :
    exec (.mfs t d 0 imm) s = .next (s.modEng t fun e =>
      (e.reads (if imm = 9 then some ((s.aon.sysNow >>> 32).setWidth 32) else none) d v).seq) := by
  change execMfs t d 0 imm s = _
  have legal : ((0 : Reg4) != 0 || (readSpecial s t imm.toNat).isNone) = false := by rw [listed]; rfl
  rw [execMfs, legal, engineOp_runs t _ s runs, listed]
  refine congrArg Host.Outcome.next (s.modEng_congr t ?_)
  split <;> rfl

/-- MTS of a special register whose write is `f`. -/
theorem execMts_writes {f : Word → Engine → Engine} (listed : ∀ v e, writeSpecial imm.toNat v e = some (f v e)) :
    exec (.mts t 0 a imm) s = .next (s.modEng t fun e => (f (e.rd a) e).seq) := by
  change execMts t 0 a imm s = _
  have legal : ((0 : Reg4) != 0 || (writeSpecial imm.toNat 0 (s.tiles[t]).eng).isNone) = false := by rw [listed]; rfl
  rw [execMts, legal, engineOp_runs t _ s runs]
  simp only [listed, Option.getD_some]

/-- MTS runs, and its engine is the one that the write of the special register gives, at the next instruction. -/
theorem mts_ran {f : Word → Engine → Engine} (listed : ∀ v e, writeSpecial imm.toNat v e = some (f v e))
    (pc : ∀ v e, (f v e).pc = e.pc) (loops : ∀ v e, (f v e).loops = e.loops) :
    ∃ s', s.ran (.mts t 0 a imm) t s' ∧ (s'.tiles[t]).eng = (f ((s.tiles[t]).eng.rd a) (s.tiles[t]).eng).seq :=
  ⟨_, s.ran_modEng t _ _ (execMts_writes runs listed) (pc ..) (loops ..), by rw [State.modEng_tile]⟩

end

/-- Settles O27, instruction by instruction. -/
theorem engineSystem : Obligations.EngineSystem := by
  intro t d a imm s runs
  have reads : ∀ {imm : Imm18} {v : Word}, readSpecial s t imm.toNat = some v → ∃ s', s.ran (.mfs t d 0 imm) t s' ∧
      (s.tiles[t]).eng.wrote (s'.tiles[t]).eng d v ∧ (s'.tiles[t]).eng.sysh =
        (if imm = 9 then some ((s.aon.sysNow >>> 32).setWidth 32) else none).getD (s.tiles[t]).eng.sysh := fun {imm v} listed => by
    refine ⟨_, s.ran_modEng t _ _ (execMfs_reads runs listed) (Engine.wr_pc ..) (Engine.wr_loops ..), ?_⟩
    rw [State.modEng_tile]
    refine ⟨Engine.wrote_seq (Engine.wrote_reads ..), ?_⟩
    dsimp only
    rw [Engine.seq_only, Engine.reads, Engine.wr_only]
  refine ⟨?sleep, fun drained silent => ?halt, fun drained => ?fence, fun full => ?waits, fun outside => ?reti,
    fun v other listed => ?mfs, ?sysl, ?status, ?ivec, ?flags, ?readOnly⟩
  case sleep =>
    refine ⟨_, s.ran_modEng t _ _ (execSleep_eq runs) rfl rfl, ?_⟩
    rw [State.modEng_tile]
    exact ⟨rfl, rfl⟩
  case halt =>
    refine ⟨_, s.ran_modEng t _ _ (execHalt_eq runs drained silent) rfl rfl, ?_⟩
    rw [State.modEng_tile]
    exact ⟨rfl, rfl, rfl⟩
  case fence =>
    refine ⟨_, s.ran_modEng t _ _ (execFence_drained runs drained) rfl rfl, ?_⟩
    rw [State.modEng_tile]
    exact ⟨rfl, State.engineRuns_running runs⟩
  case waits =>
    refine ⟨_, execFence_waits runs full, ?_⟩
    rw [State.modEng_tile]
    exact ⟨rfl, rfl⟩
  case reti =>
    refine ⟨_, execReti_eq runs, s.onlyEngine_modEng t _, ?_⟩
    rw [State.modEng_tile]
    dsimp only
    rw [Engine.returns, Engine.goto_nil _ _ outside]
    exact ⟨rfl, rfl, rfl⟩
  case mfs =>
    obtain ⟨s', ran, wrote, sysh⟩ := reads listed
    exact ⟨s', ran, wrote, sysh.trans (by rw [if_neg other]; rfl)⟩
  case sysl => exact reads (imm := 9) rfl
  case status =>
    obtain ⟨s', ran, eng⟩ := mts_ran (a := a) (imm := 1) runs (f := fun v e => { e with status := e.status &&& ~~~(v.setWidth 5) })
      (fun _ _ => rfl) (fun _ _ => rfl) fun _ _ => rfl
    exact ⟨s', ran, by rw [eng]; exact ⟨rfl, rfl⟩⟩
  case ivec =>
    obtain ⟨s', ran, eng⟩ := mts_ran (a := a) (imm := 4) runs (f := fun v e => { e with ivec := v })
      (fun _ _ => rfl) (fun _ _ => rfl) fun _ _ => rfl
    exact ⟨s', ran, by rw [eng]; rfl⟩
  case flags =>
    obtain ⟨s', ran, eng⟩ := mts_ran (a := a) (imm := 0) runs (f := fun v e =>
        { e with av := v.getLsbD 4, z := v.getLsbD 3, n := v.getLsbD 2, c := v.getLsbD 1, v := v.getLsbD 0 })
      (fun _ _ => rfl) (fun _ _ => rfl) fun _ _ => rfl
    exact ⟨s', ran, by rw [eng]; exact ⟨rfl, rfl, rfl, rfl, rfl⟩⟩
  case readOnly =>
    obtain ⟨s', ran, eng⟩ := mts_ran (a := a) (imm := 8) runs (f := fun _ e => e)
      (fun _ _ => rfl) (fun _ _ => rfl) fun _ _ => rfl
    exact ⟨s', ran, by rw [eng]; exact ⟨rfl, rfl⟩⟩

end Sys2Proof.Machine
end

section
/-!
PROOFS. What happens to an engine of itself (O28, R187, R192, R193, R195, R202, R207).
-/
namespace Sys2Proof.Machine

open Sys2Proof

/-! ### Stalls, interrupts, ARM (R187, R192, R193, R195) -/

section
variable {s : State} {t : TileId}

theorem State.engineClock_live (h : s.engineClock t = true) : (s.tiles[t]).fenced = false := by
  simp only [State.engineClock, Bool.and_eq_true, Bool.not_eq_true'] at h
  exact h.1.2

theorem execEngineStallResume_adcp (clock : s.engineClock t = true) {d : Reg4} {w : Word} {ws : List Word}
    (stall : (s.tiles[t]).eng.stall = some (.adcp d)) (word : (s.tiles[t]).eng.adcFifo = w :: ws) :
    exec (.engineStallResume t) s = .next (s.modEng t fun e => ({ e.resume with adcFifo := ws }.wr d w).seq) := by
  change execEngineStallResume t s = _
  rw [execEngineStallResume, if_pos clock]
  dsimp only
  rw [stall]
  dsimp only
  rw [word]

theorem execWaitTimeout_over (clock : s.engineClock t = true) {m : BitVec 16} {d : Reg4}
    (stall : (s.tiles[t]).eng.stall = some (.waitEv m d (some 0))) :
    exec (.waitTimeout t) s = .next (s.modEng t fun e => (e.resume.wr d 0).seq) := by
  change execWaitTimeout t s = _
  rw [execWaitTimeout, if_pos clock, stall]
  rfl

theorem execEngineInterrupt_taken (runs : s.engineRuns t = true) (on : (s.tiles[t]).eng.ien.getLsbD 31 = true)
    (pending : (s.tiles[t]).irqPending = true) : exec (.engineInterrupt t) s = .next (s.modEng t Engine.interrupt) := by
  change execEngineInterrupt t s = _
  have ie : (s.tiles[t]).eng.ie = true := on
  rw [execEngineInterrupt]
  dsimp only
  rw [runs, ie, pending, Bool.true_or, if_pos (by rfl)]

/-- ARM's action 1 alone sets EVM bit 7. -/
theorem execArmAction_setsEvent (clock : s.engineClock t = true) {time : Word} (arm : (s.tiles[t]).eng.arm = some (time, 2))
    (due : (s.aon.sysNow.setWidth 32 - time).toNat < 2 ^ 31) :
    exec (.armAction t) s = .next (setEvm t 7 (s.modEng t fun e => { e with arm := none })) := by
  change execArmAction t s = _
  have now : reached (s.aon.sysNow.setWidth 32) time = true := by rw [reached_eq, decide_eq_true due]
  rw [execArmAction, if_pos clock, arm]
  dsimp only
  rw [if_pos now]
  rfl

theorem setEvm_live (live : (s.tiles[t]).fenced = false) (bit : Nat) :
    setEvm t bit s = s.modEng t fun e => { e with evm := e.evm ||| (1#16 <<< bit) } := by
  rw [setEvm, live]
  rfl

/-! ### Messages (R202, R207) -/

theorem deliver_enters {u : TileId} {m : Msg} (dst : m.dst.toNat = u.val) (live : (s.tiles[u]).fenced = false)
    (side : (s.tiles[u]).sheet = (s.tiles[t]).sheet) (room : (s.tiles[u]).eng.inbox.length < 8) :
    deliver t m s = some (s.modEng u fun e => e.accepts s.aon.run m) := by
  have bound : m.dst.toNat < 512 := dst ▸ u.isLt
  obtain rfl : u = ⟨m.dst.toNat, bound⟩ := Fin.ext dst.symm
  rw [deliver, dif_pos bound]
  dsimp only
  rw [live, side, if_neg Bool.false_ne_true, if_neg (by simp), if_pos room]

theorem execMessageDelivery_enters (fast : s.fastOn = true) {m : Msg} {rest : List Msg} {u : TileId}
    (oldest : (s.tiles[t]).eng.outbox = m :: rest) (epoch : m.epoch = (s.tiles[t]).epoch) (dst : m.dst.toNat = u.val)
    (other : u ≠ t) (live : (s.tiles[u]).fenced = false) (side : (s.tiles[u]).sheet = (s.tiles[t]).sheet)
    (room : (s.tiles[u]).eng.inbox.length < 8) :
    exec (.messageDelivery t .clean) s = .next
      ((s.modEng t fun e => e.posted s.aon.run rest).modEng u fun e => e.accepts s.aon.run m) := by
  have target : (s.modEng t fun e => e.posted s.aon.run rest).tiles[u] = s.tiles[u] := s.modEng_miss t u _ other
  have sender : ((s.modEng t fun e => e.posted s.aon.run rest).tiles[t]).sheet = (s.tiles[t]).sheet := by
    rw [State.modEng_tile]
  change execMessageDelivery t .clean s = _
  rw [execMessageDelivery, if_pos fast, oldest]
  dsimp only
  rw [if_neg (not_not.mpr epoch),
    deliver_enters dst (by rw [target]; exact live) (by rw [target, sender]; exact side) (by rw [target]; exact room)]
  rfl

theorem State.inboxStuck_of_full {m : Msg} {rest : List Msg} {u : TileId} (oldest : (s.tiles[t]).eng.outbox = m :: rest)
    (dst : m.dst.toNat = u.val) (full : 8 ≤ (s.tiles[u]).eng.inbox.length)
    (fullAt : (s.tiles[u]).eng.fullAt + 4800 ≤ s.aon.run) (outAt : (s.tiles[t]).eng.outAt + 4800 ≤ s.aon.run) :
    s.inboxStuck t = true := by
  have bound : m.dst.toNat < 512 := dst ▸ u.isLt
  obtain rfl : u = ⟨m.dst.toNat, bound⟩ := Fin.ext dst.symm
  rw [State.inboxStuck, oldest]
  dsimp only
  rw [dif_pos bound]
  simp only [Bool.and_eq_true, decide_eq_true_eq]
  omega

/-- The engine after its oldest message was dropped at `run`. -/
def Engine.drops (run : Nat) (e : Engine) : Engine :=
  { e.posted run e.outbox.tail with msgDrop := e.msgDrop + 1, status := e.status ||| 16#5 }

theorem execInboxFullTimeout_drops (stuck : s.inboxStuck t = true) :
    exec (.inboxFullTimeout t) s = .next (s.modEng t (Engine.drops s.aon.run)) := by
  change execInboxFullTimeout t s = _
  rw [execInboxFullTimeout, if_pos stuck]
  dsimp only
  rw [messageDrop]
  exact congrArg Host.Outcome.next (s.modTile_modTile t _ _)

theorem execEngineMessageTimeout_busy {d : Desc} {m : Msg} {rest : List (Desc × Msg)}
    (oldest : (s.tiles[t]).eng.hostMsgs = (d, m) :: rest) (late : (s.tiles[t]).eng.hostAt + 1200000 ≤ s.aon.fck) :
    exec (.engineMessageTimeout t) s = .next (finish 0x33 d .busy 0 0 (s.modEng t fun e => { e with hostMsgs := rest })) := by
  change execEngineMessageTimeout t s = _
  rw [execEngineMessageTimeout, oldest]
  exact congrArg Host.Outcome.next (if_pos late)

end

/-- Settles O28, step by step. -/
theorem engineEvents : Obligations.EngineEvents := by
  intro t s
  refine ⟨fun clock d w ws stall word => ?adcp, fun clock m d stall => ?wait, fun runs on pending => ?interrupt,
    fun clock time arm due => ?arm, fun fast m rest u oldest epoch dst other live side room => ?enters,
    fun m rest u oldest dst full fullAt outAt => ?stuck,
    fun d m rest oldest late => ⟨_, execEngineMessageTimeout_busy oldest late, rfl⟩⟩
  case adcp =>
    refine ⟨_, s.ran_modEng t _ _ (execEngineStallResume_adcp clock stall word) (Engine.wr_pc ..) (Engine.wr_loops ..), ?_⟩
    rw [State.modEng_tile]
    exact ⟨Engine.wr_st .., Engine.wr_stall ..,
      Engine.wrote_regs (({ (s.tiles[t]).eng.resume with adcFifo := ws } : Engine).wrote_wr d w) rfl rfl, Engine.wr_adcFifo ..⟩
  case wait =>
    refine ⟨_, s.ran_modEng t _ _ (execWaitTimeout_over clock stall) (Engine.wr_pc ..) (Engine.wr_loops ..), ?_⟩
    rw [State.modEng_tile]
    exact ⟨Engine.wrote_regs ((s.tiles[t]).eng.resume.wrote_wr d 0) rfl rfl, Engine.wr_st .., Engine.wr_stall ..⟩
  case interrupt =>
    refine ⟨_, execEngineInterrupt_taken runs on pending, s.onlyEngine_modEng t _, ?_⟩
    rw [State.modEng_tile]
    exact ⟨rfl, rfl, rfl, rfl, rfl⟩
  case arm =>
    have live := State.engineClock_live clock
    have tile := s.modEng_tile t fun e => { e with arm := none }
    refine ⟨_, execArmAction_setsEvent clock arm due, ?_⟩
    rw [setEvm_live (by rw [tile]; exact live), State.modEng_tile, tile]
    refine ⟨rfl, ?_⟩
    simp only [BitVec.getLsbD_or]
    exact Bool.or_true _
  case enters =>
    refine ⟨_, execMessageDelivery_enters fast oldest epoch dst other live side room, ?_⟩
    rw [State.modEng_miss _ u t _ other.symm, State.modEng_tile, State.modEng_tile, State.modEng_miss s t u _ other]
    exact ⟨rfl, rfl, rfl⟩
  case stuck =>
    refine ⟨_, s.onlyEngine_modEng t _, execInboxFullTimeout_drops (State.inboxStuck_of_full oldest dst full fullAt outAt), ?_⟩
    rw [State.modEng_tile]
    refine ⟨?_, rfl, rfl⟩
    simp only [Engine.drops, Engine.posted, oldest, List.tail_cons]

end Sys2Proof.Machine
end

section
/-!
PROOFS. The link supply (O29, R249, R250).
-/
namespace Sys2Proof.Machine

open Sys2Proof

section
variable {mv : Nat} {s : State}

theorem execLinkDetection_connected (down : s.aon.up = false) (low : 3000 ≤ mv) (high : mv ≤ 5000) :
    exec (.linkDetection mv) s = .next { s with pwr := { s.pwr with signature := true } } := by
  change execLinkDetection mv s = _
  rw [execLinkDetection, down]
  simp only [low, high, and_self, if_true, Bool.false_eq_true, if_false]

theorem execLinkDetection_disconnected (down : s.aon.up = false) (above : 10000 < mv) :
    exec (.linkDetection mv) s = .next { s with pwr := { s.pwr with signature := false } } := by
  change execLinkDetection mv s = _
  have outside : ¬ (3000 ≤ mv ∧ mv ≤ 5000) := by omega
  rw [execLinkDetection, down]
  simp only [outside, Nat.not_le.mpr above, decide_false, Bool.and_false, Bool.false_eq_true, if_false]

theorem execLinkPowerUp_starts (down : s.aon.up = false) (volts : 41000 ≤ mv) :
    exec (.linkPowerUp mv) s = .next { s with aon := { resetDue := some 0 }, pwr := { s.pwr with inrush := true, signature := false } } := by
  change execLinkPowerUp mv s = _
  rw [execLinkPowerUp, down, decide_eq_true volts]
  rfl

/-- What the module keeps without link power (R250). -/
def State.unplugged (s : State) : State :=
  { aon := { up := false }, sec := s.sec.kept, link := { perst := s.link.perst }
    gpio := { pins := s.gpio.pins.map fun x => { pad := x.pad } }
    hostMem := s.hostMem, free := s.free, out := s.out, pending := s.pending }

theorem execLinkPowerLoss_unplugs (up : s.aon.up = true) (volts : mv < 36000) :
    exec (.linkPowerLoss mv) s = .next s.unplugged := by
  change execLinkPowerLoss mv s = _
  rw [execLinkPowerLoss, up, decide_eq_true volts]
  rfl

theorem State.unpowered_unplugged (s : State) : s.unplugged.unpowered := by
  have pads : s.unplugged.gpio.pins = s.unplugged.gpio.pins.map fun x => ({ pad := x.pad } : Pin) := by
    simp only [State.unplugged, Vector.map_map]
    rfl
  exact congrArg (fun pins => { s.unplugged with gpio := { pins := pins } }) pads

end

/-- Settles O29, step by step. -/
theorem linkSupply : Obligations.LinkSupply := by
  intro mv s
  refine ⟨execLinkDetection_connected, execLinkDetection_disconnected,
    fun down volts => ⟨_, execLinkPowerUp_starts down volts, rfl, rfl, rfl, rfl, rfl, rfl⟩,
    fun over_ => congrArg Host.Outcome.next (if_pos over_),
    fun up volts => ⟨_, execLinkPowerLoss_unplugs up volts, s.unpowered_unplugged, rfl, rfl, rfl, rfl, rfl⟩⟩

end Sys2Proof.Machine
end

section
/-!
PROOFS. Module reset and the boot load (O32, R254, R335, R345).
-/
namespace Sys2Proof.Machine

open Sys2Proof

/-! ### Pins while fast clocks stand still (R361, R367) -/

/-- The state without pins and free values. -/
def State.outsidePins (s : State) : State := { s with gpio := {}, free := 0 }

section
variable {s u : State} (h : u.outsidePins = s.outsidePins)
include h

theorem State.outsidePins_fastOn : u.fastOn = s.fastOn := by
  have q := congrArg State.fastOn h; exact q
theorem State.outsidePins_pwr : u.pwr = s.pwr := by
  have q := congrArg State.pwr h; exact q
theorem State.outsidePins_aon : u.aon = s.aon := by
  have q := congrArg State.aon h; exact q
theorem State.outsidePins_sec : u.sec = s.sec := by
  have q := congrArg State.sec h; exact q
/-- What pins do not show is the other state's, the pins and the free values apart. -/
theorem State.outsidePins_only : u = { s with gpio := u.gpio, free := u.free } := by
  have q := congrArg (fun x : State => { x with gpio := u.gpio, free := u.free }) h
  exact q

end

section
variable {s : State}

theorem pinFilter_outsidePins (still : s.fastOn = false) (mode : s.pwr.mode ≠ .armed) (p : PinId) :
    (pinFilter p s).1 = [] ∧ (pinFilter p s).2.outsidePins = s.outsidePins := by
  simp only [pinFilter, still, mode, Bool.false_eq_true, if_false]
  split
  · exact ⟨rfl, by split <;> rfl⟩
  · exact ⟨by split <;> rfl, by split <;> rfl⟩

theorem pinSampled_outsidePins (still : s.fastOn = false) (mode : s.pwr.mode ≠ .armed) (p : PinId) :
    (pinSampled p s).1 = [] ∧ (pinSampled p s).2.outsidePins = s.outsidePins := by
  unfold pinSampled
  split
  next lvl u hu =>
    have drawn : u.outsidePins = s.outsidePins := by
      cases hp : s.padLevel p <;> simp only [hp] at hu <;> obtain ⟨-, rfl⟩ := Prod.mk.inj hu <;> rfl
    rw [← drawn]
    split
    · exact ⟨rfl, rfl⟩
    · have fast := State.outsidePins_fastOn drawn
      have pwr := State.outsidePins_pwr drawn
      exact pinFilter_outsidePins (s := u.modPin p fun x => { x with sync := lvl, kept := lvl, latch := some (u.aonTime, u.counts) })
        (fast.trans still) (by simpa only [State.modPin, pwr] using mode) p

theorem pinSample_outsidePins (still : s.fastOn = false) (mode : s.pwr.mode ≠ .armed) (p : PinId) :
    (pinSample p s).outsidePins = s.outsidePins := by
  obtain ⟨quiet, rest⟩ := pinSampled_outsidePins still mode p
  simp only [pinSample, works, workOne, quiet, List.map_nil, List.append_nil]
  exact rest

/-- While fast clocks stand still in a module that no pin wakes, sampling every pad changes pins alone. -/
theorem resamplePins_outsidePins (still : s.fastOn = false) (mode : s.pwr.mode ≠ .armed) :
    (resamplePins s).outsidePins = s.outsidePins := by
  unfold resamplePins
  refine List.foldlRecOn (motive := fun u : State => u.outsidePins = s.outsidePins) _ _ rfl fun u same p _ => ?_
  have pwr := State.outsidePins_pwr same
  exact (pinSample_outsidePins ((State.outsidePins_fastOn same).trans still) (by rw [pwr]; exact mode) p).trans same

/-! ### Requests for power (R259) -/

/-- The state with the request that the module keeps. -/
def State.wants (s : State) (r : BitVec 16) : State := { s with aon := { s.aon with request := r } }

/-- A request is a report, and the request that is kept. -/
theorem reRequest_quiet (always : Bool) (s : State) :
    ∃ r, (reRequest always s).quiet = (s.wants r).quiet := by
  simp only [reRequest]
  split
  · exact ⟨_, raiseEvent_quiet ..⟩
  · exact ⟨s.aon.request, rfl⟩

end

/-! ### Module reset (R254, R345) -/

section
variable {s : State} {c : BitVec 2}

theorem execModuleReset_clean (up : s.aon.up = true) (due : s.aon.resetDue = some c) :
    exec (.moduleReset c .clean) s = .next (resamplePins (s.restarted c)) := by
  change execModuleReset c .clean s = _
  rw [execModuleReset, up, due, if_pos (by simp)]

theorem execModuleReset_failed (up : s.aon.up = true) (due : s.aon.resetDue = some c) :
    exec (.moduleReset c .failed) s = .next { resamplePins (s.restarted c) with
      pwr := { (resamplePins (s.restarted c)).pwr with bursarFail := true, nfault := true } } := by
  change execModuleReset c .failed s = _
  rw [execModuleReset, up, due, if_pos (by simp)]

/-- Module reset leaves the pads' pins, and otherwise the state that R254 and R396 give. -/
theorem resamplePins_restarted : (resamplePins (s.restarted c)).outsidePins = (s.restarted c).outsidePins :=
  resamplePins_outsidePins rfl (fun h => Mode.noConfusion h)

/-! ### The boot load (R335) -/

theorem execBootImageLoad_disabled (a b f : Attempt) (up : s.aon.up = true) (mode : s.pwr.mode = .booting)
    (healthy : s.pwr.bursarFail = false) (idle : s.aon.resetDue = none) (disabled : s.aon.secBoot.getLsbD 31 = true) :
    exec (.bootImageLoad a b f) s = .next
      (reRequest true (defaultSpares { s with pwr := { s.pwr with mode := .standby } })) := by
  change execBootImageLoad a b f s = _
  rw [execBootImageLoad, up, mode, healthy, idle, if_pos (by rfl)]
  dsimp only
  rw [if_pos disabled]

end

/-- Settles O32, the reset and the boot load in turn. -/
theorem moduleResetAndBoot : Obligations.ModuleResetAndBoot := by
  refine ⟨fun c s up due => ?reset, fun c s up due => ⟨_, execModuleReset_failed up due, rfl, rfl⟩,
    fun a b f s up mode healthy idle disabled => ?boot⟩
  case reset =>
    refine ⟨_, execModuleReset_clean up due, ?_⟩
    rw [State.outsidePins_only (resamplePins_restarted (s := s) (c := c))]
    refine ⟨rfl, rfl, rfl, rfl, fun n => ?_, rfl, rfl, rfl, rfl, rfl, rfl, rfl, rfl, rfl, rfl, rfl, rfl⟩
    simp only [State.restarted, Aon.restarted, Fin.getElem_fin, Vector.getElem_map]
    rfl
  case boot =>
    obtain ⟨r, frame⟩ := reRequest_quiet true (defaultSpares { s with pwr := { s.pwr with mode := .standby } })
    refine ⟨_, execBootImageLoad_disabled a b f up mode healthy idle disabled, ?_⟩
    generalize reRequest true _ = t at frame
    have pwr := State.quiet_pwr frame
    have on : t.aon.up = true := by rw [State.quiet_aon frame]; exact up
    have standby : t.pwr.mode = .standby := by rw [pwr]; rfl
    refine ⟨standby, ?_, (State.quiet_sec frame).trans rfl, fun p => ?_⟩
    · rw [State.serving, on, standby]
      rfl
    · rw [State.pstate, pwr]
      rfl

end Sys2Proof.Machine
end

section
/-!
PROOFS. The sideband's frames (O33, R252 to R254, R263, R271).
-/
namespace Sys2Proof.Machine

open Sys2Proof

/-- The state once a good frame has been counted. -/
def State.jsbTaken (s : State) : State := { s with jsb := { s.jsb with received := satInc s.jsb.received, nakSent := false } }

section
variable {s : State} (up : s.aon.up = true) (clean : s.jsb.nakSent = false)
include up clean

theorem jsbReceive_eq (ty : BitVec 4) (f : State → State) : jsbReceive ty f s = .next (f s.jsbTaken) := by
  rw [jsbReceive, up, if_neg (by decide)]
  dsimp only
  rw [clean, if_neg Bool.false_ne_true]
  rfl

variable {v : BitVec 12}

theorem execJsbPerst_asserts (h : v.getLsbD 0 = true) :
    exec (.jsbPerst v) s = .next (endpointReset { s.jsbTaken with link := { s.link with perst := true } }) := by
  change execJsbPerst v s = _
  rw [execJsbPerst, jsbReceive_eq up clean, if_pos h]
  rfl

theorem execJsbPerst_releases (h : v.getLsbD 0 = false) :
    exec (.jsbPerst v) s = .next { s.jsbTaken with link := { s.link with perst := false } } := by
  change execJsbPerst v s = _
  rw [execJsbPerst, jsbReceive_eq up clean, h, if_neg Bool.false_ne_true]
  rfl

/-- The state with a limit, its STATUS frame not yet sent. -/
def State.limited (s : State) (n : Nat) : State := { s.jsbTaken with aon := { s.aon with limit := BitVec.ofNat 16 n } }

theorem execJsbLimit_accepted (low : 150 ≤ v.toNat) (high : v.toNat ≤ 1250) :
    exec (.jsbLimit v) s = .next (jsbSend (grantCut v.toNat (s.limited v.toNat)).statusFrame
      (grantCut v.toNat (s.limited v.toNat))) := by
  change execJsbLimit v s = _
  rw [execJsbLimit, jsbReceive_eq up clean]
  dsimp only
  rw [if_pos ⟨low, high⟩]
  rfl

theorem execJsbWake_leaves (mode : s.pwr.mode = .dormant) :
    exec (.jsbWake v) s = .next { s.jsbTaken with aon := { s.aon with resetDue := some 2 } } := by
  change execJsbWake v s = _
  rw [execJsbWake, jsbReceive_eq up clean, leaveDormant]
  exact congrArg Host.Outcome.next (if_pos mode)

theorem execJsbModuleReset_eq : exec (.jsbModuleReset v) s = .next (if v = 0xA5C#12 ∧ s.pwr.mode ≠ .dormant then
    { s.jsbTaken with aon := { s.aon with resetDue := some 1 } } else s.jsbTaken) := by
  change execJsbModuleReset v s = _
  rw [execJsbModuleReset, jsbReceive_eq up clean]
  rfl

theorem execJsbPoll_answers : exec (.jsbPoll v) s = .next (jsbSend s.statusFrame s.jsbTaken) := by
  change execJsbPoll v s = _
  rw [execJsbPoll, jsbReceive_eq up clean]
  rfl

theorem execJsbNak_repeats {f : JsbFrame} (last : s.jsb.last = some f) (first : s.jsb.repeated = false) :
    exec (.jsbNak v) s = .next
      (({ s.jsbTaken with jsb := { s.jsbTaken.jsb with sent := satInc s.jsb.sent, repeated := true } } : State).send (.jsb f)) := by
  change execJsbNak v s = _
  have frame : s.jsbTaken.jsb.last = some f := last
  have unrepeated : s.jsbTaken.jsb.repeated = false := first
  rw [execJsbNak, jsbReceive_eq up clean]
  dsimp only
  rw [frame]
  dsimp only
  rw [unrepeated, if_neg Bool.false_ne_true]
  rfl

theorem execJsbCrcError_naks : exec .jsbCrcError s = .next
    (({ s with jsb := { s.jsb with sent := satInc s.jsb.sent, naks := satInc s.jsb.naks, nakSent := true } } : State).send
      (.jsb ⟨0xF, Config.jsbPad 15⟩)) := by
  change execJsbCrcError s = _
  rw [execJsbCrcError, up, clean]
  rfl

omit clean in
theorem execJsbCollisionRetry_repeats {f : JsbFrame} (last : s.jsb.last = some f) :
    exec .jsbCollisionRetry s = .next (s.send (.jsb f)) := by
  change execJsbCollisionRetry s = _
  rw [execJsbCollisionRetry, last]
  exact congrArg Host.Outcome.next (if_pos up)

end

theorem grantCut_of_enough {n : Nat} {s : State} (enough : s.pwr.grant.toNat ≤ 10 * n) : grantCut n s = s :=
  if_neg (by omega)

/-- A grant that is cut: its value, the event, and what stays. -/
theorem grantCut_cuts {n : Nat} {s : State} (over_ : 10 * n < s.pwr.grant.toNat) (serving : s.serving = true) :
    (grantCut n s).aon = s.aon ∧ (grantCut n s).pwr.grant = BitVec.ofNat 16 (n * 10) ∧
      (grantCut n s).ev.status.getLsbD 1 = true := by
  have cut : n * 10 < s.pwr.grant.toNat ∧ s.serving = true := ⟨by omega, serving⟩
  rw [grantCut, if_pos cut]
  dsimp only
  have frame (u : State) (a b : Word) : (raiseEvent .grantCut noUnit (log .info 0x3C srcModule a b 0 u)).quiet = u.quiet :=
    (raiseEvent_quiet ..).trans (log_quiet ..)
  exact ⟨(State.quiet_aon (frame ..)).trans rfl, congrArg Power.grant (State.quiet_pwr (frame ..)), raiseEvent_shows ..⟩

/-- Settles O33, frame by frame. -/
theorem sideband : Obligations.Sideband := by
  intro v s up clean
  have small := v.isLt
  have limit : (BitVec.ofNat 16 v.toNat).toNat = v.toNat := by rw [BitVec.toNat_ofNat]; omega
  refine ⟨fun h => ⟨_, execJsbPerst_asserts up clean h, rfl, rfl, rfl, rfl, rfl⟩,
    fun h => ⟨_, execJsbPerst_releases up clean h, rfl, rfl⟩,
    fun low high enough => ⟨_, execJsbLimit_accepted up clean low high, ?kept⟩,
    fun low high over_ serving => ⟨_, execJsbLimit_accepted up clean low high, ?cut⟩,
    fun mode => ⟨_, execJsbWake_leaves up clean mode, rfl⟩,
    fun key mode => ⟨_, execJsbModuleReset_eq up clean, by rw [if_pos ⟨key, mode⟩]⟩,
    fun other => ⟨_, execJsbModuleReset_eq up clean, by rw [if_neg fun h => other h.1]; rfl⟩,
    ⟨_, execJsbPoll_answers up clean, rfl, rfl⟩,
    fun f last first => ⟨_, execJsbNak_repeats up clean last first, rfl, rfl⟩,
    ⟨_, execJsbCrcError_naks up clean, rfl, rfl, _, rfl⟩,
    fun f last => ⟨_, execJsbCollisionRetry_repeats up last, rfl, rfl⟩⟩
  case kept =>
    rw [grantCut_of_enough (s := s.limited v.toNat) enough]
    exact ⟨limit, rfl, rfl⟩
  case cut =>
    obtain ⟨aon, grant, event⟩ := grantCut_cuts (s := s.limited v.toNat) over_ serving
    refine ⟨(congrArg (fun a : Aon => a.limit.toNat) aon).trans limit, (congrArg BitVec.toNat grant).trans ?_, event⟩
    rw [BitVec.toNat_ofNat]
    have bound := s.pwr.grant.isLt
    omega

end Sys2Proof.Machine
end

section
/-!
PROOFS. The endpoint's resets, D-states, training and L1 (O10, R254 to R257, R399).
-/
namespace Sys2Proof.Machine

open Sys2Proof

section
variable {s : State}

theorem execD3hotEntry_powered (up : s.aon.up = true) (enter : Bool) :
    exec (.d3hotEntry enter) s = .next { s with link := { s.link with d3hot := enter } } :=
  congrArg Host.Outcome.next (if_pos up)

theorem execLinkTrained_trains (up : s.aon.up = true) (released : s.link.perst = false) (healthy : s.pwr.bursarFail = false)
    (awake : s.pwr.mode ≠ .dormant) (a b : BitVec 4) : exec (.linkTrained a b) s =
      .next { s with link := { s.link with speed := a, width := b, l1Entries := 0, inL1 := false } } := by
  have trains : (s.aon.up && !s.link.perst && !s.pwr.bursarFail && s.pwr.mode != .dormant) = true := by
    rw [up, released, healthy]; simpa using awake
  exact congrArg Host.Outcome.next (if_pos trains)

/-- An idle link that may enter L1 does, without L1.2 (R257). -/
theorem execLinkL1Entry_enters (aspm : s.link.aspmL1 = true) (linked : s.linkUp = true) (out : s.link.inL1 = false)
    (idle : s.inProgress = 0) (mode : s.pwr.mode = .standby ∨ s.pwr.mode = .armed) (steady : s.pwr.change = none)
    (shallow : s.link.l12En = false) : exec .linkL1Entry s =
      .next { s with link := { s.link with inL1 := true, lastL1 := 1, l1Entries := s.link.l1Entries + 1 } } := by
  have admitted : (s.pwr.mode == .standby || s.pwr.mode == .armed) = true := by simpa using mode
  have enters : (s.link.aspmL1 && s.linkUp && !s.link.inL1 && s.inProgress == 0 &&
      (s.pwr.mode == .standby || s.pwr.mode == .armed) && s.pwr.change.isNone) = true := by
    rw [aspm, linked, out, idle, admitted, steady]; rfl
  change execLinkL1Entry s = _
  rw [execLinkL1Entry]
  dsimp only
  rw [if_pos enters, shallow]
  rfl

end

/-- Settles O10, event by event. -/
theorem endpointEvents : Obligations.EndpointEvents := by
  refine ⟨fun s => ⟨endpointReset s, rfl, rfl, rfl, rfl, rfl, rfl, rfl, rfl, rfl, rfl, rfl, rfl, rfl, rfl, rfl, rfl, rfl, rfl, rfl⟩,
    fun enter s up => execD3hotEntry_powered up enter, fun s => rfl,
    fun a b s up released healthy awake => execLinkTrained_trains up released healthy awake a b, fun on s up => ?_,
    fun s => execLinkL1Entry_enters⟩
  have live : ¬ (!s.aon.up) = true := by rw [up]; decide
  exact ⟨congrArg Host.Outcome.next (if_neg live), congrArg Host.Outcome.next (if_neg live),
    congrArg Host.Outcome.next (if_neg live), congrArg Host.Outcome.next (if_neg live)⟩

end Sys2Proof.Machine
end

section
/-!
PROOFS. Writes of global registers (O17, R261, R275, R300, R365, R375, R401).
-/
namespace Sys2Proof.Machine

open Sys2Proof

/-- A write that no state rule holds back: the bits written 1 are cleared, then every RW field takes its value. -/
theorem plainWrite_unlocked {r : Reg} {v : Word} {s : State} (free : locked s r v = 0) :
    plainWrite r v s = setReg r v (r.rw &&& ~~~(s.thrKept r)) (clearReg r (v &&& r.w1c) s) := by
  have all : accept s r v = (r.rw, false) := by
    have whole : r.rw &&& 0xFFFFFFFF#32 = r.rw := BitVec.and_allOnes
    simp [accept, free, whole]
  simp only [plainWrite, all, Bool.false_eq_true, if_false]

/-- A fold in which one member of the list alone acts. -/
theorem foldl_at {α : Type} {f : State → α → State} {l : List α} {j : α} (mem : j ∈ l) (nodup : l.Nodup)
    (others : ∀ i, i ≠ j → ∀ u, f u i = u) (s : State) : l.foldl f s = f s j := by
  induction l generalizing s with
  | nil => cases mem
  | cons i l ih =>
    obtain ⟨fresh, rest⟩ := List.nodup_cons.mp nodup
    rw [List.foldl_cons]
    by_cases same : i = j
    · subst same
      exact foldl_of_fixed_mem l fun k hk => others k (fun e => fresh (e ▸ hk)) _
    · rw [others i same]
      exact ih ((List.mem_cons.mp mem).resolve_left (Ne.symm same)) rest s

/-! ### HLV_CTRL (R261) -/

theorem hlvFollow_keeps (old : Word) (s : State) : (hlvFollow old s).pwr.hlvCtrl = s.pwr.hlvCtrl ∧
    (hlvFollow old s).pwr.grant = s.pwr.grant ∧ (hlvFollow old s).tiles = s.tiles := by
  simp only [hlvFollow]
  split <;> exact ⟨rfl, rfl, rfl⟩

theorem clearReg_hlvCtrl (m : Word) (s : State) : ∃ b, clearReg .hlvCtrl m s = { s with pwr := { s.pwr with hlvOver := b } } := by
  simp only [clearReg]
  split
  · exact ⟨_, rfl⟩
  · exact ⟨s.pwr.hlvOver, rfl⟩

/-- A value that the grant covers, while no job is armed, is stored. -/
theorem hlvWrite_stores {v : Word} {s : State} (idle : s.anyArmed = false) (covered : s.hlvTooMuch v = false) :
    (hlvWrite v s).pwr.hlvCtrl = Word.merge s.pwr.hlvCtrl v 0x03C0FF00#32 ∧ (hlvWrite v s).pwr.grant = s.pwr.grant ∧
      (hlvWrite v s).tiles = s.tiles := by
  have free : locked s .hlvCtrl v = 0 := by simp only [locked, idle, covered, Bool.or_false, Bool.false_eq_true, if_false]
  obtain ⟨b, cleared⟩ := clearReg_hlvCtrl (v &&& (Reg.hlvCtrl).w1c) s
  have written : plainWrite .hlvCtrl v s = hlvFollow s.pwr.hlvCtrl { s with pwr := { s.pwr with
      hlvOver := b, hlvCtrl := Word.merge s.pwr.hlvCtrl v 0x03C0FF00#32 } } := by
    have mask : (Reg.hlvCtrl).rw &&& ~~~(s.thrKept .hlvCtrl) = 0x03C0FF00#32 := by simp [Reg.rw, State.thrKept]
    rw [plainWrite_unlocked free, cleared, mask]
    rfl
  have write : hlvWrite v s = reRequest false (noteRails (plainWrite .hlvCtrl v s)) := by
    simp only [hlvWrite, covered, Bool.and_false, Bool.false_eq_true, if_false]
  obtain ⟨r, frame⟩ := reRequest_quiet false (noteRails (plainWrite .hlvCtrl v s))
  obtain ⟨ctrl, grant, tiles⟩ := hlvFollow_keeps s.pwr.hlvCtrl { s with pwr := { s.pwr with
      hlvOver := b, hlvCtrl := Word.merge s.pwr.hlvCtrl v 0x03C0FF00#32 } }
  rw [← written] at ctrl grant tiles
  rw [write]
  exact ⟨(congrArg Power.hlvCtrl (State.quiet_pwr frame)).trans ctrl, (congrArg Power.grant (State.quiet_pwr frame)).trans grant,
    (State.quiet_tiles frame).trans tiles⟩

/-! ### PWR_RAILS (R275) -/

/-- One panel's 50 V rail is switched by a write of PWR_RAILS. -/
def pvhSwitch (v : Word) (s : State) (p : PanelId) : State :=
  { s with pwr := { s.pwr with pvhEn := s.pwr.pvhEn.set p (v.getLsbD (16 + p.val)) } }.modPanel p fun x =>
    { x with pvhOn := v.getLsbD (16 + p.val), pvhOk := x.pvhOk && v.getLsbD (16 + p.val)
             crsDue := x.crsDue || !(v.getLsbD (16 + p.val)) }

theorem pvhSwitch_same (v : Word) (s : State) (p : PanelId) : (pvhSwitch v s p).pwr.pvhEn[p] = v.getLsbD (16 + p.val) ∧
    ((pvhSwitch v s p).panels[p]).pvhOn = v.getLsbD (16 + p.val) := by
  simp [pvhSwitch, State.modPanel]

theorem pvhSwitch_other (v : Word) (s : State) {p q : PanelId} (h : p ≠ q) : (pvhSwitch v s p).pwr.pvhEn[q] = s.pwr.pvhEn[q] ∧
    (pvhSwitch v s p).panels[q] = s.panels[q] := by
  have apart : p.val ≠ q.val := fun e => h (Fin.ext e)
  simp [pvhSwitch, State.modPanel, apart]

theorem foldl_pvhSwitch (v : Word) (ps : List PanelId) (s : State) (p : PanelId) (h : p ∈ ps) :
    (ps.foldl (pvhSwitch v) s).pwr.pvhEn[p] = v.getLsbD (16 + p.val) ∧
      ((ps.foldl (pvhSwitch v) s).panels[p]).pvhOn = v.getLsbD (16 + p.val) := by
  induction ps using List.reverseRecOn with
  | nil => cases h
  | append_singleton ps q ih =>
    rw [List.foldl_append, List.foldl_cons, List.foldl_nil]
    by_cases same : q = p
    · subst same; exact pvhSwitch_same ..
    · obtain ⟨en, panel⟩ := pvhSwitch_other v (ps.foldl (pvhSwitch v) s) same
      have rest : p ∈ ps := by simpa [Ne.symm same] using h
      rw [en, panel]
      exact ih rest

theorem foldl_pvhSwitch_vdda (v : Word) (ps : List PanelId) (s : State) :
    (ps.foldl (pvhSwitch v) s).pwr.vddaEn = s.pwr.vddaEn :=
  foldl_keeps (fun u => u.pwr.vddaEn) (pvhSwitch v) (fun _ _ => rfl) ps s

/-- The state after software has switched the analog supply. -/
def State.vddaSwitched (s : State) (v : Word) : State :=
  { s with pwr := { s.pwr with vddaEn := v.getLsbD 8, vddaGood := s.pwr.vddaGood && v.getLsbD 8 } }

theorem railsWrite_hostAssisted {v : Word} {s : State} (assisted : Word.field (s.fnMode.setWidth 32) 15 14 = 1)
    (good : s.pwr.vddaGood = true) :
    railsWrite v s = noteRails (allPanels.foldl (pvhSwitch v) (s.vddaSwitched v)) := by
  have all : accept s .pwrRails v = (0x00FF0100#32, false) := by
    simp [accept, locked, assisted, good, Reg.rw]
  have named : ∀ p : PanelId, (0x00FF0100#32).getLsbD (16 + p.val) = true := by decide
  simp only [railsWrite, all, named, if_true, Bool.false_eq_true, if_false]
  rfl

/-! ### EV_ENABLE (R300) -/

theorem evEnableWrite_stores (v : Word) (s : State) : (evEnableWrite v s).ev.enable = v.setWidth 13 ∧
    (evEnableWrite v s).ev.status = s.ev.status := by
  simp only [evEnableWrite]
  split
  · simp only [raiseMsix]
    split
    · exact ⟨rfl, rfl⟩
    · split <;> exact ⟨rfl, rfl⟩
  · exact ⟨rfl, rfl⟩

/-! ### Encoder counts (R375) -/

theorem Word.merge_all (old v : Word) : Word.merge old v 0xFFFFFFFF#32 = v := by
  have kept : old &&& ~~~0xFFFFFFFF#32 = 0#32 := BitVec.and_zero
  have taken : v &&& 0xFFFFFFFF#32 = v := BitVec.and_allOnes
  rw [Word.merge, kept, taken, BitVec.zero_or]

theorem encCountWrite_stores {n : Fin 8} {s : State} (free : s.encArmed n = false) (v : Word) :
    plainWrite (.encCount n) v s = s.modEnc n fun x => { x with count := v } := by
  have unlocked : locked s (.encCount n) v = 0 := by simp only [locked, free, Bool.false_eq_true, if_false]
  rw [plainWrite_unlocked unlocked]
  have mask : (Reg.encCount n).rw &&& ~~~(s.thrKept (.encCount n)) = 0xFFFFFFFF#32 := by simp [Reg.rw, State.thrKept]
  simp only [setReg, clearReg, mask, Word.merge_all]

/-! ### Software values of pins (R365) -/

/-- A write that names one pin of the group. -/
theorem gpioWrite_one {k : Fin 8} {j : Fin 16} {v : Word} {s : State}
    (one : ∀ i : Fin 16, v.getLsbD (16 + i.val) = decide (i = j)) :
    gpioWrite k v s = if (s.gpio.pins[pin16 k j]).out != v.getLsbD j.val then
      pinSample (pin16 k j) (s.modPin (pin16 k j) fun x => { x with out := v.getLsbD j.val }) else s := by
  rw [gpioWrite, foldl_at (j := j) (List.mem_finRange j) (List.nodup_finRange 16) fun i other u => ?_]
  · simp only [one, decide_true, Bool.true_and]
  · simp only [one, other, decide_false, Bool.false_and, Bool.false_eq_true, if_false]

/-! ### PIN_STUCK (R369) -/

/-- The pin once the host has cleared STUCK. -/
def Pin.unstuck (x : Pin) (now : Nat) : Pin :=
  { x with
    stuck := false, stuckPhase := if x.stuckPhase = .first then .watched now else .none
    activeSince := x.activeSince.map fun _ => now }

theorem pinUnstick_resumes {p : PinId} {s : State} (stuck : (s.gpio.pins[p]).stuck = true)
    (high : (s.gpio.pins[p]).imode ≠ 4) (low : (s.gpio.pins[p]).imode ≠ 5)
    (free : ∀ (q : PanelId) (i : Fin 32), (s.panels[q]).pinLine[i] ≠ p.val) :
    pinUnstick p s = s.modPin p fun x => x.unstuck s.aon.ticks := by
  have level : istRefresh p (s.modPin p fun x => x.unstuck s.aon.ticks) = s.modPin p fun x => x.unstuck s.aon.ticks := by
    simp only [istRefresh, State.modPin_pin]
    refine if_neg ?_
    have modes : (((s.gpio.pins[p]).unstuck s.aon.ticks).imode == 4) = false ∧
        (((s.gpio.pins[p]).unstuck s.aon.ticks).imode == 5) = false := ⟨beq_false_of_ne high, beq_false_of_ne low⟩
    rw [modes.1, modes.2]
    simp
  unfold pinUnstick
  dsimp only
  rw [if_pos stuck]
  exact (congrArg₂ launches (lineLaunches_of_unfed free _) level).trans rfl

/-- A write that clears STUCK of one pin of the group. -/
theorem pinStuckWrite_one {k : Fin 4} {j : Fin 32} {v : Word} {s : State} (one : ∀ i : Fin 32, v.getLsbD i.val = decide (i = j)) :
    plainWrite (.pinStuck k) v s = pinUnstick (pinOf k j) s := by
  have every : v &&& (Reg.pinStuck k).w1c = v := BitVec.and_allOnes
  rw [plainWrite_unlocked rfl, every]
  change each32 (fun i s => if v.getLsbD i.val then pinUnstick (pinOf k i) s else s) s = _
  rw [each32, foldl_at (j := j) (List.mem_finRange j) (List.nodup_finRange 32) fun i other u => ?_]
  · simp only [one, decide_true, if_true]
  · simp only [one, other, decide_false, Bool.false_eq_true, if_false]

/-- Settles O17, register by register. -/
theorem globalWrites : Obligations.GlobalWrites := by
  refine ⟨fun v s decodes awake idle covered => ⟨_, congrArg Host.Outcome.next (hostReg_global decodes awake rfl v _),
      hlvWrite_stores idle covered⟩,
    fun v s decodes awake assisted good => ⟨_, congrArg Host.Outcome.next (hostReg_global decodes awake rfl v _), ?rails⟩,
    fun v s decodes awake => ⟨_, congrArg Host.Outcome.next (hostReg_global decodes awake rfl v _), evEnableWrite_stores v s⟩,
    fun n v s decodes awake free => ⟨_, congrArg Host.Outcome.next (hostReg_global decodes awake rfl v _), ?count⟩,
    fun k j v s decodes awake one => ⟨fun same => ?kept, fun new settled => ?driven⟩,
    fun k j v s decodes awake one stuck high low free => ?unstuck, fun s decodes awake => ?systime⟩
  case rails =>
    rw [railsWrite_hostAssisted assisted good]
    exact ⟨foldl_pvhSwitch_vdda v allPanels (s.vddaSwitched v),
      fun p => foldl_pvhSwitch v allPanels (s.vddaSwitched v) p (List.mem_finRange p)⟩
  case count =>
    rw [encCountWrite_stores free]
    exact ⟨congrArg Encoder.count (s.modEnc_hit n _), rfl⟩
  case kept =>
    refine congrArg Host.Outcome.next ((hostReg_global decodes awake rfl v _).trans ?_)
    rw [gpioWrite_one one, same, if_neg (by simp)]
  case driven =>
    refine congrArg Host.Outcome.next ((hostReg_global decodes awake rfl v _).trans ?_)
    rw [gpioWrite_one one, if_pos (bne_iff_ne.mpr new)]
    have shown : ((s.modPin (pin16 k j) fun x => { x with out := v.getLsbD j.val }).gpio.pins[pin16 k j]).sync =
        (s.gpio.pins[pin16 k j]).sync := by rw [State.modPin_pin]
    rw [pinSample_settled (settled.trans (congrArg some shown.symm))]
    exact State.modPin_congr _ _ rfl
  case unstuck =>
    refine congrArg Host.Outcome.next ((hostReg_global decodes awake rfl v _).trans ?_)
    rw [pinStuckWrite_one one]
    exact pinUnstick_resumes stuck high low free
  case systime =>
    have answers : (decide (s.pwr.mode = .dormant) || !s.decodes) = false := by simp [awake, decodes]
    refine ⟨_, congrArg Host.Outcome.next (if_neg ?_), rfl, rfl⟩
    simp only [answers, Bool.false_eq_true, not_false_eq_true]

end Sys2Proof.Machine
end

section
/-!
PROOFS. Power grants and power states (O36, R259, R263, R267 to R270).
-/
namespace Sys2Proof.Machine

open Sys2Proof

/-! ### GRANT_POWER (R259, R263) -/

section
variable {d : Desc} {s : State} (takes : s.takes 0x03 d (headerFault d 0 .none .unbound [(28, 36)]))
include takes

theorem execGrantPower_eq : exec (.grantPower d) s = .next (
    if d.u 24 4 = 0xFFFFFFFF then finish 0x03 d .ok 0 s.grantResult (s.begun 0x03 d)
    else if d.u 24 4 < 1000 ∨ 125000 < d.u 24 4 then finish 0x03 d .badField 24 s.grantResult (s.begun 0x03 d)
    else if s.aon.limit.toNat * 100 < d.u 24 4 ∨ d.u 24 4 < s.alloc * 10 then
      finish 0x03 d .power 0 s.grantResult (s.begun 0x03 d)
    else
      let granted := { s with pwr := { s.pwr with grant := BitVec.ofNat 16 (d.u 24 4 / 10) } }
      finish 0x03 d .ok 0 granted.grantResult (granted.begun 0x03 d)) := by
  change execGrantPower d s = _
  rw [execGrantPower, runDesc_takes _ _ _ _ _ takes]
  rfl

end

/-! ### The end of a change (R269, R282) -/

theorem changeDone_calm (c : Change) (s : State) :
    ∃ r, (changeDone c s).calm = (({ s with pwr := { s.pwr with change := none } } : State).wants r).calm := by
  obtain ⟨r, frame⟩ := reRequest_quiet false { s with pwr := { s.pwr with change := none } }
  exact ⟨r, (finish_calm ..).trans (State.calm_of_quiet frame)⟩

/-- A change that is over: the power state of before, the change and what the rails note apart. -/
theorem changeDone_keeps (c : Change) (s : State) : (noteRails (changeDone c s)).pwr.mode = s.pwr.mode ∧
    (noteRails (changeDone c s)).pwr.panels = s.pwr.panels ∧ (noteRails (changeDone c s)).pwr.change = none ∧
    (noteRails (changeDone c s)).tiles = s.tiles ∧ (noteRails (changeDone c s)).panels = s.panels := by
  obtain ⟨r, frame⟩ := changeDone_calm c s
  have pwr := State.calm_pwr frame
  exact ⟨(congrArg Power.mode pwr :), (congrArg Power.panels pwr :), (congrArg Power.change pwr :),
    (State.calm_tiles frame :), (State.calm_panels frame :)⟩

/-! ### Panels that a step moves (R267) -/

section
variable {act : PanelId → State → State} {keeps : State → Prop} {x : PState}

/-- Panels that an action sets to one state where their present and their goal state ask for it. -/
theorem foldl_panels (sets : ∀ p u, keeps u → keeps (act p u) ∧ (act p u).pwr.panels = u.pwr.panels.set p x)
    (f : PState → PState → Bool) (c : Change) {ps : List PanelId} (nodup : ps.Nodup) {s : State} (start : keeps s) :
    keeps (ps.foldl (fun u p => if f (u.pstate p) c.panels[p] then act p u else u) s) ∧
      ∀ q, (ps.foldl (fun u p => if f (u.pstate p) c.panels[p] then act p u else u) s).pstate q =
        if q ∈ ps ∧ f (s.pstate q) c.panels[q] = true then x else s.pstate q := by
  induction ps generalizing s with
  | nil => exact ⟨start, fun q => by simp⟩
  | cons p ps ih =>
    obtain ⟨fresh, rest⟩ := List.nodup_cons.mp nodup
    have first : keeps (if f (s.pstate p) c.panels[p] then act p s else s) ∧
        ∀ q, (if f (s.pstate p) c.panels[p] then act p s else s).pstate q =
          if q = p ∧ f (s.pstate q) c.panels[q] = true then x else s.pstate q := by
      by_cases asks : f (s.pstate p) c.panels[p] = true
      · obtain ⟨kept, panels⟩ := sets p s start
        refine ⟨by rw [if_pos asks]; exact kept, fun q => ?_⟩
        rw [if_pos asks, State.pstate, panels]
        by_cases same : q = p
        · subst same
          rw [if_pos ⟨rfl, asks⟩]
          exact Vector.getElem_set_self ..
        · rw [if_neg fun h => same h.1]
          exact Vector.getElem_set_ne _ _ fun e => same (Fin.ext e.symm)
      · refine ⟨by rw [if_neg asks]; exact start, fun q => ?_⟩
        rw [if_neg asks, if_neg]
        rintro ⟨rfl, h⟩
        exact asks h
    obtain ⟨kept, states⟩ := ih rest first.1
    refine ⟨kept, fun q => (states q).trans ?_⟩
    rw [first.2 q]
    by_cases same : q = p
    · subst same
      simp [fresh]
    · simp [same]

theorem eachPanel_sets (sets : ∀ p u, keeps u → keeps (act p u) ∧ (act p u).pwr.panels = u.pwr.panels.set p x)
    (f : PState → PState → Bool) (c : Change) {s : State} (start : keeps s) : keeps (eachPanel f c act s) ∧
      ∀ q, (eachPanel f c act s).pstate q = if f (s.pstate q) c.panels[q] = true then x else s.pstate q := by
  have panels := foldl_panels sets f c (List.nodup_finRange 8) start
  exact ⟨panels.1, fun q => (panels.2 q).trans (by simp only [List.mem_finRange, true_and])⟩

end

/-! ### A step to ARMED (R88, R267, R269) -/

/-- The module state holds, no change is in the way, and no SAR is on. -/
def State.sarsOff (s : State) : Prop := ∀ k : TileId, (s.tiles[k]).adcEn = false

/-- What a trowel's fields do not reach. -/
theorem State.modTrowel_sarsOff {s : State} (t : TileId) (f : Trowel → Trowel) (h : s.sarsOff) : (s.modTrowel t f).sarsOff :=
  fun k => (s.modTile_read t (fun x => { x with trowel := f x.trowel }) Tile.adcEn (fun _ => rfl) k).trans (h k)

theorem tileArm_off {t : TileId} {s : State} (off : s.sarsOff) :
    tileArm t s = s.modTrowel t fun w => { w with clipWarned := false } := by
  have still := State.modTrowel_sarsOff t (fun w => { w with clipWarned := false }) off t
  simp only [tileArm, still, Bool.false_and, Bool.false_eq_true, if_false]

theorem clipCheck_keeps (ts : List TileId) {s : State} (off : s.sarsOff) :
    (clipCheck ts s).pwr = s.pwr ∧ (clipCheck ts s).sarsOff := by
  unfold clipCheck
  split
  · next t _ =>
    unfold logClip
    split
    · exact ⟨rfl, off⟩
    · have warned : (ts.foldl (fun s u => s.modTrowel u fun w => { w with clipWarned := true }) s).pwr = s.pwr ∧
          (ts.foldl (fun s u => s.modTrowel u fun w => { w with clipWarned := true }) s).sarsOff :=
        List.foldlRecOn (motive := fun u : State => u.pwr = s.pwr ∧ u.sarsOff) _ _ ⟨rfl, off⟩
          fun u h k _ => ⟨h.1, State.modTrowel_sarsOff k _ h.2⟩
      have quiet (u : State) (src : BitVec 16) (a b : Word) : (log .info 0x17 src a b 0 u).quiet = u.quiet := log_quiet ..
      exact ⟨(State.quiet_pwr (quiet ..)).trans warned.1, fun k => by
        rw [State.quiet_tiles (quiet ..)]; exact warned.2 k⟩
  · exact ⟨rfl, off⟩

/-- The panel ARMED, before its tiles start. -/
def State.panelRaised (s : State) (p : PanelId) : State :=
  let u := s.modPanel p fun x => { x with refAt := s.aon.fck }
  { u with
    pwr := { u.pwr with panels := u.pwr.panels.set p .armed }
    mem := { u.mem with errs := u.mem.errs.filter fun e => !(e.loc.region == 12 && e.loc.unit == p.val) } }

theorem panelArm_sets {p : PanelId} {s : State} (off : s.sarsOff) :
    (panelArm p s).pwr = { s.pwr with panels := s.pwr.panels.set p .armed } ∧ (panelArm p s).sarsOff := by
  have armed (u : State) (start : u.sarsOff) : ((tilesOf p).foldl (fun s t => tileArm t s) u).pwr = u.pwr ∧
      ((tilesOf p).foldl (fun s t => tileArm t s) u).sarsOff :=
    List.foldlRecOn (motive := fun x : State => x.pwr = u.pwr ∧ x.sarsOff) _ _ ⟨rfl, start⟩
      fun x h t _ => by rw [tileArm_off h.2]; exact ⟨h.1, State.modTrowel_sarsOff t _ h.2⟩
  obtain ⟨pwr, still⟩ := armed (s.panelRaised p) off
  obtain ⟨pwr', still'⟩ := clipCheck_keeps (tilesOf p) still
  exact ⟨pwr'.trans pwr, still'⟩

/-- The step to ARMED ends: the module and the panels that the change names are ARMED. -/
theorem endStep_armed {c : Change} {s : State} (mode : s.pwr.mode = .standby) (goal : c.goal = .armed) (off : s.sarsOff) :
    (endStep .standbyToArmed c s).pwr.mode = .armed ∧ ∀ p : PanelId, (endStep .standbyToArmed c s).pstate p =
      if (!(s.pstate p).live && (c.panels[p]).live) = true then .armed else s.pstate p := by
  have up : (!s.pwr.mode.up && c.goal.up) = true := by rw [mode, goal]; rfl
  have step : endStep .standbyToArmed c s = eachPanel (fun x y => !x.live && y.live) c panelArm (setMode .armed s) :=
    congrArg (eachPanel (fun x y => !x.live && y.live) c panelArm) (if_pos up)
  obtain ⟨kept, states⟩ := eachPanel_sets (act := panelArm) (keeps := fun u : State => u.pwr.mode = .armed ∧ u.sarsOff) (x := .armed)
    (fun p u h => by
      obtain ⟨pwr, still⟩ := panelArm_sets (p := p) h.2
      exact ⟨⟨by rw [pwr]; exact h.1, still⟩, by rw [pwr]⟩)
    (fun x y => !x.live && y.live) c (s := setMode .armed s) ⟨rfl, off⟩
  rw [step]
  exact ⟨kept.1, states⟩

theorem execPowerStepComplete_last {c : Change} {k : PowerStep} {s : State} (change : s.pwr.change = some c)
    (last : c.steps = [k]) (ready : s.stepReady c k = true) :
    exec .powerStepComplete s = .next (noteRails (changeDone c (endStep k c s))) := by
  change execPowerStepComplete s = _
  rw [execPowerStepComplete, change]
  dsimp only
  rw [last]
  exact congrArg Host.Outcome.next (if_pos ready)

/-! ### DORMANT (R269, R271) -/

theorem execDormantPowerDown_sleeps {s : State} (due : s.pwr.dormantDue = true) (late : s.pwr.dormantAt + 1200000 ≤ s.aon.fck) :
    exec .dormantPowerDown s = .next (resamplePins s.asleep) := by
  have past : decide (s.pwr.dormantAt + usFck 1000 ≤ s.aon.fck) = true := decide_eq_true late
  exact congrArg Host.Outcome.next (if_pos (by rw [due, past]; rfl))

/-! ### SET_POWER_STATE (R268, R269) -/

section
variable {d : Desc} {s : State} (takes : s.takes 0x02 d (headerFault d 0 .none .unbound [(25, 3), (36, 28)]))
include takes

/-- The change that the command asks for. -/
def State.asked (s : State) (d : Desc) : Change :=
  { desc := d, goal := s.goalMode d, panels := Vector.ofFn (s.goalPanel d), steps := [] }

theorem execSetPowerState_busy (busy : s.pwr.change.isSome = true ∨ s.pwr.dormantDue = true) :
    exec (.setPowerState d) s = .next (finish 0x02 d .busy 0 0 (s.begun 0x02 d)) := by
  have busy' : ((s.begun 0x02 d).pwr.change.isSome || (s.begun 0x02 d).pwr.dormantDue) = true := Bool.or_eq_true_iff.mpr busy
  change execSetPowerState d s = _
  rw [execSetPowerState, runDesc_takes _ _ _ _ _ takes]
  exact congrArg Host.Outcome.next (if_pos busy')

variable (idle : s.pwr.change = none) (awake : s.pwr.dormantDue = false)
include idle awake

theorem execSetPowerState_held (held : s.pwr.mode = .faultHold) : exec (.setPowerState d) s = .next (
    if d.u 24 1 ≠ 1 ∨ (allPanels.any fun p => d.u (28 + p.val) 1 != 255) ∨ !s.pwr.fclear then
      finish 0x02 d .state 0 0 (s.begun 0x02 d)
    else finish 0x02 d .ok 0 0 (leaveFaultHold (s.begun 0x02 d))) := by
  have free : ¬ ((s.begun 0x02 d).pwr.change.isSome || (s.begun 0x02 d).pwr.dormantDue) = true := by
    change ¬ (s.pwr.change.isSome || s.pwr.dormantDue) = true
    rw [idle, awake]; decide
  change execSetPowerState d s = _
  rw [execSetPowerState, runDesc_takes _ _ _ _ _ takes]
  dsimp only
  rw [if_neg free]
  exact congrArg Host.Outcome.next (if_pos held)

variable (live : s.pwr.mode ≠ .faultHold)
include live

theorem execSetPowerState_checked : exec (.setPowerState d) s = .next (
    match s.powerFault d with
    | some off => finish 0x02 d .badField off 0 (s.begun 0x02 d)
    | none =>
      if s.coat.isSome then finish 0x02 d .busy 0 0 (s.begun 0x02 d)
      else if s.powerBarred (s.asked d).goal (s.asked d).panels || ((s.asked d).goal == .dormant && !s.link.l12En) ||
          (s.hostSeq && s.railsShort (s.asked d).panels) then finish 0x02 d .state 0 0 (s.begun 0x02 d)
      else if s.pwr.grant.toNat < s.allocFor (s.asked d).goal (s.asked d).panels s.pwr.hlvCtrl then
        finish 0x02 d .power 0 0 (s.begun 0x02 d)
      else nextStep (s.asked d) (s.stepsFor (s.asked d).goal (s.asked d).panels) (s.begun 0x02 d)) := by
  have free : ¬ ((s.begun 0x02 d).pwr.change.isSome || (s.begun 0x02 d).pwr.dormantDue) = true := by
    change ¬ (s.pwr.change.isSome || s.pwr.dormantDue) = true
    rw [idle, awake]; decide
  change execSetPowerState d s = _
  rw [execSetPowerState, runDesc_takes _ _ _ _ _ takes]
  dsimp only
  rw [if_neg free]
  exact congrArg Host.Outcome.next (if_neg live)

/-- What bars a change that its values, coats and other changes do not. -/
def State.changeBarred (s : State) (d : Desc) : Bool :=
  s.powerBarred (s.asked d).goal (s.asked d).panels || ((s.asked d).goal == .dormant && !s.link.l12En) ||
    (s.hostSeq && s.railsShort (s.asked d).panels)

omit takes idle awake live in
theorem State.changeBarred_iff : s.changeBarred d = true ↔ (s.powerBarred (s.asked d).goal (s.asked d).panels = true ∨
    ((s.asked d).goal = .dormant ∧ s.link.l12En = false) ∨ (s.hostSeq = true ∧ s.railsShort (s.asked d).panels = true)) := by
  simp only [State.changeBarred, Bool.or_eq_true, Bool.and_eq_true, beq_iff_eq, Bool.not_eq_true', or_assoc]

theorem execSetPowerState_settled (sound : s.powerFault d = none) (coat : s.coat = none) : exec (.setPowerState d) s = .next (
    if s.changeBarred d then finish 0x02 d .state 0 0 (s.begun 0x02 d)
    else if s.pwr.grant.toNat < s.allocFor (s.asked d).goal (s.asked d).panels s.pwr.hlvCtrl then
      finish 0x02 d .power 0 0 (s.begun 0x02 d)
    else nextStep (s.asked d) (s.stepsFor (s.asked d).goal (s.asked d).panels) (s.begun 0x02 d)) := by
  rw [execSetPowerState_checked takes idle awake live, sound]
  dsimp only
  rw [coat, if_neg (by decide)]
  rfl

end

/-- The state in which a change runs. -/
def State.changing (s : State) (c : Change) : State := { s with pwr := { s.pwr with change := some c } }

theorem nextStep_cons (c : Change) (k : PowerStep) (ks : List PowerStep) (s : State) :
    nextStep c (k :: ks) s = noteRails (beginStep k { c with steps := k :: ks } (s.changing { c with steps := k :: ks })) := rfl

/-- What setting panel states leaves as it is. -/
def State.panelsAside (s u : State) : Prop :=
  u.pwr.mode = s.pwr.mode ∧ u.pwr.change = s.pwr.change ∧ u.tiles = s.tiles

/-- Panels that leave ACTIVE are ARMED at once, and so is the module (R269). -/
theorem beginStep_activeToArmed {c : Change} {s : State} (mode : s.pwr.mode = .active) (goal : c.goal = .armed) :
    (beginStep .activeToArmed c s).pwr.mode = .armed ∧ (beginStep .activeToArmed c s).tiles = s.tiles ∧
      (beginStep .activeToArmed c s).pwr.change = s.pwr.change ∧
      ∀ p : PanelId, (beginStep .activeToArmed c s).pstate p =
        if (s.pstate p == .active && c.panels[p] != .active) = true then .armed else s.pstate p := by
  obtain ⟨⟨kept, change, tiles⟩, states⟩ := eachPanel_sets (act := setPState .armed) (x := .armed) (keeps := s.panelsAside)
    (fun p u h => ⟨h, rfl⟩) (fun x y => x == .active && y != .active) c ⟨rfl, rfl, rfl⟩
  rw [beginStep]
  generalize eachPanel _ c (setPState .armed) s = u at kept change tiles states ⊢
  rw [if_pos ⟨kept.trans mode, by rw [goal]; decide⟩]
  exact ⟨rfl, tiles, change, states⟩

/-- Settles O36, command by command and step by step. -/
theorem powerStates : Obligations.PowerStates := by
  refine ⟨fun d s takes => ?grant, fun d s takes => ⟨execSetPowerState_busy takes, fun idle awake => ⟨fun held => ?held, fun live => ?set⟩⟩,
    fun c s change last mode goal ready off => ?step, fun s due late => ?dormant⟩
  case grant =>
    have run := execGrantPower_eq takes
    refine ⟨fun asks => ?_, fun value range => ?_, fun low high refused => ?_, fun low high limit alloc => ?_⟩
    · exact run.trans (by rw [if_pos asks])
    · exact run.trans (by rw [if_neg value, if_pos range])
    · exact run.trans (by rw [if_neg (by omega), if_neg (by omega), if_pos (by omega)])
    · exact run.trans (by rw [if_neg (by omega), if_neg (by omega), if_neg (by omega)])
  case held =>
    have run := execSetPowerState_held takes idle awake held
    have kept : (allPanels.any fun p : PanelId => d.u (28 + p.val) 1 != 255) = true ↔ ¬ ∀ p : PanelId, d.u (28 + p.val) 1 = 255 := by
      simp [allPanels]
    have stays : ¬ (d.u 24 1 = 1 ∧ (∀ p : PanelId, d.u (28 + p.val) 1 = 255) ∧ s.pwr.fclear = true) ↔
        (d.u 24 1 ≠ 1 ∨ (allPanels.any fun p : PanelId => d.u (28 + p.val) 1 != 255) = true ∨ (!s.pwr.fclear) = true) := by
      rw [kept, not_and_or, not_and_or, Bool.not_eq_true', Bool.not_eq_true]
    refine ⟨fun refused => run.trans ?_, fun leaves => run.trans ?_⟩
    · exact congrArg Host.Outcome.next (if_pos (stays.mp refused))
    · exact congrArg Host.Outcome.next (if_neg fun h => stays.mpr h leaves)
  case set =>
    have run := execSetPowerState_checked takes idle awake live
    have settled := execSetPowerState_settled takes idle awake live
    have bars := State.changeBarred_iff (s := s) (d := d)
    have accepted (sound : s.powerFault d = none) (coat : s.coat = none)
        (free : ¬ (s.powerBarred (s.asked d).goal (s.asked d).panels = true ∨ ((s.asked d).goal = .dormant ∧ s.link.l12En = false) ∨
          (s.hostSeq = true ∧ s.railsShort (s.asked d).panels = true)))
        (covered : s.allocFor (s.asked d).goal (s.asked d).panels s.pwr.hlvCtrl ≤ s.pwr.grant.toNat) :
        exec (.setPowerState d) s = .next (nextStep (s.asked d) (s.stepsFor (s.asked d).goal (s.asked d).panels) (s.begun 0x02 d)) :=
      (settled sound coat).trans (congrArg Host.Outcome.next ((if_neg fun h => free (bars.mp h)).trans
        (if_neg (Nat.not_lt.mpr covered))))
    refine ⟨fun off fault => ?_, fun sound coat => ?_, fun sound coat => ⟨fun barred => ?_, fun free short => ?_, fun free covered =>
      ⟨fun none_ => ?_, fun up => ?_, fun down active goal => ?_⟩⟩⟩
    · exact run.trans (by rw [fault])
    · exact run.trans (by rw [sound]; exact congrArg Host.Outcome.next (if_pos coat))
    · exact (settled sound coat).trans (congrArg Host.Outcome.next (if_pos (bars.mpr barred)))
    · exact (settled sound coat).trans (congrArg Host.Outcome.next ((if_neg fun h => free (bars.mp h)).trans (if_pos short)))
    · refine ⟨_, accepted sound coat free covered, ?_⟩
      rw [show s.stepsFor (s.asked d).goal (s.asked d).panels = [] from none_]
      obtain ⟨mode, panels, change, tiles, panels'⟩ := changeDone_keeps (s.asked d) (s.begun 0x02 d)
      exact ⟨mode, panels, change, tiles, panels'⟩
    · refine ⟨_, accepted sound coat free covered, ?_⟩
      rw [show s.stepsFor (s.asked d).goal (s.asked d).panels = [.standbyToArmed] from up]
      exact ⟨rfl, rfl, rfl, rfl⟩
    · refine ⟨_, accepted sound coat free covered, ?_⟩
      rw [show s.stepsFor (s.asked d).goal (s.asked d).panels = [.activeToArmed] from down]
      rw [nextStep_cons]
      obtain ⟨mode, tiles, change, states⟩ := beginStep_activeToArmed (c := { s.asked d with steps := [.activeToArmed] })
        (s := (s.begun 0x02 d).changing { s.asked d with steps := [.activeToArmed] }) active goal
      generalize beginStep _ _ _ = u at mode tiles change states ⊢
      refine ⟨mode, tiles, change, fun p => (states p).trans ?_⟩
      have goal' : (s.asked d).panels[p] = s.goalPanel d p := Vector.getElem_ofFn ..
      rw [goal']
      simp only [Bool.and_eq_true, beq_iff_eq, bne_iff_ne]
      rfl
  case step =>
    have standby := endStep_armed (c := c) mode goal off
    obtain ⟨mode', panels, change', -, -⟩ := changeDone_keeps c (endStep .standbyToArmed c s)
    refine ⟨_, execPowerStepComplete_last change last ready, mode'.trans standby.1, change', fun p => ?_⟩
    rw [State.pstate, panels]
    refine (standby.2 p).trans ?_
    simp only [Bool.and_eq_true, Bool.not_eq_true']
  case dormant =>
    refine ⟨_, execDormantPowerDown_sleeps due late, ?_⟩
    rw [State.outsidePins_only (resamplePins_outsidePins (s := s.asleep) rfl (fun h => Mode.noConfusion h))]
    exact ⟨rfl, by simp [State.serving, State.asleep], rfl, rfl, rfl⟩

end Sys2Proof.Machine
end

section
/-!
PROOFS. O45 fails: a STOP_ENGINE that clears the engine finds the next instruction of a sleeping engine without the loop it is in.
-/
namespace Sys2Proof.Machine

open Sys2Proof

/-- Tile 5's engine sleeps in a WAIT that is the last instruction of a loop body (0x104 to 0x108), two iterations from its end. Its
next instruction is the body's first one (R178, R189, R192). -/
def waitingInLoop : State :=
  readyToCalibrate.modEng 5 fun e =>
    { e with
      st := .sleeping, prog := 0xFE, pc := 0x108, stall := some (.waitEv 1 3 none)
      loops := [{ first := 0x104, last := 0x108, left := 3 }] }

/-- STOP_ENGINE of tile 5 with CLEAR 1 (R206). -/
def stopCleared : Desc := { tag := 7, target := 5, body := 1 }

/-- The PC of tile 5's engine after an instruction. -/
def pcAfter : Result → Option Word
  | .next u => some (u.tiles[(5 : TileId)]).eng.pc
  | _ => none

theorem stopCleared_taken : waitingInLoop.takes 0x32 stopCleared (headerFault stopCleared 9 .none .unbound [(25, 39)]) := by
  unfold State.takes
  decide +kernel

/-- The model clears the loop levels first, and the engine stops past the loop. -/
theorem stopCleared_leavesLoop : pcAfter (exec (.stopEngine stopCleared) waitingInLoop) = some 0x10C := by decide +kernel

theorem waitingInLoop_nextPc : (waitingInLoop.tiles[(5 : TileId)]).eng.nextPc = 0x104 := by decide +kernel

/-- Refutes O45: its clause for STOP_ENGINE puts the PC at the instruction that was next before the engine is cleared. With CLEAR the
model takes the next one of the cleared engine, which is in no loop. -/
theorem not_enginePrograms : ¬ Obligations.EnginePrograms := by
  intro h
  obtain ⟨-, -, stops, -⟩ := h
  obtain ⟨stopped, -⟩ := stops stopCleared waitingInLoop stopCleared_taken (by decide +kernel) (by decide +kernel)
  have left := stopCleared_leavesLoop
  rw [stopped (by decide +kernel), pcAfter, State.calm_tiles (finish_calm ..)] at left
  have next := congrArg Tile.eng (State.modEng_tile (waitingInLoop.begun 0x32 stopCleared) 5 fun e =>
    { (if stopCleared.u 24 1 = 1 then e.cleared else e) with st := .stopped, cause := 0, stall := none, arm := none, pc := e.nextPc })
  have pc := (congrArg Engine.pc next).trans waitingInLoop_nextPc
  exact absurd (left.symm.trans (congrArg some pc)) (by decide)

end Sys2Proof.Machine
end

section
/-!
PROOFS. Heads, jobs, glyphs, counters and date slots (O46, R26 to R29, R35, R38, R39, R42).
-/
namespace Sys2Proof.Machine

open Sys2Proof

theorem okayRead_clean {op : Byte} {d : Desc} (clean : d.rd = .clean) (result : Nat) (s : State) :
    okayRead op d result s = finish op d .ok 0 result s := by
  rw [okayRead, clean]; rfl

/-! ### DEFINE_HEAD (R26 to R28) -/

section
variable {d : Desc} {s : State} (takes : s.takes 0x41 d (headerFault d 3 .buffer .unbound [(43, 21)]))
include takes

theorem execDefineHead_armed (armed : (s.heads[(Fin.ofNat 8 d.target.toNat : HeadId)]).armed.isSome = true) :
    exec (.defineHead d) s = .next (finish 0x41 d .state 0 0 (s.begun 0x41 d)) := by
  change execDefineHead d s = _
  rw [execDefineHead, runDesc_takes _ _ _ _ _ takes]
  exact congrArg Host.Outcome.next (if_pos armed)

theorem execDefineHead_mapped (linked : s.linkUp = true) (clean : d.rd = .clean) {x : HeadDef}
    (idle : (s.heads[(Fin.ofNat 8 d.target.toNat : HeadId)]).armed = none)
    (fields : headFieldFault s (Fin.ofNat 8 d.target.toNat) d = none)
    (map : headDefOf d (s.hostMem.bytes d.buffer.toNat d.len) = some x) : exec (.defineHead d) s = .next (
      if headMapBad s (Fin.ofNat 8 d.target.toNat) x then finish 0x41 d .badField 0xFF 0 (s.begun 0x41 d)
      else finish 0x41 d .ok 0 0 ((s.begun 0x41 d).modHead (Fin.ofNat 8 d.target.toNat) fun y => y.defined x)) := by
  have idle' : ¬ ((s.begun 0x41 d).heads[(Fin.ofNat 8 d.target.toNat : HeadId)]).armed.isSome = true := by
    change ¬ (s.heads[(Fin.ofNat 8 d.target.toNat : HeadId)]).armed.isSome = true
    rw [idle]; decide
  have fields' : headFieldFault (s.begun 0x41 d) (Fin.ofNat 8 d.target.toNat) d = none := fields
  have map' : headDefOf d ((s.begun 0x41 d).hostMem.bytes d.buffer.toNat d.len) = some x := map
  change execDefineHead d s = _
  rw [execDefineHead, runDesc_takes _ _ _ _ _ takes]
  dsimp only
  rw [if_neg idle', fields', withBuffer_clean _ _ _ (s.begun 0x41 d) linked clean, map']
  dsimp only
  rw [okayRead_clean clean]
  rfl

end

/-! ### DEFINE_JOB (R29, R30) -/

theorem execDefineJob_defines {d : Desc} {s : State} (takes : s.takes 0x42 d (jobHeader d)) (head : d.u 24 1 ≤ 7)
    (linked : s.linkUp = true) (clean : d.rd = .clean) {x : HeadDef} {j : JobDef}
    (idle : s.jobArmed (Fin.ofNat 64 d.target.toNat) = false)
    (defined : (s.heads[(Fin.ofNat 8 (d.u 24 1) : HeadId)]).hdef = some x) (fields : jobFieldFault d = none)
    (len : d.len = jobBlockLen d x) (block : jobOfBlock x d (s.hostMem.bytes d.buffer.toNat d.len) = some j)
    (new : (s.jobs[(Fin.ofNat 64 d.target.toNat : Fin 64)]).jdef = none) (room : s.printUsed + j.used ≤ 0x1000000) :
    exec (.defineJob d) s = .next (finish 0x42 d .ok 0 j.used
      ((s.begun 0x42 d).modJob (Fin.ofNat 64 d.target.toNat) fun _ => { jdef := some j })) := by
  have idle' : (s.begun 0x42 d).jobArmed (Fin.ofNat 64 d.target.toNat) = false := idle
  have defined' : ((s.begun 0x42 d).heads[(Fin.ofNat 8 (d.u 24 1) : HeadId)]).hdef = some x := defined
  have new' : ((s.begun 0x42 d).jobs[(Fin.ofNat 64 d.target.toNat : Fin 64)]).jdef = none := new
  have block' : jobOfBlock x d ((s.begun 0x42 d).hostMem.bytes d.buffer.toNat d.len) = some j := block
  have room' : ¬ printStore < (s.begun 0x42 d).printUsed - 0 + j.used := Nat.not_lt.mpr room
  change execDefineJob d s = _
  rw [execDefineJob, runDesc_takes _ _ _ _ _ takes]
  dsimp only
  rw [if_pos head, defined', idle', if_neg (by simp), fields]
  dsimp only
  rw [if_neg (not_not.mpr len), withBuffer_clean _ _ _ (s.begun 0x42 d) linked clean, block']
  dsimp only
  rw [new', if_neg room', okayRead_clean clean]

/-! ### LOAD_GLYPHS (R35) -/

theorem execLoadGlyphs_loads {d : Desc} {s : State} (takes : s.takes 0x43 d (headerFault d 2 .buffer .unbound [(29, 35)]))
    (first : d.u 24 2 ≤ 255) (some_ : 1 ≤ d.u 26 2) (range : d.u 24 2 + d.u 26 2 ≤ 256) (low : 1 ≤ d.u 28 1) (high : d.u 28 1 ≤ 64)
    (linked : s.linkUp = true) (clean : d.rd = .clean) {l : List (Byte × Glyph)}
    (glyphs : glyphsOf (d.u 28 1) (d.u 26 2) (d.u 24 2) (s.hostMem.bytes d.buffer.toNat d.len) = some l) :
    let old := s.glyphs[(Fin.ofNat 4 d.target.toNat : Fin 4)]
    let new : GlyphTable := ⟨d.u 28 1, (if old.height = d.u 28 1 then
      old.glyphs.filter fun g => !(l.any fun x => x.1 == g.1) else []) ++ l⟩
    s.printUsed + new.bytes ≤ 0x1000000 → exec (.loadGlyphs d) s = .next (finish 0x43 d .ok 0 0
      { s.begun 0x43 d with glyphs := s.glyphs.set (Fin.ofNat 4 d.target.toNat : Fin 4) new }) := by
  intro old new room
  have glyphs' : glyphsOf (d.u 28 1) (d.u 26 2) (d.u 24 2) ((s.begun 0x43 d).hostMem.bytes d.buffer.toNat d.len) = some l := glyphs
  change execLoadGlyphs d s = _
  rw [execLoadGlyphs, runDesc_takes _ _ _ _ _ takes]
  dsimp only
  rw [if_neg (by omega), if_neg (by omega), if_neg (by omega), withBuffer_clean _ _ _ (s.begun 0x43 d) linked clean, glyphs']
  dsimp only
  rw [okayRead_clean clean]
  exact congrArg Host.Outcome.next (if_neg (Nat.not_lt.mpr room))

/-! ### SET_COUNTER (R38) -/

section
variable {d : Desc} {s : State} (takes : s.takes 0x48 d (headerFault d 6 .none .unbound [(25, 3), (32, 32)])) {x : JobDef}
  (defined : (s.jobs[(Fin.ofNat 64 d.target.toNat : Fin 64)]).jdef = some x)
include takes defined

theorem execSetCounter_eq : exec (.setCounter d) s = .next (
    if x.counters.length ≤ d.u 24 1 then finish 0x48 d .badField 24 0 (s.begun 0x48 d)
    else finish 0x48 d .ok 0 0 ((s.begun 0x48 d).modJob (Fin.ofNat 64 d.target.toNat) fun y =>
      { y with jdef := some (x.setCounter (d.u 24 1) (BitVec.ofNat 32 (d.u 28 4))) })) := by
  have defined' : ((s.begun 0x48 d).jobs[(Fin.ofNat 64 d.target.toNat : Fin 64)]).jdef = some x := defined
  change execSetCounter d s = _
  rw [execSetCounter, runDesc_takes _ _ _ _ _ takes]
  dsimp only
  rw [defined']
  rfl

end

/-! ### Date slots (R39, R42) -/

theorem execSetDateSlots_waits {d : Desc} {s : State} (takes : s.takes 0x44 d (headerFault d 0 .buffer .unbound [(28, 36)]))
    (len : d.len = 80 * d.u 25 1) (index : d.u 24 1 ≤ 31) (some_ : 1 ≤ d.u 25 1) (range : d.u 24 1 + d.u 25 1 ≤ 32)
    (linked : s.linkUp = true) (clean : d.rd = .clean) :
    exec (.setDateSlots d) s = .next { s.begun 0x44 d with dates := { s.dates with wait := s.dates.wait ++
      [⟨d, d.u 24 1, (chunks 80 (d.u 25 1) (s.hostMem.bytes d.buffer.toNat d.len)).map dateSlotOf, d.u 26 2⟩] } } := by
  change execSetDateSlots d s = _
  rw [execSetDateSlots, runDesc_takes _ _ _ _ _ takes]
  dsimp only
  rw [if_neg (not_not.mpr len), if_neg (by omega), if_neg (by omega), withBuffer_clean _ _ _ (s.begun 0x44 d) linked clean]
  rfl

/-- The date table with one slot and the lead written. -/
def Dates.written (x : Dates) (i : Fin 32) (slot : DateSlot) (lead : Nat) : Dates :=
  { x with slots := x.slots.set i slot, lead := lead }

/-- One waiting write of one slot: the slot and the lead change, and the warning is armed or not. -/
theorem applySlots_one {w : SlotWrite} {x : DateSlot} {i : Fin 32} (index : w.index = i.val) (one : w.slots = [x]) (s : State) :
    ∃ armed, (applySlots w s).calm =
      ({ s with dates := { s.dates.written i x w.lead with lowArmed := armed } } : State).calm := by
  have slot : (Fin.ofNat 32 i.val : Fin 32) = i := Fin.ext (Nat.mod_eq_of_lt i.isLt)
  obtain ⟨u, write, frame⟩ : ∃ u, writeSlots w.index w.slots { s with dates := { s.dates with lead := w.lead } } = u ∧
      u.quiet = ({ s with dates := s.dates.written i x w.lead } : State).quiet := by
    refine ⟨_, rfl, ?_⟩
    rw [one, index]
    simp only [writeSlots, slot]
    exact log_quiet ..
  have dates := State.quiet_dates frame
  unfold applySlots
  dsimp only
  rw [write]
  split
  · refine ⟨s.dates.lowArmed, (finish_calm ..).trans ((State.calm_of_quiet frame).trans ?_)⟩
    rfl
  · refine ⟨true, (finish_calm ..).trans (State.calm_of_quiet ?_)⟩
    have armed := congrArg (fun v : State => { v with dates := { v.dates with lowArmed := true } }) frame
    exact armed

theorem execDateSlotApply_one {w : SlotWrite} {s : State} (waits : s.dates.wait = [w]) :
    exec .dateSlotApply s = .next (applySlots w { s with dates := { s.dates with wait := [] } }) := by
  change execDateSlotApply s = _
  rw [execDateSlotApply, waits]
  rfl

theorem execDateLow_silent {s : State} (quiet : s.dates.lowArmed = false ∨ s.dateShort = false) :
    exec .dateLow s = .next s := by
  refine congrArg Host.Outcome.next (if_neg ?_)
  rcases quiet with h | h <;> simp [h]

/-- The date table once its warning has been given. -/
def State.warned (s : State) : State := { s with dates := { s.dates with lowArmed := false } }

theorem execDateLow_warns {s : State} (serving : s.serving = true) (armed : s.dates.lowArmed = true) (short : s.dateShort = true) :
    ∃ t, exec .dateLow s = .next t ∧ t.quiet = s.warned.quiet ∧ t.ev.status.getLsbD 4 = true := by
  have warns : (s.aon.up && s.pwr.mode != .booting && s.pwr.mode != .dormant && s.dates.lowArmed && s.dateShort) = true := by
    simp only [State.serving, Bool.and_eq_true] at serving
    rw [armed, short, serving.1, serving.2.1, serving.2.2]
    rfl
  have frame (a b c : Word) : (raiseEvent .dateLow noUnit (log .info 0x1A srcModule a b c s.warned)).quiet = s.warned.quiet :=
    (raiseEvent_quiet ..).trans (log_quiet ..)
  exact ⟨_, congrArg Host.Outcome.next (if_pos warns), frame .., raiseEvent_shows ..⟩

/-- Settles O46, command by command and step by step. -/
theorem printDefinitions : Obligations.PrintDefinitions := by
  refine ⟨fun d x s takes linked clean idle fields map => ?head, fun d s takes armed => execDefineHead_armed takes armed,
    fun d x j s takes head linked clean idle defined fields len block new room =>
      execDefineJob_defines takes head linked clean idle defined fields len block new room,
    fun d l s takes first some_ range low high linked clean glyphs room =>
      execLoadGlyphs_loads takes first some_ range low high linked clean glyphs room,
    fun d x s takes defined => ?counter,
    fun d s takes len index some_ range linked clean => execSetDateSlots_waits takes len index some_ range linked clean,
    fun w x i s waits index one => ?apply, fun s serving => ⟨fun armed short => ?low, execDateLow_silent⟩⟩
  case head =>
    have run := execDefineHead_mapped takes linked clean idle fields map
    refine ⟨fun good => run.trans ?_, fun bad => run.trans ?_⟩
    · rw [good]; rfl
    · rw [bad]; rfl
  case counter =>
    have run := execSetCounter_eq takes defined
    refine ⟨fun inside => ?_, fun outside => run.trans (congrArg Host.Outcome.next (if_pos outside))⟩
    refine ⟨_, x.setCounter (d.u 24 1) (BitVec.ofNat 32 (d.u 28 4)),
      run.trans (congrArg Host.Outcome.next (if_neg (Nat.not_le.mpr inside))), ?_, rfl, rfl, ?_⟩
    · rw [State.calm_jobs (finish_calm ..)]
      exact congrArg Job.jdef (State.modJob_hit ..)
    · rw [State.calm_jobs (finish_calm ..)]
      exact (congrArg Job.suppressed (State.modJob_hit ..)).trans rfl
  case apply =>
    obtain ⟨armed, frame⟩ := applySlots_one index one { s with dates := { s.dates with wait := [] } }
    have dates := State.calm_dates frame
    exact ⟨_, execDateSlotApply_one waits, (congrArg Dates.slots dates :), (congrArg Dates.lead dates :),
      (congrArg Dates.wait dates :), (State.calm_jobs frame :), (State.calm_tiles frame :)⟩
  case low =>
    obtain ⟨t, run, frame, event⟩ := execDateLow_warns serving armed short
    have dates := State.quiet_dates frame
    exact ⟨t, run, (congrArg Dates.lowArmed dates :), (congrArg Dates.slots dates :), event, (State.quiet_jobs frame :)⟩

end Sys2Proof.Machine
end

section
/-!
PROOFS. Arming, swapping and disarming jobs, compensation (O47, R44, R47, R48, R52).
-/
namespace Sys2Proof.Machine

open Sys2Proof

/-! ### What trowels and tiles do not reach -/

/-- The state without its tiles. -/
def State.untiled (s : State) : State := { s with tiles := Vector.replicate 512 {} }
/-- The state without reports and tiles. -/
def State.outsideTiles (s : State) : State := s.quiet.untiled

theorem State.outsideTiles_modTile (s : State) (t : TileId) (f : Tile → Tile) : (s.modTile t f).outsideTiles = s.outsideTiles := rfl
theorem State.outsideTiles_of_quiet {s u : State} (h : u.quiet = s.quiet) : u.outsideTiles = s.outsideTiles := by
  have q := congrArg State.untiled h; exact q

section
variable {s u : State} (h : u.outsideTiles = s.outsideTiles)
include h
theorem State.outsideTiles_heads : u.heads = s.heads := by
  have q := congrArg State.heads h; exact q
theorem State.outsideTiles_jobs : u.jobs = s.jobs := by
  have q := congrArg State.jobs h; exact q
theorem State.outsideTiles_aon : u.aon = s.aon := by
  have q := congrArg State.aon h; exact q
theorem State.outsideTiles_pwr : u.pwr = s.pwr := by
  have q := congrArg State.pwr h; exact q
end

theorem clipCheck_outsideTiles (ts : List TileId) (s : State) : (clipCheck ts s).outsideTiles = s.outsideTiles := by
  unfold clipCheck
  split
  · next t _ =>
    unfold logClip
    split
    · rfl
    · exact (State.outsideTiles_of_quiet (log_quiet ..)).trans
        (foldl_keeps State.outsideTiles _ (fun u t => u.outsideTiles_modTile t _) ts s)
  · rfl

theorem reenable_untiled (t : TileId) (s : State) : (reenable t s).untiled = s.untiled := by
  unfold reenable
  split
  · obtain ⟨f, ended⟩ := endBuddy_modTrowel t (s.modTrowel t fun w => { w with reenable := false, phase := .recovering })
    rw [ended]
    rfl
  · rfl

/-! ### Reject pins (R363, R364) -/

/-- The reject pin of a head's armed job. -/
def State.rejectPin (s : State) (h : HeadId) : Option PinId :=
  (s.jobOf h).bind fun j => if k : j.rejectPin.toNat < 128 then some ⟨j.rejectPin.toNat, k⟩ else none

theorem State.rejectPin_of_unarmed {s : State} {h : HeadId} (unarmed : (s.heads[h]).armed = none) : s.rejectPin h = none := by
  rw [State.rejectPin, State.jobOf, unarmed]
  rfl

theorem State.rejectPin_of_none {s : State} {h : HeadId} (none_ : ∀ j : JobDef, s.jobOf h = some j → 128 ≤ j.rejectPin.toNat) :
    s.rejectPin h = none := by
  unfold State.rejectPin
  cases job : s.jobOf h with
  | none => rfl
  | some j => exact dif_neg (Nat.not_lt.mpr (none_ j job))

theorem State.rejectSources_congr {s u : State} (pins : ∀ h, u.rejectPin h = s.rejectPin h) (rejects : u.aon.rejects = s.aon.rejects) :
    u.rejectSources = s.rejectSources := by
  have heads : (allHeads.filterMap u.rejectPin) = allHeads.filterMap s.rejectPin := by rw [funext pins]
  have sources (x : State) : x.rejectSources = (allHeads.filterMap x.rejectPin ++ x.aon.rejects.map (·.pin)).eraseDups := rfl
  rw [sources, sources, heads, rejects]

theorem rejectsFollow_of_same {old s : State} (same : s.rejectSources = old.rejectSources) : rejectsFollow old s = s := by
  have nothing : (s.rejectSources.filter fun p => !s.rejectSources.contains p) = [] :=
    List.filter_eq_nil_iff.mpr fun p mem => by simp [mem]
  simp only [rejectsFollow, ← same, nothing, List.append_nil, List.foldl_nil]

theorem pinHold_outsideCascade (p : PinId) (s : State) : (pinHold p s).outsideCascade = s.outsideCascade :=
  pinSample_outsideCascade (s.modPin p fun x => { x with hold := true, holdAt := s.aon.fck }) p

theorem rejectsFollow_outsideCascade (old s : State) : (rejectsFollow old s).outsideCascade = s.outsideCascade :=
  foldl_keeps State.outsideCascade _ (fun u p => pinHold_outsideCascade p u) _ s

section
variable {s u : State} (h : u.outsideCascade = s.outsideCascade)
include h

theorem State.outsideCascade_jobs : u.jobs = s.jobs := by
  have q := congrArg State.jobs h; exact q
theorem State.outsideCascade_pwr : u.pwr = s.pwr := by
  have q := congrArg State.pwr h; exact q
theorem State.outsideCascade_head (k : HeadId) : (u.heads[k]).outsideCascade = (s.heads[k]).outsideCascade := by
  have q := congrArg (fun x : State => x.heads[k]) h
  simpa only [State.outsideCascade, Fin.getElem_fin, Vector.getElem_map] using q
/-- A head without an armed job collects no edge. -/
theorem State.outsideCascade_head_unarmed {k : HeadId} (unarmed : (s.heads[k]).armed = none) : u.heads[k] = s.heads[k] := by
  have head := State.outsideCascade_head h k
  have unarmed' : (u.heads[k]).armed = none := (congrArg Head.armed head).trans unarmed
  have plain (x : Head) (none_ : x.armed = none) : x.outsideCascade = x := by
    simp only [Head.outsideCascade, none_, Option.isSome_none, Bool.false_eq_true, if_false]
    rw [← none_]
  rwa [plain _ unarmed, plain _ unarmed'] at head

end

/-- `State.modHead_hit` with the head as it is written here. -/
theorem State.modHead_head (s : State) (h : HeadId) (f : Head → Head) : (s.modHead h f).heads[h] = f s.heads[h] := State.modHead_hit ..

/-! ### Arming (R44, R76, R77) -/

/-- The head as arming leaves it. -/
def Head.arms (x : Head) (j : Fin 64) (jd : JobDef) (hlv : Bool) (power lead : Nat) (st : List (Nat × Int)) : Head :=
  { x with
    armed := some j, hlvShare := hlv, power, edges := [], lastC0 := none, column := none, freeRunWait := jd.freeRun
    freeRunC0 := none, colsSinceSteal := none, stealNext := false, spitCount := 0, stagger := st, lead }

/-- The job on its head, the trowels begun anew; pins and the request do not follow yet. -/
def State.armedOn (s : State) (h : HeadId) (j : Fin 64) (hd : HeadDef) (jd : JobDef) (hlv : Bool) (st : List (Nat × Int)) : State :=
  hd.reach.foldl (fun u t => u.modTrowel t fun w => { w with armedWarned := false, clipWarned := false })
    (s.modHead h fun x => x.arms j jd hlv (s.powerFor hd jd hlv) (s.leadFor h hd jd st) st)

section
variable {h : HeadId} {j : Fin 64} {hd : HeadDef} {jd : JobDef} {hlv : Bool} {st : List (Nat × Int)} {s : State}

theorem armHead_eq : armHead h j hd jd hlv st s = rejectsFollow s (reRequest false (clipCheck hd.tiles (s.armedOn h j hd jd hlv st))) := by
  simp only [armHead, State.armedOn, withJob, State.modHead_modHead]
  rfl

/-- Before pins follow, the heads, the jobs and the power state are those of the armed head. -/
theorem armedOn_frame : ∃ r, (reRequest false (clipCheck hd.tiles (s.armedOn h j hd jd hlv st))).outsideTiles =
    ((s.modHead h fun x => x.arms j jd hlv (s.powerFor hd jd hlv) (s.leadFor h hd jd st) st).wants r).outsideTiles := by
  have placed : (s.armedOn h j hd jd hlv st).outsideTiles =
      (s.modHead h fun x => x.arms j jd hlv (s.powerFor hd jd hlv) (s.leadFor h hd jd st) st).outsideTiles :=
    foldl_keeps State.outsideTiles _ (fun u t => u.outsideTiles_modTile t _) _ _
  obtain ⟨r, request⟩ := reRequest_quiet false (clipCheck hd.tiles (s.armedOn h j hd jd hlv st))
  refine ⟨r, (State.outsideTiles_of_quiet request).trans ?_⟩
  have q := congrArg (fun u : State => u.wants r) ((clipCheck_outsideTiles hd.tiles _).trans placed)
  exact q

end

section
variable {h : HeadId} {j : Fin 64} {hd : HeadDef} {jd : JobDef} {hlv : Bool} {st : List (Nat × Int)} {s : State}

/-- What arming leaves in the heads: the armed head but for the edges its reject pin may make, and, with no reject pin, every
other head as it was. -/
theorem armHead_frame : ((armHead h j hd jd hlv st s).heads[h]).outsideCascade =
      ((s.heads[h]).arms j jd hlv (s.powerFor hd jd hlv) (s.leadFor h hd jd st) st).outsideCascade ∧
    (armHead h j hd jd hlv st s).jobs = s.jobs ∧ (armHead h j hd jd hlv st s).pwr = s.pwr := by
  obtain ⟨r, before⟩ := armedOn_frame (h := h) (j := j) (hd := hd) (jd := jd) (hlv := hlv) (st := st) (s := s)
  rw [armHead_eq]
  generalize reRequest false _ = v at before ⊢
  have heads := State.outsideTiles_heads before
  have jobs := State.outsideTiles_jobs before
  have pwr := State.outsideTiles_pwr before
  have frame := rejectsFollow_outsideCascade s v
  have armed : v.heads[h] = (s.heads[h]).arms j jd hlv (s.powerFor hd jd hlv) (s.leadFor h hd jd st) st := by
    rw [heads]
    exact (State.modHead_head s h fun x => x.arms j jd hlv (s.powerFor hd jd hlv) (s.leadFor h hd jd st) st :)
  refine ⟨(State.outsideCascade_head frame h).trans (congrArg Head.outsideCascade armed), (State.outsideCascade_jobs frame).trans jobs,
    (State.outsideCascade_pwr frame).trans pwr⟩

theorem armHead_heads_unrejected (defined : (s.jobs[j]).jdef = some jd) (free : (s.heads[h]).armed = none)
    (noPin : 128 ≤ jd.rejectPin.toNat) : (armHead h j hd jd hlv st s).heads =
      (s.modHead h fun x => x.arms j jd hlv (s.powerFor hd jd hlv) (s.leadFor h hd jd st) st).heads := by
  obtain ⟨r, before⟩ := armedOn_frame (h := h) (j := j) (hd := hd) (jd := jd) (hlv := hlv) (st := st) (s := s)
  rw [armHead_eq]
  generalize reRequest false _ = v at before ⊢
  have heads : v.heads = (s.modHead h fun x => x.arms j jd hlv (s.powerFor hd jd hlv) (s.leadFor h hd jd st) st).heads :=
    (State.outsideTiles_heads before :)
  have jobs : v.jobs = s.jobs := (State.outsideTiles_jobs before :)
  have rejects : v.aon.rejects = s.aon.rejects := (congrArg Aon.rejects (State.outsideTiles_aon before) :)
  have pins (k : HeadId) : v.rejectPin k = s.rejectPin k := by
    by_cases same : k = h
    · subst same
      have armed : (v.heads[k]).armed = some j := by
        rw [heads]
        exact congrArg Head.armed (State.modHead_hit ..)
      rw [State.rejectPin_of_unarmed free]
      refine State.rejectPin_of_none fun x job => ?_
      rw [State.jobOf, armed, jobs] at job
      cases defined.symm.trans job
      exact noPin
    · have other : v.heads[k] = s.heads[k] := by
        rw [heads]
        exact State.modHead_miss _ _ _ _ (Ne.symm same)
      unfold State.rejectPin State.jobOf
      rw [other, jobs]
  rw [rejectsFollow_of_same (State.rejectSources_congr pins rejects), heads]

end

/-! ### ARM_JOB (R44) -/

section
variable {d : Desc} {jd : JobDef} {hd : HeadDef} {s : State}
  (takes : s.takes 0x45 d (headerFault d 6 .none .unbound [(24, 40)]))
  (defined : (s.jobs[(Fin.ofNat 64 d.target.toNat : Fin 64)]).jdef = some jd)
  (idle : s.jobArmed (Fin.ofNat 64 d.target.toNat) = false) (head : (s.heads[jd.head]).hdef = some hd)
  (free : (s.heads[jd.head]).armed = none)
include takes defined idle head free

theorem execArmJob_planned : exec (.armJob d) s = .next (
    match (s.begun 0x45 d).armPlan jd.head hd (Fin.ofNat 64 d.target.toNat) jd (!s.anyArmed) with
    | .inl f => finish 0x45 d f.1 f.2 0 (s.begun 0x45 d)
    | .inr st => finish 0x45 d .ok 0 0 (armHead jd.head (Fin.ofNat 64 d.target.toNat) hd jd (!s.anyArmed) st (s.begun 0x45 d))) := by
  have defined' : ((s.begun 0x45 d).jobs[(Fin.ofNat 64 d.target.toNat : Fin 64)]).jdef = some jd := defined
  have idle' : (s.begun 0x45 d).jobArmed (Fin.ofNat 64 d.target.toNat) = false := idle
  have head' : ((s.begun 0x45 d).heads[jd.head]).hdef = some hd := head
  have free' : ((s.begun 0x45 d).heads[jd.head]).armed = none := free
  change execArmJob d s = _
  rw [execArmJob, runDesc_takes _ _ _ _ _ takes]
  dsimp only
  rw [defined']
  dsimp only
  rw [idle', if_neg Bool.false_ne_true, head']
  dsimp only
  rw [free', if_neg (by decide)]
  rfl

end

/-! ### SWAP_JOB (R47) -/

theorem abortSwap_of_none {h : HeadId} {s : State} (free : (s.heads[h]).swap = none) : abortSwap h s = s := by
  unfold abortSwap
  rw [free]

theorem execSwapJob_waits {d : Desc} {jd : JobDef} {hd : HeadDef} {h : HeadId} {st : List (Nat × Int)} {s : State}
    (takes : s.takes 0x46 d (headerFault d 6 .none .unbound [(25, 39)])) (range : d.u 24 1 ≤ 63)
    (defined : (s.jobs[(Fin.ofNat 64 d.target.toNat : Fin 64)]).jdef = some jd)
    (found : allHeads.find? (fun h => (s.heads[h]).armed == some (Fin.ofNat 64 (d.u 24 1))) = some h)
    (head : (s.heads[h]).hdef = some hd) (idle : s.jobArmed (Fin.ofNat 64 d.target.toNat) = false) (same : jd.head = h)
    (staying : (s.heads[h]).disarm = []) (free : (s.heads[h]).swap = none)
    (plan : (s.begun 0x46 d).armPlan h hd (Fin.ofNat 64 d.target.toNat) jd (s.heads[h]).hlvShare = .inr st) :
    exec (.swapJob d) s = .next ((s.begun 0x46 d).modHead h fun x => { x with swap := some ⟨d, Fin.ofNat 64 d.target.toNat⟩ }) := by
  have defined' : ((s.begun 0x46 d).jobs[(Fin.ofNat 64 d.target.toNat : Fin 64)]).jdef = some jd := defined
  have found' : allHeads.find? (fun h => ((s.begun 0x46 d).heads[h]).armed == some (Fin.ofNat 64 (d.u 24 1))) = some h := found
  have head' : ((s.begun 0x46 d).heads[h]).hdef = some hd := head
  have plan' : (s.begun 0x46 d).armPlan h hd (Fin.ofNat 64 d.target.toNat) jd ((s.begun 0x46 d).heads[h]).hlvShare = .inr st := plan
  have free' : ((s.begun 0x46 d).heads[h]).swap = none := free
  have allowed : ¬ ((s.begun 0x46 d).jobArmed (Fin.ofNat 64 d.target.toNat) || jd.head != h ||
      !((s.begun 0x46 d).heads[h]).disarm.isEmpty) = true := by
    change ¬ (s.jobArmed (Fin.ofNat 64 d.target.toNat) || jd.head != h || !(s.heads[h]).disarm.isEmpty) = true
    rw [idle, same, staying]
    simp
  change execSwapJob d s = _
  rw [execSwapJob, runDesc_takes _ _ _ _ _ takes]
  dsimp only
  rw [if_neg (by omega), defined', found']
  dsimp only
  rw [head']
  dsimp only
  rw [if_neg allowed, plan']
  dsimp only
  rw [abortSwap_of_none free']

/-! ### DISARM (R48) -/

/-- The head once a DISARM has been taken. -/
def Head.disarming (x : Head) (d : Desc) : Head := { x with disarm := x.disarm ++ [d], edges := [] }
/-- The head with every product in flight stopped for a cause. -/
def Head.stopped (x : Head) (c : Cause) : Head :=
  { x with
    column := none
    products := x.products.map fun p => if p.done then p else { p with cause := if p.cause = .none then c else p.cause, done := true } }

theorem execDisarm_eq {d : Desc} {h : HeadId} {s : State} (takes : s.takes 0x47 d (headerFault d 6 .none .unbound [(25, 39)]))
    (range : d.u 24 1 ≤ 1) (found : allHeads.find? (fun h => (s.heads[h]).armed == some (Fin.ofNat 64 d.target.toNat)) = some h)
    (free : (s.heads[h]).swap = none) : exec (.disarm d) s = .next (disarmSettle h
      (if d.u 24 1 = 1 then stopProducts h .disarmed ((s.begun 0x47 d).modHead h fun x => x.disarming d)
        else (s.begun 0x47 d).modHead h fun x => x.disarming d)) := by
  have found' : allHeads.find? (fun h => ((s.begun 0x47 d).heads[h]).armed == some (Fin.ofNat 64 d.target.toNat)) = some h := found
  have free' : (((s.begun 0x47 d).modHead h fun x => x.disarming d).heads[h]).swap = none :=
    (congrArg Head.swap (State.modHead_hit (s.begun 0x47 d) h fun x => x.disarming d)).trans free
  change execDisarm d s = _
  rw [execDisarm, runDesc_takes _ _ _ _ _ takes]
  dsimp only
  rw [if_neg (by omega), found']
  dsimp only
  rw [show ((s.begun 0x47 d).modHead h fun x => { x with disarm := x.disarm ++ [d], edges := [] }) =
    (s.begun 0x47 d).modHead h fun x => x.disarming d from rfl, abortSwap_of_none free']

theorem disarmSettle_of_products {h : HeadId} {s : State} (flying : (s.heads[h]).products ≠ []) : disarmSettle h s = s := by
  have some_ : (s.heads[h]).products.isEmpty = false := by simpa using flying
  simp only [disarmSettle, some_, Bool.and_false, Bool.false_eq_true, if_false]

theorem disarmSettle_of_none {h : HeadId} {s : State} (waits : (s.heads[h]).disarm ≠ []) (none_ : (s.heads[h]).products = []) :
    disarmSettle h s = endJob h s := by
  have some_ : (s.heads[h]).disarm.isEmpty = false := by simpa using waits
  simp only [disarmSettle, some_, none_, Bool.not_false, List.isEmpty_nil, Bool.and_true, if_true]

theorem stopProducts_outsideTiles (h : HeadId) (c : Cause) (s : State) :
    (stopProducts h c s).outsideTiles = (s.modHead h fun x => x.stopped c).outsideTiles := by
  unfold stopProducts
  dsimp only
  split
  · next hd _ =>
    have dues := foldl_keeps State.outsideTiles (fun (u : State) t => u.modTrowel t fun w =>
      { w with due := w.due.filter fun f => !(f.head == h && f.by_ == .column) }) (fun u t => u.outsideTiles_modTile t _) hd.reach s
    have q := congrArg (fun u : State => u.modHead h fun x => x.stopped c) dues
    exact q
  · rfl

/-- A fold that filters what is due on trowels filters it once on each trowel it names. -/
theorem foldl_due (p : DueFire → Bool) (ts : List TileId) (s : State) (k : TileId) :
    ((ts.foldl (fun (u : State) t => u.modTrowel t fun w => { w with due := w.due.filter p }) s).tiles[k]).trowel.due =
      if k ∈ ts then (s.tiles[k]).trowel.due.filter p else (s.tiles[k]).trowel.due := by
  have twice (o : Option DueFire) : (o.filter p).filter p = o.filter p := by
    cases o with
    | none => rfl
    | some f => by_cases hf : p f = true <;> simp [Option.filter, hf]
  induction ts generalizing s with
  | nil => simp
  | cons t ts ih =>
    rw [List.foldl_cons, ih]
    by_cases same : k = t
    · subst same
      rw [State.modTrowel_tile]
      simp [twice]
    · rw [State.modTrowel_miss s _ same]
      simp [same]

theorem stopProducts_due {h : HeadId} {c : Cause} {s : State} {hd : HeadDef} (head : (s.heads[h]).hdef = some hd) {k : TileId}
    (mem : k ∈ hd.reach) : ((stopProducts h c s).tiles[k]).trowel.due =
      (s.tiles[k]).trowel.due.filter fun f => !(f.head == h && f.by_ == .column) := by
  unfold stopProducts
  dsimp only
  rw [head]
  exact (foldl_due _ hd.reach s k).trans (if_pos mem)

/-! ### What a product boundary does to its head, with no setting or waveform waiting (R45, R52, R91) -/

/-- The head with nothing waiting for a boundary. -/
def Head.settled (x : Head) : Head := { x with compWait := [], waveWait := [], phaseWait := none }

theorem State.modHead_congr {s : State} {h : HeadId} {f g : Head → Head} (same : f s.heads[h] = g s.heads[h]) :
    s.modHead h f = s.modHead h g := by
  simp only [State.modHead, same]

theorem State.modHead_of_fixed {s : State} {h : HeadId} {f : Head → Head} (fixed : f s.heads[h] = s.heads[h]) : s.modHead h f = s := by
  have same : s.heads.set h (f s.heads[h]) = s.heads := by
    rw [fixed]
    exact Vector.set_getElem_self ..
  rw [State.modHead, same]

/-- The state without tiles and the bus of joined systems. -/
def State.outsideStitch (s : State) : State := { s.untiled with tally := {} }

theorem State.outsideStitch_of_tiles {s u : State} (h : u.untiled = s.untiled) : u.outsideStitch = s.outsideStitch := by
  have q := congrArg (fun x : State => { x with tally := {} }) h; exact q
theorem State.modHead_outsideStitch {s u : State} (same : u.outsideStitch = s.outsideStitch) (h : HeadId) (f : Head → Head) :
    (u.modHead h f).outsideStitch = (s.modHead h f).outsideStitch := by
  have q := congrArg (fun x : State => x.modHead h f) same; exact q

section
variable {s u : State} (h : u.outsideStitch = s.outsideStitch)
include h
theorem State.outsideStitch_heads : u.heads = s.heads := by
  have q := congrArg State.heads h; exact q
theorem State.outsideStitch_jobs : u.jobs = s.jobs := by
  have q := congrArg State.jobs h; exact q
theorem State.outsideStitch_mem : u.mem = s.mem := by
  have q := congrArg State.mem h; exact q
theorem State.outsideStitch_coat : u.coat = s.coat := by
  have q := congrArg State.coat h; exact q
theorem State.outsideStitch_fnMode : u.fnMode = s.fnMode := by
  have q := congrArg State.fnMode h; exact q
end

theorem applyPhase_outsideStitch (h : HeadId) (s : State) :
    (applyPhase h s).outsideStitch = (s.modHead h fun x => { x with phaseWait := none }).outsideStitch := by
  unfold applyPhase
  split
  · rfl
  · next none_ => rw [State.modHead_of_fixed (by rw [← none_])]

/-- Trowels whose TRIP was cleared are on again at the boundary (R96). -/
def trowelsBack (h : HeadId) (s : State) : State :=
  match (s.heads[h]).hdef with
  | some hd => hd.each reenable s
  | none => s

theorem trowelsBack_untiled (h : HeadId) (s : State) : (trowelsBack h s).untiled = s.untiled := by
  unfold trowelsBack
  split
  · next hd _ => exact foldl_keeps State.untiled (fun u t => reenable t u) (fun u t => reenable_untiled t u) hd.tiles s
  · rfl

theorem boundaryActs_eq (h : HeadId) (s : State) :
    boundaryActs h s = applyPhase h (applyStitch h (trowelsBack h (applyWaves h (applyComps h s)))) := rfl

section
variable {h : HeadId} {s : State} (comps : (s.heads[h]).compWait = []) (waves : (s.heads[h]).waveWait = [])
include comps waves

theorem applyWaves_of_none : applyWaves h (applyComps h s) = s.modHead h fun x => { x with compWait := [], waveWait := [] } := by
  have comp : applyComps h s = s.modHead h fun x => { x with compWait := [] } := by
    unfold applyComps; rw [comps]; rfl
  have waves' : ((s.modHead h fun x => { x with compWait := [] }).heads[h]).waveWait = [] :=
    (congrArg Head.waveWait (State.modHead_head ..)).trans waves
  rw [comp]; unfold applyWaves; rw [waves']
  exact State.modHead_modHead ..

theorem boundaryActs_outsideStitch : (boundaryActs h s).outsideStitch = (s.modHead h Head.settled).outsideStitch := by
  rw [boundaryActs_eq, applyWaves_of_none comps waves]
  have trowels := State.outsideStitch_of_tiles (trowelsBack_untiled h (s.modHead h fun x => { x with compWait := [], waveWait := [] }))
  generalize trowelsBack h _ = u at trowels ⊢
  have stitched : (applyStitch h u).outsideStitch = u.outsideStitch := rfl
  have settles := congrArg State.outsideStitch (State.modHead_modHead s h (fun x => { x with compWait := [], waveWait := [] })
    fun x => { x with phaseWait := none })
  exact (applyPhase_outsideStitch h _).trans ((State.modHead_outsideStitch (stitched.trans trowels) h _).trans settles)

end

/-! ### The end of a job (R48) -/

/-- The head without its job. -/
def Head.ended (x : Head) : Head :=
  { x with
    armed := none, hlvShare := false, power := 0, edges := [], freeRunWait := false, freeRunC0 := none
    search := x.search.filter fun y => y.desc.isSome, pass := x.pass.filter fun y => y.desc.isSome }

theorem disarmDone_heads {h : HeadId} {s : State} (none_ : (s.heads[h]).products = []) :
    (disarmDone h s).heads = (s.modHead h fun x => { x with disarm := [] }).heads ∧ (disarmDone h s).jobs = s.jobs := by
  have over_ : (s.heads[h]).products.isEmpty = true := by rw [none_]; rfl
  have frame := foldl_keeps State.calm (fun (u : State) d => okay 0x47 d 0 u) (fun u d => finish_calm ..) (s.heads[h]).disarm
    (s.modHead h fun x => { x with disarm := [] })
  unfold disarmDone
  rw [if_pos over_]
  exact ⟨State.calm_heads frame, (State.calm_jobs frame).trans rfl⟩

theorem endJob_eq {h : HeadId} {s : State} (free : (s.heads[h]).swap = none) :
    endJob h s = disarmDone h (boundaryActs h (reRequest false (rejectsFollow s (s.modHead h Head.ended)))) := by
  simp only [endJob, abortSwap_of_none free]
  rfl

/-- What the end of a job leaves in the heads, before its boundary: the head without its job, and, where no pin ceases to be a reject
output, every other head as it was. -/
theorem endJob_heads (h : HeadId) (s : State) :
    ((reRequest false (rejectsFollow s (s.modHead h Head.ended))).heads[h]) = (s.heads[h]).ended ∧
      (reRequest false (rejectsFollow s (s.modHead h Head.ended))).jobs = s.jobs ∧
      (s.rejectPin h = none → ∀ k, k ≠ h → (reRequest false (rejectsFollow s (s.modHead h Head.ended))).heads[k] = s.heads[k]) := by
  obtain ⟨r, request⟩ := reRequest_quiet false (rejectsFollow s (s.modHead h Head.ended))
  have heads : (reRequest false (rejectsFollow s (s.modHead h Head.ended))).heads = (rejectsFollow s (s.modHead h Head.ended)).heads :=
    (State.quiet_heads request).trans rfl
  have jobs : (reRequest false (rejectsFollow s (s.modHead h Head.ended))).jobs = (rejectsFollow s (s.modHead h Head.ended)).jobs :=
    (State.quiet_jobs request).trans rfl
  have frame := rejectsFollow_outsideCascade s (s.modHead h Head.ended)
  have ended : (s.modHead h Head.ended).heads[h] = (s.heads[h]).ended := State.modHead_hit ..
  have others (k : HeadId) (other : k ≠ h) : (s.modHead h Head.ended).heads[k] = s.heads[k] := State.modHead_miss _ _ _ _ other.symm
  rw [heads, jobs]
  refine ⟨(State.outsideCascade_head_unarmed frame (by rw [ended]; rfl)).trans ended,
    (State.outsideCascade_jobs frame).trans rfl, fun none_ k other => ?_⟩
  have pins (k : HeadId) : (s.modHead h Head.ended).rejectPin k = s.rejectPin k := by
    by_cases same : k = h
    · subst same
      rw [none_, State.rejectPin_of_unarmed (by rw [ended]; rfl)]
    · unfold State.rejectPin State.jobOf
      rw [others k same]
      rfl
  rw [rejectsFollow_of_same (State.rejectSources_congr pins rfl)]
  exact others k other

theorem endJob_frame {h : HeadId} {s : State} (free : (s.heads[h]).swap = none) (none_ : (s.heads[h]).products = [])
    (comps : (s.heads[h]).compWait = []) (waves : (s.heads[h]).waveWait = []) :
    ((endJob h s).heads[h]).armed = none ∧ ((endJob h s).heads[h]).disarm = [] ∧ ((endJob h s).heads[h]).edges = [] ∧
      (endJob h s).jobs = s.jobs ∧ (s.rejectPin h = none → ∀ k, k ≠ h → (endJob h s).heads[k] = s.heads[k]) := by
  obtain ⟨head, jobs, others⟩ := endJob_heads h s
  rw [endJob_eq free]
  generalize reRequest false (rejectsFollow s (s.modHead h Head.ended)) = u at head jobs others ⊢
  have frame := boundaryActs_outsideStitch (s := u) (h := h) (by rw [head]; exact comps) (by rw [head]; exact waves)
  have settled := State.outsideStitch_heads frame
  have jobs' : (boundaryActs h u).jobs = u.jobs := (State.outsideStitch_jobs frame :)
  have acted : (boundaryActs h u).heads[h] = (s.heads[h]).ended.settled := by
    rw [settled, ← head]
    exact State.modHead_hit ..
  obtain ⟨over_, jobs''⟩ := disarmDone_heads (s := boundaryActs h u) (h := h) (by rw [acted]; exact none_)
  have last : (disarmDone h (boundaryActs h u)).heads[h] = { (s.heads[h]).ended.settled with disarm := [] } := by
    rw [over_, ← acted]
    exact State.modHead_hit ..
  refine ⟨by rw [last]; rfl, by rw [last], by rw [last]; rfl, jobs''.trans (jobs'.trans jobs), fun pin k other => ?_⟩
  rw [over_]
  refine (State.modHead_miss _ _ _ _ other.symm).trans ?_
  have beside : (boundaryActs h u).heads[k] = u.heads[k] := by
    rw [settled]
    exact State.modHead_miss _ _ _ _ other.symm
  exact beside.trans (others pin k other)

/-! ### SET_COMPENSATION (R52) -/

section
variable {d : Desc} {s : State} (takes : s.takes 0x53 d (headerFault d 3 .none .unbound [(26, 2), (32, 32)]))
  (mapper : d.u 24 1 ≤ 1) (grey : d.u 25 1 ≤ 1)
  (defined : (s.heads[(Fin.ofNat 8 d.target.toNat : HeadId)]).hdef.isSome = true)
include takes mapper grey defined

/-- The compensation that the command sets. -/
def compOf (d : Desc) : Comp := ⟨d.u 24 1 == 1, d.u 25 1 == 1, BitVec.ofNat 16 (d.u 28 2), BitVec.ofNat 16 (d.u 30 2)⟩

theorem execSetCompensation_eq : exec (.setCompensation d) s = .next (
    if (s.heads[(Fin.ofNat 8 d.target.toNat : HeadId)]).armed.isSome then
      (s.begun 0x53 d).modHead (Fin.ofNat 8 d.target.toNat) fun x => { x with compWait := x.compWait ++ [(d, compOf d)] }
    else finish 0x53 d .ok 0 0 ((s.begun 0x53 d).modHead (Fin.ofNat 8 d.target.toNat) fun x => { x with comp := compOf d })) := by
  have defined' : ¬ ((s.begun 0x53 d).heads[(Fin.ofNat 8 d.target.toNat : HeadId)]).hdef.isNone = true := by
    change ¬ (s.heads[(Fin.ofNat 8 d.target.toNat : HeadId)]).hdef.isNone = true
    rw [Option.isNone_iff_eq_none]
    exact Option.isSome_iff_ne_none.mp defined
  change execSetCompensation d s = _
  rw [execSetCompensation, runDesc_takes _ _ _ _ _ takes]
  dsimp only
  rw [if_neg (by omega), if_neg (by omega), if_neg defined']
  rfl

end

/-- A command that stops the products of a head with none only drops what its columns still owe the trowels. -/
theorem stopProducts_heads_of_none {h : HeadId} {c : Cause} {s : State} (none_ : (s.heads[h]).products = []) :
    (stopProducts h c s).heads = (s.modHead h fun x => { x with column := none }).heads := by
  have same := State.outsideTiles_heads (stopProducts_outsideTiles h c s)
  rw [same]
  have stopped : (s.heads[h]).stopped c = { s.heads[h] with column := none } := by
    simp only [Head.stopped, none_, List.map_nil]
  simp only [State.modHead, stopped]

/-- A DISARM, of either kind, on a head with no product in flight ends the job at once. -/
theorem disarm_ends {h : HeadId} {x : Head} {s v : State} (heads : v.heads = (s.modHead h fun _ => x).heads) (jobs : v.jobs = s.jobs)
    (waits : x.disarm ≠ []) (none_ : x.products = []) (swap : x.swap = none) (comps : x.compWait = []) (waves : x.waveWait = [])
    (armed : x.armed = (s.heads[h]).armed) :
    ((disarmSettle h v).heads[h]).armed = none ∧ ((disarmSettle h v).heads[h]).disarm = [] ∧
      ((disarmSettle h v).heads[h]).edges = [] ∧ (disarmSettle h v).jobs = s.jobs ∧
      ((∀ jd : JobDef, s.jobOf h = some jd → 128 ≤ jd.rejectPin.toNat) → ∀ k, k ≠ h → (disarmSettle h v).heads[k] = s.heads[k]) := by
  have here : v.heads[h] = x := by
    rw [heads]
    exact State.modHead_hit ..
  rw [disarmSettle_of_none (here ▸ waits) (here ▸ none_)]
  obtain ⟨unarmed, settled, edges, jobs', others⟩ :=
    endJob_frame (here ▸ swap) (here ▸ none_) (here ▸ comps) (here ▸ waves : (v.heads[h]).waveWait = [])
  refine ⟨unarmed, settled, edges, jobs'.trans jobs, fun noPin k other => ?_⟩
  have pin : v.rejectPin h = none := by
    refine State.rejectPin_of_none fun j job => noPin j ?_
    rw [State.jobOf, here, armed, jobs] at job
    exact job
  rw [others pin k other, heads]
  exact State.modHead_miss _ _ _ _ other.symm

/-- Settles O47, each command by what its queue step leaves in the heads. -/
theorem arming : Obligations.Arming := by
  unfold Obligations.Arming
  refine ⟨fun d jd hd s takes => ?_, fun d jd hd h st s takes range => ?_, fun d h s takes => ?_, fun d s takes mapper grey => ?_⟩
  · intro j defined idle head free
    have run := execArmJob_planned takes defined idle head free
    refine ⟨fun st plan => ?_, fun f plan => ?_⟩
    · rw [plan] at run
      refine ⟨_, run, ?_⟩
      have done := finish_calm 0x45 d .ok 0 0
        (armHead jd.head (Fin.ofNat 64 d.target.toNat) hd jd (!s.anyArmed) st (s.begun 0x45 d))
      obtain ⟨armed, jobs, pwr⟩ := armHead_frame (h := jd.head) (j := Fin.ofNat 64 d.target.toNat) (hd := hd) (jd := jd)
        (hlv := !s.anyArmed) (st := st) (s := s.begun 0x45 d)
      rw [State.calm_heads done, State.calm_jobs done, State.calm_pwr done]
      refine ⟨(congrArg Head.armed armed :), (congrArg Head.stagger armed :), (congrArg Head.freeRunWait armed :),
        (congrArg Head.nextSeq armed :), (congrArg Head.products armed :), jobs, pwr, fun noPin => ?_⟩
      rw [armHead_heads_unrejected (s := s.begun 0x45 d) defined free noPin]
      exact ⟨congrArg Head.edges (State.modHead_hit ..), fun k other => State.modHead_miss _ _ _ _ other.symm⟩
    · rw [run, plan]
  · intro new old defined found head idle same staying free plan
    exact execSwapJob_waits takes range defined found head idle same staying free plan
  · intro j found free
    refine ⟨fun mode flying => ?_, fun mode flying => ?_, fun range none_ staying comps waves => ?_⟩
    · have waits : (((s.begun 0x47 d).modHead h fun x => x.disarming d).heads[h]).products ≠ [] := by
        rw [State.modHead_head]
        exact flying
      rw [execDisarm_eq takes (by omega) found free, if_neg (by omega), disarmSettle_of_products waits]
      rfl
    · have stops := stopProducts_outsideTiles h .disarmed ((s.begun 0x47 d).modHead h fun x => x.disarming d)
      have heads : (stopProducts h .disarmed ((s.begun 0x47 d).modHead h fun x => x.disarming d)).heads =
          (s.modHead h fun x => (x.disarming d).stopped .disarmed).heads :=
        (State.outsideTiles_heads stops).trans (congrArg State.heads (State.modHead_modHead (s.begun 0x47 d) h (fun x => x.disarming d)
            fun x => x.stopped .disarmed) :)
      have waits : ((stopProducts h .disarmed ((s.begun 0x47 d).modHead h fun x => x.disarming d)).heads[h]).products ≠ [] := by
        rw [heads, State.modHead_head]
        exact fun none_ => flying (List.map_eq_nil_iff.mp none_)
      refine ⟨_, execDisarm_eq takes (by omega) found free, ?_⟩
      rw [if_pos mode, disarmSettle_of_products waits]
      refine ⟨(State.outsideTiles_jobs stops :), heads, fun hd head k mem => ?_⟩
      exact stopProducts_due ((congrArg Head.hdef (State.modHead_hit ..)).trans head) mem
    · refine ⟨_, execDisarm_eq takes range found free, ?_⟩
      have gone : (((s.begun 0x47 d).modHead h fun x => x.disarming d).heads[h]).products = [] := by
        rw [State.modHead_head]
        exact none_
      split
      · have jobs : (stopProducts h .disarmed ((s.begun 0x47 d).modHead h fun x => x.disarming d)).jobs = s.jobs :=
          (State.outsideTiles_jobs (stopProducts_outsideTiles h .disarmed ((s.begun 0x47 d).modHead h fun x => x.disarming d)) :)
        refine disarm_ends (x := { (s.heads[h]).disarming d with column := none }) ?_ jobs (by simp [Head.disarming]) none_ free comps waves rfl
        rw [stopProducts_heads_of_none gone]
        exact (congrArg State.heads (State.modHead_modHead (s.begun 0x47 d) h (fun x => x.disarming d)
          fun x => { x with column := none }) :)
      · exact disarm_ends (x := (s.heads[h]).disarming d) rfl rfl (by simp [Head.disarming]) none_ free comps waves rfl
  · intro h c defined
    have run := execSetCompensation_eq takes mapper grey defined
    refine ⟨fun unarmed => ?_, fun armed => ?_⟩
    · rw [run, if_neg (by rw [unarmed]; exact Bool.false_ne_true)]
      rfl
    · rw [run, if_pos armed]
      rfl

end Sys2Proof.Machine
end

section
/-!
PROOFS. Detects, products and their rasters (O48, R38, R43, R45, R49, R298, R299).
-/
namespace Sys2Proof.Machine

open Sys2Proof

/-! ### The listen windows at a product boundary -/

/-- No trowel listens. -/
def State.deaf (s : State) : Prop := ∀ t : TileId, (s.tiles[t]).trowel.listen = none

theorem State.deaf_modTrowel {s : State} (deaf : s.deaf) {t : TileId} {f : Trowel → Trowel} (keeps : ∀ w, (f w).listen = w.listen) :
    (s.modTrowel t f).deaf := fun k => by
  by_cases same : k = t
  · subst same
    rw [State.modTrowel_tile]
    exact (keeps _).trans (deaf k)
  · rw [State.modTrowel_miss s _ same]
    exact deaf k

theorem State.deaf_modEng {s : State} (deaf : s.deaf) {t : TileId} {f : Engine → Engine} : (s.modEng t f).deaf := fun k => by
  by_cases same : k = t
  · subst same
    exact (congrArg (fun x : Tile => x.trowel.listen) (State.modTile_tile s k _)).trans (deaf k)
  · exact (congrArg (fun x : Tile => x.trowel.listen) (State.modTile_miss s t k _ (Ne.symm same))).trans (deaf k)

/-- A fold of actions that each leave every trowel deaf does. -/
theorem foldl_deaf {α : Type} {f : State → α → State} (keeps : ∀ s a, s.deaf → (f s a).deaf) (l : List α) {s : State} (deaf : s.deaf) :
    (l.foldl f s).deaf := by
  induction l generalizing s with
  | nil => exact deaf
  | cons a l ih => exact ih (keeps s a deaf)

theorem reenable_deaf {t : TileId} {s : State} (deaf : s.deaf) : (reenable t s).deaf := by
  unfold reenable endBuddy
  split
  · have back := State.deaf_modTrowel deaf (t := t) (f := fun w => { w with reenable := false, phase := .recovering }) fun _ => rfl
    dsimp only
    split <;> exact State.deaf_modTrowel back fun _ => rfl
  · exact deaf

theorem setEvm_deaf {t : TileId} {bit : Nat} {s : State} (deaf : s.deaf) : (setEvm t bit s).deaf := by
  unfold setEvm
  split
  · exact deaf
  · exact State.deaf_modEng deaf

theorem boundaryActs_deaf {h : HeadId} {s : State} (comps : (s.heads[h]).compWait = []) (waves : (s.heads[h]).waveWait = [])
    (deaf : s.deaf) : (boundaryActs h s).deaf := by
  rw [boundaryActs_eq, applyWaves_of_none comps waves]
  have trowels : (trowelsBack h (s.modHead h fun x => { x with compWait := [], waveWait := [] })).deaf := by
    unfold trowelsBack
    split
    · next hd _ => exact foldl_deaf (fun s t => reenable_deaf) hd.tiles deaf
    · exact deaf
  generalize trowelsBack h _ = u at trowels ⊢
  unfold applyPhase
  split
  · next t v _ => exact State.deaf_modTrowel (s := applyStitch h u) (t := t) (f := fun w => { w with phaseSteps := v }) trowels fun _ => rfl
  · exact trowels

theorem closeLate_of_deaf {h : HeadId} {hd : HeadDef} {jd : JobDef} {c0 : Word} {s : State} (deaf : s.deaf) :
    closeLate h hd jd c0 s = s := by
  unfold closeLate
  split
  · rfl
  · exact foldl_of_fixed (fun t => by rw [deaf t]) hd.tiles

theorem setEvm_untiled (t : TileId) (bit : Nat) (s : State) : (setEvm t bit s).untiled = s.untiled := by
  unfold setEvm
  split <;> rfl

/-! ### A product boundary without swap, coat or waiting setting (R45) -/

section
variable {h : HeadId} {s : State} (swap : (s.heads[h]).swap = none) (comps : (s.heads[h]).compWait = [])
  (waves : (s.heads[h]).waveWait = []) (coat : s.coat = none)
include swap comps waves coat

theorem productBoundary_eq : productBoundary h s = boundaryActs h s := by
  have swaps : swapActs h s = s := by unfold swapActs; rw [swap]
  have frame : (boundaryActs h s).coat = none := (State.outsideStitch_coat (boundaryActs_outsideStitch comps waves)).trans coat
  rw [productBoundary, swaps, commitAtProduct, frame]

theorem productBoundary_outsideStitch : (productBoundary h s).outsideStitch = (s.modHead h Head.settled).outsideStitch :=
  (congrArg State.outsideStitch (productBoundary_eq swap comps waves coat)).trans (boundaryActs_outsideStitch comps waves)

theorem productBoundary_deaf (deaf : s.deaf) : (productBoundary h s).deaf := by
  rw [productBoundary_eq swap comps waves coat]
  exact boundaryActs_deaf comps waves deaf

end

/-! ### The detect's bit in the engines of the head -/

theorem detectBits_outsideStitch (hd : HeadDef) (s : State) :
    (hd.each (fun t s => setEvm t 8 s) s).outsideStitch = s.outsideStitch :=
  State.outsideStitch_of_tiles (foldl_keeps State.untiled (fun s t => setEvm t 8 s) (fun s t => setEvm_untiled t 8 s) hd.tiles _)

theorem detectBits_deaf (hd : HeadDef) {s : State} (deaf : s.deaf) : (hd.each (fun t s => setEvm t 8 s) s).deaf :=
  foldl_deaf (fun _ _ => setEvm_deaf) hd.tiles deaf

/-! ### The start of a product (R45, R49) -/

/-- The first product of a head under a job without date, its raster merged. -/
def State.firstProduct (s : State) (h : HeadId) (j : Fin 64) (hd : HeadDef) (jd : JobDef) (c0 : Word) (counts : List Word)
    (time : BitVec 64) : Product :=
  { s.bareProduct h j jd c0 counts time with
    slot := none, stale := false, merge := false
    raster := .merged ((stepCounters j jd false s).render jd hd none) }

theorem startProduct_first {h : HeadId} {j : Fin 64} {hd : HeadDef} {jd : JobDef} {c0 : Word} {counts : List Word} {time : BitVec 64}
    {s : State} (first : (s.heads[h]).products = []) (clean : s.mem.errs = []) (undated : jd.dated = false)
    (drawn : Word.field (s.fnMode.setWidth 32) 11 10 ≠ 1) (noPin : jd.rejectPin = 255) :
    startProduct h j hd jd c0 counts time s = (s.modJob j fun x => { x with jdef := x.jdef.map JobDef.step }).modHead h fun x =>
      { x with products := x.products ++ [s.firstProduct h j hd jd c0 counts time], nextSeq := x.nextSeq + 1 } := by
  have merges : (s.bareProduct h j jd c0 counts time).merge = false := beq_eq_false_iff_ne.mpr drawn
  have date : s.dateFor jd time.toNat = some (none, false) := by
    unfold State.dateFor
    rw [undated]
    rfl
  have store : storeBad (stepCounters j jd false s) = (false, stepCounters j jd false s) := wordsBad_of_clean _ _ _ clean
  have silent : (s.firstProduct h j hd jd c0 counts time).jdef.rejects = false := by
    change jd.rejects = false
    rw [JobDef.rejects, noPin]
    rfl
  unfold startProduct
  rw [first]
  simp only [merges, date, List.any_nil, store, Bool.false_eq_true, if_false, Bool.not_false, Bool.and_true]
  change addProduct h (s.firstProduct h j hd jd c0 counts time) (stepCounters j jd false s) = _
  simp only [addProduct, silent, Bool.false_eq_true, if_false]
  rfl

/-! ### DETECT_ACCEPT (R45) -/

section
variable {h : HeadId} {j : Fin 64} {jd : JobDef} {time : BitVec 64} {counts : List Word} {rest : List (BitVec 64 × List Word)}
  {s : State} (armed : (s.heads[h]).armed = some j) (job : s.jobOf h = some jd) (up : s.pwr.mode.up = true)
  (staying : (s.heads[h]).disarm = []) (edges : (s.heads[h]).edges = (time, counts) :: rest) (triggered : jd.freeRun = false)
include armed job up staying edges triggered

theorem execDetectAccept_eq : exec (.detectAccept h) s = .next (detect h j jd counts (counts.getD jd.encoder.val 0) time
    (s.modHead h fun x => { x with edges := rest })) := by
  change execDetectAccept h s = _
  have takes : ¬ (!s.pwr.mode.up || !(s.heads[h]).disarm.isEmpty) = true := by rw [up, staying]; decide
  rw [execDetectAccept, armed, job]
  dsimp only
  rw [if_neg takes, triggered, if_neg Bool.false_ne_true, edges]

end

theorem detect_near {h : HeadId} {j : Fin 64} {jd : JobDef} {counts : List Word} {c0 l : Word} {time : BitVec 64} {s : State}
    (triggered : jd.freeRun = false) (last : (s.heads[h]).lastC0 = some l) (near : (c0 - l).toInt < (jd.minPitch.toNat : Int)) :
    detect h j jd counts c0 time s = s.modJob j fun x => { x with suppressed := x.suppressed + 1 } := by
  have near' : decide (countDiff c0 l < ((jd.minPitch.toNat : Nat) : Int)) = true := decide_eq_true near
  unfold detect
  rw [triggered, last]
  dsimp only
  rw [near']
  rfl

theorem detect_first {h : HeadId} {j : Fin 64} {jd : JobDef} {counts : List Word} {c0 : Word} {time : BitVec 64} {s : State}
    (last : (s.heads[h]).lastC0 = none) (first : (s.heads[h]).products = []) :
    detect h j jd counts c0 time s = acceptDetect h jd counts c0 time s := by
  unfold detect Head.inFlight
  rw [last, first]
  simp

/-- The head with the count of an accepted detect. -/
def Head.at_ (x : Head) (c0 : Word) : Head := { x with lastC0 := some c0 }
/-- The head with one more product. -/
def Head.starts (x : Head) (p : Product) : Head := { x with products := x.products ++ [p], nextSeq := x.nextSeq + 1 }

section
variable {h : HeadId} {j : Fin 64} {hd : HeadDef} {jd : JobDef} {c0 : Word} {counts : List Word} {time : BitVec 64} {s : State}
  (armed : (s.heads[h]).armed = some j) (job : s.jobOf h = some jd) (head : (s.heads[h]).hdef = some hd)
  (first : (s.heads[h]).products = []) (swap : (s.heads[h]).swap = none) (comps : (s.heads[h]).compWait = [])
  (waves : (s.heads[h]).waveWait = []) (coat : s.coat = none) (clean : s.mem.errs = []) (undated : jd.dated = false)
  (drawn : Word.field (s.fnMode.setWidth 32) 11 10 ≠ 1) (deaf : s.deaf) (noPin : jd.rejectPin = 255) (triggered : jd.freeRun = false)
include armed job head first swap comps waves coat clean undated drawn deaf noPin triggered

theorem acceptDetect_first : ∃ v : State, v.outsideStitch = (s.modHead h fun x => (x.at_ c0).settled).outsideStitch ∧
    acceptDetect h jd counts c0 time s =
      (v.modJob j fun x => { x with jdef := x.jdef.map JobDef.step }).modHead h fun x => (x.at_ (counts.getD jd.encoder.val 0)).starts
        ((v.modHead h fun x => x.at_ (counts.getD jd.encoder.val 0)).firstProduct h j hd jd (counts.getD jd.encoder.val 0) counts time) := by
  have swap' : ((s.modHead h fun x => x.at_ c0).heads[h]).swap = none := (congrArg Head.swap (State.modHead_head ..)).trans swap
  have comps' : ((s.modHead h fun x => x.at_ c0).heads[h]).compWait = [] := (congrArg Head.compWait (State.modHead_head ..)).trans comps
  have waves' : ((s.modHead h fun x => x.at_ c0).heads[h]).waveWait = [] := (congrArg Head.waveWait (State.modHead_head ..)).trans waves
  have boundary : (productBoundary h (s.modHead h fun x => x.at_ c0)).outsideStitch =
      (s.modHead h fun x => (x.at_ c0).settled).outsideStitch :=
    (productBoundary_outsideStitch swap' comps' waves' coat).trans
      (congrArg State.outsideStitch (State.modHead_modHead s h (fun x => x.at_ c0) Head.settled))
  have silent := productBoundary_deaf swap' comps' waves' coat deaf
  unfold acceptDetect
  rw [swap]
  dsimp only
  rw [show (s.modHead h fun x => { x with lastC0 := some c0 }) = s.modHead h fun x => x.at_ c0 from rfl]
  generalize productBoundary h (s.modHead h fun x => x.at_ c0) = u at boundary silent ⊢
  have settled : u.heads[h] = ((s.heads[h]).at_ c0).settled := by
    rw [State.outsideStitch_heads boundary]
    exact State.modHead_head s h fun x => (x.at_ c0).settled
  have jobs : u.jobs = s.jobs := (State.outsideStitch_jobs boundary :)
  have armed' : (u.heads[h]).armed = some j := (congrArg Head.armed settled).trans armed
  have head' : (u.heads[h]).hdef = some hd := (congrArg Head.hdef settled).trans head
  have job' : u.jobOf h = some jd := by
    rw [State.jobOf, armed', jobs]
    rw [State.jobOf, armed] at job
    exact job
  rw [armed', job', head']
  dsimp only
  rw [Option.isSome_none, Bool.false_and, if_neg Bool.false_ne_true, triggered, if_neg Bool.false_ne_true]
  have frame := (detectBits_outsideStitch hd u).trans boundary
  have deaf' := detectBits_deaf hd silent
  generalize hd.each (fun t s => setEvm t 8 s) u = v at frame deaf' ⊢
  refine ⟨v, frame, ?_⟩
  have first' : ((v.modHead h fun x => x.at_ (counts.getD jd.encoder.val 0)).heads[h]).products = [] := by
    rw [State.modHead_head, State.outsideStitch_heads frame]
    exact (congrArg Head.products (State.modHead_head s h fun x => (x.at_ c0).settled)).trans first
  have clean' : v.mem.errs = [] := by
    rw [State.outsideStitch_mem frame]
    exact clean
  have drawn' : Word.field (v.fnMode.setWidth 32) 11 10 ≠ 1 := by
    rw [State.outsideStitch_fnMode frame]
    exact drawn
  rw [show (v.modHead h fun x => { x with lastC0 := some (counts.getD jd.encoder.val 0) }) =
    v.modHead h fun x => x.at_ (counts.getD jd.encoder.val 0) from rfl, startProduct_first first' clean' undated drawn' noPin]
  rw [closeLate_of_deaf (by exact deaf')]
  exact State.modHead_modHead (v.modJob j fun x => { x with jdef := x.jdef.map JobDef.step }) h
    (fun x => x.at_ (counts.getD jd.encoder.val 0)) fun x => x.starts _

end

/-! ### Print queue entries (R298) -/

/-- A queue has entries to examine, whatever its size field. -/
theorem Pq.slots_pos (q : Pq) : 0 < q.slots := Nat.mul_pos (by decide) (Nat.pow_pos (by decide))

/-- The entry of a print queue that its read index names. -/
def State.pqEntry (s : State) (n : Fin 8) : List Byte := s.hostMem.bytes ((s.pqs[n]).base.toNat + 32 * (s.pqs[n]).rdidx.toNat) 32

/-- An entry that is well formed and fits a raster of the length. -/
structure EntryFits (e : List Byte) (len : Nat) : Prop where
  kind : le e 12 1 = 0
  reserved : le e 13 3 = 0
  rest : ∀ b ∈ e.drop 20, b = 0
  length : le e 8 4 = len
  aligned : le e 0 8 % 8 = 0

theorem hostRaster_taken {h : HeadId} {hd : HeadDef} {jd : JobDef} {n : Fin 8} {seq : Word} {s : State} (queue : s.pqOf h = some n)
    (link : s.linkUp = true) (posted : (s.pqs[n]).rdidx ≠ (s.pqs[n]).tail)
    (fits : EntryFits (s.pqEntry n) (jd.columns * columnBytes hd.n hd.selBits)) (mine : BitVec.ofNat 32 (le (s.pqEntry n) 16 4) = seq) :
    hostRaster h seq hd jd s = (some (.host (BitVec.ofNat 64 (le (s.pqEntry n) 0 8)) n [] false), s.modPq n Pq.next) := by
  obtain ⟨kind, reserved, rest, length, aligned⟩ := fits
  have good : ¬ (le (s.pqEntry n) 12 1 ≠ 0 ∨ le (s.pqEntry n) 13 3 ≠ 0 ∨ ((s.pqEntry n).drop 20).any (· != 0) = true ∨
      le (s.pqEntry n) 8 4 ≠ jd.columns * columnBytes hd.n hd.selBits ∨ le (s.pqEntry n) 0 8 % 8 ≠ 0) := by
    simpa [kind, reserved, length, aligned] using rest
  obtain ⟨k, slots⟩ := Nat.exists_eq_succ_of_ne_zero (s.pqs[n]).slots_pos.ne'
  have taken : examine n seq (jd.columns * columnBytes hd.n hd.selBits) (k + 1) s =
      (.taken (BitVec.ofNat 64 (le (s.pqEntry n) 0 8)), s.modPq n Pq.next) := by
    rw [examine]
    dsimp only
    rw [if_neg (not_or.mpr ⟨posted, by rw [link]; decide⟩)]
    exact (if_neg good).trans (if_pos (Or.inr mine))
  rw [hostRaster, queue]
  dsimp only
  rw [slots, taken]

/-- The oldest product of a head that awaits its raster takes the first entry posted for it. -/
theorem execPrintQueueEntryArrival_taken {h : HeadId} {hd : HeadDef} {n : Fin 8} {p : Product} {s : State}
    (head : (s.heads[h]).hdef = some hd) (only : (s.heads[h]).products = [p]) (open_ : p.done = false) (awaits : p.raster = .awaited)
    (queue : s.pqOf h = some n) (link : s.linkUp = true) (posted : (s.pqs[n]).rdidx ≠ (s.pqs[n]).tail)
    (fits : EntryFits (s.pqEntry n) (p.jdef.columns * columnBytes hd.n hd.selBits))
    (mine : BitVec.ofNat 32 (le (s.pqEntry n) 16 4) = p.seq) :
    exec (.printQueueEntryArrival h) s = .next (modProduct h p.seq
      (fun p => { p with raster := .host (BitVec.ofNat 64 (le (s.pqEntry n) 0 8)) n [] false }) (s.modPq n Pq.next)) := by
  have waiting : ((s.heads[h]).products.filter fun p => !p.done && p.raster == .awaited) = [p] := by
    rw [only, List.filter_cons_of_pos (by rw [open_, awaits]; decide), List.filter_nil]
  change execPrintQueueEntryArrival h s = _
  rw [execPrintQueueEntryArrival, head]
  dsimp only
  rw [waiting, List.foldl_cons, List.foldl_nil, hostRaster_taken queue link posted fits mine]

/-! ### The only product of a head (R43, R299) -/

theorem modProduct_only {h : HeadId} {p : Product} {f : Product → Product} {s : State} (only : (s.heads[h]).products = [p]) :
    modProduct h p.seq f s = s.modHead h fun x => { x with products := [f p] } :=
  State.modHead_congr (by rw [only, List.map_cons, if_pos rfl, List.map_nil])

section
variable {h : HeadId} {hd : HeadDef} {n : Fin 8} {p : Product} {a : BitVec 64} {cols : List (List Nat)} {s : State}
  (head : (s.heads[h]).hdef = some hd) (only : (s.heads[h]).products = [p]) (open_ : p.done = false)
  (host : p.raster = .host a n cols false) (more : cols.length < p.jdef.columns)
include head only open_ host more

/-- The columns of the raster once the read has brought those that staging has room for. -/
def readColumns (s : State) (hd : HeadDef) (a : BitVec 64) (cols : List (List Nat)) (top : Nat) : List (List Nat) :=
  cols ++ (List.range (top - cols.length)).map fun k => s.hostColumn hd a (cols.length + k)

theorem execRasterReadCompletion_clean (link : s.linkUp = true) : exec (.rasterReadCompletion h .clean) s = .next (
    modProduct h p.seq (fun q => { q with raster := .host a n (readColumns s hd a cols
      (min p.jdef.columns (p.col + stagingColumns hd))) false }) s) := by
  change execRasterReadCompletion h .clean s = _
  unfold execRasterReadCompletion
  rw [head, only]
  have succeeds : s.transfer .clean = .clean := if_pos link
  simp [open_, host, more, succeeds, readColumns]

theorem execRasterReadCompletion_failed : exec (.rasterReadCompletion h .failed) s = .next (
    modProduct h p.seq (fun p => { p with raster := .host a n cols true }) (hostDmaRead .lasting n.val 0 s)) := by
  change execRasterReadCompletion h .failed s = _
  unfold execRasterReadCompletion
  rw [head, only]
  have fails : s.transfer .failed = .failed := ite_self ..
  simp [open_, host, more, fails]

end

/-- A HOST_DMA entry is a report and a choice of its failure code. -/
theorem hostDmaRead_quiet (cls : LClass) (queue : Nat) (op : Byte) (s : State) :
    (hostDmaRead cls queue op s).quiet = ({ s with free := s.free + 1 } : State).quiet := log_quiet ..

/-- Settles O48, each event by what it leaves in its head's products. -/
theorem products : Obligations.Products := by
  unfold Obligations.Products
  refine ⟨fun h j jd time counts rest s armed job up staying triggered edges => ?_,
    fun h hd n p s head only open_ awaits queue link posted => ?_, fun h p s only open_ => ?_,
    fun h hd n p a cols s head only open_ host more => ?_⟩
  · intro c0
    have run := execDetectAccept_eq armed job up staying edges triggered
    refine ⟨fun ⟨l, last, near⟩ => ?_, fun hd head last first swap comps waves coat clean undated drawn deaf noPin => ?_⟩
    · rw [run, detect_near triggered ((congrArg Head.lastC0 (State.modHead_head ..)).trans last) near]
    · have head_ := State.modHead_head s h fun x => { x with edges := rest }
      have first' := (congrArg Head.products head_).trans first
      have armed' := (congrArg Head.armed head_).trans armed
      have job' : (s.modHead h fun x => { x with edges := rest }).jobOf h = some jd := by
        rw [State.jobOf, armed']
        rw [State.jobOf, armed] at job
        exact job
      obtain ⟨v, frame, accepts⟩ := acceptDetect_first (c0 := c0) (counts := counts) (time := time) armed' job'
        ((congrArg Head.hdef head_).trans head) first' ((congrArg Head.swap head_).trans swap) ((congrArg Head.compWait head_).trans comps)
        ((congrArg Head.waveWait head_).trans waves) coat clean undated drawn deaf noPin triggered
      rw [run, detect_first ((congrArg Head.lastC0 head_).trans last) first', accepts]
      have here : v.heads[h] = ({ s.heads[h] with edges := rest }.at_ c0).settled := by
        rw [State.outsideStitch_heads frame, State.modHead_head, head_]
      have jobs : v.jobs = s.jobs := (State.outsideStitch_jobs frame :)
      have defined : (s.jobs[j]).jdef = some jd := by
        rw [State.jobOf, armed] at job
        exact job
      have steps : (v.modJob j fun x => { x with jdef := x.jdef.map JobDef.step }).jobs[j] =
          { s.jobs[j] with jdef := some jd.step } := by
        refine (State.modJob_hit v j _).trans ?_
        change { v.jobs[j] with jdef := (v.jobs[j]).jdef.map JobDef.step } = _
        rw [jobs, defined]
        rfl
      have there := State.modHead_head (v.modJob j fun x => { x with jdef := x.jdef.map JobDef.step }) h fun x => (x.at_ c0).starts
        ((v.modHead h fun x => x.at_ c0).firstProduct h j hd jd c0 counts time)
      have none_ : (v.heads[h]).products = [] := (congrArg Head.products here).trans first
      have seq : ((v.modHead h fun x => x.at_ c0).heads[h]).nextSeq = (s.heads[h]).nextSeq := by
        rw [State.modHead_head, here]
        rfl
      refine ⟨_, (v.modHead h fun x => x.at_ c0).firstProduct h j hd jd c0 counts time, rfl, ?_, seq, rfl, rfl, rfl, rfl, rfl, rfl, rfl,
        ?_, ?_, ?_, (congrArg Job.jdef steps :), (congrArg Job.suppressed steps :)⟩
      · rw [there]
        exact congrArg (· ++ _) none_
      · rw [there]
        exact (congrArg (fun x : Head => x.nextSeq + 1) here :)
      · rw [there]
        rfl
      · rw [there]
        exact congrArg Head.edges here
  · intro e kind reserved tail length aligned mine
    refine ⟨_, execPrintQueueEntryArrival_taken head only open_ awaits queue link posted ⟨kind, reserved, tail, length, aligned⟩ mine, ?_⟩
    rw [modProduct_only (s := s.modPq n Pq.next) only, State.modHead_head]
    have pq : (s.modPq n Pq.next).pqs[n] = (s.pqs[n]).next := State.modPq_pq ..
    exact ⟨rfl, (congrArg Pq.rdidx pq :), (congrArg Pq.bad pq :), rfl, rfl⟩
  · have run : exec (.fieldRenderDone h p.seq) s = .next (modProduct h p.seq (fun p => if p.done then p else { p with rendered := true }) s) :=
      rfl
    rw [run, modProduct_only only, open_]
    rfl
  · intro top
    refine ⟨fun link => ?_, ?_⟩
    · rw [execRasterReadCompletion_clean head only open_ host more link, modProduct_only only]
      rfl
    · refine ⟨_, execRasterReadCompletion_failed head only open_ host more, ?_⟩
      have report := hostDmaRead_quiet .lasting n.val 0 s
      have heads : (hostDmaRead .lasting n.val 0 s).heads = s.heads := (State.quiet_heads report :)
      rw [modProduct_only (by rw [heads]; exact only), State.modHead_head]
      exact ⟨rfl, (State.quiet_tiles report :), (State.quiet_pqs report :)⟩

end Sys2Proof.Machine
end

section
/-!
PROOFS. O49 fails: a product whose verdict calls for no reject takes its pin back from the reject outputs before its record is written
(R66, R364), and what that pin then causes in the crossbar may put a ledger record into the same ring first (R241, R326).
-/
namespace Sys2Proof.Machine

open Sys2Proof

/-- A job of head 0 whose reject rule rejects MISSING products on pin 3. -/
def pulsingJob : JobDef :=
  { head := 0, flags := 4, columns := 1, pitch := 1, delay := 0, trigger := 0, encoder := 0, rejectPin := 3, minPitch := 0,
    rejectDist := 0, rejectWidth := 1, coverMin := 0, fields := [], counters := [], template := [], maxRate := 0, used := 0,
    nozzles := 0, bits := 1 }

/-- A product of the job that has ended without a cause; its verdict is GOOD. -/
def goodProduct : Product :=
  { seq := 7, job := 0, jdef := pulsingJob, time := 0, c0 := 0, counts := [], slot := none, stale := false, raster := .awaited,
    rendered := true, merge := false, compens := false, classify := false, faultcls := false, done := true }

/-- A head without nozzles. -/
def bareHead : HeadDef :=
  { selBits := 1, lanes := 1, rate := 0, rows := 1, ports := 0, echoEn := false, echoDelay := 0, latchSetup := 0, latchWidth := 0,
    ckCont := false, listenCode := 0, echoPhase := 0, tLf := 0, neighbours := 0, dInvert := 0, ctlInvert := 0, rowOffsets := [],
    nozzles := [] }

/-- An ACTIVE module in which the pulse of head 0's product waits for its verdict. -/
def awaitsVerdict : State :=
  { (readyToCalibrate.modHead 0 fun x => { x with hdef := some bareHead, products := [goodProduct] }) with
    aon := { readyToCalibrate.aon with rejects := [goodProduct.rejectOf 0] } }

/-- Pin 3 is high while its function changes (IDLE 1, R364) and feeds event line 0 of panel 0. The line restarts the period of tile
0's CMPA (RPER 2), which clears its latch (R159); sink 1 follows CMPA under a grant of an older epoch (R241). -/
def pinStirsStaleGrant (s : State) : State :=
  ((s.modPin 3 fun x => { x with cfg := 0x20000000 }).modTile 0 fun x =>
    { x with dac := 0x8000, cmpA := { x.cmpA with cfg := 0x801, lat := true } }).modPanel 0 fun x =>
      { x with
        pinLine := x.pinLine.set (0 : Fin 32) 3, sinks := (x.sinks.set (0 : Fin 256) 224).set (1 : Fin 256) 0
        sinkLvl := x.sinkLvl.set (1 : Fin 256) true, sinkEpoch := x.sinkEpoch.set (1 : Fin 256) 1 }

/-- One ring takes the verdicts of head 0 and the ledger's entries. -/
def verdictBesideLedger : State :=
  (pinStirsStaleGrant { awaitsVerdict with ledger := { exportMin := 0 } }).modSt 0 fun r =>
    { r with base := 0x1000, isOpen := true, sources := [.verdict 0, .ledger] }

/-- The type of the record at the base of the ring after an instruction. -/
def recordTypeAfter : Result → Option Byte
  | .next u => (u.hostMem.bytes 0x1000 40)[2]?
  | _ => none

set_option maxRecDepth 100000 in
/-- The record of the stale grant comes first. -/
theorem ledgerRecord_beforeVerdict : recordTypeAfter (exec (.verdict 0) verdictBesideLedger) = some 7 := by decide +kernel

/-- Refutes O49: its clause for the verdict's record puts it at WRITE as it was before the event, with no premise on what the freed
reject pin causes. -/
theorem not_verdictsAndEncoders : ¬ Obligations.VerdictsAndEncoders := by
  intro h
  obtain ⟨verdict, -⟩ := h
  obtain ⟨t, run, -, -, -, -, record⟩ := verdict 0 bareHead goodProduct verdictBesideLedger (by decide +kernel) (by decide +kernel) rfl
    (by decide +kernel) (by decide +kernel) (by decide +kernel)
  have placed := record 0 (by decide +kernel) (by decide +kernel) (by decide +kernel) (by decide +kernel) (by decide +kernel)
    (by decide +kernel) (by decide +kernel)
  have first := ledgerRecord_beforeVerdict
  have base : (verdictBesideLedger.sts[(0 : Fin 32)]).base.toNat + (verdictBesideLedger.sts[(0 : Fin 32)]).write.toNat = 0x1000 := by
    decide +kernel
  rw [base] at placed
  rw [run, recordTypeAfter, placed] at first
  exact absurd first (by simp [recHeader, natLe])

end Sys2Proof.Machine
end

section
/-!
PROOFS. O50 fails: the start of a fire restarts the ramps that follow it (R158), and what that causes in the crossbar may ask the same
trowel for its next play (R96, R170) before the event is over.
-/
namespace Sys2Proof.Machine

open Sys2Proof

/-- A column's fire of head 0, latched, its instant FCK count 5,000,000. -/
def columnFireNow : DueFire :=
  { head := 0, seq := 7, col := 0, by_ := .column, nFired := 0, latched := true, listen := none, nominal := some 40000000 }

/-- Tile 0 of an ACTIVE module at that count: an HV trowel (mode 1) with a waveform, whose fire is due. -/
def groupReady : State :=
  ((readyToCalibrate.modHead 0 fun x => { x with hdef := some bareHead }).modPanel 0 fun x =>
    { x with pvhOk := true, pvhOn := true }).modTile 0 fun x =>
      { x with
        waves := x.waves.set (0 : Fin 16) { segs := [⟨10000, 0, 8⟩] }
        trowel := { x.trowel with cfg := 0x200000, due := some columnFireNow } }

/-- A placed chain from PIN_IN to the play input of a TROWEL stage on tile 0, over its event input line 0 (R211). -/
def playChain : Chain :=
  { cdef := some ([⟨kPinIn, false, false, 0, 0, 0, []⟩, ⟨kTrowel, false, false, 0, 0, 0, []⟩], [⟨0, 0, 1, 0, 0, 0, false⟩])
    placement := some { stages := [⟨0, 0, 0⟩, ⟨1, 0, 0⟩], routes := [⟨0, 2, 0, 0⟩] } }

/-- The fire start clears the latch of tile 0's CMPA (RPER 1, LATCH 2); pin event output line 0 of panel 0 follows CMPA; pin 3, a
sink of the line whose function changes under IDLE 1, is sampled, shows 1 and raises event line 0, which is tile 0's input line 0. -/
def fireStirsPlay (s : State) : State :=
  (((({ s with chains := s.chains.set (0 : Fin 256) playChain } : State).modPin 3 fun x =>
    { x with cfg := 0x30000000, hold := true }).modTile 0 fun x =>
      { x with placed := true, dac := 0x4000, cmpA := { x.cmpA with cfg := 0x801, lat := true } }).modPanel 0 fun x =>
        { x with
          pinLine := x.pinLine.set (0 : Fin 32) 3, sinks := (x.sinks.set (0 : Fin 256) 224).set (224 : Fin 256) 0
          sinkLvl := x.sinkLvl.set (224 : Fin 256) true })

/-- The module in which the group fires. -/
def fireAsksForPlay : State := fireStirsPlay groupReady

/-- Whether tile 0's trowel has a play due after an instruction. -/
def playDueAfter : Result → Option Bool
  | .next u => some (u.tiles[(0 : TileId)]).trowel.due.isSome
  | _ => none

set_option maxRecDepth 100000 in
/-- The stage's play is due once the group has fired. -/
theorem fire_leavesPlayDue : playDueAfter (exec (.fire 0) fireAsksForPlay) = some true := by decide +kernel

/-- Refutes O50: its clause for a column's fire leaves the trowel nothing due, with no premise on what the fire start causes. -/
theorem not_strokes : ¬ Obligations.Strokes := by
  intro h
  obtain ⟨-, -, -, fires, -⟩ := h
  obtain ⟨-, plays⟩ := fires 0 columnFireNow bareHead 40000000 fireAsksForPlay (by decide +kernel) rfl (by decide +kernel)
    (by decide +kernel) (by decide +kernel) rfl (by decide +kernel)
  obtain ⟨t, run, -, none_, -⟩ := plays (by decide +kernel) (by decide +kernel) (by decide +kernel) (by decide +kernel) (by decide +kernel)
  have due := fire_leavesPlayDue
  rw [run, playDueAfter] at due
  exact absurd (due.symm.trans (congrArg (fun d : Option DueFire => some d.isSome) none_)) (by decide)

end Sys2Proof.Machine
end

section
/-!
PROOFS. What a module without power holds (R250): every field but the few that are left reads as it does before anything has run.
-/
namespace Sys2Proof.Machine

open Sys2Proof

section
variable {s : State} (h : s.unpowered)
include h

theorem State.unpowered.aon : s.aon = { up := false } := by have q := congrArg State.aon h; exact q
theorem State.unpowered.clk : s.clk = {} := by have q := congrArg State.clk h; exact q
theorem State.unpowered.pwr : s.pwr = { signature := s.pwr.signature } := by have q := congrArg State.pwr h; exact q
theorem State.unpowered.link : s.link = { perst := s.link.perst } := by have q := congrArg State.link h; exact q
theorem State.unpowered.jsb : s.jsb = {} := by have q := congrArg State.jsb h; exact q
theorem State.unpowered.mem : s.mem = {} := by have q := congrArg State.mem h; exact q
theorem State.unpowered.coat : s.coat = none := by have q := congrArg State.coat h; exact q
theorem State.unpowered.moves : s.moves = [] := by have q := congrArg State.moves h; exact q
theorem State.unpowered.readback : s.readback = [] := by have q := congrArg State.readback h; exact q
theorem State.unpowered.dates : s.dates = {} := by have q := congrArg State.dates h; exact q
theorem State.unpowered.cal : s.cal = {} := by have q := congrArg State.cal h; exact q
theorem State.unpowered.bist : s.bist = [] := by have q := congrArg State.bist h; exact q
theorem State.unpowered.syncs : s.syncs = [] := by have q := congrArg State.syncs h; exact q
theorem State.unpowered.tally : s.tally = {} := by have q := congrArg State.tally h; exact q
theorem State.unpowered.gpio : s.gpio = { pins := s.gpio.pins.map fun x => { pad := x.pad } } := by
  have q := congrArg State.gpio h; exact q

theorem State.unpowered.st (n : Fin 32) : s.sts[n] = {} := by
  have q := congrArg (fun u : State => u.sts[n]) h
  exact q.trans (Vector.getElem_replicate ..)
theorem State.unpowered.vector (n : Fin 64) : s.msix[n] = {} := by
  have q := congrArg (fun u : State => u.msix[n]) h
  exact q.trans (Vector.getElem_replicate ..)
theorem State.unpowered.head (n : HeadId) : s.heads[n] = {} := by
  have q := congrArg (fun u : State => u.heads[n]) h
  exact q.trans (Vector.getElem_replicate ..)
theorem State.unpowered.panel (n : PanelId) : s.panels[n] = {} := by
  have q := congrArg (fun u : State => u.panels[n]) h
  exact q.trans (Vector.getElem_replicate ..)
theorem State.unpowered.tile (n : TileId) : s.tiles[n] = {} := by
  have q := congrArg (fun u : State => u.tiles[n]) h
  exact q.trans (Vector.getElem_replicate ..)
theorem State.unpowered.pin (n : PinId) : s.gpio.pins[n] = { pad := (s.gpio.pins[n]).pad } := by
  have q := congrArg (fun g : Gpio => g.pins[n]) h.gpio
  exact q.trans (Vector.getElem_map ..)
theorem State.unpowered.timer (n : Fin 16) : s.gpio.timers[n] = {} := by
  have q := congrArg (fun g : Gpio => g.timers[n]) h.gpio
  exact q.trans (Vector.getElem_replicate ..)

/-! ### What the rest asks of the state -/

theorem State.unpowered.up : s.aon.up = false := by rw [h.aon]
theorem State.unpowered.mode : s.pwr.mode = .booting := by rw [h.pwr]
theorem State.unpowered.pstate (p : PanelId) : s.pstate p = .off := by
  rw [State.pstate, h.pwr]
  exact Vector.getElem_replicate ..
theorem State.unpowered.fastOn : s.fastOn = false := by rw [State.fastOn, h.clk]; rfl
theorem State.unpowered.serving : s.serving = false := by rw [State.serving, h.up, Bool.false_and]
theorem State.unpowered.linkUp : s.linkUp = false := by rw [State.linkUp, h.link]; rfl
theorem State.unpowered.decodes : s.decodes = false := by rw [State.decodes, h.up, Bool.false_and, Bool.false_and]
theorem State.unpowered.tileLive (t : TileId) : s.tileLive t = false := by rw [State.tileLive, h.mode]; rfl
theorem State.unpowered.trowelMode (t : TileId) : s.trowelMode t = 0 := by
  simp only [State.trowelMode, h.tileLive, Bool.not_false, Bool.true_or, if_true]
theorem State.unpowered.runs (d : Desc) : s.runs d = false := by rw [State.runs, h.serving, Bool.false_and, Bool.false_and]
theorem State.unpowered.engineRuns (t : TileId) : s.engineRuns t = false := by simp only [State.engineRuns, h.fastOn, Bool.false_and]
theorem State.unpowered.engineClock (t : TileId) : s.engineClock t = false := by simp only [State.engineClock, h.fastOn, Bool.false_and]
theorem State.unpowered.probed (t : TileId) : s.probed t = false := by simp only [State.probed, h.fastOn, Bool.false_and]
theorem State.unpowered.scrubRuns : s.scrubRuns = false := by rw [State.scrubRuns, h.mode]; rfl
theorem State.unpowered.tallyListens : s.tallyListens = false := by rw [State.tallyListens, h.tally]; rfl
theorem State.unpowered.tallyActive : s.tallyActive = false := by rw [State.tallyActive, h.tallyListens, Bool.false_and]
theorem State.unpowered.change : s.pwr.change = none := by rw [h.pwr]
theorem State.unpowered.arming : s.arming = false := by rw [State.arming, State.stepNow, h.change]; rfl
theorem State.unpowered.armingPanel (p : PanelId) : s.armingPanel p = false := by
  rw [State.armingPanel, h.pstate, h.arming, Bool.false_and]
  rfl
theorem State.unpowered.armingModule : s.armingModule = false := by
  rw [State.armingModule, h.mode, h.arming, Bool.false_and]
  rfl
theorem State.unpowered.railWanted (r : Rail) : s.railWanted r = false := by
  have pvh (p : PanelId) : s.pwr.pvhEn[p] = false := by rw [h.pwr]; exact Vector.getElem_replicate ..
  have vdda : s.pwr.vddaEn = false := by rw [h.pwr]
  have up : Mode.booting.up = false := rfl
  have panels : allPanels.any s.armingPanel = false := List.any_eq_false.mpr fun p _ => by rw [h.armingPanel]; decide
  cases r with
  | vdda => simp only [State.railWanted, vdda, panels, ite_self]
  | pvh p => simp only [State.railWanted, pvh, h.armingPanel, ite_self]
  | hlv => simp only [State.railWanted, h.mode, up, h.armingModule, ite_self, Bool.and_false]
  | _ => rfl
theorem State.unpowered.railStarting (r : Rail) : s.railStarting r = false := by
  rw [State.railStarting, h.railWanted, Bool.false_and, Bool.false_and, Bool.false_and]

/-! ### What a module without power may still lose or gain -/

theorem State.unpowered.withOut (o : List Sent) : ({ s with out := o } : State).unpowered := by
  have q := congrArg (fun u : State => { u with out := o }) h; exact q
theorem State.unpowered.withPending (is : List Instr) : ({ s with pending := is } : State).unpowered := by
  have q := congrArg (fun u : State => { u with pending := is }) h; exact q
theorem State.unpowered.withSignature (on : Bool) : ({ s with pwr := { s.pwr with signature := on } } : State).unpowered := by
  have q := congrArg (fun u : State => { u with pwr := { u.pwr with signature := on } }) h; exact q
theorem State.unpowered.withPad (p : PinId) (level : Option Bool) : (s.modPin p fun x => { x with pad := level }).unpowered := by
  have pins : s.gpio.pins.map (fun x => ({ pad := x.pad } : Pin)) = s.gpio.pins := by
    have q := congrArg Gpio.pins h.gpio; exact q.symm
  have pad : ({ s.gpio.pins[p] with pad := level } : Pin) = { pad := level } := by rw [h.pin]
  have kept : s.gpio.pins.set p { s.gpio.pins[p] with pad := level } =
      (s.gpio.pins.set p { s.gpio.pins[p] with pad := level }).map fun x => { pad := x.pad } := by
    rw [Vector.map_set, pins, pad]
  have q := congrArg (fun u : State => { u with gpio := { pins := s.gpio.pins.set p { s.gpio.pins[p] with pad := level } } }) h
  have moved : (s.modPin p fun x => { x with pad := level }) =
      { s with gpio := { pins := s.gpio.pins.set p { s.gpio.pins[p] with pad := level } } } :=
    congrArg (fun g : Gpio => { s with gpio := { g with pins := s.gpio.pins.set p { s.gpio.pins[p] with pad := level } } }) h.gpio
  rw [moved]
  exact q.trans (congrArg (fun pins : Vector Pin 128 => ({
    aon := { up := false }, sec := s.sec.kept, link := { perst := s.link.perst }, gpio := { pins := pins }
    pwr := { signature := s.pwr.signature }, hostMem := s.hostMem, free := s.free, out := s.out, pending := s.pending } : State)) kept)

end

end Sys2Proof.Machine
end

section
/-!
PROOFS. An unpowered module stays unpowered (O30, R250, R266): what each command meets without link power.
-/
namespace Sys2Proof.Machine

open Sys2Proof

/-! ### Commands whose guard fails, or whose way out is open -/

section
variable {s u : State}

theorem next_of_guard {c : Bool} (fails : c = false) : (.next (if c then u else s) : Result) = .next s :=
  congrArg Host.Outcome.next (if_neg (by rw [fails]; exact Bool.false_ne_true))
theorem next_of_exit {c : Bool} (holds : c = true) : (.next (if c then s else u) : Result) = .next s :=
  congrArg Host.Outcome.next (if_pos holds)

end

section
variable {s : State} (h : s.unpowered)
include h

theorem State.unpowered.stays {i : Instr} (still : exec i s = .next s) : ∀ t, exec i s = .next t → t.unpowered := fun t run => by
  cases still.symm.trans run
  exact h
omit h in
theorem State.unpowered.goesTo {i : Instr} {u : State} (still : exec i s = .next u) (after : u.unpowered) :
    ∀ t, exec i s = .next t → t.unpowered := fun t run => by
  cases still.symm.trans run
  exact after

theorem State.unpowered.undecoded : (!s.decodes) = true := by rw [h.decodes]; rfl
theorem State.unpowered.down : (!s.aon.up) = true := by rw [h.up]; rfl
theorem State.unpowered.cmp (t : TileId) (c : Cmp) : (s.tiles[t]).cmp c = {} := by
  rw [h.tile]
  cases c <;> rfl
theorem State.unpowered.inboxStuck (t : TileId) : s.inboxStuck t = false := by rw [State.inboxStuck, h.tile]
theorem State.unpowered.refDue (p : PanelId) : s.refDue p = false := by
  simp only [State.refDue, h.pstate, PState.live, Bool.false_and]
theorem State.unpowered.conversionAt (t : TileId) : s.conversionAt t = none := by
  simp only [State.conversionAt, h.tileLive, Bool.and_false, Bool.false_and, Bool.false_eq_true, if_false]
theorem State.unpowered.scheduled : s.scheduled = false := by
  have tiles : s.tiles = Vector.replicate 512 {} := by have q := congrArg State.tiles h; exact q
  have unarmed : (s.tiles.toList.any fun x => x.eng.arm.isSome) = false := by
    rw [tiles, Vector.toList_replicate, List.any_replicate]
    rfl
  rw [State.scheduled, h.syncs, unarmed, h.coat]
  rfl

/-! ### Commands that put a field back to what it is -/

theorem endpointReset_unpowered : endpointReset s = s := by
  have q := congrArg endpointReset h; exact q.trans h.symm
theorem linkDown_unpowered : exec .linkDown s = .next s := by
  have q := congrArg (fun u : State => { u with link := { u.link with speed := 0, width := 0, inL1 := false } }) h
  exact congrArg Host.Outcome.next (q.trans h.symm)
theorem memCodePrimeDone_unpowered : exec .memCodePrimeDone s = .next s := by
  have q := congrArg (fun u : State => { u with mem := { u.mem with memBusy := false } }) h
  exact congrArg Host.Outcome.next (q.trans h.symm)
theorem dateSlotApply_unpowered : exec .dateSlotApply s = .next s := by
  have q := congrArg (fun u : State => { u with dates := { u.dates with wait := [] } }) h
  have none_ : s.dates.wait = [] := by rw [h.dates]
  change execDateSlotApply s = _
  rw [execDateSlotApply, none_]
  exact congrArg Host.Outcome.next (q.trans h.symm)
theorem fieldRenderDone_unpowered (n : HeadId) (seq : Word) : exec (.fieldRenderDone n seq) s = .next s :=
  congrArg Host.Outcome.next (State.modHead_of_fixed (by rw [h.head]; rfl))
theorem dustSheetRelease_unpowered : exec .dustSheetRelease s = .next s := by
  have sheets : (allTiles.filter fun t => (s.tiles[t]).sheet && !(s.tiles[t]).inReset &&
      decide ((s.tiles[t]).sheetAt + 2 ≤ s.aon.fck)) = [] :=
    List.filter_eq_nil_iff.mpr fun t _ => by rw [h.tile]; exact Bool.false_ne_true
  have sinks (p : PanelId) (k : Fin 256) : (s.panels[p]).sinks[k] = 256 := by
    rw [h.panel]
    exact Vector.getElem_replicate ..
  have cut : (allPanels.flatMap fun p => ((List.finRange 256).filter fun k =>
      (s.panels[p]).sinks[k] < 256 && s.sheeted ⟨p, (s.panels[p]).sinks[k], true⟩ k).map fun k => (p, k)) = [] :=
    List.flatMap_eq_nil_iff.mpr fun p _ => List.map_eq_nil_iff.mpr (List.filter_eq_nil_iff.mpr fun k _ => by
      rw [sinks]
      exact Bool.false_ne_true)
  change execDustSheetRelease s = _
  unfold execDustSheetRelease
  dsimp only
  rw [sheets, cut]
  rfl

/-! ### Commands that show in what is left -/

theorem systimeLoRead_unpowered : exec .systimeLoRead s = .next (s.send (.read 0xFFFFFFFF#32)) := by
  change execSystimeLoRead s = _
  rw [execSystimeLoRead, h.decodes, Bool.not_false, if_pos (by simp)]
theorem registerWrite_unpowered (off : BitVec 16) (v : Word) (size : Nat) : exec (.registerWrite off v size) s = .next s := by
  change execRegisterWrite off v size s = _
  unfold execRegisterWrite
  split
  · split
    · rw [hostWriteReg, hostReg, if_pos h.undecoded]
    · rfl
  · rfl
theorem sharedMemoryAccess_unpowered (off : BitVec 28) (len : Nat) (data : Option (List Byte)) :
    ∃ o, exec (.sharedMemoryAccess off len data) s = .next { s with out := o } := by
  change ∃ o, execSharedMemoryAccess off len data s = _
  unfold execSharedMemoryAccess
  simp only [h.decodes, Bool.and_false, Bool.false_and, Bool.false_eq_true, if_false]
  cases data with
  | none => exact ⟨_, rfl⟩
  | some bs => exact ⟨s.out, rfl⟩
theorem linkDetection_unpowered (mv : Nat) :
    ∃ on, exec (.linkDetection mv) s = .next { s with pwr := { s.pwr with signature := on } } := by
  change ∃ on, execLinkDetection mv s = _
  rw [execLinkDetection, h.up]
  exact ⟨_, rfl⟩
theorem pinEdge_unpowered (p : PinId) (level : Option Bool) :
    exec (.pinEdge p level) s = .next (s.modPin p fun x => { x with pad := level }) := by
  have down : (s.modPin p fun x => { x with pad := level }).aon.up = false := h.up
  change execPinEdge p level s = _
  simp only [execPinEdge, down, Bool.false_eq_true, if_false]

/-! ### Every command -/

/-- One arm for each guard: no command but a LINK_POWER_UP of at least 41 V gives the module power. -/
theorem exec_unpowered {i : Instr} (low : ∀ mv, i = .linkPowerUp mv → mv < 41000) : ∀ t, exec i s = .next t → t.unpowered := by
  cases i with
  | nop | setPowerState | grantPower | queryStatus | loadImage | loadImageFromStore | storeWrite | storeRead | defineChain |
    placeChain | applyPlacement | releaseChain | stageCoat | commitCoat | fenceTile | readmitTile | reserveSpares | loadProgram
    | startEngine | stopEngine | engineMessage | loadWaveform | defineHead | defineJob | loadGlyphs | setDateSlots | armJob |
    swapJob | disarm | setCounter | spit | setNozzleStatus | readNozzleMap | listenSweep | setCompensation | calibrate |
    readCalSet | writeCalSet | applyCal | openStream | closeStream | syncDecimators | runBist | scrubRange | readLedger |
    retirePage | fieldRepair | setFunctionMode | tallyConfig | tallySend => exact h.stays (next_of_guard (h.runs _))
  | add | sub | and | or | xor | shl | shr | sar | cmp | addi | andi | ori | shli | shri | sari | cmpi | lui | mul | mulh | mac
    | msu | wracc | rdacc | ldw | ldh | ldbu | stw | sth | stb | b | bl | jalr | loop | loopi | wait | trig | arm | capt | adcp
    | adcpn | dacs | cmpset | cmpclr | send | recv | recvn | sleep | halt | fence | reti | mfs | mts => exact h.stays (next_of_guard (h.engineRuns _))
  | cqEnable | cqStop | pqEnable | pqStop | leaveDormant | secLcAdvWrite | secKeyCmdWrite | pinLockWrite | memFlipArm |
    memCodeWrite | tripClear | comparatorStuckClear | pinStuckClear | gpioOutWrite | scrubCtrlWrite | encCountWrite |
    adcEnableWrite | ilvWrite | decWrite | refSelectWrite | comparatorEnableWrite | vsetWrite | pvhEnWrite | hlvCtrlWrite |
    evEnableWrite => exact h.stays (next_of_exit h.undecoded)
  | cqTailDoorbell | cpHeadDoorbell | stConsumedDoorbell | pqTailDoorbell | msixUnmask =>
    exact h.stays (next_of_guard (by rw [h.decodes]; rfl))
  | jsbPerst | jsbLimit | jsbWake | jsbModuleReset | jsbPoll | jsbNak | jsbCrcError | sckTick | powerWindow | encoderTransition
    | comparatorEdge | configSpaceWrite => exact h.stays (next_of_exit h.down)
  | d3hotEntry => exact h.stays (next_of_guard h.up)
  | linkPowerLoss | moduleReset | bootImageLoad | ptmDialogue | wakeTimerExpiry | dateLow | rejectPulseEnd | linkTrained =>
    exact h.stays (next_of_guard (by rw [h.up]; rfl))
  | badOpcodeDescriptor => exact h.stays (next_of_guard (by rw [h.runs]; rfl))
  | descriptorFetch => exact h.stays (next_of_guard (by rw [h.serving]; rfl))
  | engineStallResume | waitTimeout | armAction => exact h.stays (next_of_guard (h.engineClock _))
  | engineInterrupt => exact h.stays (next_of_guard (by rw [h.engineRuns, h.engineClock]; rfl))
  | messageDelivery => exact h.stays (next_of_guard h.fastOn)
  | timerChannelExpiry | chopPeriodStart | fabricOutputEdge =>
    exact h.stays (next_of_guard (by simp only [State.sliceRuns, h.fastOn, Bool.false_and]))
  | syncEdge => exact h.stays (next_of_exit (by rw [h.fastOn]; rfl))
  | scrubBurst | scrubStarvationGrant => exact h.stays (next_of_guard (by rw [h.scrubRuns]; rfl))
  | inboxFullTimeout => exact h.stays (next_of_guard (h.inboxStuck _))
  | heartbeatProbe => exact h.stays (next_of_guard (by rw [State.probeDue, h.probed]; rfl))
  | heartbeatTimeout => exact h.stays (next_of_guard (h.probed _))
  | scheduledWake => exact h.stays (next_of_guard h.scheduled)
  | refokSettle => exact h.stays (next_of_guard (h.refDue _))
  | refMeasure => exact h.stays (next_of_guard (by rw [h.pstate]; rfl))
  | railGood => exact h.stays (next_of_guard (by rw [h.railStarting]; rfl))
  | railStartTimeout => exact h.stays (next_of_exit (by rw [h.railStarting]; rfl))
  | tempInterpolation => exact h.stays (next_of_exit (by rw [h.serving]; rfl))
  | fastClockStop => exact h.stays (next_of_guard (by rw [h.mode]; rfl))
  | dormantPowerDown | hlvLimitTimeout | hrstRelease => exact h.stays (next_of_guard (by rw [h.pwr]; rfl))
  | linkL1Entry => exact h.stays (next_of_guard (by rw [h.link]; rfl))
  | tallyNomasterTimeout => exact h.stays (next_of_guard (by rw [h.tallyListens]; rfl))
  | tallyFrameError => exact h.stays (next_of_guard h.tallyListens)
  | sync | hold | absent | stitch | roll => exact h.stays (next_of_exit (by rw [h.tallyListens]; rfl))
  | msixGapEnd => exact h.stays (next_of_guard (by rw [h.vector]; rfl))
  | mirrorWrite => exact h.stays (next_of_guard (by rw [State.mirrorReady, h.st]; rfl))
  | perst | hotReset => exact h.stays (congrArg Host.Outcome.next (endpointReset_unpowered h))
  | linkDown => exact h.stays (linkDown_unpowered h)
  | memCodePrimeDone => exact h.stays (memCodePrimeDone_unpowered h)
  | dateSlotApply => exact h.stays (dateSlotApply_unpowered h)
  | fieldRenderDone n seq => exact h.stays (fieldRenderDone_unpowered h n seq)
  | dustSheetRelease => exact h.stays (dustSheetRelease_unpowered h)
  | registerWrite off v size => exact h.stays (registerWrite_unpowered h off v size)
  | systimeLoRead => exact State.unpowered.goesTo (systimeLoRead_unpowered h) (h.withOut _)
  | sharedMemoryAccess off len data =>
    obtain ⟨o, run⟩ := sharedMemoryAccess_unpowered h off len data
    exact State.unpowered.goesTo run (h.withOut o)
  | linkDetection mv =>
    obtain ⟨on, run⟩ := linkDetection_unpowered h mv
    exact State.unpowered.goesTo run (h.withSignature on)
  | pinEdge p level => exact State.unpowered.goesTo (pinEdge_unpowered h p level) (h.withPad p level)
  | linkPowerUp mv =>
    have volts := low mv rfl
    exact h.stays (next_of_guard (by rw [decide_eq_false (by omega), Bool.and_false]))
  | inrushEnd =>
    have early : ¬ usFck 20000 ≤ s.aon.fck := by rw [h.aon]; decide
    exact h.stays (congrArg Host.Outcome.next (if_neg early))
  | qckUsable =>
    have stopped : ¬ (s.clk.fast = .starting ∧ s.clk.qckAt ≤ s.aon.fck) := by rw [h.clk]; simp
    exact h.stays (congrArg Host.Outcome.next (if_neg stopped))
  | pllLockTimeout =>
    have early : s.aon.fck < s.clk.pllAt + usFck 50 := by rw [h.aon, h.clk]; decide
    exact h.stays (congrArg Host.Outcome.next (if_pos early))
  | faultHoldTrip cause measured => exact h.stays (congrArg Host.Outcome.next (if_pos (Or.inr (Or.inr h.down))))
  | faultHoldClear =>
    have other : ¬ (s.pwr.mode = .faultHold ∧ s.pwr.tripAt + 64 ≤ s.aon.ticks) := by rw [h.mode]; simp
    exact h.stays (congrArg Host.Outcome.next (if_neg other))
  | changeover =>
    have stopped : changeover s = s := by rw [changeover, h.clk]; rfl
    exact h.stays (congrArg Host.Outcome.next ((congrArg (fun u => if s.generating then s else u) stopped).trans (ite_self s)))
  | jsbCollisionRetry => exact h.stays (show execJsbCollisionRetry s = _ by rw [execJsbCollisionRetry, h.jsb])
  | pllLock => exact h.stays (show execPllLock s = _ by rw [execPllLock, h.clk])
  | tileReplacement t => exact h.stays (show execTileReplacement t s = _ by rw [execTileReplacement, h.moves]; rfl)
  | placementReadyCommit => exact h.stays (show execPlacementReadyCommit s = _ by rw [execPlacementReadyCommit, h.coat])
  | coatCommit => exact h.stays (show execCoatCommit s = _ by rw [execCoatCommit, h.coat])
  | coatMaxWaitExpiry => exact h.stays (show execCoatMaxWaitExpiry s = _ by rw [execCoatMaxWaitExpiry, h.coat])
  | coatReadback => exact h.stays (next_of_guard (by rw [h.readback]; rfl))
  | powerStepComplete => exact h.stays (show execPowerStepComplete s = _ by rw [execPowerStepComplete, h.change])
  | detectAccept n => exact h.stays (show execDetectAccept n s = _ by rw [execDetectAccept, h.head])
  | printQueueEntryArrival n => exact h.stays (show execPrintQueueEntryArrival n s = _ by rw [execPrintQueueEntryArrival, h.head])
  | columnStrokeBoundary n => exact h.stays (show execColumnStrokeBoundary n s = _ by rw [execColumnStrokeBoundary, h.head])
  | spitListenSlot n => exact h.stays (show execSpitListenSlot n s = _ by rw [execSpitListenSlot, h.head])
  | spitFire n => exact h.stays (show execSpitFire n s = _ by rw [execSpitFire, h.head])
  | phaseTrackSearch n l k => exact h.stays (show execPhaseTrackSearch n l k s = _ by rw [execPhaseTrackSearch, h.head])
  | verdict n => exact h.stays (show execVerdict n s = _ by rw [execVerdict, h.head])
  | rasterReadCompletion n r => exact h.stays (show execRasterReadCompletion n r s = _ by unfold execRasterReadCompletion; rw [h.head])
  | rejectPulseStart n q => exact h.stays (show execRejectPulseStart n q s = _ by rw [execRejectPulseStart, h.aon]; rfl)
  | selectFrameLatch p ec => exact h.stays (show execSelectFrameLatch p ec s = _ by rw [execSelectFrameLatch, h.panel])
  | panelLinkReplay p lane replay =>
    exact h.stays (show execPanelLinkReplay p lane replay s = _ by
      simp only [execPanelLinkReplay, h.pstate, decide_true, Bool.true_or, if_true])
  | fire t => exact h.stays (show execFire t s = _ by rw [execFire, h.tile])
  | waveformEnd t q => exact h.stays (show execWaveformEnd t q s = _ by rw [execWaveformEnd, h.tile])
  | listenStart t => exact h.stays (show execListenStart t s = _ by rw [execListenStart, h.tile])
  | listenWindowClose t l => exact h.stays (show execListenWindowClose t l s = _ by rw [execListenWindowClose, h.tile])
  | classifyResult t => exact h.stays (show execClassifyResult t s = _ by rw [execClassifyResult, h.tile])
  | streamRecordClose t => exact h.stays (show execStreamRecordClose t s = _ by rw [execStreamRecordClose, h.tile])
  | engineMessageTimeout t => exact h.stays (show execEngineMessageTimeout t s = _ by rw [execEngineMessageTimeout, h.tile])
  | trowelTrip t => exact h.stays (show execTrowelTrip t s = _ by simp [execTrowelTrip, h.trowelMode])
  | trowelIdleReached t => exact h.stays (show execTrowelIdleReached t s = _ by rw [execTrowelIdleReached, h.tile]; rfl)
  | foldBackEntry t c => exact h.stays (show execFoldBackEntry t c s = _ by simp [execFoldBackEntry, h.tileLive])
  | foldBackExit t c => exact h.stays (show execFoldBackExit t c s = _ by rw [execFoldBackExit, h.tile]; simp)
  | buddyTakeoverStart t => exact h.stays (show execBuddyTakeoverStart t s = _ by rw [execBuddyTakeoverStart, h.tile]; simp)
  | buddyTakeoverEnd t => exact h.stays (show execBuddyTakeoverEnd t s = _ by rw [execBuddyTakeoverEnd, h.tile]; simp)
  | adcConversion t v => exact h.stays (show execAdcConversion t v s = _ by rw [execAdcConversion, h.conversionAt])
  | comparatorMinwAccept t c => exact h.stays (show execComparatorMinwAccept t c s = _ by rw [execComparatorMinwAccept, h.cmp])
  | comparatorMinGapEnd t c => exact h.stays (show execComparatorMinGapEnd t c s = _ by rw [execComparatorMinGapEnd, h.cmp])
  | comparatorMaxactExpiry t c => exact h.stays (show execComparatorMaxactExpiry t c s = _ by rw [execComparatorMaxactExpiry, h.cmp])
  | stuckResumeWindowEnd u =>
    cases u with
    | cmp t c => exact h.stays (show execStuckResumeWindowEnd (.cmp t c) s = _ by simp only [execStuckResumeWindowEnd, h.cmp])
    | pin p => exact h.stays (show execStuckResumeWindowEnd (.pin p) s = _ by rw [execStuckResumeWindowEnd, h.pin])
  | pinMinwAccept p => exact h.stays (show execPinMinwAccept p s = _ by rw [execPinMinwAccept, h.pin])
  | pinMinGapEnd p => exact h.stays (show execPinMinGapEnd p s = _ by rw [execPinMinGapEnd, h.pin])
  | pinMaxactExpiry p => exact h.stays (show execPinMaxactExpiry p s = _ by rw [execPinMaxactExpiry, h.pin])
  | pinFunctionHoldEnd p => exact h.stays (next_of_guard (by rw [State.holdOver, h.pin]; rfl))
  | streamInterruptTimeout n => exact h.stays (show execStreamInterruptTimeout n s = _ by rw [execStreamInterruptTimeout, h.st])
  | calibrationMeasurement a b => exact h.stays (show execCalibrationMeasurement a b s = _ by rw [execCalibrationMeasurement, h.cal])
  | bistSlice t r m => exact h.stays (show execBistSlice t r m s = _ by rw [execBistSlice, h.bist]; rfl)
  | tallyRollCall a r => exact h.stays (next_of_exit (by rw [h.tally]; rfl))
  | tallyFrameRetry => exact h.stays (show execTallyFrameRetry s = _ by rw [execTallyFrameRetry, h.tally])
  | tallyFrameAck => exact h.stays (show execTallyFrameAck s = _ by rw [execTallyFrameAck, h.tally])

/-! ### A cycle (R266) -/

theorem tick_unpowered : tick s = s := by
  have waits : s.cal.waits.isEmpty = true := by rw [h.cal]; rfl
  have stopped : ¬ s.clk.fast = .starting := by rw [h.clk]; decide
  unfold tick
  simp only [waits, if_true, h.fastOn, Bool.false_eq_true, if_false, stopped]

end

/-- Settles O30, command by command. -/
theorem unpoweredStays : Obligations.UnpoweredStays := by
  intro s t h low run
  unfold step at run
  cases front : s.pending with
  | nil =>
    rw [front] at run
    cases run
    rw [tick_unpowered h]
    exact h
  | cons i rest =>
    rw [front] at run
    refine exec_unpowered (h.withPending rest) (fun mv power => low mv ?_) t run
    rw [front, power]
    rfl

end Sys2Proof.Machine
end
